-- ==== Sys2Proof/Word.lean ====
section
/-! DEFINITION. Word types and the sparse-map type every indexed collection of the package is kept in.
The operations on sparse maps are in Machine/Ops.lean. -/

namespace Sys2Proof

/-- One byte (R8: multi-byte fields are little-endian). -/
abbrev Byte := BitVec 8

/-- A 64-bit register or stream word. -/
abbrev W64 := BitVec 64

/-- A 64-byte line, given as its bytes from the lowest address up (R253: the coherence unit). -/
abbrev LineData := List Byte

/-- A collection indexed by natural numbers: pairs with strictly rising keys, no entry equal to what an unlisted key
reads as. Equal collections are therefore equal lists. -/
abbrev SMap (α : Type) := List (Nat × α)

/-- Bytes indexed by address, in the same form; an unlisted byte reads zero. The pairs are `Host.Cell`s. -/
abbrev ByteMap := List (Nat × BitVec 8)

end Sys2Proof
end

