-- ==== Sys2Proof/Syntax.lean ====
section
/-! DEFINITION. The commands of the package: one constructor of `Instr` per row of the spec's table of operations and
events, with the operands the row's rule names. What a command does is in Machine/. -/

namespace Sys2Proof

/-- A compute die C0-C7 (R10). -/
abbrev Die := Fin 8
/-- A context, 0-4,095 (R172). -/
abbrev CtxId := BitVec 12
/-- A hart ID, 72 m + k (R272). -/
abbrev HartId := BitVec 8
/-- An eyelet E0-E31 (R10). -/
abbrev EyeId := BitVec 5
/-- A package ID, 0-8,191 (R298). -/
abbrev PkgId := BitVec 13
/-- An ingest queue, 0-255 (R341). -/
abbrev QueueId := BitVec 8

/-- The fields of LDS and STS (R113). -/
structure ScalarMem where
  sv : BitVec 4
  idx : Bool
  xsv : BitVec 4
  token : BitVec 13
  offset : BitVec 24
  deriving DecidableEq, Repr

/-- The fields of a Churn slot in memory layout (R130). -/
structure ChurnMem where
  ty : BitVec 4
  vr : BitVec 5
  desc : BitVec 12
  token : BitVec 13
  msk : BitVec 3
  men : Bool
  deriving DecidableEq, Repr

/-- The fields of a Churn slot in register layout (R129). -/
structure ChurnReg where
  ty : BitVec 4
  vd : BitVec 5
  va : BitVec 5
  vb : BitVec 5
  vc : BitVec 5
  msk : BitVec 3
  men : Bool
  za : Bool
  zb : Bool
  zc : Bool
  sat : Bool
  rm : BitVec 2
  svb : Bool
  imm : BitVec 16
  deriving DecidableEq, Repr

/-- The fields of a mover slot (R110). -/
structure MoverArgs where
  desc : BitVec 12
  idx : Bool
  xsv : BitVec 4
  crit : Bool
  deriving DecidableEq, Repr

/-- An atomic operation (R261). -/
inductive AmoKind where
  | swap | add | xor | and | or | min | max | minu | maxu
  | cas (expected : BitVec 64)
  deriving DecidableEq, Repr

/-- An atomic on 4 or 8 bytes at an offset within its line (R261). -/
structure AtomicOp where
  kind : AmoKind
  double : Bool
  operand : BitVec 64
  offset : BitVec 6
  deriving DecidableEq, Repr

inductive PcieId where
  | portA | portB
  deriving DecidableEq, Repr

/-- Who makes an access to the unified range (R153, R253). -/
inductive Agent where
  | hart (h : HartId)
  | io
  | pail
  | engine (d : Die)
  /-- A PCIe function behind a root port, by its requester ID (R213, R338); its address is an I/O virtual address. -/
  | func (port : PcieId) (rid : BitVec 16)
  deriving DecidableEq, Repr

inductive AccessKind where
  | load (n : Nat)
  | store (bytes : List Byte)
  | amo (op : AtomicOp)
  deriving DecidableEq, Repr

/-- What a controller's read of a line found (R327, R328). -/
inductive ScrubResult where
  | clean | corrected | uncorrectable
  deriving DecidableEq, Repr

/-- What an access finds in its first line: no error; one in the line's data where it is read, corrected or not (R265, R327, R329); or an
uncorrectable one in its directory entry, or in the tag or state of a copy in M, O or E (R264). -/
inductive LineError where
  | clean | corrected | uncorrectable | directory
  deriving DecidableEq, Repr

/-- The effective Svpbmt type of the page a hart's access goes through (R232, R233). -/
inductive PageType where
  | pma | nc | io
  deriving DecidableEq, Repr

/-- The privilege level a hart runs at (R279). -/
inductive Priv where
  | m | hs | u | vs | vu
  deriving DecidableEq, Repr

/-- An access to a physical address (R9, R151) and what it finds; of a hart's access, the type of its page, its privilege level and whether
it is an instruction fetch, a load that fills the L1 instruction cache (R275, R279). -/
structure Access where
  who : Agent
  addr : BitVec 64
  kind : AccessKind
  ecc : LineError := .clean
  page : PageType := .pma
  priv : Priv := .m
  fetch : Bool := false
  deriving DecidableEq, Repr

/-- What a core's access to one of its control and status registers does: it reads it, or reads it and writes, sets or clears bits. -/
inductive CsrOp where
  | read | write | set | clear
  deriving DecidableEq, Repr

/-- Where a register is: at an address (R9), or inside a hart (R273, R274): a control and status register accessed at a privilege level, an
integer register, a floating-point register, a 64-bit part of a vector register, or a register of the Q extension. -/
inductive RegPlace where
  | at (addr : BitVec 64)
  | csr (h : HartId) (priv : Priv) (num : BitVec 12) (op : CsrOp)
  | x (h : HartId) (n : BitVec 5)
  | f (h : HartId) (n : BitVec 5)
  | v (h : HartId) (n : BitVec 5) (part : BitVec 3)
  | q (h : HartId) (n : BitVec 5)
  deriving DecidableEq, Repr

/-- A call of the package's SBI firmware by a hart (R290): extension and function, the arguments a0 to a4, and the bytes that wait at the
console's input. -/
structure SbiArgs where
  caller : HartId
  eid : BitVec 64
  fid : BitVec 64
  a0 : BitVec 64 := 0
  a1 : BitVec 64 := 0
  a2 : BitVec 64 := 0
  a3 : BitVec 64 := 0
  a4 : BitVec 64 := 0
  input : List Byte := []
  deriving DecidableEq, Repr

/-- hart_get_status of a hart, or another call of the SBI that has no row of its own (R290). -/
inductive SbiCall where
  | status (h : BitVec 64)
  | call (a : SbiArgs)
  deriving DecidableEq, Repr

/-- Response code of ATS.PRGR (R221). -/
inductive PrgrCode where
  | success | invalidRequest | responseFailure
  deriving DecidableEq, Repr

/-- Operands of IOTINVAL.VMA (R226). -/
structure InvalArgs where
  gv : Bool
  pscv : Bool
  av : Bool
  gscid : BitVec 16
  pscid : BitVec 20
  addr : BitVec 64
  deriving DecidableEq, Repr

/-- Operands of IOFENCE.C (R225, R227). -/
structure FenceArgs where
  av : Bool
  wsi : Bool
  pr : Bool
  pw : Bool
  addr : BitVec 64
  data : BitVec 32
  deriving DecidableEq, Repr

/-- Which compare register of a hart time has reached (R277). -/
inductive TimerKind where
  | machine | supervisor | virtual
  deriving DecidableEq, Repr

/-- A CBQRI allocation request (R287). `ctrl`: 0-1 L3 of P0-P1; 2-9 home cache of C0-C7; 10-11 home cache of P0-P1;
12-27 HBM H0-H15; 28-43 DRAM D0-D15. A capacity request gives the ways as a mask in `blocks`, a bandwidth request the
reserved blocks as a number; `code` selects the code access type where the controller has one. -/
structure CbqriArgs where
  ctrl : Nat
  rcid : BitVec 12
  code : Bool
  blocks : BitVec 64
  weight : BitVec 8
  deriving DecidableEq, Repr

/-- A lace or membership packet after decryption (R298); the row gives its TYPE. -/
structure Packet where
  dst : PkgId
  src : PkgId
  vc1 : Bool
  memb : Bool
  epoch : BitVec 32
  lseq : BitVec 32
  nonce : BitVec 64
  aux : BitVec 8
  tag : BitVec 16
  cmd : BitVec 32
  oper : BitVec 64
  data : List Byte
  mac : List Byte
  deriving DecidableEq, Repr

inductive MailboxId where
  | bar0 | mirror
  deriving DecidableEq, Repr

/-- A path to the dictionary (R395); frames on the field port come from a source address (R406). -/
inductive DictPath where
  | field (src : Nat)
  | bar0
  | mirror
  deriving DecidableEq, Repr

/-- A write to one dictionary object, made in a session of a path (R396, R406). -/
structure ObjReq where
  path : DictPath
  sess : BitVec 32
  deriving DecidableEq, Repr

/-- The two SPDM responders (R377). -/
inductive SpdmPort where
  | doe | field
  deriving DecidableEq, Repr

/-- A key-delivery request (R381); the row gives OP. `reserved` is true when a byte that R381 makes zero is not. -/
structure KeyReq where
  port : SpdmPort
  sess : Nat
  slot : BitVec 16
  ctx : BitVec 16
  key : List Byte
  reserved : Bool
  deriving DecidableEq, Repr

/-- What the power manager measures over one 2 us interval (R352, R357): the input meter, the input voltage, the measured
rail voltages per site (mV) and the handshake counts per (site, class). -/
structure PowerMeter where
  meterMw : Nat
  vinMv : Nat
  meas : List (Nat × Nat)
  counts : List (Nat × Nat × Nat)
  deriving DecidableEq, Repr

/-- A rail of R353. Logic and memory rails are named by site index 0-9, stack rails by stack. -/
inductive RailId where
  | logic (site : Nat)
  | memory (site : Nat)
  | stack (k : Nat)
  deriving DecidableEq, Repr

/-- Kinds of DRAM module (R322). -/
inductive ModuleKind where
  | mrdimm | rdimm | udimm | lrdimm | stacked3ds
  deriving DecidableEq, Repr

/-- What stands on a DRAM channel, as the SPD describes it (R322): how many DIMMs of a kind, their ranks, whether they are ECC modules and of x4
devices, the capacity in GiB, the device density in Gb, and the data rates supported in MT/s. -/
structure Module where
  kind : ModuleKind
  dimms : Nat
  ranks : Nat
  ecc : Bool
  x4 : Bool
  gib : Nat
  densityGb : Nat
  rates : List Nat
  deriving DecidableEq, Repr

/-- Failing lanes of a stack's pseudo-channel, 0 to 63, as training finds them (R320, R321): data lanes and command/address lanes. -/
structure BadLanes where
  stack : Nat
  pseudo : Nat
  dataLanes : Nat
  caLanes : Nat
  deriving DecidableEq, Repr

/-- What the board and the parts present to a cold start: the modules in D0-D15, the units (0-15 stacks, 16-31 channels, 32-63 eyelets)
that fail training (R319, R321, R324), the failing lanes of the stacks' pseudo-channels, a shorted base rail (R355), PWRGOOD_IN, VBAT in mV and
whether it fell below 2.0 V while the input was absent (R431), the store records found torn, the NOR devices that fail to read, the records of
each area found on one device only (R424), and the step of 6 to 10 that overruns its bound by more than 1 s, 0 when none does (R416),
and the NOR devices that fail to program once the start has run (R424). -/
structure Board where
  modules : List (Nat × Module)
  trainFail : List Nat
  badLanes : List BadLanes
  baseShort : Bool
  pwrgood : Bool
  vbatMv : Nat
  clockLost : Bool
  tornRecords : Nat
  norFail : List Nat := []
  oneSided : List (Nat × Nat) := []
  slowStep : Nat := 0
  progFail : List Nat := []
  deriving DecidableEq, Repr

/-- Accesses of the IEEE 1149.1 test port (R391). -/
inductive TestInstr where
  | bypass | idcode | samplePreload | extest | clamp | highz | riscvDebug | privateInstr
  deriving DecidableEq, Repr

/-- Who sends a request to a home: its site (0-9 the dies, 10 IO) and, of a processor die, the core the request is for; 0 elsewhere (R253, R256, R275). -/
structure ReqSrc where
  site : Nat
  core : BitVec 7 := 0
  deriving DecidableEq, Repr

/-- The commands. -/
inductive Instr where
  /-- BUNDLE_ISSUE (R91). The sequencer issues the next bundle at its logical step and starts the actions of its present slots in slot order. -/
  | bundleIssue (d : Die)
  /-- STREAM_FETCH_AHEAD (R120). The sequencer fetches stream words ahead of issue into its stream buffer, filling the IOTLB without posting faults. -/
  | streamFetchAhead (d : Die) (n : Nat)
  /-- NOP (R113). The control slot does nothing. -/
  | nop (d : Die)
  /-- BR (R114). After the rest of the bundle, issue continues at TARGET and words fetched ahead are discarded. -/
  | br (d : Die) (target : BitVec 24)
  /-- LOOP (R114). Decrements LCn and branches to TARGET when the result is not zero. -/
  | loopOp (d : Die) (lc : BitVec 3) (target : BitVec 24)
  /-- SETLC (R114). Sets loop counter LCn to the immediate. -/
  | setlc (d : Die) (lc : BitVec 3) (imm : BitVec 32)
  /-- BRC (R114). Compares a scalar register with the sign-extended immediate under COND and branches to TARGET when it holds. -/
  | brc (d : Die) (sv : BitVec 4) (cond : BitVec 3) (imm : BitVec 16) (target : BitVec 24)
  /-- SETSV (R114). Sets a scalar register to the sign-extended immediate. -/
  | setsv (d : Die) (sv : BitVec 4) (imm : BitVec 32)
  /-- ADDSV (R114). Adds the sign-extended immediate to a scalar register modulo 2^64. -/
  | addsv (d : Die) (sv : BitVec 4) (imm : BitVec 32)
  /-- LDS (R114). Loads 8 bytes from a token's pan region into a scalar register, faulting with 0x0604 when an indexed offset leaves the region. -/
  | lds (d : Die) (a : ScalarMem)
  /-- STS (R114). Stores a scalar register as 8 bytes into a token's pan region, faulting with 0x0604 when an indexed offset leaves the region. -/
  | sts (d : Die) (a : ScalarMem)
  /-- WAIT (R105). Blocks issue of later bundles until the token's count reaches the given value. -/
  | wait (d : Die) (token : BitVec 13) (count : BitVec 32)
  /-- WAIT_COMPLETE (R105). A WAIT's token count reaches its value; the WAIT completes, returns a LENT token with L at most n to LOCAL and admitted remote COPYs take effect. -/
  | waitComplete (d : Die)
  /-- WAIT_TIMEOUT (R125). A WAIT outlasts WAIT_LIMIT; 0x0608 is posted and the command is killed as a fault. -/
  | waitTimeout (d : Die)
  /-- SIGNAL (R104). Adds INC to a token count of the target rank after earlier remote COPYs or accesses to that token are applied. -/
  | signal (d : Die) (rank : BitVec 4) (token : BitVec 13) (inc : BitVec 16)
  /-- REMOTE_SIGNAL_RECEIVED (R104). A SIGNAL from a gang die arrives and adds its increment to the token count. -/
  | remoteSignalReceived (d : Die)
  /-- LEND (R105). After earlier accesses to the token complete, sets the token LENT with limit L so that remote COPYs may be admitted. -/
  | lend (d : Die) (token : BitVec 13) (limit : BitVec 32)
  /-- REMOTE_COPY_RECEIVED (R106). A remote COPY arrives and is applied only when its token is LENT with L above SEQ and the count equals SEQ, otherwise held. -/
  | remoteCopyReceived (d : Die)
  /-- FENCE_L (R115). Orders the die's later mover memory reads after earlier ones have completed. -/
  | fenceL (d : Die)
  /-- FENCE_S (R115). Orders the die's staged writes and reductions so that earlier ones drain before later ones. -/
  | fenceS (d : Die)
  /-- FENCE_LS (R115). Orders both reads and staged writes, and reads against writes. -/
  | fenceLs (d : Die)
  /-- ACQUIRE (R238). Completes after earlier accesses complete, queued edge-cache invalidations are applied and feeder and operand read-ahead is discarded. -/
  | acquire (d : Die)
  /-- RELEASE (R116). Holds later SIGNAL, remote COPY and LACE operations until earlier remote COPYs and lace writes are applied. -/
  | release (d : Die)
  /-- COMMIT (R117). Ends the command: waits for every earlier action, the vat checks and the gang's matching COMMIT, checks partner membership and starts the staging log drain. -/
  | commit (d : Die) (last : Bool) (sb : Bool)
  /-- COMMIT_DRAIN_COMPLETE (R181). Every home and partner has acknowledged the drain; the log clears, pending flags join the job flag word and the next command starts or the job ends DONE. -/
  | commitDrainComplete (d : Die)
  /-- HINT_PHASE (R367). Sets the die's hint level for HORIZON logical steps and starts a setpoint rise within the caps. -/
  | hintPhase (d : Die) (level : BitVec 2) (horizon : BitVec 24)
  /-- HINT_HORIZON_END (R367). A hint's horizon runs out and the rail's hint level returns to 2. -/
  | hintHorizonEnd (site : Nat)
  /-- FAULT (R119). Posts 0x0601 with CODE and faults the command, ending the job FAULTED. -/
  | faultOp (d : Die) (code : BitVec 16)
  /-- VAT_HOLD (R62). The vat slot holds for one step and starts nothing. -/
  | vatHold (d : Die) (vat : BitVec 4)
  /-- PASS (R41). Streams a descriptor's activation vectors through a vat against one loaded slot, one vector per step. -/
  | pass (d : Die) (vat : BitVec 4) (slot : BitVec 2) (desc : BitVec 12)
  /-- PASS_COMPLETE (R65). The last output vector of a pass leaves the drains; its destination is written and DST_TOKEN released. -/
  | passComplete (d : Die) (vat : BitVec 4)
  /-- LOAD (R50). The slot loader writes one weight row per step into a slot, with check columns and drain-side exponents. -/
  | load (d : Die) (vat : BitVec 4) (lslot : BitVec 2) (ldesc : BitVec 12)
  /-- PASSLD (R65). Starts a pass on one slot and a load of another slot of the same vat. -/
  | passld (d : Die) (vat : BitVec 4) (slot : BitVec 2) (desc : BitVec 12) (lslot : BitVec 2) (ldesc : BitVec 12)
  /-- LOAD_COMPLETE (R50). A load writes row 255 and its slot or slot pair becomes ready. -/
  | loadComplete (d : Die) (vat : BitVec 4)
  /-- VAT_CHECK_MISMATCH (R57). A vector's check fails as it leaves the drains; 0x0501 is posted and the running command is killed as a fault. -/
  | vatCheckMismatch (d : Die) (phys : Nat) (block : Nat) (vec : Nat)
  /-- CHURN_HOLD (R109). The Churn slot holds for one step. -/
  | churnHold (d : Die) (u : BitVec 2)
  /-- LDV (R131). Loads elements from a pan into a vector register by descriptor. -/
  | ldv (d : Die) (u : BitVec 2) (a : ChurnMem)
  /-- STV (R131). Stores elements of a vector register into a pan by descriptor. -/
  | stv (d : Die) (u : BitVec 2) (a : ChurnMem)
  /-- ADD (R135). Element-wise addition. -/
  | add (d : Die) (u : BitVec 2) (a : ChurnReg)
  /-- SUB (R135). Element-wise subtraction. -/
  | sub (d : Die) (u : BitVec 2) (a : ChurnReg)
  /-- MUL (R135). Element-wise multiplication. -/
  | mul (d : Die) (u : BitVec 2) (a : ChurnReg)
  /-- FMA (R135). Element-wise fused multiply-add rounded once. -/
  | fma (d : Die) (u : BitVec 2) (a : ChurnReg)
  /-- MIN (R135). Element-wise IEEE minimum. -/
  | minOp (d : Die) (u : BitVec 2) (a : ChurnReg)
  /-- MAX (R135). Element-wise IEEE maximum. -/
  | maxOp (d : Die) (u : BitVec 2) (a : ChurnReg)
  /-- ABS (R135). Element-wise absolute value. -/
  | abs (d : Die) (u : BitVec 2) (a : ChurnReg)
  /-- NEG (R135). Element-wise negation. -/
  | neg (d : Die) (u : BitVec 2) (a : ChurnReg)
  /-- AND (R134). Element-wise integer AND. -/
  | andOp (d : Die) (u : BitVec 2) (a : ChurnReg)
  /-- OR (R134). Element-wise integer OR. -/
  | orOp (d : Die) (u : BitVec 2) (a : ChurnReg)
  /-- XOR (R134). Element-wise integer XOR. -/
  | xorOp (d : Die) (u : BitVec 2) (a : ChurnReg)
  /-- SHL (R134). Element-wise left shift by B modulo the element width. -/
  | shl (d : Die) (u : BitVec 2) (a : ChurnReg)
  /-- SHRA (R134). Element-wise arithmetic right shift. -/
  | shra (d : Die) (u : BitVec 2) (a : ChurnReg)
  /-- SHRL (R134). Element-wise logical right shift. -/
  | shrl (d : Die) (u : BitVec 2) (a : ChurnReg)
  /-- CMP (R134). Sets a mask bit per element when the predicate holds. -/
  | cmp (d : Die) (u : BitVec 2) (a : ChurnReg)
  /-- MAND (R134). ANDs two mask registers. -/
  | mand (d : Die) (u : BitVec 2) (a : ChurnReg)
  /-- MOR (R134). ORs two mask registers. -/
  | mor (d : Die) (u : BitVec 2) (a : ChurnReg)
  /-- MXOR (R134). XORs two mask registers. -/
  | mxor (d : Die) (u : BitVec 2) (a : ChurnReg)
  /-- MNOT (R134). Inverts a mask register. -/
  | mnot (d : Die) (u : BitVec 2) (a : ChurnReg)
  /-- SEL (R134). Selects A or B per element under the mask. -/
  | sel (d : Die) (u : BitVec 2) (a : ChurnReg)
  /-- MOV (R134). Copies a vector register. -/
  | mov (d : Die) (u : BitVec 2) (a : ChurnReg)
  /-- MCNT (R134). Writes the count of set mask bits into lane 0. -/
  | mcnt (d : Die) (u : BitVec 2) (a : ChurnReg)
  /-- IOTA (R134). Writes each element's index. -/
  | iota (d : Die) (u : BitVec 2) (a : ChurnReg)
  /-- CVT (R137). Converts elements between formats, including to and from MX and KT2 groups. -/
  | cvt (d : Die) (u : BitVec 2) (a : ChurnReg)
  /-- EXP2 (R139). Exact base-2 exponential rounded once. -/
  | exp2 (d : Die) (u : BitVec 2) (a : ChurnReg)
  /-- LOG2 (R139). Exact base-2 logarithm rounded once. -/
  | log2 (d : Die) (u : BitVec 2) (a : ChurnReg)
  /-- RECIP (R139). Exact reciprocal rounded once. -/
  | recip (d : Die) (u : BitVec 2) (a : ChurnReg)
  /-- RSQRT (R139). Exact reciprocal square root rounded once. -/
  | rsqrt (d : Die) (u : BitVec 2) (a : ChurnReg)
  /-- TANH (R139). Exact hyperbolic tangent rounded once. -/
  | tanh (d : Die) (u : BitVec 2) (a : ChurnReg)
  /-- SIGMOID (R139). Exact logistic function rounded once. -/
  | sigmoid (d : Die) (u : BitVec 2) (a : ChurnReg)
  /-- ERF (R139). Exact error function rounded once. -/
  | erf (d : Die) (u : BitVec 2) (a : ChurnReg)
  /-- COMPRESS (R140). Packs the masked elements densely and sets the resulting mask. -/
  | compress (d : Die) (u : BitVec 2) (a : ChurnReg)
  /-- EXPAND (R140). Scatters dense elements back to the masked positions. -/
  | expand (d : Die) (u : BitVec 2) (a : ChurnReg)
  /-- RSUM (R141). Grouped fixed-tree sum reduction. -/
  | rsum (d : Die) (u : BitVec 2) (a : ChurnReg)
  /-- RMAX (R141). Grouped fixed-tree maximum reduction. -/
  | rmax (d : Die) (u : BitVec 2) (a : ChurnReg)
  /-- RMIN (R141). Grouped fixed-tree minimum reduction. -/
  | rmin (d : Die) (u : BitVec 2) (a : ChurnReg)
  /-- TOPK (R142). Selects the k highest-ranked elements of each group with their indices. -/
  | topk (d : Die) (u : BitVec 2) (a : ChurnReg)
  /-- RAND (R143). Fills each active lane with a keyed counter-based random draw. -/
  | rand (d : Die) (u : BitVec 2) (a : ChurnReg)
  /-- MOVER_HOLD (R110). The mover slot holds for one step. -/
  | moverHold (d : Die) (mv : BitVec 2)
  /-- GET (R112). A mover reads memory into a pan. -/
  | get (d : Die) (mv : BitVec 2) (a : MoverArgs)
  /-- PUT (R180). A mover stages pan data for memory in the staging log. -/
  | put (d : Die) (mv : BitVec 2) (a : MoverArgs)
  /-- COPY (R102). A mover copies pan data locally or to a gang die's pan. -/
  | copy (d : Die) (mv : BitVec 2) (a : MoverArgs)
  /-- HRED (R112). A mover stages a reduction of pan data into memory at the home caches. -/
  | hred (d : Die) (mv : BitVec 2) (a : MoverArgs)
  /-- LACE_PUT (R301). A mover sends pan lines to a partner's window as staged PUT packets. -/
  | lacePut (d : Die) (mv : BitVec 2) (a : MoverArgs)
  /-- LACE_GET (R301). A mover takes a tag and requests lines from a partner's window into a pan. -/
  | laceGet (d : Die) (mv : BitVec 2) (a : MoverArgs)
  /-- LACE_REDUCE (R301). A mover sends pan lines as staged REDUCE packets to a partner. -/
  | laceReduce (d : Die) (mv : BitVec 2) (a : MoverArgs)
  /-- LACE_SIGNAL (R301). A mover stages a SIGNAL to a token of a partner job. -/
  | laceSignal (d : Die) (mv : BitVec 2) (a : MoverArgs)
  /-- CONTEXT_ENABLE (R173). Writing 1 to ENABLE makes a FREE context ACTIVE when its rings and tenancy conditions allow. -/
  | contextEnable (c : CtxId)
  /-- CONTEXT_RESET (R174). Writing RESET kills or discards every job of the context, drops its queued MSIs, releases its RCID and returns it FREE. -/
  | contextReset (c : CtxId)
  /-- PREEMPT (R187). Writing PREEMPT pre-empts every placed job of the context. -/
  | preempt (c : CtxId)
  /-- SQ_TAIL (R175). The submission doorbell advances the ring tail, making new job descriptors available. -/
  | sqTail (c : CtxId) (v : BitVec 16)
  /-- CQ_HEAD (R177). The driver consumes completion records, freeing ring entries so that placement may resume. -/
  | cqHead (c : CtxId) (v : BitVec 16)
  /-- PREEMPT_DIES (R191). Writing bit n pre-empts the job on Cn with its whole gang. -/
  | preemptDies (mask : BitVec 8)
  /-- DISPATCH_PLACE (R178). The dispatcher reads a head job, validates it and places it on free allowed dies, or ends it FAILED. -/
  | dispatchPlace
  /-- LOAD_TIME_CHECK_DONE (R121). The load-time check of the whole image finishes; the job runs or ends REFUSED. -/
  | loadTimeCheckDone (d : Die)
  /-- KILL_COMPLETE (R184). A kill finishes restoring the command start; the command is re-run, saved, or the job ends. -/
  | killComplete (d : Die)
  /-- SAVE_COMPLETE (R188). A pre-empted job's save area is written; its dies are released and the job returns to the head of its ring. -/
  | saveComplete (d : Die)
  /-- RESTORE_COMPLETE (R188). A re-placed job's state is restored and the killed command re-runs. -/
  | restoreComplete (d : Die)
  /-- DIE_RESET (R420). Writing DIE_RESET resets a die's engines; its jobs end FAILED with 0x0A09. -/
  | dieReset (mask : BitVec 8) (key : BitVec 8)
  /-- PKG_RESET (R420). Writing PKG_RESET starts a package reset. -/
  | pkgReset (key : BitVec 8)
  /-- HOLD_NEXT (R421). With PKG_RESET, writes a hold record so start-up holds before step 6. -/
  | holdNext (key : BitVec 8)
  /-- PARTITION_ENABLE (R206). Writing ENABLE checks the serving configuration and puts the partition in service. -/
  | partitionEnable (d : Die) (v : Bool)
  /-- STOP (R204). Writing STOP makes the next step record carry STOP_REQ so the serving job ends. -/
  | stopOp (d : Die) (v : Bool)
  /-- STEP_BOUNDARY (R201). After a COMMIT SB drain the step builder applies results, reads admissions, applies leaves, selects the active set and writes the step record. -/
  | stepBoundary (d : Die)
  /-- SEP_CQ_TAIL (R159). The driver advances the Separator command ring tail. -/
  | sepCqTail (v : BitVec 16)
  /-- PLACE (R159). Places unplaced granules in a tier for a context. -/
  | place
  /-- SEP_RELEASE (R159). Returns granules to UNPLACED and uncharges their owner. -/
  | sepRelease
  /-- PIN (R159). Sets PIN on granules. -/
  | pinOp
  /-- UNPIN (R159). Clears PIN on granules. -/
  | unpin
  /-- SET_PULL (R159). Sets PULL on granules. -/
  | setPull
  /-- CLR_PULL (R159). Clears PULL on granules. -/
  | clrPull
  /-- MIGRATE (R159). Moves granules to a tier under the placement-fault steps. -/
  | migrate
  /-- CHOWN (R384). Moves granules' charge to another context, re-encrypting them when the keys differ. -/
  | chown
  /-- QUOTA_WRITE (R157). Writing a quota below use redirects placements and starts demotion. -/
  | quotaWrite (c : CtxId) (v : BitVec 64)
  /-- UNIFIED_ACCESS (R151). An access to the unified range is resolved through the placement map after translation. -/
  | unifiedAccess (a : Access)
  /-- MIGRATION_COPY_DONE (R154). A granule copy completes; the map entry is written and the queued accesses are released. -/
  | migrationCopyDone (g : Nat)
  /-- MIGRATION_TIMEOUT (R155). A migration misses its 1 ms bound; it is abandoned, served in place, PULL cleared and 0x0342 posted. -/
  | migrationTimeout (g : Nat)
  /-- DEMOTION_SCAN (R158). The Separator's clock hand visits an over-quota context's HBM granules and demotes unreferenced ones at the demotion rate. -/
  | demotionScan (c : CtxId)
  /-- ROUND_NEAR_FETCH (R166). The round engine starts fetching a tile within NEAR_LEAD into the round pan. -/
  | roundNearFetch (d : Die)
  /-- ROUND_TILE_FETCHED (R166). A tile has arrived in the round pan and its slot load may begin once the gate and slot allow. -/
  | roundTileFetched (d : Die)
  /-- ROUND_SLOT_LOAD_DONE (R166). A round slot load writes row 255; the entry's ring space and RPINs are released. -/
  | roundSlotLoadDone (d : Die) (vat : BitVec 4)
  /-- FAULT_BUDGET_EXPIRED (R223). A page request's budget expires; 0x0361 is posted, the command is killed and the job saved. -/
  | faultBudgetExpired (d : Die) (slot : BitVec 5)
  /-- ATS_PRGR (R221). The OS answers a page request, resolving or failing the held access or requeuing the saved job. -/
  | atsPrgr (did : Nat) (pid : BitVec 20) (prgi : BitVec 9) (resp : PrgrCode)
  /-- IOTINVAL_VMA (R226). Invalidates first-stage entries in scope on every die, pre-empting commands with staged writes in scope. -/
  | iotinvalVma (a : InvalArgs)
  /-- IOTINVAL_GVMA (R226). Invalidates every entry of a GSCID, or of all GSCIDs, on every die. -/
  | iotinvalGvma (gv : Bool) (gscid : BitVec 16)
  /-- IODIR_INVAL_DDT (R225). Invalidates cached device directory entries. -/
  | iodirInvalDdt (dv : Bool) (did : Nat)
  /-- IODIR_INVAL_PDT (R225). Invalidates cached process directory entries. -/
  | iodirInvalPdt (did : Nat) (pid : BitVec 20)
  /-- IOFENCE_C (R227). Completes once every die has acknowledged earlier invalidations and accesses using removed translations have finished. -/
  | iofenceC (a : FenceArgs)
  /-- ATS_INVAL (R225). Refused as an illegal command because ATS is not supported. -/
  | atsInval
  /-- INVALIDATION_APPLY (R237). The edge cache applies a queued invalidation within 10 us of its arrival. -/
  | invalidationApply (d : Die)
  /-- READ_SHARED (R257). A home serves a request for a readable copy. -/
  | readShared (src : ReqSrc) (line : Nat)
  /-- READ_UNIQUE (R257). A home serves a request for a writable copy with data. -/
  | readUnique (src : ReqSrc) (line : Nat)
  /-- CLEAN_UNIQUE (R257). A home serves an upgrade without data. -/
  | cleanUnique (src : ReqSrc) (line : Nat)
  /-- WRITE_LINE (R257). A home recalls and invalidates holders and writes a full or masked line. -/
  | writeLine (src : Nat) (line : Nat) (data : LineData) (mask : BitVec 64)
  /-- WRITE_BACK (R257). A home takes back an M or O line. -/
  | writeBack (src : Nat) (line : Nat) (data : LineData)
  /-- EVICT_CLEAN (R257). A home records the release of an E or S line. -/
  | evictClean (src : Nat) (line : Nat)
  /-- ATOMIC_REQ (R261). A home recalls the line, performs an atomic in its home cache and returns the old value. -/
  | atomicReq (src : ReqSrc) (line : Nat) (op : AtomicOp)
  /-- REDUCE (R262). A home applies one HRED entry element-wise in arrival order. -/
  | reduce (src : Nat) (line : Nat) (op : BitVec 3) (data : LineData)
  /-- FWD_SHARED (R257). An owner supplies data to a reader and keeps a shared or owned copy. -/
  | fwdShared (owner : Nat) (line : Nat)
  /-- FWD_UNIQUE (R257). An owner supplies data to a writer and invalidates its copy. -/
  | fwdUnique (owner : Nat) (line : Nat)
  /-- INVALIDATE (R256). A holder removes its copy and acknowledges. -/
  | invalidate (holder : Nat) (line : Nat)
  /-- RECALL (R256). A holder removes its copy and returns any dirty data. -/
  | recall (holder : Nat) (line : Nat)
  /-- DATA (R256). A requester receives the line. -/
  | dataMsg (dst : Nat) (line : Nat)
  /-- INV_ACK (R258). A home receives an invalidation acknowledgement. -/
  | invAck (holder : Nat) (line : Nat)
  /-- RECALL_DATA (R258). A home receives a recalled copy with any dirty data. -/
  | recallData (holder : Nat) (line : Nat)
  /-- WRITE_ACK (R256). A requester learns its write or release is done. -/
  | writeAck (dst : Nat) (line : Nat)
  /-- ATOMIC_RESULT (R261). A requester receives the old value of its atomic. -/
  | atomicResult (dst : Nat) (line : Nat)
  /-- COMP_ACK (R258). A home learns the requester holds the line and frees it from BUSY. -/
  | compAck (src : Nat) (line : Nat)
  /-- HOME_TIMEOUT (R259). An awaited answer does not arrive within 2 ms; the error is domain-fatal. -/
  | homeTimeout (line : Nat)
  /-- SHANK_CRC_FAIL (R22). A Shank message fails CRC and is retried; eight consecutive failures lose the link. -/
  | shankCrcFail (site : Nat)
  /-- PATROL_SCRUB (R328). A controller reads the next line of its unit in class 3, correcting or poisoning it. -/
  | patrolScrub (unit : Nat) (r : ScrubResult)
  /-- TIMER_COMPARE (R277). Time reaches a hart's mtimecmp, stimecmp or vstimecmp and a timer interrupt becomes pending. -/
  | timerCompare (h : HartId) (which : TimerKind)
  /-- HGATP_VMID_WRITE (R279). A write to hgatp changing the VMID flushes the hart's VS and VU predictor partitions. -/
  | hgatpVmidWrite (h : HartId) (vmid : BitVec 14)
  /-- CBQRI_ALLOC_REQUEST (R287). A CBQRI allocation request is applied, or fails when it would reserve more than 819 blocks. -/
  | cbqriAllocRequest (a : CbqriArgs)
  /-- QK_PLATFORM_INFO (R291). Returns the variant, effective behaviour level and harts in service. -/
  | qkPlatformInfo
  /-- QK_CALENDAR_READ (R291). Returns the calendar time, or fails while the Dairyman is down. -/
  | qkCalendarRead
  /-- QK_PAGE_RETIRE (R330). Retires a granule: withdraws its storage, moves its data within the tier and records it in the retirement list. -/
  | qkPageRetire (addr : BitVec 64) (cause : BitVec 64)
  /-- RETIREMENT_MOVE_DONE (R330). A retirement move that waited for a free granule completes and the list record is committed. -/
  | retirementMoveDone (unit : Nat) (g : Nat)
  /-- QK_CORE_PHASE (R291). Passes a processor-die hint level and horizon to the power manager. -/
  | qkCorePhase (h : HartId) (level : BitVec 64) (horizon : BitVec 64)
  /-- HART_GET_STATUS (R290). Returns a hart's state, or an error for an absent hart. -/
  | hartGetStatus (call : SbiCall)
  /-- SRST_SHUTDOWN (R290). Performs a package reset with start-up held after the Dairyman boots. -/
  | srstShutdown
  /-- SRST_COLD_REBOOT (R290). Performs a package reset. -/
  | srstColdReboot
  /-- LANE_LOST (R295). An eyelet lane loses lock; it leaves striping and the spare substitutes, or the eyelet narrows or goes DOWN. -/
  | laneLost (e : EyeId) (tx : Bool) (w : Nat)
  /-- LANE_REJOINED (R295). A retrained lane rejoins striping. -/
  | laneRejoined (e : EyeId) (tx : Bool) (w : Nat)
  /-- FLIT_RECEIVED (R297). A flit is checked; a good in-sequence flit is delivered, otherwise it is discarded and NAK sent. -/
  | flitReceived (e : EyeId) (f : List Byte)
  /-- FLIT_NAK (R297). A NAK makes the sender replay from the flit after ACK. -/
  | flitNak (e : EyeId) (ack : BitVec 12)
  /-- INLET_LOST (R17). A light inlet goes dark; it reads FAULT, and when both inlets of a half are dark its eyelets go DOWN and Shank paths relay. -/
  | inletLost (n : BitVec 2)
  /-- INLET_RESTORED (R19). An inlet regains light, retrains within 100 ms and relayed paths return to waveguides. -/
  | inletRestored (n : BitVec 2)
  /-- PUT_PACKET (R302). A partner stages an inbound PUT, or refuses it with STAGE_REFUSED. -/
  | putPacket (p : Packet)
  /-- REDUCE_PACKET (R302). A partner stages an inbound REDUCE, or refuses it. -/
  | reducePacket (p : Packet)
  /-- SIGNAL_PACKET (R305). A partner stages an inbound lace SIGNAL. -/
  | signalPacket (p : Packet)
  /-- GET_REQ (R304). A partner serves a read of committed memory in the window. -/
  | getReq (p : Packet)
  /-- GET_RSP (R304). A response is written into the pan when its lace, epoch and tag match, otherwise dropped. -/
  | getRsp (p : Packet)
  /-- COMMIT_PACKET (R305). A partner applies a command's staging in order and answers ACK, or answers NAK. -/
  | commitPacket (p : Packet)
  /-- COMMIT_ACK (R305). The sender records the partner as delivered. -/
  | commitAck (p : Packet)
  /-- COMMIT_NAK (R306). The sender records the partner undelivered and sends ABORT. -/
  | commitNak (p : Packet)
  /-- ABORT (R303). A partner discards a command's staging at once. -/
  | abort (p : Packet)
  /-- RENEW (R303). A partner restarts the staging lease. -/
  | renew (p : Packet)
  /-- STAGE_REFUSED (R302). The sender kills the command and posts 0x0714. -/
  | stageRefused (p : Packet)
  /-- E2E_ACK (R307). The sender frees acknowledged packets from its retransmit buffer. -/
  | e2eAck (p : Packet)
  /-- RENEW_DUE (R303). A quarter lease passes and the sender sends RENEW. -/
  | renewDue (p : PkgId)
  /-- STAGING_LEASE_EXPIRED (R303). A lease expires; the receiver discards the staging and posts 0x0713. -/
  | stagingLeaseExpired (p : PkgId) (cmd : BitVec 32)
  /-- COMMIT_REPEAT (R305). 10 ms pass without an answer and the sender repeats COMMIT. -/
  | commitRepeat (p : PkgId)
  /-- PARTNER_UNDELIVERED (R306). A lease length passes since the first COMMIT without an answer; the partner is recorded undelivered and ABORT sent. -/
  | partnerUndelivered (p : PkgId)
  /-- E2E_ACK_DUE (R307). The receiver sends E2E_ACK at least every 4 us while packets arrive. -/
  | e2eAckDue (p : PkgId)
  /-- RETRANSMIT_TIMEOUT (R307). A packet unacknowledged after 200 us is retransmitted over eyelets still UP. -/
  | retransmitTimeout (p : PkgId)
  /-- LACE_DOWN (R308). No eyelet of a lace has been UP for the lace-down time; commands using it are killed as faults. -/
  | laceDown (p : PkgId)
  /-- TAG_QUARANTINE_END (R304). A retired GET tag's 10 ms quarantine ends and it may be reused. -/
  | tagQuarantineEnd (d : Die) (p : PkgId) (tag : BitVec 16)
  /-- PARTNER_VALID_CLEAR (R299). Clearing VALID discards inbound staging from the partner and drops its outstanding GETs. -/
  | partnerValidClear (p : PkgId)
  /-- HELLO_DUE (R310). Every 1 ms the package sends HELLO to partners and voters. -/
  | helloDue
  /-- HELLO (R310). A received HELLO marks its sender reachable. -/
  | hello (p : Packet)
  /-- REACHABILITY_LOST (R311). A package's HELLO is 5 ms old; the leader proposes a new view when reachability differs from the view. -/
  | reachabilityLost (p : PkgId)
  /-- PROPOSE (R311). A voter answers ACCEPT to the first proposal of an epoch above its highest. -/
  | propose (p : Packet)
  /-- ACCEPT (R311). The leader counts acceptances and sends VIEW once they form a quorum. -/
  | accept (p : Packet)
  /-- VIEW (R312). A package adopts a higher-epoch view, discards old staging, kills lace commands and restarts LSEQ. -/
  | viewPkt (p : Packet)
  /-- MEMBER_TIMEOUT (R313). No quorum of voters is reached for the member timeout; the package enters Held. -/
  | memberTimeout
  /-- PCIE_LINK_UP (R351). A port trains and posts LINK_UP or LINK_DEGRADED. -/
  | pcieLinkUp (port : PcieId) (rate : Nat) (width : Nat)
  /-- PCIE_LINK_DOWN (R348). A port's link fails; Port A's ingest queues enter DISCARD. -/
  | pcieLinkDown (port : PcieId)
  /-- FLR (R348). A function-level reset of Port A moves its queues into DISCARD and abandons waiting RETURNs. -/
  | flr
  /-- HOT_RESET (R348). A hot reset of Port A moves its queues into DISCARD. -/
  | hotReset
  /-- AER_UNCORRECTABLE (R351). A root port logs an uncorrectable error and posts 0x0821. -/
  | aerUncorrectable (port : PcieId) (rid : BitVec 16) (status : BitVec 32)
  /-- PAIL_WRITE (R343). A host write into BAR2 lands in the queue's ingest ring, or is dropped by sequence or state. -/
  | pailWrite (addr : BitVec 28) (data : List Byte) (full : Bool)
  /-- PAIL_DOORBELL (R345). The host writes BYTES and SEQ, letting fully landed records act in stream order. -/
  | pailDoorbell (q : QueueId) (bytes : BitVec 40) (seq : BitVec 16)
  /-- PAIL_RESYNC (R348). Writing RESYNC sets a new sequence, resets CONSUMED and returns the queue to RUN. -/
  | pailResync (q : QueueId) (v : BitVec 16)
  /-- PAIL_IDLE_DISCARD (R348). No byte lands for the idle timeout with incomplete data; the queue enters DISCARD with 0x0810. -/
  | pailIdleDiscard (q : QueueId)
  /-- INGEST_QUEUE_ENABLE (R341). Writing ENABLE puts an ingest queue in or out of service. -/
  | ingestQueueEnable (q : QueueId) (v : Bool)
  /-- DATA_RECORD (R344). Writes the record body into the queue's window. -/
  | dataRecord (q : QueueId)
  /-- JOB_RECORD (R344). Writes a job descriptor into the context's submission ring and advances SQ_TAIL, waiting while the ring is full. -/
  | jobRecord (q : QueueId)
  /-- FENCE_RECORD (R344). Holds later records until earlier records' writes are visible. -/
  | fenceRecord (q : QueueId)
  /-- RETURN_RECORD (R346). Copies window bytes to host memory and writes a host record, after the named job ends when AFTER_JOB is set. -/
  | returnRecord (q : QueueId)
  /-- RETURN_AFTER_JOB_READY (R346). The job named by a waiting RETURN ends or is discarded, and the RETURN acts. -/
  | returnAfterJobReady (q : QueueId)
  /-- MAILBOX_GO (R409). Writing GO submits the request frame in a mailbox. -/
  | mailboxGo (m : MailboxId)
  /-- READ (R405). Returns a chunk of an object's value. -/
  | readOp (path : DictPath) (f : List Byte)
  /-- WRITE (R396). Checks and writes an object, committing RWP values to the NV store before OK. -/
  | writeOp (path : DictPath) (f : List Byte)
  /-- READ_MULTI (R405). Returns several objects, each read at its own instant. -/
  | readMulti (path : DictPath) (f : List Byte)
  /-- SUBSCRIBE (R407). Creates, changes or cancels a periodic push of objects. -/
  | subscribe (path : DictPath) (f : List Byte)
  /-- SESSION_OPEN (R406). Allocates a session and derives its key from the level's credential and both nonces. -/
  | sessionOpen (path : DictPath) (f : List Byte)
  /-- SESSION_CLOSE (R407). Closes a session. -/
  | sessionClose (path : DictPath) (f : List Byte)
  /-- SESSION_IDLE_TIMEOUT (R407). A session with no valid request for 60 s closes. -/
  | sessionIdleTimeout (path : DictPath) (sess : BitVec 32)
  /-- SUBSCRIPTION_PUSH (R407). A subscription's period elapses and a push frame is sent. -/
  | subscriptionPush (sess : BitVec 32) (sub : BitVec 8)
  /-- LOCKOUT_END (R406). A source's 60 s SESSION_OPEN lockout ends. -/
  | lockoutEnd (path : DictPath) (src : Nat)
  /-- CLEAR_FAILED_DIE_RECORD (R32). Clears a die's failed-die record in the NV store, effective at the next reset. -/
  | clearFailedDieRecord (r : ObjReq) (v : BitVec 8)
  /-- CLEAR_VAT_RETIREMENT_RECORD (R32). Clears one vat retirement record, effective at the next reset. -/
  | clearVatRetirementRecord (r : ObjReq) (v : BitVec 16)
  /-- CLEAR_RETIREMENT_LIST (R335). Writes a list-clear record for a unit's retirement list. -/
  | clearRetirementList (r : ObjReq) (v : BitVec 8)
  /-- BEHAVIOUR_LEVEL_PIN (R442). Writes the pin, refused with RANGE when the I/O die lacks the level, effective at the next reset. -/
  | behaviourLevelPin (r : ObjReq) (v : BitVec 8)
  /-- CALENDAR_TIME_WRITE (R430). Steps the calendar clock and posts 0x0A11, refused while PTP is on. -/
  | calendarTimeWrite (r : ObjReq) (v : BitVec 64)
  /-- OWNER_END_TENANCY (R386). The Owner's write to 0x6000:03 ends a Sole tenancy with reset and scrub. -/
  | ownerEndTenancy (r : ObjReq) (v : BitVec 8)
  /-- DEBUG_REQUEST (R391). Requests UNLOCKED or LOCKED debug state for the next package reset. -/
  | debugRequest (r : ObjReq) (v : BitVec 8)
  /-- TUNNEL_FUSE_READ (R333). Reads a stack's fuse map through the repair tunnel, or is REFUSED outside the hold. -/
  | tunnelFuseRead (r : ObjReq)
  /-- TUNNEL_SOFT_REPAIR (R333). Performs a soft post-package repair of a row and posts 0x0308. -/
  | tunnelSoftRepair (r : ObjReq)
  /-- TUNNEL_HARD_REPAIR (R333). Blows fuses for a permanent row repair and posts 0x0308. -/
  | tunnelHardRepair (r : ObjReq)
  /-- UPDATE_BEGIN (R415). Erases the inactive slot of the update target on both devices. -/
  | updateBegin (r : ObjReq)
  /-- UPDATE_ERASE_DONE (R415). The inactive slot is erased and the update status reads READY. -/
  | updateEraseDone
  /-- IMAGE_CHUNK (R415). Programs a chunk of the image at the next offset of the slot. -/
  | imageChunk (r : ObjReq) (data : List Byte)
  /-- UPDATE_COMMIT (R415). Verifies the new image and programs its valid mark, or rejects it. -/
  | updateCommit (r : ObjReq)
  /-- UPDATE_CANCEL (R415). Abandons the update, leaving the slot without a valid mark. -/
  | updateCancel (r : ObjReq)
  /-- GET_DIGESTS (R377). Returns certificate chain digests. -/
  | getDigests (r : SpdmPort)
  /-- GET_CERTIFICATE (R377). Returns the slot 0 certificate chain. -/
  | getCertificate (r : SpdmPort) (slot : BitVec 4) (off : BitVec 16) (len : BitVec 16)
  /-- CHALLENGE (R377). Signs a challenge with the responder key. -/
  | challenge (r : SpdmPort) (slot : BitVec 4) (nonce : List Byte)
  /-- GET_MEASUREMENTS (R378). Returns the signed measurement blocks. -/
  | getMeasurements (r : SpdmPort) (idx : BitVec 8) (nonce : List Byte)
  /-- KEY_EXCHANGE (R377). Starts a secured session by DHE. -/
  | keyExchange (r : SpdmPort) (slot : BitVec 4) (exch : List Byte)
  /-- FINISH (R377). Completes a secured session, with mutual authentication. -/
  | finish (r : SpdmPort) (sess : Nat) (mutAuth : Option (List Byte))
  /-- HEARTBEAT (R377). Keeps an SPDM session alive. -/
  | heartbeat (r : SpdmPort) (sess : Nat)
  /-- KEY_UPDATE (R377). Updates an SPDM session's keys. -/
  | keyUpdate (r : SpdmPort) (sess : Nat)
  /-- END_SESSION (R377). Ends an SPDM session, keeping keys delivered in it. -/
  | endSession (r : SpdmPort) (sess : Nat)
  /-- MEM_KEY_SET (R382). Sets a context's memory key and binds or checks its tenant. -/
  | memKeySet (k : KeyReq)
  /-- MEM_KEY_DESTROY (R382). Destroys a context's memory key. -/
  | memKeyDestroy (k : KeyReq)
  /-- LACE_KEY_SET (R382). Sets a lace key slot bound to a context. -/
  | laceKeySet (k : KeyReq)
  /-- LACE_KEY_DESTROY (R382). Destroys a lace key slot. -/
  | laceKeyDestroy (k : KeyReq)
  /-- END_TENANCY (R386). The Sole tenant ends its tenancy: SCRUBBING is committed, the package resets and memory is zero-filled. -/
  | endTenancy (k : KeyReq)
  /-- MEMB_KEY_SET (R382). Sets the membership key, requiring the Owner's credential digest. -/
  | membKeySet (k : KeyReq)
  /-- ZERO_FILL_DONE (R386). The last unit's zero-fill ends; the map is confirmed, VACANT set and 0x0903 posted. -/
  | zeroFillDone
  /-- ESTIMATOR_INTERVAL (R364). Each 2 us interval the estimate is formed and compared with the caps, setting throttling and setpoints. -/
  | estimatorInterval (m : PowerMeter)
  /-- TRIM_UPDATE (R358). Once per second the estimator trim is set from the input meter. -/
  | trimUpdate (meterMj : Nat)
  /-- SLEW_COMPLETE (R360). A logic rail reaches its new setpoint. -/
  | slewComplete (rail : Nat)
  /-- DROOP_PAUSE (R362). A rail falls below its threshold and every handshake on it is held. -/
  | droopPause (r : RailId)
  /-- DROOP_PAUSE_END (R362). The rail has stayed above its threshold for 200 ns and the pause ends. -/
  | droopPauseEnd (r : RailId)
  /-- MEMORY_DROOP_TRIP (R362). A memory-rail pause lasts 100 us and the rail is treated as tripped. -/
  | memoryDroopTrip (r : RailId)
  /-- RAIL_OVERCURRENT_TRIP (R356). A rail trips on overcurrent during a run; a site loss is domain-fatal. -/
  | railOvercurrentTrip (r : RailId)
  /-- SOFT_START_RAMP_END (R354). A rail's 2 ms ramp ends; a rail short of 90 % or at its limit is turned off and 0x0101 posted. -/
  | softStartRampEnd (r : RailId) (ok : Bool)
  /-- SOFT_START_RETRY (R354). 100 ms after a short the soft start is retried; a second failed retry fences the site. -/
  | softStartRetry (site : Nat)
  /-- TJ_LIMIT (R365). A site's hottest sensor reaches the thermal limit; its setpoint is lowered and 0x0201 posted. -/
  | tjLimit (site : Nat) (sensors : List Nat)
  /-- THERMAL_STEP (R365). Every 1 ms while hot, thermal control lowers the setpoint by 10 mV. -/
  | thermalStep (site : Nat) (sensors : List Nat)
  /-- HARD_TRIP (R365). A sensor reaches 115 °C; the Cowbell turns off all but the base rails and asserts THERMTRIP#. -/
  | hardTrip (site : Nat) (sensors : List Nat)
  /-- INPUT_RANGE (R352). The input leaves 40-60 V without shedding and 0x0106 is posted once per excursion. -/
  | inputRange (mv : Nat)
  /-- COLD_START (R413). 48 V becomes valid and the start-up sequence runs to readiness. -/
  | coldStart (b : Board)
  /-- PKG_RESET_PIN (R420). PKG_RESET# low for 1 us or more starts a package reset and holds start-up at step 2. -/
  | pkgResetPin
  /-- PWRGOOD_IN (R413). PWRGOOD_IN rises, releasing a hold before step 6. -/
  | pwrgoodIn
  /-- STARTUP_STEP_OVERRUN (R416). A start-up step overruns its bound by more than 1 s; start-up stops with 0x0A05. -/
  | startupStepOverrun
  /-- IDENTITY_FRAME_REPEAT (R23). Every 1 ms a port island sends its identity frame with REPEAT incremented. -/
  | identityFrameRepeat (port : Nat)
  /-- IDENTITY_FRAME (R23). The Dairyman checks a stamped identity frame and records it against its port. -/
  | identityFrame (port : Nat) (f : List Byte)
  /-- DISCOVERY_TIMEOUT (R25). The 40 ms discovery window expires; silent or bad sites read FAULT and the map is written. -/
  | discoveryTimeout
  /-- CONFIG_FRAME (R30). A die applies its site number, link version, capabilities and behaviour level and acknowledges. -/
  | configFrame (port : Nat) (f : List Byte)
  /-- CONFIG_ACK (R25). The Dairyman records a die's config acknowledgement. -/
  | configAck (port : Nat) (f : List Byte)
  /-- CONFIG_ACK_TIMEOUT (R25). A die gives no acknowledgement within 5 ms and reads FAULT. -/
  | configAckTimeout (port : Nat)
  /-- DAIRYMAN_HEARTBEAT (R417). The Dairyman writes the Cowbell's heartbeat register. -/
  | dairymanHeartbeat
  /-- DAIRYMAN_FAILED (R418). Three heartbeat periods pass or the Dairyman self-reports; the Cowbell enters FALLBACK and restarts it. -/
  | dairymanFailed (selfReport : Bool)
  /-- DAIRYMAN_RESTARTED (R418). The restarted Dairyman resumes, clears FALLBACK and posts 0x0A02. -/
  | dairymanRestarted (ok : Bool)
  /-- POWER_LOST (R428). The input falls below 38 V; handshakes pause, rails shed, pending store records complete and the store parks. -/
  | powerLost
  /-- HEEL_EXHAUSTED (R428). The heel runs out and the package goes dark. -/
  | heelExhausted
  /-- LEDGER_RECORD_DUE (R426). At each whole second a ledger record of package energy is written. -/
  | ledgerRecordDue
  /-- EVENT_BATCH_DUE (R426). 63 records pend or 10 ms pass, and an event batch is appended to the log. -/
  | eventBatchDue
  /-- CALENDAR_MIDNIGHT (R431). At calendar midnight VBAT is checked and 0x0A12 posted when low. -/
  | calendarMidnight (vbatMv : Nat)
  /-- PTP_SYNC (R430). A PTP offset steps the clock above 1 ms or slews it otherwise. -/
  | ptpSync (offset : Int)
  /-- REGISTER_WRITE (R9). A write to a register with no row of its own updates its writable fields and is otherwise ignored. -/
  | registerWrite (place : RegPlace) (size : Nat) (data : BitVec 64)
  /-- PKG_RESET_RELEASE (R413). PKG_RESET# returns high, letting start-up pass step 2 and resuming a held package from step 3 without holding. -/
  | pkgResetRelease
  /-- HCQ_HEAD (R347). The host advances HCQ_HEAD of an ingest queue, freeing host ring entries so that a RETURN waiting at a full host ring writes its record. -/
  | hcqHead (q : QueueId) (v : BitVec 16)
  /-- POOL_TAIL (R203). Software advances POOL_TAIL, adding pages to the pool, re-arming 0x0521 and possibly releasing a step builder that holds step 6 for want of an eligible stream. -/
  | poolTail (d : Die) (v : BitVec 32)
  /-- MSI_DELIVERED (R283). The dispatcher's write of a queued completion or serving MSI into its target interrupt file completes, so the MSI leaves the queue and becomes pending. -/
  | msiDelivered
  /-- EDGE_CACHE_EVICT (R237). An edge cache evicts a line under its own replacement, possibly before a queued invalidation of it is applied, so the next read misses to the home. -/
  | edgeCacheEvict (d : Die) (line : Nat)
  /-- PORT_B_INTX (R282). A function behind Port B asserts or deasserts INTA-INTD, driving the level of APLIC sources 6-9. -/
  | portBIntx (n : BitVec 2) (level : Bool)
  /-- SPARE_SUBSTITUTION_COMPLETE (R295). W8 finishes taking the lost lane's place in striping, ending the 7-lane interval, and 0x0702 is posted. -/
  | spareSubstitutionComplete (e : EyeId) (tx : Bool)
  /-- PASS_LAST_ROW_FED (R51). A pass feeds its last vector into row 255, which lets a waiting stream or round load of that slot begin. -/
  | passLastRowFed (d : Die) (vat : BitVec 4)
  /-- GRANULE_ZERO_FILLED (R153). The Separator finishes zero-filling a newly placed granule and lets the held first access proceed. -/
  | granuleZeroFilled (g : Nat)
  /-- TEST_PORT_INSTRUCTION (R391). An IEEE 1149.1 instruction arrives at the test port and is carried out or refused according to the debug state and PKG_RESET#. -/
  | testPortInstruction (t : TestInstr)
  /-- HART_SUSPEND (R290). An SBI HSM hart_suspend call performs a retentive suspend, or returns SBI_ERR_NOT_SUPPORTED for a non-retentive suspend. -/
  | hartSuspend (h : HartId) (retentive : Bool)
  deriving DecidableEq, Repr

end Sys2Proof
end

