-- ==== Sys2Proof/Config.lean ====
section
/-! DEFINITION. What an implementation fixes and what the spec leaves open: constants with no body, so that no proof can see
a value. Each is named in a row of notes/assumptions. -/

namespace Sys2Proof.Config

/-- Free values: the n-th value drawn where the spec gives a value no rule (log 2). -/
opaque freeByte : Nat → Byte
opaque freeWord : Nat → W64
opaque freeBit : Nat → Bool

/-- The 16-byte nonce the Dairyman answers a SESSION_OPEN with (log 7). -/
opaque nonce : Nat → List Byte
/-- The 32 payload bytes of an event record: its code and the payload's fields, whose widths R427 does not give (log 76). -/
opaque payloadBytes : Nat → List Nat → List Byte
/-- The version number that the image with a digest reports (R400; log 8). -/
opaque firmwareNumber : List Byte → BitVec 32
/-- An ECDSA P-384 signature by a responder's key, which is derived from the measurements of the Dairyman's and the core firmware (R376, R377;
log 7). -/
opaque sign : List Byte → List Byte → List Byte → List Byte
/-- The certificate chain of a responder, 0 the DOE's and 1 the field port's: by the two measurements and the boot that issued it (R376; log 7). -/
opaque certChain : Nat → List Byte → List Byte → Nat → List Byte
/-- The responder's half of a DHE exchange and the session's finished key (R377; log 7). -/
opaque dheResponse : Nat → List Byte → List Byte
/-- The authentication tag of a lace or membership packet: key, clear header and body (R298, R309; log 7). -/
opaque packetMac : List Byte → List Byte → List Byte
/-- The encrypted body of a packet: key, clear header, body (R309; log 7). -/
opaque packetCipher : List Byte → List Byte → List Byte → List Byte
/-- Whether an image's signature verifies against the fused key digest (R414, R415; log 7). -/
opaque imageSigned : List Byte → Bool
/-- The security version an image carries (R414, R415; log 7). -/
opaque imageVersion : List Byte → BitVec 16

/-- What a byte written under one memory key reads as under another: key written, key read, storage address (R383; log 9). -/
opaque wrongKey : List Byte → List Byte → Nat → Byte

/-- The rounded code of a special function where 320 fixed-point bits do not separate the exact value from a rounding
boundary: function, type, operand code (R139; log 11). -/
opaque specialTail : Nat → Nat → Nat → Nat

/-- Energy of one counted event at a rail voltage of 1 mV, in 10^-18 J, by site and class: w / Vref^2 (R357; log 8). -/
opaque energyWeight : Nat → Nat → Nat
/-- Leakage power of a site in mW at a rail voltage in mV and a junction temperature (R357; log 8). -/
opaque leakage : Nat → Nat → Nat → Nat
/-- The measured conversion efficiency in parts per 10,000, by interval (R357; log 8). -/
opaque efficiency : Nat → Nat
/-- The selector of an event in firmware's PMU event table, none where the table lacks it (R280; log 136). -/
opaque pmuEvent : Nat → Option (BitVec 56)
/-- Whether the host has Relaxed Ordering enabled in Port A's Device Control at an instant: no row writes it (R347; log 140). -/
opaque relaxedOn : W64 → Bool
/-- The values fixed at manufacture, by item (R400, R402, R422; log 8). -/
opaque manufacture : Nat → List Byte

end Sys2Proof.Config
end

