-- ==== Sys2Proof/Machine/State.lean ====
section
/-! DEFINITION. The state of the package: every register, table, buffer, counter, mode and pin the spec gives it, as plain
data, chapter by chapter. A field's default value is its reset value; where the spec gives none, the comment names the log
entry. Indexed collections are sparse maps whose unlisted entries read as the reset value of their type. -/

namespace Sys2Proof.Machine

/-! ## Reasons to stop -/

/-- Faults. No command of the package ends in a model fault: every fault of the spec is a happening inside the package
that the command carries out. The one constructor is for a state no run reaches. -/
inductive Fault where
  /-- Never raised by `exec`. Safe: it would stop the machine where the hardware goes on. -/
  | impossible
  deriving DecidableEq, Repr

/-- Refusals. -/
inductive Refusal where
  /-- A command whose meaning is not modelled yet, by its mnemonic. Raised only by arms of `exec`. Safe. -/
  | notModelled (mnemonic : String)
  deriving DecidableEq, Repr

/-! ## What a command returns -/

/-- MODEL'S OWN (log 3): what the last command returned to whoever sent it. -/
inductive Response where
  /-- nothing returned -/
  | none
  /-- a register or object value -/
  | value (v : W64)
  /-- bytes read from memory -/
  | bytes (b : List Byte)
  /-- the access took an exception, by its RISC-V cause (R9, R153, R232, R266) -/
  | trap (cause : Nat)
  /-- a0 and a1 of an SBI call (R290, R291) -/
  | sbi (error : Int) (value : W64)
  /-- a response frame of the dictionary (R405) -/
  | frame (f : List Byte)
  /-- a request frame dropped without an answer (R406) -/
  | dropped
  /-- the status of a dictionary write (R405) -/
  | status (n : Nat)
  /-- the status byte of a key operation (R381) -/
  | keyStatus (n : Nat)
  /-- an SPDM answer (R377) -/
  | spdm (ok : Bool) (body : List Byte)
  /-- a test-port instruction carried out or refused (R391) -/
  | test (done : Bool)
  deriving DecidableEq, Repr

/-! ## Events (R427) -/

/-- An event record: R427. `payload` holds the further payload's fields in listed order. -/
structure Event where
  code : BitVec 16
  site : BitVec 8
  flags : BitVec 8
  number : BitVec 64
  time : BitVec 64
  tick : BitVec 64
  payload : List Nat
  deriving DecidableEq, Repr

/-! ## 01: the package, discovery, the capability map -/

/-- The fused variant (R1, R2, R16). -/
inductive Variant where
  | whole | half | skim
  deriving DecidableEq, Repr

/-- A site state register (R33). -/
structure SiteState where
  state : BitVec 3 := 0
  dieType : BitVec 8 := 0
  generation : BitVec 8 := 0
  reason : BitVec 8 := 0
  deriving DecidableEq, Repr

/-- A compute die unit map (R34). -/
structure UnitMap where
  vats : BitVec 16 := 0
  spareFree : Bool := false
  churn : BitVec 4 := 0
  movers : BitVec 4 := 0
  seq : Bool := false
  round : Bool := false
  spareFor : BitVec 8 := 0xFF
  deriving DecidableEq, Repr

/-- The capability map (R33). -/
structure CapMap where
  linkVer : BitVec 8 := 0
  effBl : BitVec 8 := 0
  changeCount : BitVec 16 := 0
  caps : BitVec 64 := 0
  sites : SMap SiteState := []
  units : SMap UnitMap := []
  cores : SMap (BitVec 72) := []
  deriving DecidableEq, Repr

/-- The payload of an identity frame (R23), REPEAT and CRC left out. -/
structure IdFrame where
  dieType : BitVec 8
  generation : BitVec 8
  linkMin : BitVec 8
  linkMax : BitVec 8
  blMask : BitVec 16
  caps : BitVec 64
  repair : BitVec 256
  serial : BitVec 64
  deriving DecidableEq, Repr

/-- What a die applies from a config frame (R30). -/
structure DieConfig where
  site : BitVec 8
  link : BitVec 8
  bl : BitVec 8
  caps : BitVec 64
  deriving DecidableEq, Repr

/-- Discovery (R23 to R30): frames and bad ports seen, what each die applied, and the config frames sent with their ticks. -/
structure Discovery where
  frames : SMap IdFrame := []
  bad : List Nat := []
  repeats : SMap (BitVec 32) := []
  opened : Option (BitVec 64) := none
  config : SMap DieConfig := []
  sentAt : SMap (BitVec 64) := []
  acked : List Nat := []
  sent : SMap (List Byte) := []
  deriving DecidableEq, Repr

/-! ## 02, 03: vats -/

/-- The tag an operand carries to the drain (R74, R75). -/
inductive WTag where
  | qnan | snan | pinf | ninf
  deriving DecidableEq, Repr

/-- What a loaded slot holds: the integers of 256 rows by logical column, the exponents G and multipliers per block and
logical column (R75), and the tagged weights as (row, column, tag). For weight mode 3 the integers are one plane's. `ck` is the two
check columns, (CK_H, CK_L) by row (R39, R54). -/
structure SlotData where
  wmode : BitVec 2
  wfmt : BitVec 4
  w : List (List Int)
  g : List (List (Option Int))
  sigma : List (List Int)
  tags : List (Nat × Nat × WTag)
  ck : List (Int × Int)
  deriving DecidableEq, Repr

inductive SlotKind where
  | empty | command | job
  deriving DecidableEq, Repr

/-- A weight slot of a physical vat (R40, R52, R388). `pair` identifies the mode 3 load the slot's plane belongs to
(R49); `tag` none is the null tag (R390); `entry` is the round-list entry that filled a JOB slot (R168). -/
structure Slot where
  kind : SlotKind := .empty
  loading : Bool := false
  data : Option SlotData := none
  pair : Option Nat := none
  tag : Option (BitVec 24) := none
  entry : Option Nat := none
  deriving DecidableEq, Repr

/-- The register block and the mismatch record of a physical vat (R58, R66). -/
structure PVat where
  mismatches : BitVec 8 := 0
  last : Option (BitVec 64) := none
  vectorsIn : BitVec 64 := 0
  feederDry : BitVec 64 := 0
  drainBacked : BitVec 64 := 0
  rowsLoaded : BitVec 64 := 0
  retired : Bool := false
  deriving DecidableEq, Repr

/-- A pass in flight: its descriptor and index, the activation records it reads and the slot contents it meets (R41, R51). `entry` is
the round-list entry whose slot load it still waits for (R167); `fed` is true once its last vector has entered row 255. -/
structure PassFlight where
  id : Nat
  vat : Nat
  phys : Nat
  slot : Nat
  index : Nat
  desc : BitVec 256
  acts : List (List Byte)
  hi : Option SlotData
  lo : Option SlotData
  entry : Option Nat
  fed : Bool
  arrived : BitVec 64
  deriving DecidableEq, Repr

/-- A stream load in flight: the slot it is filling, in which weight mode; a pass may not meet it before row 255 (R50, R51). -/
structure LoadFlight where
  id : Nat
  vat : Nat
  phys : Nat
  slot : Nat
  wmode : Nat
  deriving DecidableEq, Repr

/-! ## 04: the sequencer -/

/-- STATE of SEQ_STATE (R122). -/
inductive SeqState where
  | idle | checking | running | waiting | committing | killing
  deriving DecidableEq, Repr

/-- The sequencer's registers and position (R91, R108, R120, R122). `ctlHeld` is true while the bundle at `pos` has issued but for its
control slot, which cannot act yet (R98). -/
structure Seq where
  state : SeqState := .idle
  rank : BitVec 4 := 0
  gang : BitVec 4 := 0
  command : BitVec 32 := 0
  step : BitVec 64 := 0
  bundles : BitVec 64 := 0
  fetchedWords : BitVec 64 := 0
  discardedWords : BitVec 64 := 0
  waitTicks : BitVec 64 := 0
  lastEvent : BitVec 16 := 0
  lastWord : BitVec 24 := 0
  pos : Nat := 0
  nextStep : Nat := 0
  fetchedTo : Nat := 0
  issued : Bool := false
  ctlHeld : Bool := false
  deriving DecidableEq, Repr

/-- A token: signal count, own-signal count and LENT limit (R103, R165). -/
structure TokenSt where
  count : BitVec 32 := 0
  own : BitVec 32 := 0
  lent : Option (BitVec 32) := none
  deriving DecidableEq, Repr

/-- A WAIT under way; `word` is the first word of its bundle (R105, R122). -/
structure WaitSt where
  token : BitVec 13
  count : BitVec 32
  start : BitVec 64
  word : Nat
  deriving DecidableEq, Repr

/-- A remote COPY on its way or held (R104, R106). -/
structure RemoteCopy where
  id : Nat
  src : Nat
  srcRank : Nat
  dst : Nat
  token : BitVec 13
  seq : BitVec 32
  line : Nat
  lines : List LineData
  deriving DecidableEq, Repr

/-- A SIGNAL on its way (R104). `barrier` is the action number below which every COPY must have been applied, and `lace` the last packet
of each partner that must have been acknowledged (R116). -/
structure RemoteSignal where
  id : Nat
  src : Nat
  dst : Nat
  token : BitVec 13
  inc : BitVec 16
  barrier : Nat
  lace : List (Nat × BitVec 32)
  deriving DecidableEq, Repr

/-- The job image as the load-time check read it (R87, R121). Of the two contents a line written by another agent may execute with (R88),
the model always takes this one (DESIGN CHOICE, log 112). -/
structure Image where
  sect : ByteMap
  stream : ByteMap
  words : Nat
  pans : ByteMap
  tokens : ByteMap
  vatDesc : ByteMap
  movDesc : ByteMap
  churnDesc : ByteMap
  round : ByteMap
  deriving DecidableEq, Repr

inductive LogKind where
  | panLine
  | put
  | hred (op : BitVec 3)
  | lace (partner : Nat)
  | fence
  deriving DecidableEq, Repr

/-- The IOTLB entry a staged write was translated under (R226): tags, page number, size and first-stage page size as log2. -/
structure StageKey where
  gscid : Nat
  pscid : Nat
  vpage : Nat
  size : Nat
  span : Nat
  deriving DecidableEq, Repr

/-- A staging log entry of 64 bytes (R181): a pan-area line, a physical line, a reduction line, a lace operation or a
FENCE.S point. `mask` marks the bytes written; `key` names the IOTLB entry it was staged under. -/
structure LogEntry where
  kind : LogKind
  addr : Nat
  data : LineData
  mask : BitVec 64
  key : Option StageKey
  deriving DecidableEq, Repr

/-- A COMMIT past step 3 of its drain (R181, R182): partners awaited with the tick of the first COMMIT, and whether one
was recorded undelivered. -/
structure Drain where
  last : Bool
  sb : Bool
  awaiting : List (Nat × BitVec 64)
  undelivered : Bool
  deriving DecidableEq, Repr

/-! ## 05: the Churn -/

/-- A Churn unit (R126, R146): vector register r's byte b is byte 2048 r + b. -/
structure ChurnUnit where
  v : ByteMap := []
  m : SMap (BitVec 2048) := []
  lastOp : BitVec 8 := 0
  opsIssued : BitVec 64 := 0
  elements : BitVec 64 := 0
  panRead : BitVec 64 := 0
  panWritten : BitVec 64 := 0
  specialOps : BitVec 64 := 0
  deriving DecidableEq, Repr

/-! ## 06: the round engine and the Separator -/

/-- The round engine of a die (R162 to R168). -/
structure RoundSt where
  promoted : Nat := 0
  opened : List Nat := []
  loaded : List Nat := []
  tiles : List (Nat × ByteMap) := []
  fetching : Option Nat := none
  pins : List (Nat × Nat) := []
  refills : List (Nat × Nat) := []
  stall : BitVec 64 := 0
  nearLead : Nat := 0
  hbmLead : Nat := 0
  deriving DecidableEq, Repr

/-- The command-start record, the Churn shadow file and the round engine's record (R108, R127, R168). -/
structure CmdStart where
  pos : Nat
  nextStep : Nat
  sv : SMap W64
  lc : SMap (BitVec 32)
  tokens : SMap TokenSt
  churnV : SMap ByteMap
  churnM : SMap (SMap (BitVec 2048))
  slots : SMap Slot
  opened : List Nat
  loaded : List Nat
  sent : SMap (BitVec 32)
  occ : SMap Nat
  deriving DecidableEq, Repr

/-- STATE of a placement map entry (R150). -/
inductive GranState where
  | unplaced | hbm | far | moving
  deriving DecidableEq, Repr

/-- A placement map entry (R150). -/
structure Granule where
  state : GranState := .unplaced
  pull : Bool := false
  pin : Bool := false
  rpin : BitVec 8 := 0
  ref : Bool := false
  owner : BitVec 12 := 0
  location : BitVec 32 := 0
  deriving DecidableEq, Repr

/-- Why a granule moves (R154, R158, R330, R384). -/
inductive MoveKind where
  | placementFault | migrate | demote | chown (c : BitVec 12) | retire (cause : Nat)
  deriving DecidableEq, Repr

/-- A request to a home (R256). -/
inductive CohReq where
  | readShared | readUnique | cleanUnique
  | writeLine (data : LineData) (mask : BitVec 64)
  | writeBack (data : LineData) | evictClean
  | atomic (op : AtomicOp)
  | reduce (op : BitVec 3) (data : LineData)
  deriving DecidableEq, Repr

/-- What waits for a granule to be filled or moved: an access, or a request that reached a line's home (R151, R155). -/
inductive Waiter where
  | access (a : Access)
  | request (line src : Nat) (req : CohReq)
  deriving DecidableEq, Repr

/-- A move in progress: steps 3b to 5 of R154. `queued` holds what waits for its end, in arrival order. -/
structure Move where
  kind : MoveKind
  fromHbm : Bool
  source : BitVec 32
  toHbm : Bool
  target : BitVec 32
  start : BitVec 64
  queued : List Waiter
  deriving DecidableEq, Repr

/-- The Separator's own registers (R160), the storage granules in use per tier and the withdrawn ones as (unit, granule)
(R325, R330), and the retirements that wait for a free granule or a migration, as (unified granule, cause) (R330, R337),
and the list records that are still to be written, as (unit, granule, cause) (R330).
`prog` counts the granules of the command at the ring head that a MIGRATE or CHOWN has dealt with (R159). -/
structure Separator where
  logEntries : BitVec 5 := 0
  cqBase : BitVec 52 := 0
  tail : BitVec 16 := 0
  head : BitVec 16 := 0
  placementFaults : BitVec 64 := 0
  migrations : BitVec 64 := 0
  inPlace : BitVec 64 := 0
  demoted : BitVec 64 := 0
  usedHbm : List Nat := []
  usedFar : List Nat := []
  withdrawn : List (Nat × Nat) := []
  retiring : List (Nat × Nat) := []
  owed : List (Nat × Nat × Nat) := []
  rr : Nat := 0
  prog : Nat := 0
  deriving DecidableEq, Repr

/-- A context's quota block (R156, R160). -/
structure Quota where
  hbmQuota : BitVec 32 := 0xFFFFFFFF
  farQuota : BitVec 32 := 0xFFFFFFFF
  hbmUse : BitVec 32 := 0
  farUse : BitVec 32 := 0
  overHbm : Bool := false
  overFar : Bool := false
  firstTier : Bool := false
  pullDefault : Bool := true
  hand : BitVec 64 := 0
  windowStart : BitVec 64 := 0
  windowBytes : Nat := 0
  deriving DecidableEq, Repr

/-! ## 07: contexts, jobs, the dispatcher -/

inductive CtxState where
  | free | active | resetting
  deriving DecidableEq, Repr

/-- A context's register block, interrupt target and the dispatcher's record of it (R173, R283). `requeued` holds the
placed-before jobs at the head of its ring (R187); `phase` is the PHASE of the current completion ring pass (R190). -/
structure Context where
  state : CtxState := .free
  priority : BitVec 2 := 0
  vmid : BitVec 14 := 0
  pasid : BitVec 20 := 0
  rcid : BitVec 12 := 0
  hart : BitVec 8 := 0
  file : BitVec 3 := 0
  msiEn : Bool := false
  eiid : BitVec 11 := 0
  sqLog2 : BitVec 5 := 0
  sqBase : BitVec 52 := 0
  cqLog2 : BitVec 5 := 0
  cqBase : BitVec 52 := 0
  sqTail : BitVec 16 := 0
  sqHead : BitVec 16 := 0
  cqTail : BitVec 16 := 0
  cqHead : BitVec 16 := 0
  submitted : BitVec 64 := 0
  completed : BitVec 64 := 0
  failed : BitVec 64 := 0
  killed : BitVec 64 := 0
  rerun : BitVec 64 := 0
  requeued : List Nat := []
  phase : Bool := true
  droppedMsis : BitVec 32 := 0
  deriving DecidableEq, Repr

/-- Causes of a kill (R183), each with the event code it posted. -/
inductive KillCause where
  | preempt
  | fault (code : BitVec 16)
  | failing (code : BitVec 16)
  | program (code : BitVec 16)
  | budget
  | contextReset
  | dieReset
  deriving DecidableEq, Repr

/-- Where a placed or formerly placed job stands (R178, R184, R188, R223). -/
inductive JobStage where
  | checking | running | killing | saving | saved | waitingOs | restoring
  deriving DecidableEq, Repr

/-- A job that the dispatcher has read (R175, R186, R190). `saves` keeps, rank by rank, what R188 saves whose layout inside the
save area the spec does not give, with slots by logical vat (log 12); it is empty when nothing waits to be restored. -/
structure Job where
  ctx : BitVec 12
  desc : List Byte
  jobId : BitVec 64
  gang : Nat
  dies : List Nat
  stage : JobStage
  checked : List Nat
  causes : List KillCause
  faultKills : Nat
  rerunDue : Bool
  reruns : BitVec 32
  commands : BitVec 32
  flagWord : BitVec 32
  preemptions : BitVec 32
  energyNj : Nat
  duration : BitVec 64
  stall : BitVec 64
  firstDie : BitVec 8
  placedAt : BitVec 64
  unmetered : Bool
  updates : Nat
  saves : List CmdStart
  awaiting : List (Nat × Nat)
  deriving DecidableEq, Repr

/-- The dispatcher (R178, R179, R191, R283): the context it placed last, the contexts whose MSIs wait, the MSIs sent and not yet written, by
interrupt file and identity, the next serial. -/
structure Dispatcher where
  last : Option Nat := none
  msis : List (BitVec 12) := []
  sent : List (Nat × BitVec 11) := []
  serial : Nat := 0
  deriving DecidableEq, Repr

/-! ## 08: serving -/

/-- One slot of the step record in hand (R204). -/
structure ServeSlot where
  index : Nat
  position : Nat
  limit : Nat
  pages : Nat
  goff : Nat
  deriving DecidableEq, Repr

/-- A serving partition (R195 to R209). `slots` is the step record in hand; `holding` is true while step 6 waits for an
eligible stream; `poolPosted` is true once 0x0521 is posted and POOL_TAIL has not moved since. -/
structure Partition where
  enable : Bool := false
  stop : Bool := false
  bind : BitVec 8 := 0
  context : BitVec 12 := 0
  stepPan : BitVec 12 := 0
  resultPan : BitVec 12 := 0
  tableVa : BitVec 52 := 0
  aqLog2 : BitVec 5 := 0
  aqBase : BitVec 52 := 0
  aqTail : BitVec 16 := 0
  aqHead : BitVec 16 := 0
  poolLog2 : BitVec 5 := 0
  poolBase : BitVec 52 := 0
  poolTail : BitVec 32 := 0
  poolHead : BitVec 32 := 0
  gatherLog2 : BitVec 5 := 0
  gatherVa : BitVec 52 := 0
  stepLimit : BitVec 13 := 4096
  chunk : BitVec 13 := 256
  admitLimit : BitVec 15 := 16384
  joinLimit : BitVec 16 := 256
  pageLog2 : BitVec 4 := 5
  kvLists : BitVec 8 := 1
  maxPages : BitVec 16 := 1
  steps : BitVec 64 := 0
  active : BitVec 32 := 0
  pendingJoin : BitVec 32 := 0
  kvWaits : BitVec 64 := 0
  ringWaits : BitVec 64 := 0
  joinRejects : BitVec 64 := 0
  resultErrors : BitVec 64 := 0
  slots : Option (List ServeSlot) := none
  stopReq : Bool := false
  holding : Bool := false
  poolPosted : Bool := false
  cancels : List Nat := []
  joined : List Nat := []
  deriving DecidableEq, Repr

/-! ## 09: translation -/

/-- A cached leaf (R218): tags, page number, leaf size as log2, physical base and permissions; whether its type is NC (R233), and the log2
size of the first-stage page it is a part of (R226). -/
structure TlbEntry where
  gscid : Nat
  pscid : Nat
  vpage : Nat
  size : Nat
  base : Nat
  r : Bool
  w : Bool
  u : Bool
  a : Bool
  d : Bool
  nc : Bool
  span : Nat
  deriving DecidableEq, Repr

/-- A non-leaf entry of the walk cache (R218): its stage and tags, the level of the table it leads to, the address bits above that level, and
the table's address. -/
structure WalkEntry where
  gStage : Bool
  gscid : Nat
  pscid : Nat
  level : Nat
  tag : Nat
  table : Nat
  deriving DecidableEq, Repr

/-- A page-request slot in use (R222, R223). `start` is none until the fault wait budget runs (R224); `job` is the job
that waits on it. -/
structure PageSlot where
  did : Nat
  pid : BitVec 20
  va : BitVec 64
  r : Bool
  w : Bool
  start : Option (BitVec 64)
  budget : Nat
  job : Option Nat
  deriving DecidableEq, Repr

/-- Translation counters (R229). -/
structure TrCounters where
  iotlbHits : BitVec 64 := 0
  walks : BitVec 64 := 0
  coalesced : BitVec 64 := 0
  pageRequests : BitVec 64 := 0
  budgetExpired : BitVec 64 := 0
  deriving DecidableEq, Repr

/-- A command of the agent's queue (R225). -/
inductive AgentCmd where
  | prgr (did pid prgi : Nat) (resp : PrgrCode)
  | vma (a : InvalArgs)
  | gvma (gv : Bool) (gscid : Nat)
  | invalDdt (dv : Bool) (did : Nat)
  | invalPdt (did pid : Nat)
  | fence (a : FenceArgs)
  | illegal
  deriving DecidableEq, Repr

/-- An IOFENCE.C at the head of the queue, with the jobs whose kills and the dies whose drains it waits for (R227). -/
structure HeldFence where
  args : FenceArgs
  kills : List Nat
  drains : List Nat
  deriving DecidableEq, Repr

/-- The translation agent (R215, R220, R225): its register file as bytes, its directory caches, the records it has posted
(die, context, address, PRGI) and (context, cause), the fence it waits at, and the commands of its queue behind that (R227). -/
structure Iommu where
  regs : ByteMap := []
  ddtCache : SMap (List W64) := []
  pdtCache : SMap (List W64) := []
  pageReqs : List (Nat × Nat × Nat × Nat) := []
  faults : List (Nat × Nat) := []
  fence : Option HeldFence := none
  waiting : List AgentCmd := []
  deriving DecidableEq, Repr

/-! ## 11: coherence -/

inductive DirState where
  | i | s | o | em
  deriving DecidableEq, Repr

/-- A directory entry (R255). -/
structure DirEnt where
  st : DirState := .i
  owner : BitVec 4 := 0
  sharers : BitVec 11 := 0
  deriving DecidableEq, Repr

inductive CacheState where
  | m | o | e | s
  deriving DecidableEq, Repr

/-- The tags of a request (R288): its RCID and MCID. -/
structure ReqTag where
  rcid : Nat := 0
  mcid : Nat := 0
  deriving DecidableEq, Repr

/-- Where a line of an L3 lies and which caches above it hold it (R275): its way, the tags of the request that filled it and whether that
was a fetch, and, by core, the L2 and the L1 caches with a copy. A cache above the L3 can hold no line that the L3 lacks. -/
structure LinePlace where
  way : Nat := 0
  tag : ReqTag := {}
  code : Bool := false
  l2 : BitVec 72 := 0
  l1d : BitVec 72 := 0
  l1i : BitVec 72 := 0
  deriving DecidableEq, Repr

/-- A line an L3 holds (R253). -/
structure L3Line where
  st : CacheState
  data : LineData
  place : LinePlace := {}
  deriving DecidableEq, Repr

/-- For whom an L3 has asked for a line that it lacks: the core, the request's tags, and whether it is a fetch (R275, R288). -/
structure Asker where
  core : Nat := 0
  tag : ReqTag := {}
  code : Bool := false
  deriving DecidableEq, Repr

/-- A transaction that holds a line BUSY (R258): who asked for what, the holders whose answer is awaited, the data a
recall brought, whether the grant has been sent and the CompAck is awaited, and when the home timeout began (R259). -/
structure Busy where
  src : Nat
  req : CohReq
  awaiting : List Nat
  recalled : Option LineData
  granted : Bool
  start : Option (BitVec 64)
  deriving DecidableEq, Repr

inductive MsgKind where
  | fwdShared (req : Nat) | fwdUnique (req : Nat) | invalidate | recall
  | data (line : LineData) (st : CacheState)
  | invAck | recallData (line : LineData) | writeAck | atomicResult (old : W64) | compAck
  deriving DecidableEq, Repr

/-- A Shank message sent and not yet received (R20, R256). -/
structure ShankMsg where
  kind : MsgKind
  src : Nat
  dst : Nat
  line : Nat
  deriving DecidableEq, Repr

/-- A home's counters (R269); `summed` is the corrected errors already reported by 0x0403 (R265). -/
structure Home where
  atomics : BitVec 64 := 0
  reduces : BitVec 64 := 0
  recalls : BitVec 64 := 0
  poisoned : BitVec 64 := 0
  corrected : BitVec 64 := 0
  summed : BitVec 64 := 0
  deriving DecidableEq, Repr

/-- A line of a die's edge cache with the context that filled it (R237, R388). -/
structure EdgeLine where
  ctx : BitVec 12
  data : LineData
  deriving DecidableEq, Repr

/-- The coherent domain (R253 to R269). `dir`, `busy` and `queue` are keyed by line (address / 64), `l3` and `asked` by 2 line + m.
`out` lists the homes that left it; `halted` is step 2 of R267 or R419; `stops` the engine accesses, as (die, address), that have consumed
poison and whose command is to be killed (R266). -/
structure Domain where
  dir : SMap DirEnt := []
  busy : SMap Busy := []
  queue : SMap (List (Nat × CohReq)) := []
  l3 : SMap L3Line := []
  net : List ShankMsg := []
  homes : SMap Home := []
  poison : List Nat := []
  out : List Nat := []
  resets : BitVec 32 := 0
  lastCause : BitVec 16 := 0
  halted : Bool := false
  held : Bool := false
  shankFails : SMap Nat := []
  stops : List (Nat × Nat) := []
  asked : SMap Asker := []
  deriving DecidableEq, Repr

/-! ## A compute die -/

/-- An action held on a page request (R223), to be done again: a mover's with its number, operation, descriptor and first
memory address; the read of the job image; a round read. -/
inductive HeldAct where
  | mover (id : Nat) (op : BitVec 4) (desc : BitVec 12) (addr : BitVec 64)
  | jobLoad
  | roundRead (entry : Nat)
  deriving DecidableEq, Repr

/-- An access that waits on the walkers (R218, R222): the address that missed, whether it writes, whether its budget starts with its request,
whether a walker holds its fault until a page-request slot is free, and the action it belongs to. -/
structure WalkWait where
  va : BitVec 64
  write : Bool
  now : Bool
  walked : Bool
  act : HeldAct
  deriving DecidableEq, Repr

/-- An action of a vat, a Churn unit or a mover, as its slot names it (R62, R109, R110). -/
inductive UnitAct where
  | pass (vat slot desc : Nat)
  | load (vat slot desc : Nat)
  | passld (vat slot desc lslot ldesc : Nat)
  | ldv (unit : Nat) (a : ChurnMem)
  | stv (unit : Nat) (a : ChurnMem)
  | reg (op unit : Nat) (a : ChurnReg)
  | mover (op mv : Nat) (a : MoverArgs)
  deriving DecidableEq, Repr

/-- An action that has issued and cannot start yet, since it is ordered behind another (R98, R115, R116, R223): its number, the first
word of its bundle, and what it read of the sequencer when it issued. -/
structure Deferred where
  act : UnitAct
  id : Nat
  word : Nat
  sv : SMap W64
  sent : SMap (BitVec 32)
  fenceL : Nat
  fenceX : Nat
  barrier : Nat
  relLace : List (Nat × BitVec 32)
  opened : List Nat
  deriving DecidableEq, Repr

/-- A compute die: sequencer, vats, Churn, movers, near SRAM, staging log, round engine, translation and edge cache.
`lineTag` is 0 for the null tag of R390 and c + 1 for counter value c. `sent` sums the INC values of the SIGNALs issued to
(rank, token), keyed 8,192 rank + token (R104); `relLace` is what a RELEASE still waits for at partners (R116); `getTokens` the lace GETs not yet
complete, as (token, action number) (R301); `fenceL` and `fenceX` the numbers below which a later read waits for reads, and reads and
writes for each other (R115). `lastKill` is the tick of the
command's last kill with the passes it stopped, whose mismatches of that step still count (R67). -/
structure DieSt where
  seq : Seq := {}
  sv : SMap W64 := []
  lc : SMap (BitVec 32) := []
  tokens : SMap TokenSt := []
  wait : Option WaitSt := none
  occ : SMap Nat := []
  start : Option CmdStart := none
  laceInc : SMap (BitVec 32) := []
  sent : SMap (BitVec 32) := []
  relLace : List (Nat × BitVec 32) := []
  getTokens : List (Nat × Nat) := []
  image : Option Image := none
  sram : ByteMap := []
  lineTag : SMap Nat := []
  written : List Nat := []
  placeCtr : BitVec 24 := 0
  actSeq : Nat := 1
  barrier : Nat := 0
  fenceL : Nat := 0
  fenceX : Nat := 0
  deferred : List Deferred := []
  heldCopies : List RemoteCopy := []
  held : List (BitVec 5 × HeldAct) := []
  churn : SMap ChurnUnit := []
  pendingFlags : BitVec 32 := 0
  slots : SMap Slot := []
  pvats : SMap PVat := []
  passes : List PassFlight := []
  loads : List LoadFlight := []
  spareClaim : Option Nat := none
  failed : Bool := false
  log : List LogEntry := []
  drain : Option Drain := none
  commit : Option (Bool × Bool) := none
  boundary : Bool := false
  iotlb : List TlbEntry := []
  walkCache : List WalkEntry := []
  pageSlots : SMap PageSlot := []
  walkWait : List WalkWait := []
  tr : TrCounters := {}
  edge : SMap EdgeLine := []
  invQueue : List (Nat × BitVec 64) := []
  round : RoundSt := {}
  job : Option Nat := none
  hintEnd : Option Nat := none
  lastKill : Option (BitVec 64 × List PassFlight) := none
  deriving DecidableEq, Repr

/-! ## 12: processor cluster -/

inductive HartState where
  | stopped | started | suspended
  deriving DecidableEq, Repr

/-- A hart's state (R272 to R280, R290; log 132). `predictors` lists the predictor partitions that hold trained state, by privilege level
and, for a guest's levels, VMID (R279). `csrs` holds the control and status registers by number, with the trigger registers at 4,096 + 4 t + i
and those reached through the interrupt-file selectors at 8,192 + 256 level + select; `regs` holds x0-x31 at 0-31, f0-f31 at 32-63 and the
64-bit parts of v0-v31 at 64 + 8 n + part. The compare registers at reset: log 30. -/
structure Hart where
  state : HartState := .stopped
  mtimecmp : BitVec 64 := BitVec.allOnes 64
  stimecmp : BitVec 64 := BitVec.allOnes 64
  vstimecmp : BitVec 64 := BitVec.allOnes 64
  mtip : Bool := false
  stip : Bool := false
  vstip : Bool := false
  vmid : BitVec 14 := 0
  predictors : List (Priv × BitVec 14) := []
  csrs : SMap (BitVec 64) := []
  regs : SMap (BitVec 64) := []
  deriving DecidableEq, Repr

/-- An IMSIC interrupt file: pending and enabled identities 1-2,047 (R281, R284). -/
structure IntFile where
  pending : BitVec 2048 := 0
  enabled : BitVec 2048 := 0
  deriving DecidableEq, Repr

/-- A CBQRI controller's allocation for one RCID (R287); `ways` none is every way. -/
structure CbqriAlloc where
  ways : Option (BitVec 64) := none
  codeWays : Option (BitVec 64) := none
  reserved : Nat := 0
  weight : BitVec 8 := 1
  deriving DecidableEq, Repr

/-- The cluster: harts, interrupt files keyed 9 h + f (f = 0 machine... log 31), APLIC and CBQRI. `aplic` holds the bytes
of the two domains' register pages; `wires` the levels and `pend` the pending bits of sources 1-63 (R282). `monitors` holds the
monitoring counters and `monEvents` their configured events, by controller and MCID; `cbRegs` the register blocks of the CBQRI
controllers, 256 bytes each (R287); `console` what firmware's console has written (R290). -/
structure Cluster where
  harts : SMap Hart := []
  files : SMap IntFile := []
  aplic : ByteMap := []
  wires : BitVec 64 := 0
  pend : BitVec 64 := 0
  cbqri : SMap CbqriAlloc := []
  monitors : SMap (BitVec 64) := []
  monEvents : SMap (BitVec 8) := []
  cbRegs : ByteMap := []
  console : List Byte := []
  deriving DecidableEq, Repr

/-! ## 13: eyelets, lacing, membership -/

inductive EyeState where
  | down | training | up | absent
  deriving DecidableEq, Repr

/-- One direction of an eyelet (R294, R295, R317): lanes out of lock, whether W8 carries data, whether a substitution is
under way, and the lanes lost while it is. -/
structure EyeDir where
  active : BitVec 4 := 0
  lost : BitVec 9 := 0
  spareUsed : Bool := false
  substituting : Bool := false
  deriving DecidableEq, Repr

/-- An eyelet (R293 to R297, R317). `txq` holds packet bytes that wait for a flit, `stream` the payload bytes delivered, `sent`
the flits handed to the fibre, `acked` the last SEQ the other end acknowledged. -/
structure Eyelet where
  state : EyeState := .down
  tx : EyeDir := {}
  rx : EyeDir := {}
  flitsTx : BitVec 64 := 0
  replays : BitVec 64 := 0
  fecCorrected : BitVec 64 := 0
  txSeq : BitVec 12 := 0
  acked : BitVec 12 := 0xFFF
  rxSeq : BitVec 12 := 0
  replay : List (List Byte) := []
  sent : List (List Byte) := []
  txq : List Byte := []
  stream : List Byte := []
  downAt : Option (BitVec 64) := none
  deriving DecidableEq, Repr

/-- A packet the package has sent and keeps until it is acknowledged, with its TYPE, its bytes on the wire, the tick it was last sent
and the eyelet engine whose buffer keeps it (R307). -/
structure SentPacket where
  ty : BitVec 8
  pkt : Packet
  wire : List Byte
  sentAt : BitVec 64
  eye : Nat
  deriving DecidableEq, Repr

/-- A command of this package with staging at a partner (R303, R305, R306), and the epoch its packets carry (R312). -/
structure LaceCmd where
  cmd : BitVec 32
  die : Nat
  packets : Nat
  committed : Option (BitVec 64)
  repeatAt : BitVec 64
  renewAt : BitVec 64
  epoch : BitVec 32
  deriving DecidableEq, Repr

/-- A partner table entry and the lace to it (R299, R303 to R308): `applied` lists the partner's commands applied here,
`heldCommits` those whose COMMIT is held, in the order it arrived, `epochGone` those whose staging a new epoch discarded (R312). -/
structure Partner where
  valid : Bool := false
  lstate : BitVec 2 := 0
  neye : BitVec 2 := 0
  eyes : BitVec 20 := 0
  keySlot : BitVec 12 := 0
  rxContext : BitVec 12 := 0
  winBase : BitVec 48 := 0
  winGranules : BitVec 32 := 0
  rxJob : BitVec 64 := 0
  stagedBytes : BitVec 64 := 0
  lateDropped : BitVec 32 := 0
  authFailed : BitVec 32 := 0
  commitsApplied : BitVec 64 := 0
  lseqTx : BitVec 32 := 0
  lseqRx : BitVec 32 := 0
  ackedTo : BitVec 32 := 0
  reorder : SMap (BitVec 8 × Packet) := []
  retransmit : List SentPacket := []
  nextCmd : BitVec 32 := 0
  cmds : List LaceCmd := []
  applied : List (BitVec 32) := []
  heldCommits : List (BitVec 32) := []
  epochGone : List (BitVec 32) := []
  lastAuth : Option (BitVec 64) := none
  downSince : Option (BitVec 64) := none
  helloAt : Option (BitVec 64) := none
  reach : BitVec 15 := 0
  ackDue : Option (BitVec 64) := none
  deriving DecidableEq, Repr

/-- Inbound staging for one (sender, CMD) (R302, R303, R305). -/
structure Staging where
  entries : List (BitVec 8 × Packet) := []
  lease : BitVec 64 := 0
  commit : Option (BitVec 32) := none
  bytes : Nat := 0
  deriving DecidableEq, Repr

/-- A GET tag of (die, partner): outstanding with where its data goes, or retired at a tick (R304). -/
structure GetTag where
  tag : BitVec 16
  pan : Nat
  token : Nat
  line : Nat
  lines : Nat
  got : Nat
  epoch : BitVec 32
  retired : Option (BitVec 64)
  deriving DecidableEq, Repr

inductive MState where
  | absent | joining | member | held
  deriving DecidableEq, Repr

/-- Membership and the staging region (R310 to R317). `view` lists the member packages in rising order; the package ID and
the voters are as the last package reset read them (R318); `joined` is set once the package has been a member since (R314). -/
structure Membership where
  pkgId : BitVec 13 := 0
  voters : List Nat := []
  stageBase : BitVec 48 := 0
  stageSize : BitVec 32 := 0
  epoch : BitVec 32 := 0
  mstate : MState := .absent
  view : List Nat := []
  highSeen : BitVec 32 := 0
  highAccepted : BitVec 32 := 0
  proposal : Option (BitVec 32 × List Nat) := none
  accepts : List Nat := []
  lastQuorum : Option (BitVec 64) := none
  joined : Bool := false
  membNonce : BitVec 64 := 0
  helloSent : Option (BitVec 64) := none
  deriving DecidableEq, Repr

/-- Lacing state of the package. Staging is keyed 2^32 p + CMD, tags 2^13 d + p. -/
structure Lacing where
  eyes : SMap Eyelet := []
  partners : SMap Partner := []
  staging : SMap Staging := []
  tags : SMap (List GetTag) := []
  memb : Membership := {}
  outbox : List (BitVec 8 × Packet) := []
  relayed : BitVec 2 := 0
  deriving DecidableEq, Repr

/-! ## 14: memory units -/

/-- A stack (0-15) or channel (16-31) with its controller (R329, R334). -/
structure MemUnit where
  granules : BitVec 24 := 0
  spares : BitVec 8 := 0
  mtype : BitVec 4 := 0
  rate : BitVec 16 := 0
  corrected : BitVec 64 := 0
  uncorrected : BitVec 64 := 0
  xfer0 : BitVec 64 := 0
  xfer1 : BitVec 64 := 0
  xfer2 : BitVec 64 := 0
  xfer3 : BitVec 64 := 0
  capped : BitVec 64 := 0
  scrubPasses : BitVec 64 := 0
  scrubLine : Nat := 0
  ce : List (Nat × Nat × Bool) := []
  tripped : Bool := false
  deriving DecidableEq, Repr

/-- The repair tunnel (R333, R335). -/
structure Tunnel where
  status : BitVec 8 := 0
  fuses : List Byte := []
  soft : List (Nat × BitVec 32) := []
  hard : List (Nat × BitVec 32) := []
  deriving DecidableEq, Repr

/-! ## 15: host port -/

inductive IqState where
  | disabled | run | discard
  deriving DecidableEq, Repr

/-- A RETURN that waits for a job or for room in the host ring (R346, R347). -/
structure WaitRet where
  hostAddr : BitVec 64
  srcOff : BitVec 64
  count : BitVec 32
  tag : BitVec 64
  afterJob : Option (BitVec 64)
  status : Option (BitVec 8)
  deriving DecidableEq, Repr

/-- An ingest queue (R341 to R348). `landed` lists the ring dwords whose landed bit is set; `jobs` the JOB records that
have acted, newest first: the JOB_ID, the ring slot (2^16 context + entry) or, once the dispatcher has read it, 2^28 + the job's
serial, and the job's status once it has ended. -/
structure IngestQueue where
  enable : Bool := false
  jobEn : Bool := false
  context : BitVec 12 := 0
  ringBase : BitVec 46 := 0
  winBase : BitVec 48 := 0
  winGranules : BitVec 32 := 0
  state : IqState := .disabled
  cause : BitVec 8 := 0
  curSeq : BitVec 16 := 0
  consumed : BitVec 40 := 0
  bytes : BitVec 40 := 0
  hcqBase : BitVec 58 := 0
  hcqLog2 : BitVec 5 := 0
  vector : BitVec 9 := 0
  vecEn : Bool := false
  hcqTail : BitVec 32 := 0
  hcqHead : BitVec 16 := 0
  hcqPhase : Bool := true
  lateDropped : BitVec 32 := 0
  discards : BitVec 32 := 0
  landed : List Nat := []
  lastLand : BitVec 64 := 0
  jobs : List (BitVec 64 × Nat × Option (BitVec 8)) := []
  waiting : Option WaitRet := none
  deriving DecidableEq, Repr

/-- A PCIe port (R338, R351). -/
structure PciePort where
  root : Bool := false
  up : Bool := false
  rate : Nat := 0
  width : Nat := 0
  deriving DecidableEq, Repr

/-- A write the package has sent to host memory: address, bytes, Relaxed Ordering (R249, R347). -/
structure HostWrite where
  addr : BitVec 64
  bytes : List Byte
  relaxed : Bool
  deriving DecidableEq, Repr

/-- The host port: queues, ports, writes sent to the host, MSI-X vectors sent, its table, the vectors unmasked and those pending
(R340; table layout of PCI Express, log 32). -/
structure HostPort where
  queues : SMap IngestQueue := []
  portA : PciePort := {}
  portB : PciePort := { root := true }
  out : List HostWrite := []
  msix : List Nat := []
  msixTable : ByteMap := []
  msixOpen : List Nat := []
  msixPend : List Nat := []
  deriving DecidableEq, Repr

/-! ## 16: power -/

inductive RailState where
  | off | softStart | on | fenced | tripped
  deriving DecidableEq, Repr

/-- A site's rail status register and the control state behind it (R354, R360, R362, R365, R367, R371). `lastCool` is when
thermal control last lowered a setpoint for the site. -/
structure Rail where
  setpoint : BitVec 12 := 0
  meas : BitVec 12 := 0
  throttle : BitVec 6 := 0
  level : BitVec 2 := 0
  tjMax : BitVec 8 := 0
  state : RailState := .off
  target : BitVec 12 := 0
  slewing : Bool := false
  horizonEnd : Option (BitVec 64) := none
  hot : Bool := false
  sensors : List Nat := []
  borrower : Bool := false
  lastDroop : Option (BitVec 64) := none
  lastCool : Option (BitVec 64) := none
  deriving DecidableEq, Repr

/-- One rail of a site during soft start and droop (R354, R362). -/
structure RailLine where
  good : Bool := false
  attempts : Nat := 0
  retryAt : Option (BitVec 64) := none
  pausedAt : Option (BitVec 64) := none
  deriving DecidableEq, Repr

/-- The power manager (R352, R357 to R371). `trim` is in parts per 10,000; `secondNj` sums the untrimmed estimates since the
last trim update, `totalNj` the package energy since manufacture, both in nJ; `intervals` and `seconds` count the 2 us intervals and
the seconds of the timebase that have been dealt with. -/
structure Power where
  est : BitVec 32 := 0
  meter : BitVec 32 := 0
  vin : BitVec 16 := 0
  capped : Bool := false
  fallback : Bool := false
  thermal : Bool := false
  droopPauses : BitVec 64 := 0
  trim : Nat := 10000
  secondNj : Nat := 0
  rails : SMap Rail := []
  lines : SMap RailLine := []
  counts : SMap Nat := []
  lastExcess : Option (BitVec 64) := none
  lastDisagree : Option (BitVec 64) := none
  excursion : Bool := false
  off : Bool := true
  totalNj : Nat := 0
  intervals : Nat := 0
  seconds : Nat := 0
  deriving DecidableEq, Repr

/-! ## 17: tenancy -/

/-- A memory key slot (R379, R382). -/
structure MemKey where
  key : List Byte
  tenant : List Byte
  deriving DecidableEq, Repr

/-- A lace key slot (R379, R382). -/
structure LaceKey where
  key : List Byte
  tenant : List Byte
  ctx : BitVec 12
  nonce : BitVec 64 := 0
  deriving DecidableEq, Repr

/-- An SPDM session (R377): finished, and the digest of the requester's certificate under mutual authentication. -/
structure SpdmSession where
  finished : Bool
  tenant : Option (List Byte)
  updates : Nat
  deriving DecidableEq, Repr

/-- Tenancy, keys, debug (R374 to R391). SPDM sessions are keyed 4 responder + number. `granKey` is the key a granule was
zero-filled under, `lineKey` the key a line was written under since where that differs; the empty list is the package key. -/
structure Security where
  mode : BitVec 8 := 0
  tenancy : BitVec 8 := 0
  memKeys : SMap MemKey := []
  laceKeys : SMap LaceKey := []
  membKey : Option (List Byte) := none
  noKeyPosted : List Nat := []
  debug : Bool := false
  debugReq : Option Bool := none
  spdm : SMap SpdmSession := []
  fillStart : Option (BitVec 64) := none
  lastScrub : BitVec 32 := 0
  granKey : SMap (List Byte) := []
  lineKey : SMap (Option (List Byte)) := []
  boots : Nat := 0
  deriving DecidableEq, Repr

/-! ## 18: the dictionary -/

/-- A subscription (R407). -/
structure Subscription where
  id : BitVec 8
  period : Nat
  nextAt : BitVec 64
  items : List Nat
  deriving DecidableEq, Repr

/-- A session (R406, R407). `path` 0 field port, 1 BAR0 mailbox, 2 mirror mailbox. -/
structure Session where
  path : Nat
  src : Nat
  level : BitVec 2
  key : List Byte
  seq : BitVec 32
  pushes : BitVec 32
  validAt : BitVec 64
  readPos : BitVec 64
  subs : List Subscription
  deriving DecidableEq, Repr

/-- A mailbox (R409). -/
structure Mailbox where
  state : BitVec 2 := 0
  respLen : BitVec 16 := 0
  request : ByteMap := []
  response : ByteMap := []
  deriving DecidableEq, Repr

/-- The dictionary's own state: object values that differ from their defaults, keyed 256 index + sub, as bytes; sessions;
drops and lockouts per source (R396, R406, R409); frames pushed. -/
structure Dict where
  values : SMap (List Byte) := []
  sessions : SMap Session := []
  nextSess : Nat := 1
  drops : SMap (List (BitVec 64)) := []
  lockout : SMap (BitVec 64) := []
  dropCount : BitVec 32 := 0
  mbox0 : Mailbox := {}
  mbox1 : Mailbox := {}
  pushed : List (List Byte) := []
  deriving DecidableEq, Repr

/-! ## 19: start-up, recovery, persistence -/

/-- Where start-up stands (R413, R416, R419, R428). The base steps 1 to 3 need 48 V and PKG_RESET# high. -/
inductive SuPhase where
  | dark | step2 | discovery | config | softStart | held | zeroFill | running | stopped | domainHeld | tripped | shed
  deriving DecidableEq, Repr

/-- A firmware image slot (R414, R415): whether its signature verifies, its security version, its valid mark and digest. -/
structure FwImage where
  signed : Bool
  version : BitVec 16
  mark : Bool
  digest : List Byte
  deriving DecidableEq, Repr

/-- Start-up and the Cowbell (R413 to R421, R437): `heldByRecord` is set while the hold record keeps start-up held, `restarting`
while the Cowbell restarts the Dairyman, `failedAt` is the tick of the Dairyman's last failure; the digests are those of the images that
run, and `fusedMin` is the fused minimum security version (log 4). -/
structure Startup where
  phase : SuPhase := .dark
  supervisor : BitVec 8 := 0
  cowbellCode : BitVec 16 := 0
  lastCause : BitVec 4 := 0
  restarts : BitVec 16 := 0
  pkgResets : BitVec 32 := 0
  readyTick : BitVec 64 := 0
  pkgResetLow : Bool := false
  pwrgood : Bool := false
  thermtrip : Bool := false
  faultLow : Bool := false
  pinsDriven : Bool := false
  dairyman : Bool := false
  heartbeat : BitVec 64 := 0
  down : Bool := false
  board : Board := ⟨[], [], [], false, false, 3000, false, 0, [], [], 0, []⟩
  stepStart : BitVec 64 := 0
  heldByRecord : Bool := false
  restarting : Bool := false
  failedAt : BitVec 64 := 0
  dairyDigest : List Byte := []
  coreDigest : List Byte := []
  fusedMin : BitVec 16 := 0
  deriving DecidableEq, Repr

/-- A record of a store area (R423). -/
structure StoreRec where
  ty : BitVec 16
  item : Nat
  seq : BitVec 64
  time : BitVec 64
  size : Nat
  deriving DecidableEq, Repr

/-- The NV store (R422 to R426). The event log ring runs from byte `logStart` to `logEnd`, counted since manufacture, and
`logBatches` lists its batch records as (first byte, events). `fill` gives the bytes used in the live copy of area 0 parameters, 1 state, 2 retirement
lists; `copyB` lists the areas whose live copy is B. -/
structure NvStore where
  failedDies : BitVec 8 := 0
  retiredVats : SMap (BitVec 17) := []
  origin : BitVec 3 := 0
  lists : SMap (List (BitVec 64)) := []
  lastUnits : Option (List (Nat × Nat)) := none
  holdRecord : Bool := false
  cleanEnd : Bool := true
  coreMin : BitVec 16 := 0
  dairyA : FwImage := ⟨true, 1, true, []⟩
  dairyB : FwImage := ⟨true, 1, true, []⟩
  coreA : FwImage := ⟨true, 1, true, []⟩
  coreB : FwImage := ⟨true, 1, true, []⟩
  seq : BitVec 64 := 0
  device0Bad : Bool := false
  device1Bad : Bool := false
  fill : SMap Nat := []
  copyB : List Nat := []
  ledger : List (BitVec 64 × BitVec 64 × Bool) := []
  ledgerTime : BitVec 64 := 0
  log : List Event := []
  logStart : Nat := 0
  logEnd : Nat := 0
  logBatches : List (Nat × Nat) := []
  deriving DecidableEq, Repr

/-- Event records on their way to the log and the Cowbell's buffers (R417, R426). -/
structure EventBuf where
  number : BitVec 64 := 0
  pendingRecs : List Event := []
  tail : List Event := []
  cowbell : List Event := []
  overflow : Nat := 0
  oldest : Option (BitVec 64) := none
  deriving DecidableEq, Repr

/-- A firmware update in progress (R415): the target and the slot (B when true) that BEGIN fixed, and the bytes written so far. -/
structure Update where
  target : BitVec 8 := 0
  slotB : Bool := false
  status : BitVec 8 := 0
  bytes : List Byte := []
  deriving DecidableEq, Repr

/-- The calendar clock (R430, R431): `slewing` is the PTP offset still to be slewed, `trimRem` the part of the trim not yet applied in
10^-9 units, `sub` the part of a crystal period gone by, in 1/32768 ticks. -/
structure Calendar where
  time : BitVec 64 := 0
  invalid : Bool := false
  vbat : BitVec 16 := 0
  slewing : Int := 0
  trimRem : Int := 0
  sub : Nat := 0
  deriving DecidableEq, Repr

/-! ## The package -/

/-- The state of the package. `pending` is the queue of waiting commands and `free` the model's own counter of free values
drawn (log 2); no statement rests on its value. -/
structure State where
  pending : List Instr := []
  free : Nat := 0
  resp : Response := .none
  time : BitVec 64 := 0
  variant : Variant := .whole
  weltGen : BitVec 8 := 1
  map : CapMap := {}
  disc : Discovery := {}
  dies : SMap DieSt := []
  copyNet : List RemoteCopy := []
  sigNet : List RemoteSignal := []
  mem : ByteMap := []
  grans : SMap Granule := []
  moves : SMap Move := []
  filling : SMap (List Waiter) := []
  sep : Separator := {}
  quotas : SMap Quota := []
  ctxs : SMap Context := []
  jobs : SMap Job := []
  disp : Dispatcher := {}
  parts : SMap Partition := []
  iommu : Iommu := {}
  dom : Domain := {}
  cluster : Cluster := {}
  lacing : Lacing := {}
  units : SMap MemUnit := []
  tunnel : Tunnel := {}
  host : HostPort := {}
  power : Power := {}
  sec : Security := {}
  dict : Dict := {}
  su : Startup := {}
  nv : NvStore := {}
  ev : EventBuf := {}
  upd : Update := {}
  cal : Calendar := {}
  deriving DecidableEq, Repr

/-- The package right after reset: every register at its reset value, before start-up (R413). -/
def State.reset : State := {}

end Sys2Proof.Machine
end

