-- ==== Sys2Proof/Machine/Ops.lean ====
section
/-! DEFINITION. Named operations over the state: sparse maps, bytes and bit fields, memory, free values, events, and the
frame every command runs in. -/

namespace Sys2Proof.Machine

/-! ## Commands -/

/-- Runs a command's effect on everything but the queue: the effect neither sees nor changes the waiting commands. -/
def command (f : State → State) (s : State) : Host.Outcome State Fault Refusal :=
  .next { f { s with pending := [] } with pending := s.pending }

/-! ## Sparse maps -/

/-- The entry listed at a key. -/
def SMap.find {α : Type} (m : SMap α) (k : Nat) : Option α := List.lookup k m

/-- What a key reads as: its entry, or the default. -/
def SMap.get {α : Type} (d : α) (m : SMap α) (k : Nat) : α := (SMap.find m k).getD d

/-- Removes a key. -/
def SMap.del {α : Type} (m : SMap α) (k : Nat) : SMap α :=
  m.filter (·.1 < k) ++ m.filter (k < ·.1)

/-- Lists a value at a key, in place of what was there. -/
def SMap.put {α : Type} (m : SMap α) (k : Nat) (v : α) : SMap α :=
  m.filter (·.1 < k) ++ (k, v) :: m.filter (k < ·.1)

/-- Sets what a key reads as, keeping the canonical form: the default is not listed. -/
def SMap.set {α : Type} [DecidableEq α] (d : α) (m : SMap α) (k : Nat) (v : α) : SMap α :=
  if v = d then SMap.del m k else SMap.put m k v

/-- Applies a function to what a key reads as. -/
def SMap.upd {α : Type} [DecidableEq α] (d : α) (m : SMap α) (k : Nat) (f : α → α) : SMap α :=
  SMap.set d m k (f (SMap.get d m k))

/-- The canonical form: keys strictly rising, no entry equal to the default. -/
def SMap.wf {α : Type} [DecidableEq α] (d : α) (m : SMap α) : Bool :=
  decide (m.Pairwise (fun p q => p.1 < q.1)) && m.all (fun p => decide (p.2 ≠ d))

/-- The values listed, in key order. -/
def SMap.vals {α : Type} (m : SMap α) : List α := m.map (·.2)

/-! ## Bytes and bit fields -/

/-- Bits lo .. lo + n - 1 of a number. -/
def bits (v lo n : Nat) : Nat := (v >>> lo) % 2 ^ n

/-- The unsigned number of little-endian bytes (R8). -/
def leNat : List Byte → Nat
  | [] => 0
  | b :: bs => b.toNat + 256 * leNat bs

/-- The low n bytes of a number, little-endian (R8). -/
def leBytes : Nat → Nat → List Byte
  | 0, _ => []
  | n + 1, v => BitVec.ofNat 8 v :: leBytes n (v / 256)

/-- The signed value of the low n bits of a number. -/
def signed (n v : Nat) : Int :=
  let x := v % 2 ^ n
  if 2 * x < 2 ^ n then x else (x : Int) - 2 ^ n

/-- A number made of bytes lo .. lo + n - 1 of a list. -/
def fieldAt (l : List Byte) (lo n : Nat) : Nat := leNat ((l.drop lo).take n)

/-- A list with n bytes from lo on replaced. -/
def putBytes (l : List Byte) (lo : Nat) (bs : List Byte) : List Byte :=
  l.take lo ++ bs ++ l.drop (lo + bs.length)

def zeros (n : Nat) : List Byte := List.replicate n 0

/-- The list padded with zero bytes, or cut, to n bytes. -/
def fit (n : Nat) (l : List Byte) : List Byte := (l ++ zeros n).take n

/-- A 64-bit counter or register that adds a number modulo 2^64. -/
def bump (x : W64) (n : Nat := 1) : W64 := x + BitVec.ofNat 64 n

/-- CRC-32C (Castagnoli, reflected, initial value and final inversion all ones) of R23, R297, R405 and R423. -/
def crc32cBit (c : Nat) : Nat := if c % 2 = 1 then (c / 2) ^^^ 0x82F63B78 else c / 2

def crc32c (l : List Byte) : BitVec 32 :=
  BitVec.ofNat 32 ((l.foldl (fun c b => (List.range 8).foldl (fun x _ => crc32cBit x) (c ^^^ b.toNat)) 0xFFFFFFFF) ^^^ 0xFFFFFFFF)

/-! ## Byte maps: memory -/

/-- The entries that give bytes from an address up, zero bytes unlisted. -/
def ByteMap.cells : Nat → List Byte → ByteMap
  | _, [] => []
  | a, b :: bs => if b = 0 then ByteMap.cells (a + 1) bs else (a, b) :: ByteMap.cells (a + 1) bs

/-- One byte. -/
def ByteMap.byte (m : ByteMap) (a : Nat) : Byte := SMap.get 0 m a

/-- n bytes from an address up. -/
def ByteMap.read (m : ByteMap) (a n : Nat) : List Byte :=
  let near := m.filter (fun p => a ≤ p.1 && p.1 < a + n)
  (List.range n).map (fun i => ByteMap.byte near (a + i))

/-- Writes bytes from an address up. -/
def ByteMap.write (m : ByteMap) (a : Nat) (bs : List Byte) : ByteMap :=
  m.filter (·.1 < a) ++ ByteMap.cells a bs ++ m.filter (a + bs.length ≤ ·.1)

/-- Clears n bytes to zero. -/
def ByteMap.clear (m : ByteMap) (a n : Nat) : ByteMap :=
  m.filter (·.1 < a) ++ m.filter (a + n ≤ ·.1)

/-- The number of n little-endian bytes. -/
def ByteMap.num (m : ByteMap) (a n : Nat) : Nat := leNat (ByteMap.read m a n)

/-- Bytes a .. a + n - 1 of another map's bytes b .. b + n - 1. -/
def ByteMap.slice (m : ByteMap) (a n : Nat) : ByteMap :=
  (m.filter (fun p => a ≤ p.1 && p.1 < a + n)).map (fun p => (p.1 - a, p.2))

/-- Places a slice at an address, over n bytes. -/
def ByteMap.place (m : ByteMap) (a n : Nat) (sl : ByteMap) : ByteMap :=
  m.filter (·.1 < a) ++ ((sl.filter (·.1 < n)).map (fun p => (p.1 + a, p.2))) ++ m.filter (a + n ≤ ·.1)

/-- The canonical form of a memory. -/
def Memory.wf (m : ByteMap) : Bool := SMap.wf 0 m

/-- Merges the bytes of a line whose mask bit is set into another. -/
def mergeLine (mask : BitVec 64) (new old : LineData) : LineData :=
  (List.range 64).map (fun i => if mask.getLsbD i then (new[i]?).getD 0 else (old[i]?).getD 0)

/-- The mask of bytes lo .. lo + n - 1 of a line. -/
def lineMask (lo n : Nat) : BitVec 64 := BitVec.ofNat 64 ((2 ^ n - 1) <<< lo)

/-! ## Free values -/

/-- Advances the free-value counter (log 2). -/
def drew (s : State) : State := { s with free := s.free + 1 }

/-! ## Links (R22) -/

/-- A site's link carried a message: its run of failed retries ends (R22). -/
def linkGood (a : Nat) (s : State) : State := { s with dom := { s.dom with shankFails := SMap.del s.dom.shankFails a } }

/-- A message went from one site to another. -/
def linksGood (a b : Nat) (s : State) : State := linkGood a (linkGood b s)

/-! ## The sub-states by index -/

def dieOf (s : State) (d : Nat) : DieSt := SMap.get {} s.dies d
def setDie (s : State) (d : Nat) (x : DieSt) : State := { s with dies := SMap.set {} s.dies d x }
def updDie (s : State) (d : Nat) (f : DieSt → DieSt) : State := setDie s d (f (dieOf s d))

def ctxOf (s : State) (c : Nat) : Context := SMap.get {} s.ctxs c
def setCtx (s : State) (c : Nat) (x : Context) : State := { s with ctxs := SMap.set {} s.ctxs c x }
def updCtx (s : State) (c : Nat) (f : Context → Context) : State := setCtx s c (f (ctxOf s c))

def quotaOf (s : State) (c : Nat) : Quota := SMap.get {} s.quotas c
def updQuota (s : State) (c : Nat) (f : Quota → Quota) : State :=
  { s with quotas := SMap.upd {} s.quotas c f }

def granOf (s : State) (g : Nat) : Granule := SMap.get {} s.grans g
def updGran (s : State) (g : Nat) (f : Granule → Granule) : State :=
  { s with grans := SMap.upd {} s.grans g f }

def jobOf (s : State) (k : Nat) : Option Job := SMap.find s.jobs k
def updJob (s : State) (k : Nat) (f : Job → Job) : State :=
  match SMap.find s.jobs k with
  | some j => { s with jobs := SMap.put s.jobs k (f j) }
  | none => s

def partOf (s : State) (d : Nat) : Partition := SMap.get {} s.parts d
def updPart (s : State) (d : Nat) (f : Partition → Partition) : State :=
  { s with parts := SMap.upd {} s.parts d f }

def siteOf (s : State) (i : Nat) : SiteState := SMap.get {} s.map.sites i
def unitMapOf (s : State) (d : Nat) : UnitMap := SMap.get {} s.map.units d
def unitOf (s : State) (u : Nat) : MemUnit := SMap.get {} s.units u
def updUnit (s : State) (u : Nat) (f : MemUnit → MemUnit) : State :=
  { s with units := SMap.upd {} s.units u f }
def railOf (s : State) (i : Nat) : Rail := SMap.get {} s.power.rails i
def updRail (s : State) (i : Nat) (f : Rail → Rail) : State :=
  { s with power := { s.power with rails := SMap.upd {} s.power.rails i f } }
def partnerOf (s : State) (p : Nat) : Partner := SMap.get {} s.lacing.partners p
def updPartner (s : State) (p : Nat) (f : Partner → Partner) : State :=
  { s with lacing := { s.lacing with partners := SMap.upd {} s.lacing.partners p f } }
def eyeOf (s : State) (e : Nat) : Eyelet := SMap.get {} s.lacing.eyes e
def updEye (s : State) (e : Nat) (f : Eyelet → Eyelet) : State :=
  { s with lacing := { s.lacing with eyes := SMap.upd {} s.lacing.eyes e f } }
def queueOf (s : State) (q : Nat) : IngestQueue := SMap.get {} s.host.queues q
def updQueue (s : State) (q : Nat) (f : IngestQueue → IngestQueue) : State :=
  { s with host := { s.host with queues := SMap.upd {} s.host.queues q f } }
def hartOf (s : State) (h : Nat) : Hart := SMap.get {} s.cluster.harts h
def updHart (s : State) (h : Nat) (f : Hart → Hart) : State :=
  { s with cluster := { s.cluster with harts := SMap.upd {} s.cluster.harts h f } }

/-- The site index of R33 that an event record names when no site applies (R427). -/
def noSite : Nat := 0xFF

/-! ## Wired interrupts (R281, R282; register layout of the RISC-V AIA, log 31) -/

/-- The key of an interrupt file: 0 machine, 1 supervisor, 1 + g guest file g of a hart. -/
def fileKey (hart file : Nat) : Nat := 9 * hart + file

/-- Sets an identity's pending bit in an interrupt file (R284). -/
def setPendingId (key eiid : Nat) (s : State) : State :=
  let set := fun (f : IntFile) => { f with pending := f.pending ||| BitVec.ofNat 2048 (2 ^ eiid) }
  { s with cluster := { s.cluster with files := SMap.upd {} s.cluster.files key set } }

/-- A 32-bit register of an APLIC domain: 0 machine, 1 supervisor. -/
def aplicReg (s : State) (dom off : Nat) : Nat := ByteMap.num s.cluster.aplic (0x10000 * dom + off) 4

/-- The domain a source belongs to: the supervisor domain when the machine domain delegates it. -/
def sourceDomain (s : State) (i : Nat) : Nat := bits (aplicReg s 0 (4 * i)) 10 1

/-- Source mode of a source in its domain: 0 inactive, 4 rising edge, 6 level high; the reserved sources 10-63 stay inactive (R282). -/
def sourceMode (s : State) (i : Nat) : Nat := if 10 ≤ i then 0 else bits (aplicReg s (sourceDomain s i) (4 * i)) 0 3

/-- Whether a site is in service: PRESENT or DEGRADED (R176). -/
def siteUp (s : State) (i : Nat) : Bool := (siteOf s i).state = 1 || (siteOf s i).state = 5

/-- Whether a hart is in service (R272): its die in service and its core marked. -/
def hartPresent (s : State) (h : Nat) : Bool :=
  h < 144 && siteUp s (8 + h / 72) && (SMap.get 0 s.map.cores (h / 72)).getLsbD (h % 72)

/-- A write of an identity to an interrupt file: identity 0, a guest file above 7 and a file of an absent hart take none (R281). -/
def writeFile (hart file eiid : Nat) (s : State) : State :=
  if eiid ≠ 0 && file < 9 && hartPresent s hart then setPendingId (fileKey hart file) eiid s else s

/-- Sends the MSI of a pending enabled source and clears its pending bit. -/
def deliverSource (i : Nat) (s : State) : State :=
  let d := sourceDomain s i
  let enabled := bits (aplicReg s d 0 ) 8 1 = 1 && bits (aplicReg s d (0x1E00 + 4 * (i / 32))) (i % 32) 1 = 1
  if s.cluster.pend.getLsbD i && enabled then
    let t := aplicReg s d (0x3000 + 4 * i)
    writeFile (bits t 18 14) (if d = 0 then 0 else 1 + bits t 12 6) (bits t 0 11)
      { s with cluster := { s.cluster with pend := s.cluster.pend &&& ~~~(BitVec.ofNat 64 (2 ^ i)) } }
  else s

/-- A wired source rises. -/
def raiseSource (i : Nat) (s : State) : State :=
  if sourceMode s i = 4 || sourceMode s i = 6 then
    deliverSource i { s with cluster := { s.cluster with pend := s.cluster.pend ||| BitVec.ofNat 64 (2 ^ i) } }
  else s

/-- Sends an MSI-X vector of Port A, or leaves it pending while masked (R340). -/
def raiseVector (v : Nat) (s : State) : State :=
  if s.host.msixOpen.contains v then { s with host := { s.host with msix := s.host.msix ++ [v] } }
  else if s.host.msixPend.contains v then s
  else { s with host := { s.host with msixPend := v :: s.host.msixPend } }

/-! ## Events -/

/-- Whether the Dairyman can append records: it runs and is not restarting (R417). -/
def dairymanUp (s : State) : Bool := s.su.dairyman && !s.su.down

/-- The record of an event (R427). -/
def mkEvent (s : State) (code site : Nat) (cowbell : Bool) (payload : List Nat) : Event :=
  { code := BitVec.ofNat 16 code, site := BitVec.ofNat 8 site,
    flags := (if cowbell then 1#8 else 0#8) ||| (if s.cal.invalid then 2#8 else 0#8),
    number := s.ev.number, time := s.cal.time, tick := s.time, payload }

/-- Posts a record: the Cowbell's copy of the last 32, the log's pending batch, or the Cowbell's buffer of 64 while the
Dairyman cannot append (R417, R426). The Cowbell's own events show in 0x1001:01; one of class 0x08 raises source 5 and
MSI-X entry 256 (R282, R340, R348). -/
def postBy (cowbell : Bool) (code site : Nat) (payload : List Nat) (s : State) : State :=
  let r := mkEvent s code site cowbell payload
  let ev : EventBuf := { s.ev with number := s.ev.number + 1, tail := (s.ev.tail ++ [r]).drop (s.ev.tail.length - 31) }
  let ev : EventBuf :=
    if dairymanUp s then
      { ev with pendingRecs := ev.pendingRecs ++ [r], oldest := some (ev.oldest.getD s.time) }
    else if ev.cowbell.length < 64 then { ev with cowbell := ev.cowbell ++ [r] }
    else { ev with overflow := ev.overflow + 1 }
  let s := { s with ev := ev, su := { s.su with cowbellCode := if cowbell then BitVec.ofNat 16 code else s.su.cowbellCode } }
  if code / 256 = 8 then raiseSource 5 (raiseVector 256 s) else s

/-- Sets 0x1001:02; FAULT# is low exactly while it reads FALLBACK or FAULT (R417). -/
def setSupervisor (v : Nat) (s : State) : State :=
  { s with su := { s.su with supervisor := BitVec.ofNat 8 v, faultLow := v = 2 || v = 4 } }

/-- Posts an event of a site. -/
def post (code site : Nat) (payload : List Nat) (s : State) : State := postBy false code site payload s

/-- Posts an event the Cowbell records itself (R427). -/
def postCowbell (code : Nat) (payload : List Nat) (s : State) : State := postBy true code noSite payload s

/-! ## Dictionary values -/

/-- The key of object index:sub in the dictionary's value map. -/
def objKey (index sub : Nat) : Nat := 256 * index + sub

/-- A numeric object's value, or its default (R396). -/
def objNat (s : State) (index sub dflt : Nat) : Nat :=
  match SMap.find s.dict.values (objKey index sub) with
  | some b => leNat b
  | none => dflt

/-! ## Control -/

/-- Applies a state change for each member of a list in order. -/
def each {α : Type} (l : List α) (f : α → State → State) (s : State) : State := l.foldl (fun t x => f x t) s

/-- Does something only when a condition holds; otherwise the happening has not happened and nothing changes (log 1). -/
def guarded (b : Bool) (f : State → State) (s : State) : State := if b then f s else s

def answer (r : Response) (s : State) : State := { s with resp := r }

end Sys2Proof.Machine
end

