-- ==== Sys2Proof/Machine/Flags.lean ====
section
/-! DEFINITION. The flag word (R144) and how operations raise flags into it (R83, R84, R145). -/

namespace Sys2Proof.Machine

/-- A flag word (R144). -/
abbrev Flg := BitVec 32

def fNone : Flg := 0
def fInvalid : Flg := 1
def fDivZero : Flg := 2
def fOverflow : Flg := 4
def fUnderflow : Flg := 8
def fInexact : Flg := 16
def fSaturation : Flg := 32

/-- A flag when a condition holds. -/
def flagIf (b : Bool) (f : Flg) : Flg := if b then f else 0

/-- The union of flag words. -/
def flagsOr (l : List Flg) : Flg := l.foldl (· ||| ·) 0

/-- ORs flags into the die's pending flag word (R145). -/
def raise (f : Flg) (x : DieSt) : DieSt := { x with pendingFlags := x.pendingFlags ||| f }

end Sys2Proof.Machine
end

