-- ==== Sys2Proof/Machine/Formats.lean ====
section
/-! DEFINITION. Number formats (R69), element packing (R70), exact values, rounding and output conversion (R73, R81), the
keyed draw (R82) and IEEE arithmetic on exact values (R80, R135). -/

namespace Sys2Proof.Machine

/-! ## Formats -/

/-- The layout of a floating-point format (R69): width, exponent and fraction bits, bias, code of the largest finite value,
whether it has infinities, and the NaN it writes (R81). -/
structure Fmt where
  width : Nat
  exp : Nat
  frac : Nat
  bias : Nat
  maxCode : Nat
  hasInf : Bool
  nanCode : Nat
  deriving DecidableEq, Repr

/-- R69 by format code. -/
def fmtOf : Nat → Fmt
  | 0x0 => ⟨32, 8, 23, 127, 0x7F7FFFFF, true, 0x7FC00000⟩
  | 0x1 => ⟨16, 8, 7, 127, 0x7F7F, true, 0x7FC0⟩
  | 0x2 => ⟨16, 5, 10, 15, 0x7BFF, true, 0x7E00⟩
  | 0x3 => ⟨8, 4, 3, 7, 0x7E, false, 0x7F⟩
  | 0x4 => ⟨8, 5, 2, 15, 0x7B, true, 0x7E⟩
  | 0x5 => ⟨6, 3, 2, 3, 0x1F, false, 0⟩
  | 0x6 => ⟨6, 2, 3, 1, 0x1F, false, 0⟩
  | _ => ⟨4, 2, 1, 1, 0x7, false, 0⟩

/-- Element width in bits by format code (R69). -/
def fmtWidth : Nat → Nat
  | 0x0 => 32 | 0x1 => 16 | 0x2 => 16 | 0x3 => 8 | 0x4 => 8 | 0x5 => 6 | 0x6 => 6 | 0x7 => 4
  | 0x8 => 8 | 0x9 => 4 | 0xA => 2 | 0xB => 32 | _ => 64

def isFloatFmt (f : Nat) : Bool := f ≤ 7
def isMxFmt (f : Nat) : Bool := f == 5 || f == 6 || f == 7

/-- An exact floating-point value: sign, and for a finite one its magnitude m times 2^e. -/
inductive FVal where
  | nan (signalling : Bool)
  | inf (neg : Bool)
  | fin (neg : Bool) (m : Nat) (e : Int)
  deriving DecidableEq, Repr

/-- The value of an element code (R69). -/
def decodeF (fmt code : Nat) : FVal :=
  let f := fmtOf fmt
  let neg := bits code (f.width - 1) 1 = 1
  let ex := bits code f.frac f.exp
  let fr := bits code 0 f.frac
  let top := 2 ^ f.exp - 1
  if f.hasInf && ex = top then
    if fr = 0 then .inf neg else .nan (bits fr (f.frac - 1) 1 = 0)
  else if fmt = 3 && ex = top && fr = 7 then .nan false
  else if ex = 0 then .fin neg fr (1 - (f.bias : Int) - f.frac)
  else .fin neg (2 ^ f.frac + fr) ((ex : Int) - f.bias - f.frac)

def FVal.isZero : FVal → Bool
  | .fin _ 0 _ => true
  | _ => false

def FVal.isFinite : FVal → Bool
  | .fin _ _ _ => true
  | _ => false

/-- The exponent of the leading bit (R73). -/
def lead (m : Nat) (e : Int) : Int := (Nat.log2 m : Int) + e

/-- The integer nearest to m times 2^k, ties to even (R73). -/
def rneMag (m : Nat) (k : Int) : Nat :=
  if 0 ≤ k then m <<< k.toNat
  else
    let sh := (-k).toNat
    let q := m >>> sh
    let r := m % 2 ^ sh
    if 2 * r > 2 ^ sh || (2 * r = 2 ^ sh && q % 2 = 1) then q + 1 else q

/-- `rne_int` of an exact value t times 2^k (R73). -/
def rneInt (t : Int) (k : Int) : Int :=
  if t < 0 then -(rneMag t.natAbs k : Int) else (rneMag t.natAbs k : Int)

/-! ## Rounding -/

/-- A rounded code and its flags. -/
abbrev Rounded := Nat × Flg

def signBit (f : Fmt) (neg : Bool) : Nat := if neg then 2 ^ (f.width - 1) else 0

def infCode (f : Fmt) (neg : Bool) : Nat := signBit f neg + (2 ^ f.exp - 1) * 2 ^ f.frac

/-- overflow() of R81. MX formats have only the saturating behaviour (R137). -/
def overflowTo (fmt : Nat) (sat neg : Bool) : Rounded :=
  let f := fmtOf fmt
  let code :=
    if sat || isMxFmt fmt then signBit f neg + f.maxCode
    else if f.hasInf then infCode f neg
    else signBit f neg + f.nanCode
  (code, fOverflow ||| fInexact)

/-- How `round_fp` rounds: to nearest even, or up when the fraction plus r reaches one (R81, R82). -/
inductive RMode where
  | nearest
  | stochastic (r : Nat)
  deriving DecidableEq, Repr

/-- Whether quotient q with remainder rem out of 2^sh rounds up (R81). -/
def roundsUp (mode : RMode) (q rem sh : Nat) : Bool :=
  match mode with
  | .nearest => 2 * rem > 2 ^ sh || (2 * rem = 2 ^ sh && q % 2 = 1)
  | .stochastic r => rem * 2 ^ 32 + r * 2 ^ sh ≥ 2 ^ 32 * 2 ^ sh

/-- `round_fp` of R81 on the exact value ± m times 2^e. -/
def roundFp (fmt : Nat) (mode : RMode) (sat neg : Bool) (m : Nat) (e : Int) : Rounded :=
  let f := fmtOf fmt
  if m = 0 then (signBit f neg, 0)
  else
    let emin : Int := 1 - f.bias
    let gx := max (lead m e) emin - f.frac
    let sh := (gx - e).toNat
    let q := if e ≥ gx then m <<< (e - gx).toNat else m >>> sh
    let rem := if e ≥ gx then 0 else m % 2 ^ sh
    let q' := if rem ≠ 0 && roundsUp mode q rem sh then q + 1 else q
    let code := (gx + f.frac + f.bias - 1).toNat * 2 ^ f.frac + q'
    if code > f.maxCode then overflowTo fmt sat neg
    else
      (signBit f neg + code,
        flagIf (rem ≠ 0) fInexact ||| flagIf (rem ≠ 0 && code < 2 ^ f.frac) fUnderflow)

/-- The output conversion of a drain or of CVT (R81, R137): finite values by `round_fp`, NaN and infinite values by the
table of R81. A signalling NaN raises invalid only where the caller says so. -/
def convertF (fmt : Nat) (mode : RMode) (sat : Bool) (v : FVal) : Rounded :=
  let f := fmtOf fmt
  match v with
  | .nan _ => (f.nanCode, 0)
  | .inf neg => if fmt = 0 || (f.hasInf && !sat) then (infCode f neg, 0) else overflowTo fmt sat neg
  | .fin neg m e => roundFp fmt mode sat neg m e

/-! ## Exact arithmetic -/

/-- The signed integer a finite magnitude stands for at a lower exponent. -/
def scaleTo (neg : Bool) (m : Nat) (e lo : Int) : Int :=
  let x : Int := (m <<< (e - lo).toNat : Nat)
  if neg then -x else x

/-- Rounds an IEEE result in an element type: a NaN is the type's NaN, an exact infinity is written without flags (R135). -/
def finishF (fmt : Nat) (sat : Bool) (v : FVal) : Rounded :=
  let f := fmtOf fmt
  match v with
  | .nan _ => (f.nanCode, 0)
  | .inf neg => (infCode f neg, 0)
  | .fin neg m e => roundFp fmt .nearest sat neg m e

def FVal.snan : FVal → Bool
  | .nan s => s
  | _ => false

def FVal.isNan : FVal → Bool
  | .nan _ => true
  | _ => false

def FVal.flip : FVal → FVal
  | .nan s => .nan s
  | .inf n => .inf !n
  | .fin n m e => .fin (!n) m e

/-- The exact sum of finite values; an exact zero of opposite signs is +0 (R80, R135). -/
def addExact (na : Bool) (ma : Nat) (ea : Int) (nb : Bool) (mb : Nat) (eb : Int) : FVal :=
  let lo := min ea eb
  let z := scaleTo na ma ea lo + scaleTo nb mb eb lo
  if z = 0 then .fin (na && nb) 0 0 else .fin (z < 0) z.natAbs lo

/-- a + b before rounding, with the flag of an invalid operation (R80, R135). -/
def addF (a b : FVal) : FVal × Flg :=
  match a, b with
  | .nan s, b => (.nan false, flagIf (s || b.snan) fInvalid)
  | _, .nan s => (.nan false, flagIf s fInvalid)
  | .inf x, .inf y => if x = y then (.inf x, 0) else (.nan false, fInvalid)
  | .inf x, .fin _ _ _ => (.inf x, 0)
  | .fin _ _ _, .inf y => (.inf y, 0)
  | .fin na ma ea, .fin nb mb eb => (addExact na ma ea nb mb eb, 0)

/-- a × b before rounding (R135). -/
def mulF (a b : FVal) : FVal × Flg :=
  match a, b with
  | .nan s, b => (.nan false, flagIf (s || b.snan) fInvalid)
  | _, .nan s => (.nan false, flagIf s fInvalid)
  | .inf x, .inf y => (.inf (x != y), 0)
  | .inf x, .fin y m _ => if m = 0 then (.nan false, fInvalid) else (.inf (x != y), 0)
  | .fin x m _, .inf y => if m = 0 then (.nan false, fInvalid) else (.inf (x != y), 0)
  | .fin x ma ea, .fin y mb eb => (.fin (x != y) (ma * mb) (ea + eb), 0)

/-- a × b + c before rounding; 0 × Inf is invalid whatever c is (R135). -/
def fmaF (a b c : FVal) : FVal × Flg :=
  let (p, f1) := mulF a b
  let (r, f2) := addF p c
  (r, f1 ||| f2)

/-- Whether a value is below another; −0 is below +0 (R135's order for MIN and MAX). -/
def ltTotal (a b : FVal) : Bool :=
  match a, b with
  | .fin na ma ea, .fin nb mb eb =>
    if ma = 0 && mb = 0 then na && !nb
    else
      let lo := min ea eb
      scaleTo na ma ea lo < scaleTo nb mb eb lo
  | .inf x, .inf y => x && !y
  | .inf x, _ => x
  | _, .inf y => !y
  | _, _ => false

/-- Numeric comparison of two values that are not NaN: zeros are equal. -/
def ltNum (a b : FVal) : Bool := ltTotal a b && !(a.isZero && b.isZero)

/-! ## Integers -/

/-- Clamps to n bits two's complement. -/
def clampInt (n : Nat) (z : Int) : Int := max (-(2 ^ (n - 1) : Int)) (min (2 ^ (n - 1) - 1) z)

/-- The n-bit code of an integer. -/
def intCode (n : Nat) (z : Int) : Nat := (z % (2 ^ n : Int)).toNat

/-- An integer result: wraps, or under SAT clamps and raises saturation (R136). -/
def intResult (n : Nat) (sat : Bool) (z : Int) : Int × Flg :=
  if sat then (clampInt n z, flagIf (clampInt n z ≠ z) fSaturation) else (signed n (intCode n z), 0)

/-- The exact value of an integer as a float value. -/
def FVal.ofInt (z : Int) : FVal := .fin (z < 0) z.natAbs 0

/-! ## Packing -/

/-- Element k of a record of w-bit elements (R70). -/
def unpack (l : List Byte) (w k : Nat) : Nat := bits (leNat ((l.drop (w * k / 8)).take ((w + 14) / 8 + 1))) (w * k % 8) w

/-- All n elements of a record (R70). -/
def unpackAll (l : List Byte) (w n : Nat) : List Nat := (List.range n).map (unpack l w)

/-- The number whose w-bit digits are the elements. -/
def packNat (w : Nat) : List Nat → Nat
  | [] => 0
  | x :: xs => x % 2 ^ w + 2 ^ w * packNat w xs

/-- A record of w-bit elements as bytes (R70). -/
def packAll (w : Nat) (l : List Nat) : List Byte := leBytes ((w * l.length + 7) / 8) (packNat w l)

/-! ## Scales and alignment -/

/-- The exponent of an MX scale byte; none for 0xFF (R69). -/
def mxExp (x : Nat) : Option Int := if x = 0xFF then none else some ((x : Int) - 127)

/-- A value times 2^k. -/
def FVal.scale (k : Int) : FVal → FVal
  | .fin n m e => .fin n m (e + k)
  | v => v

/-- The largest leading exponent of the finite nonzero values (R73). -/
def maxLead : List FVal → Option Int
  | [] => none
  | .fin _ m e :: xs =>
    if m = 0 then maxLead xs
    else match maxLead xs with
      | some x => some (max x (lead m e))
      | none => some (lead m e)
  | _ :: xs => maxLead xs

/-- The values as integers with their common top bit at `top` (R73). -/
def alignAt (top : Nat) (e : Int) (xs : List FVal) : List Int :=
  xs.map fun v => match v with
    | .fin n m ex => if n then -(rneMag m (ex + top - e) : Int) else (rneMag m (ex + top - e) : Int)
    | _ => 0

/-- `align` of R73: the LSB exponent and the integers. -/
def align (top : Nat) (xs : List FVal) : Option Int × List Int :=
  match maxLead xs with
  | none => (none, xs.map fun _ => 0)
  | some e =>
    let v := alignAt top e xs
    if v.all (fun z => z.natAbs ≤ 2 ^ (top + 1) - 1) then (some (e - top), v)
    else (some (e + 1 - top), alignAt top (e + 1) xs)

/-! ## The keyed draw -/

/-- `mix64` of R82. -/
def mix64 (z : W64) : W64 :=
  let z := (z ^^^ (z >>> 30)) * 0xBF58476D1CE4E5B9
  let z := (z ^^^ (z >>> 27)) * 0x94D049BB133111EB
  z ^^^ (z >>> 31)

/-- `draw` of R82: 32 bits. -/
def draw (job : W64) (column index : Nat) : Nat :=
  let c : W64 := BitVec.ofNat 64 (column * 2 ^ 32 + index)
  ((mix64 (job ^^^ mix64 (c + 0x9E3779B97F4A7C15))) >>> 32).toNat

/-! ## Elements of a byte list -/

/-- The first n elements of w bytes of a byte list. -/
def elems (w : Nat) : Nat → List Byte → List Nat
  | 0, _ => []
  | n + 1, l => leNat (l.take w) :: elems w n (l.drop w)

/-- Elements as bytes. -/
def elemBytes (w : Nat) (l : List Nat) : List Byte := (l.map (leBytes w)).flatten

end Sys2Proof.Machine
end

