-- ==== Sys2Proof/Machine/SpecialFn.lean ====
section
/-! DEFINITION. The special functions of the Churn (R139): the exact mathematical value rounded once. RECIP and RSQRT round
from exact integer quotients; the others bound the exact value in fixed point and round both bounds (log 11). -/

namespace Sys2Proof.Machine

/-- Fixed-point fraction bits. -/
def fxP : Nat := 320
def fxOne : Nat := 2 ^ fxP
/-- Bound on the accumulated error, in units of 2^-320. -/
def fxErr : Nat := 2 ^ 80

/-- Sum of a power series: each term is the last times x2 over 2^320, divided by `den k` when added; fuel terms. -/
def fxSeries (x2 : Int) (den : Nat → Nat) : Nat → Nat → Int → Int → Int
  | 0, _, _, acc => acc
  | fuel + 1, k, t, acc => fxSeries x2 den fuel (k + 1) (t * x2 / fxOne) (acc + t / den k)

/-- Taylor sum of exp for a signed argument of magnitude below 1. -/
def fxExpTerms (r : Int) : Nat → Nat → Int → Int → Int
  | 0, _, _, acc => acc
  | fuel + 1, k, t, acc => fxExpTerms r fuel (k + 1) (t * r / fxOne / (k + 1 : Nat)) (acc + t)

def fxExp (r : Int) : Int := fxExpTerms r 90 0 fxOne 0

/-- ln (a / b) for 1 ≤ a / b ≤ 2. -/
def fxLn (a b : Nat) : Int :=
  let z : Int := ((a - b) * fxOne / (a + b) : Nat)
  2 * fxSeries (z * z / fxOne) (fun k => 2 * k + 1) 110 0 z 0

def fxLn2 : Int := fxLn 2 1

/-- exp (-y) for y ≥ 0. -/
def fxExpNeg (y : Int) : Int :=
  let n := (y / fxLn2).toNat
  if n > 2 * fxP then 0 else fxExp (-(y - n * fxLn2)) / 2 ^ n

def fxAtanInv (n : Nat) : Int := fxSeries (-(fxOne / (n * n) : Nat)) (fun k => 2 * k + 1) 150 0 ((fxOne / n : Nat) : Int) 0

def fxPi : Int := 16 * fxAtanInv 5 - 4 * fxAtanInv 239

/-- Σ (-1)^k x^(2k+1) / (k! (2k+1)) for |x| < 6. -/
def fxErfTerms (x2 : Int) : Nat → Nat → Int → Int → Int
  | 0, _, _, acc => acc
  | fuel + 1, k, t, acc => fxErfTerms x2 fuel (k + 1) (-(t * x2 / fxOne) / (k + 1 : Nat)) (acc + t / (2 * k + 1 : Nat))

def fxErf (x : Int) : Int := 2 * fxErfTerms (x * x / fxOne) 420 0 x 0 * fxOne / (Nat.sqrt (fxPi.toNat * fxOne))

/-- Rounds a value known to lie within the error bound of v times 2^k (in units of 2^-320) and to be inexact (R139). -/
def roundBound (fn fmt code : Nat) (sat neg : Bool) (v : Int) (k : Int) : Rounded :=
  let lo := (v - fxErr).toNat
  let hi := (v + fxErr).toNat
  let a := roundFp fmt .nearest sat neg lo (k - fxP)
  let b := roundFp fmt .nearest sat neg hi (k - fxP)
  let c := if a.1 = b.1 then a.1 else Config.specialTail fn fmt code
  let f := fmtOf fmt
  (c, if b.2 &&& fOverflow ≠ 0 then fOverflow ||| fInexact
      else fInexact ||| flagIf (bits c 0 (f.width - 1) < 2 ^ f.frac) fUnderflow)

/-- m times 2^e in units of 2^-320. -/
def toFx (m : Nat) (e : Int) : Int := (if 0 ≤ e + fxP then m <<< (e + fxP).toNat else m >>> (-(e + fxP)).toNat : Nat)

/-- 2^x. -/
def fnExp2 (fmt code : Nat) (sat neg : Bool) (m : Nat) (e : Int) : Rounded :=
  if lead m e ≥ 9 then
    if neg then (0, fInexact ||| fUnderflow) else overflowTo fmt sat false
  else
    let x : Int := if neg then -(toFx m e) else toFx m e
    let n := x / fxOne
    let f := x % fxOne
    if f = 0 then roundFp fmt .nearest sat false 1 n
    else roundBound 0x40 fmt code sat false (fxExp (f * fxLn2 / fxOne)) n

/-- log2 x for x > 0. -/
def fnLog2 (fmt code : Nat) (sat : Bool) (m : Nat) (e : Int) : Rounded :=
  let b := Nat.log2 m
  let k : Int := e + b
  if m = 2 ^ b then roundFp fmt .nearest sat (k < 0) k.natAbs 0
  else
    let v := k * fxOne + fxLn m (2 ^ b) * fxOne / fxLn2
    roundBound 0x41 fmt code sat (v < 0) (if v < 0 then -v else v) 0

/-- Rounds q / 2^s, with a sticky bit for a remainder. -/
def roundSticky (fmt : Nat) (sat neg : Bool) (q : Nat) (sticky : Bool) (e : Int) : Rounded :=
  roundFp fmt .nearest sat neg (2 * q + (if sticky then 1 else 0)) (e - 1)

def fnRecip (fmt : Nat) (sat neg : Bool) (m : Nat) (e : Int) : Rounded :=
  roundSticky fmt sat neg (2 ^ 80 / m) (2 ^ 80 % m ≠ 0) (-e - 80)

def fnRsqrt (fmt : Nat) (sat : Bool) (m : Nat) (e : Int) : Rounded :=
  let (m, e) := if e % 2 = 0 then (m, e) else (2 * m, e - 1)
  let q := Nat.sqrt (2 ^ 160 / m)
  roundSticky fmt sat false q (q * q * m ≠ 2 ^ 160) (-e / 2 - 80)

def fnTanh (fmt code : Nat) (sat neg : Bool) (m : Nat) (e : Int) : Rounded :=
  let t := if lead m e ≥ 9 then 0 else fxExpNeg (2 * toFx m e)
  roundBound 0x44 fmt code sat neg ((fxOne - t) * fxOne / (fxOne + t)) 0

def fnSigmoid (fmt code : Nat) (sat neg : Bool) (m : Nat) (e : Int) : Rounded :=
  let t := if lead m e ≥ 9 then 0 else fxExpNeg (toFx m e)
  let v := if neg then t * fxOne / (fxOne + t) else fxOne * fxOne / (fxOne + t)
  roundBound 0x45 fmt code sat false v 0

def fnErf (fmt code : Nat) (sat neg : Bool) (m : Nat) (e : Int) : Rounded :=
  let v := if toFx m (min e 100) ≥ 6 * fxOne then (fxOne : Int) - 2 ^ (fxP - 60) else fxErf (toFx m e)
  roundBound 0x46 fmt code sat neg v 0

/-- A special function of one element (R139): the opcode selects it; edges by the table. -/
def specialFn (fn fmt : Nat) (sat : Bool) (code : Nat) : Rounded :=
  let f := fmtOf fmt
  let one := roundFp fmt .nearest false false 1 0
  let nan : Rounded := (f.nanCode, fInvalid)
  match decodeF fmt code with
  | .nan s => (f.nanCode, flagIf s fInvalid)
  | .inf n =>
    if fn = 0x40 then (if n then 0 else infCode f false, 0)
    else if fn = 0x41 then (if n then nan else (infCode f false, 0))
    else if fn = 0x42 then (signBit f n, 0)
    else if fn = 0x43 then (if n then nan else (0, 0))
    else if fn = 0x45 then (if n then 0 else one.1, 0)
    else (signBit f n + one.1, 0)
  | .fin n m e =>
    if m = 0 then
      if fn = 0x40 then one
      else if fn = 0x41 then (infCode f true, fDivZero)
      else if fn = 0x42 || fn = 0x43 then (infCode f n, fDivZero)
      else if fn = 0x45 then roundFp fmt .nearest false false 1 (-1)
      else (signBit f n, 0)
    else if fn = 0x40 then fnExp2 fmt code sat n m e
    else if fn = 0x41 then (if n then nan else fnLog2 fmt code sat m e)
    else if fn = 0x42 then fnRecip fmt sat n m e
    else if fn = 0x43 then (if n then nan else fnRsqrt fmt sat m e)
    else if fn = 0x44 then fnTanh fmt code sat n m e
    else if fn = 0x45 then fnSigmoid fmt code sat n m e
    else fnErf fmt code sat n m e

end Sys2Proof.Machine
end

