-- ==== Sys2Proof/Machine/Memory.lean ====
section
/-! DEFINITION. The unified range: its extent (R149), the storage behind it (R325), homes (R254), keys (R383, R384), poison
(R266), line reads and writes, and the agents' coherent view of them (R253, R257, R237). -/

namespace Sys2Proof.Machine

/-! ## Extent -/

def gib : Nat := 2 ^ 30
def granBytes : Nat := 65536
/-- Base of the unified range (R9). -/
def unifiedBase : Nat := 0x100000000

/-- Index of a stack or a DRAM channel among the sites of R33. -/
def siteUnit (u : Nat) : Nat := 16 + u

/-- Granules of storage a unit holds, retired ones included: 48 GiB a stack, its module a channel; none when absent (R320,
R322, R447). -/
def unitCap (s : State) (u : Nat) : Nat :=
  if (unitOf s u).mtype = 0 then 0
  else if u < 16 then 48 * gib / granBytes
  else match s.su.board.modules.find? (fun m => m.1 == u - 16) with
    | some (_, m) => m.gib * gib / granBytes
    | none => 0

def hbmUnits : List Nat := List.range 16
def farUnits : List Nat := (List.range 16).map (· + 16)

def sumList (l : List Nat) : Nat := l.foldl (· + ·) 0

def hbmGranules (s : State) : Nat := sumList (hbmUnits.map (unitCap s))
def farGranules (s : State) : Nat := sumList (farUnits.map (unitCap s))

/-- M + 1 GiB of R149, in granules: the placement map and the firmware area at the top of the DRAM storage. -/
def reservedGranules (s : State) : Nat :=
  let bytes := (hbmGranules s + farGranules s) * granBytes
  ((bytes / 8192 + gib - 1) / gib + 1) * gib / granBytes

/-- L of R149 in bytes. -/
def unifiedLen (s : State) : Nat := (hbmGranules s + farGranules s - reservedGranules s) * granBytes

/-- Whether n bytes from an address lie within the unified range (R9). -/
def inUnified (s : State) (a n : Nat) : Bool := unifiedBase ≤ a && a + n ≤ unifiedBase + unifiedLen s

def granuleOf (a : Nat) : Nat := (a - unifiedBase) / granBytes
def granuleAddr (g : Nat) : Nat := unifiedBase + g * granBytes

/-! ## Storage granules -/

/-- Granules of a channel that the map and the firmware area take from its top: those above it are taken first (R149). -/
def reservedIn (s : State) (u : Nat) : Nat :=
  let above := sumList ((farUnits.filter (fun v => u < v)).map (unitCap s))
  if u < 16 then 0 else min (unitCap s u) (reservedGranules s - above)

def usableCap (s : State) (u : Nat) : Nat := unitCap s u - reservedIn s u

/-- The tier index of granule g of a unit (R325). -/
def locOf (u g : Nat) : Nat := (u % 16) * 2 ^ 24 + g

def usedIn (s : State) (hbm : Bool) : List Nat := if hbm then s.sep.usedHbm else s.sep.usedFar

/-- The lowest free granule of a unit: in no use and not withdrawn. -/
def freeIn (s : State) (hbm : Bool) (u : Nat) : Option Nat :=
  let taken := ((usedIn s hbm).filter (fun l => l / 2 ^ 24 == u % 16)).map (· % 2 ^ 24)
    ++ ((s.sep.withdrawn.filter (fun w => w.1 == u)).map (·.2))
  ((List.range (taken.length + 1)).find? (fun g => !taken.contains g)).bind
    (fun g => if g < usableCap s u && !(unitOf s u).tripped then some g else none)

/-- Free granules of a tier (R160), retired ones left out. -/
def freeCount (s : State) (hbm : Bool) : Nat :=
  let units := if hbm then hbmUnits else farUnits
  sumList (units.map (usableCap s)) - (usedIn s hbm).length
    - (s.sep.withdrawn.filter (fun w => (w.1 < 16) == hbm && w.2 < usableCap s w.1)).length

/-- The units of a tier in the order a placement tries them (R325): the accessing die's stacks first, then round-robin. -/
def unitOrder (s : State) (hbm : Bool) (die : Option Nat) : List Nat :=
  let rot := (List.range 16).map (fun i => (s.sep.rr + i) % 16 + (if hbm then 0 else 16))
  match die, hbm with
  | some d, true => [2 * d, 2 * d + 1] ++ rot
  | _, _ => rot

/-- A free storage granule of a tier for a placement, as a LOCATION (R325). -/
def pickFree (s : State) (hbm : Bool) (die : Option Nat) : Option Nat :=
  (unitOrder s hbm die).findSome? (fun u => (freeIn s hbm u).map (locOf u))

/-- Takes a storage granule out of the free pool. -/
def takeLoc (s : State) (hbm : Bool) (loc : Nat) : State :=
  if hbm then { s with sep := { s.sep with usedHbm := loc :: s.sep.usedHbm, rr := (loc / 2 ^ 24 + 1) % 16 } }
  else { s with sep := { s.sep with usedFar := loc :: s.sep.usedFar, rr := (loc / 2 ^ 24 + 1) % 16 } }

/-- Returns a storage granule to the free pool. -/
def freeLoc (s : State) (hbm : Bool) (loc : Nat) : State :=
  if hbm then { s with sep := { s.sep with usedHbm := s.sep.usedHbm.filter (· != loc) } }
  else { s with sep := { s.sep with usedFar := s.sep.usedFar.filter (· != loc) } }

/-! ## Homes -/

/-- The home of storage: the die of a stack, the processor die of a channel (R254). -/
def homeOfLoc (hbm : Bool) (loc : Nat) : Nat :=
  let u := loc / 2 ^ 24
  if hbm then u / 2 else if u < 8 then 8 else 9

/-- The home of the line at an address; a MOVING granule has its old home (R155). -/
def homeOf (s : State) (a : Nat) : Nat :=
  let g := granOf s (granuleOf a)
  match g.state, SMap.find s.moves (granuleOf a) with
  | .hbm, _ => homeOfLoc true g.location.toNat
  | .far, _ => homeOfLoc false g.location.toNat
  | .moving, some m => homeOfLoc m.fromHbm m.source.toNat
  | _, _ => 10

/-! ## Keys -/

/-- The key accesses to a granule go under: none where Shared mode has no key for its owner (R383, R384); the empty list is
the package key. -/
def keyOf (s : State) (g : Nat) : Option (List Byte) :=
  let c := (granOf s g).owner.toNat
  match SMap.find s.sec.memKeys c with
  | some k => some k.key
  | none => if s.sec.mode = 1 && c ≠ 0 then none else some []

/-- The key a line was last written under. -/
def storedKey (s : State) (l : Nat) : List Byte :=
  (SMap.get none s.sec.lineKey l).getD (SMap.get [] s.sec.granKey (granuleOf (64 * l)))

/-- 0x0907, once per context until its slot is set (R384). -/
def noKey (a : Nat) (s : State) : State :=
  let c := (granOf s (granuleOf a)).owner.toNat
  if s.sec.noKeyPosted.contains c then s
  else post 0x0907 noSite [c, a] { s with sec := { s.sec with noKeyPosted := c :: s.sec.noKeyPosted } }

/-! ## Lines in memory -/

/-- Whether a granule's storage lies in a stack whose rail has tripped (R356). -/
def stackLost (s : State) (g : Nat) : Bool :=
  let x := granOf s g
  match x.state, SMap.find s.moves g with
  | .hbm, _ => (unitOf s (x.location.toNat / 2 ^ 24)).tripped
  | .moving, some m => m.fromHbm && (unitOf s (m.source.toNat / 2 ^ 24)).tripped
  | _, _ => false

/-- Whether a line is poisoned: marked so, homed by a home that stays out of the domain, or in a lost stack (R266, R267,
R356). -/
def poisoned (s : State) (l : Nat) : Bool :=
  s.dom.poison.contains l || s.dom.out.contains (homeOf s (64 * l)) || stackLost s (granuleOf (64 * l))

/-- A line of memory as its controller returns it (R383, R384). -/
def memLine (s : State) (l : Nat) : LineData :=
  match keyOf s (granuleOf (64 * l)) with
  | none => zeros 64
  | some k =>
    if k = storedKey s l then ByteMap.read s.mem (64 * l) 64
    else (List.range 64).map fun i => Config.wrongKey (storedKey s l) k (64 * l + i)

/-- Writes the masked bytes of a line (R266, R383, R384). -/
def memStoreLine (l : Nat) (mask : BitVec 64) (data : LineData) (s : State) : State :=
  match keyOf s (granuleOf (64 * l)) with
  | none => noKey (64 * l) s
  | some k =>
    let new := mergeLine mask data (memLine s l)
    let base := SMap.get [] s.sec.granKey (granuleOf (64 * l))
    { s with
      mem := ByteMap.write s.mem (64 * l) new,
      sec := { s.sec with lineKey := SMap.set none s.sec.lineKey l (if k = base then none else some k) },
      dom := { s.dom with poison := if mask = BitVec.allOnes 64 then s.dom.poison.filter (· != l) else s.dom.poison } }

/-! ## The coherent view -/

/-- The L3 copy of a line on Pm. -/
def l3Line (s : State) (m l : Nat) : Option L3Line := SMap.find s.dom.l3 (2 * l + m)

/-- The data of a line as an owner's copy or memory gives it (R257). -/
def heldLine (s : State) (l : Nat) : LineData :=
  match l3Line s 0 l, l3Line s 1 l with
  | some ⟨.m, d, _⟩, _ => d
  | some ⟨.o, d, _⟩, _ => d
  | _, some ⟨.m, d, _⟩ => d
  | _, some ⟨.o, d, _⟩ => d
  | _, _ => memLine s l

/-! ## Bandwidth and occupancy (R287, R288) -/

/-- The key of an RCID's or MCID's entry at a CBQRI controller (R287). -/
def cbqriKey (ctrl id : Nat) : Nat := 4096 * ctrl + id

/-- The unit and granule that a LOCATION of a tier names (R325). -/
def unitAt (hbm : Bool) (loc : Nat) : Nat × Nat := (loc / 2 ^ 24 + (if hbm then 0 else 16), loc % 2 ^ 24)

/-- Where a unified granule's storage lies: its tier and LOCATION; none while UNPLACED or MOVING. -/
def storageOf (s : State) (g : Nat) : Option (Bool × Nat) :=
  let x := granOf s g
  match x.state with
  | .hbm => some (true, x.location.toNat)
  | .far => some (false, x.location.toNat)
  | _ => none

/-- Counts bytes of a request at the controller of the unit that holds a line, under its MCID, when that counter's event selects them: 1 reads and
writes, 2 reads, 3 writes (R287, R288; logs 68 and 134). -/
def noteTraffic (t : ReqTag) (write : Bool) (n l : Nat) (s : State) : State :=
  match storageOf s (granuleOf (64 * l)) with
  | none => s
  | some (hbm, loc) =>
    let k := cbqriKey (12 + (unitAt hbm loc).1) t.mcid
    let e := SMap.get 0 s.cluster.monEvents k
    if e = 1 || e = (if write then 3 else 2) then
      { s with cluster := { s.cluster with monitors := SMap.upd 0 s.cluster.monitors k (· + BitVec.ofNat 64 n) } }
    else s

/-- Counts an access of n bytes from an address up, line by line. -/
def noteBytes (t : ReqTag) (write : Bool) (a n : Nat) (s : State) : State :=
  each (List.range ((a % 64 + n + 63) / 64)) (fun i => noteTraffic t write 64 (a / 64 + i)) s

/-- The tags of a request that serves a context: its RCID, and an MCID equal to it (R288). -/
def ctxTag (s : State) (c : Nat) : ReqTag := let r := (ctxOf s c).rcid.toNat; { rcid := r, mcid := r }

/-- Data of a line that a Shank message carries. -/
def msgData (l : Nat) (m : ShankMsg) : Option LineData :=
  if m.line ≠ l then none else match m.kind with | .data d _ => some d | .recallData d => some d | _ => none

/-- The current data of a line; while it is BUSY it may be on its way between agents (R257, R258). -/
def cohLine (s : State) (l : Nat) : LineData :=
  match SMap.find s.dom.busy l with
  | none => heldLine s l
  | some b =>
    match s.dom.net.findSome? (msgData l) with
    | some d => d
    | none => b.recalled.getD (heldLine s l)

/-- n bytes of the coherent view. -/
def cohRead (s : State) (a n : Nat) : List Byte :=
  let first := a / 64
  let lines := (List.range ((a + n + 63) / 64 - first)).map (fun i => cohLine s (first + i))
  (lines.flatten.drop (a % 64)).take n

/-- Enters an invalidation of a line in a die's queue, applying the oldest entry first when all 64 are in use (R237). -/
def queueInval (l : Nat) (now : BitVec 64) (x : DieSt) : DieSt :=
  match SMap.find x.edge l with
  | none => x
  | some _ =>
    let x := match x.invQueue with
      | (o, _) :: rest => if x.invQueue.length < 64 then x else { x with edge := SMap.del x.edge o, invQueue := rest }
      | [] => x
    { x with invQueue := x.invQueue ++ [(l, now)] }

/-- A little-endian number of n bytes in the coherent view. -/
def cohNum (s : State) (a n : Nat) : Nat := leNat (cohRead s a n)

/-- Applies every queued invalidation of a die: what ACQUIRE does to the edge cache (R238). -/
def applyInvals (x : DieSt) : DieSt :=
  { x with edge := x.invQueue.foldl (fun e p => SMap.del e p.1) x.edge, invQueue := [] }

end Sys2Proof.Machine
end

