-- ==== Sys2Proof/Machine/CohCore.lean ====
section
/-! DEFINITION. The coherence protocol (R253 to R263): what a home and an agent do with each message, and the accesses that
engines and the IO agent make through the homes. An access here first lets the transaction that holds its line BUSY run to
its end (R258, log 65). -/

namespace Sys2Proof.Machine

/-! ## What a home does to data -/

/-- One element of a reduction (R262): no flag is kept. -/
def reduceElem (op m x : Nat) : Nat :=
  let ty := if op % 2 = 0 then 1 else 0
  if op = 6 then (m + x) % 2 ^ 32
  else
    let a := decodeF ty m
    let b := decodeF ty x
    if op < 2 then (finishF ty false (addF a b).1).1
    else if a.isNan || b.isNan then (fmtOf ty).nanCode
    else if op < 4 then (if ltTotal a b then x else m)
    else (if ltTotal b a then x else m)

/-- A Reduce applied to a line, element by element (R262). -/
def reduceData (op : Nat) (mem data : LineData) : LineData :=
  let w := if op = 6 || op % 2 = 1 then 4 else 2
  elemBytes w (List.zipWith (reduceElem op) (elems w (64 / w) mem) (elems w (64 / w) data))

/-- The new value an atomic writes (R261). -/
def amoResult (k : AmoKind) (w : Nat) (old operand : Nat) : Nat :=
  let so := signed w old
  let sx := signed w operand
  match k with
  | .swap => operand % 2 ^ w
  | .add => (old + operand) % 2 ^ w
  | .xor => old ^^^ (operand % 2 ^ w)
  | .and => old &&& (operand % 2 ^ w)
  | .or => old ||| (operand % 2 ^ w)
  | .min => if so ≤ sx then old else operand % 2 ^ w
  | .max => if sx ≤ so then old else operand % 2 ^ w
  | .minu => min old (operand % 2 ^ w)
  | .maxu => max old (operand % 2 ^ w)
  | .cas e => if old = e.toNat % 2 ^ w then operand % 2 ^ w else old

/-- An atomic on a line: the old value, sign-extended from 4 bytes, and the new line. -/
def amoLine (op : AtomicOp) (line : LineData) : W64 × LineData :=
  let n := if op.double then 8 else 4
  let old := fieldAt line op.offset.toNat n
  (BitVec.ofInt 64 (signed (8 * n) old), putBytes line op.offset.toNat (leBytes n (amoResult op.kind (8 * n) old op.operand.toNat)))

/-- Rewrites a whole line at its home; its poison stays (R266). -/
def memRewrite (l : Nat) (data : LineData) (s : State) : State :=
  let t := memStoreLine l (BitVec.allOnes 64) data s
  { t with dom := { t.dom with poison := s.dom.poison } }

def updHome (h : Nat) (f : Home → Home) (s : State) : State :=
  { s with dom := { s.dom with homes := SMap.upd {} s.dom.homes h f } }

/-! ## Directory and messages -/

/-- Sites as agents: C0-C7, P0-P1 and IO (R253). -/
def isL3 (a : Nat) : Bool := a = 8 || a = 9
def agentIO : Nat := 10

def dirOf (s : State) (l : Nat) : DirEnt := SMap.get {} s.dom.dir l
def setDir (l : Nat) (e : DirEnt) (s : State) : State := { s with dom := { s.dom with dir := SMap.set {} s.dom.dir l e } }

def ownerOf (e : DirEnt) : Option Nat := if e.st == .em || e.st == .o then some e.owner.toNat else none
def sharersOf (e : DirEnt) : List Nat := (List.range 11).filter e.sharers.getLsbD
def sharerMask (l : List Nat) : BitVec 11 := l.foldl (fun v a => v ||| BitVec.ofNat 11 (2 ^ a)) 0

/-- Every holder a directory entry names. -/
def holdersOf (e : DirEnt) : List Nat := sharersOf e ++ (ownerOf e).toList.filter fun o => !(sharersOf e).contains o

def sendMsg (k : MsgKind) (src dst l : Nat) (s : State) : State :=
  { s with dom := { s.dom with net := s.dom.net ++ [⟨k, src, dst, l⟩] } }

def busyOf (s : State) (l : Nat) : Option Busy := SMap.find s.dom.busy l
def putBusy (l : Nat) (b : Busy) (s : State) : State := { s with dom := { s.dom with busy := SMap.put s.dom.busy l b } }
def endBusy (l : Nat) (s : State) : State := { s with dom := { s.dom with busy := SMap.del s.dom.busy l } }

def l3Key (a l : Nat) : Nat := 2 * l + (a - 8)
def dropL3 (a l : Nat) (s : State) : State := { s with dom := { s.dom with l3 := SMap.del s.dom.l3 (l3Key a l) } }
def l3At (s : State) (a l : Nat) : Option L3Line := if isL3 a then l3Line s (a - 8) l else none

/-- What is left in the directory when an owner or sharer gives its copy up. -/
def withoutHolder (a : Nat) (e : DirEnt) : DirEnt :=
  let rest := (sharersOf e).filter (· != a)
  let owned := (ownerOf e).filter (· != a)
  if owned.isSome then { e with sharers := sharerMask rest }
  else if rest.isEmpty then {} else { st := .s, sharers := sharerMask rest }

/-! ## The caches of a processor die (R275, R287; log 135) -/

def l3Ways : Nat := 18
/-- Sets of an L3 of 144 MiB in 18 ways of 64-byte lines. -/
def l3Sets : Nat := 144 * 2 ^ 20 / 64 / l3Ways

/-- The lines that an L3 holds in the set of a line, with that line left out. -/
def l3Set (s : State) (a l : Nat) : List (Nat × L3Line) :=
  (s.dom.l3.filter fun (p : Nat × L3Line) => p.1 % 2 == a - 8 && p.1 / 2 % l3Sets == l % l3Sets && p.1 / 2 != l).map fun p => (p.1 / 2, p.2)

/-- The ways that an RCID may allocate into (R287). -/
def waysOf (s : State) (a : Nat) (k : Asker) : List Nat :=
  let x : CbqriAlloc := SMap.get {} s.cluster.cbqri (cbqriKey (a - 8) k.tag.rcid)
  match if k.code then x.codeWays else x.ways with
  | some m => (List.range l3Ways).filter m.getLsbD
  | none => List.range l3Ways

/-- A line leaves an L3 to make room: a dirty one is written back, and the directory no longer names the L3 (R257). -/
def evictL3 (a l : Nat) (x : L3Line) (s : State) : State :=
  let s := if x.st == .m || x.st == .o then noteTraffic x.place.tag true 64 l (memRewrite l x.data s) else s
  setDir l (withoutHolder a (dirOf s l)) (dropL3 a l s)

/-- A way for a line that an L3 takes: a free one of those its RCID may use, else that of a line there which no transaction holds BUSY, which is
evicted; the spec gives no replacement policy, so the choice is free. While every such line is BUSY the new one waits beside its set. -/
def l3Room (a l : Nat) (k : Asker) (s : State) : Nat × State :=
  let set := l3Set s a l
  let ways := waysOf s a k
  match ways.find? fun w => set.all (·.2.place.way != w) with
  | some w => (w, s)
  | none =>
    let out := set.filter fun p => ways.contains p.2.place.way && (SMap.find s.dom.busy p.1).isNone
    match out[(Config.freeWord s.free).toNat % out.length]? with
    | some (v, x) => (x.place.way, evictL3 a v x (drew s))
    | none => (l3Ways, s)

/-- An L3 holds a line from now on: in the place it has, or in one made for it under the request that asked for it. -/
def putL3 (a l : Nat) (x : L3Line) (s : State) : State :=
  let key := l3Key a l
  match SMap.find s.dom.l3 key with
  | some y => { s with dom := { s.dom with l3 := SMap.put s.dom.l3 key { x with place := y.place } } }
  | none =>
    let k := SMap.get {} s.dom.asked key
    let (way, s) := l3Room a l k s
    { s with dom := { s.dom with asked := SMap.del s.dom.asked key,
                                 l3 := SMap.put s.dom.l3 key { x with place := { way, tag := k.tag, code := k.code } } } }

/-- Notes for whom an L3 asks for a line that it lacks. -/
def noteAsker (a l : Nat) (k : Asker) (s : State) : State :=
  if !isL3 a || (l3At s a l).isSome then s else { s with dom := { s.dom with asked := SMap.put s.dom.asked (l3Key a l) k } }

/-- Changes where a line of an L3 lies or is held. -/
def updPlace (a l : Nat) (f : LinePlace → LinePlace) (s : State) : State :=
  match SMap.find s.dom.l3 (l3Key a l) with
  | some x => { s with dom := { s.dom with l3 := SMap.put s.dom.l3 (l3Key a l) { x with place := f x.place } } }
  | none => s

/-- Keeps a core's cache of some ways and sets within its size when it takes a line: of the lines it holds in the set one is given up, by a free
choice, when there are as many as ways. -/
def fitCache (a l core ways sets : Nat) (held : LinePlace → BitVec 72) (drop : LinePlace → LinePlace) (s : State) : State :=
  let set := s.dom.l3.filter fun (p : Nat × L3Line) =>
    p.1 % 2 == a - 8 && p.1 / 2 % sets == l % sets && p.1 / 2 != l && (held p.2.place).getLsbD core
  if set.length < ways then s
  else match set[(Config.freeWord s.free).toNat % set.length]? with
    | some p => updPlace a (p.1 / 2) drop (drew s)
    | none => s

/-- A core of an L3's die uses a line the L3 holds: its L2 and its L1 instruction or data cache hold the line from now on; a store leaves no copy
with another core (R275). -/
def touchCore (a l core : Nat) (code store : Bool) (s : State) : State :=
  if (SMap.find s.dom.l3 (l3Key a l)).isNone then s
  else
  let bit := BitVec.ofNat 72 (2 ^ core)
  let s := fitCache a l core 16 2048 (·.l2) (fun p => { p with l2 := p.l2 &&& ~~~bit, l1d := p.l1d &&& ~~~bit, l1i := p.l1i &&& ~~~bit }) s
  let s := if code then fitCache a l core 8 128 (·.l1i) (fun p => { p with l1i := p.l1i &&& ~~~bit }) s
    else fitCache a l core 8 128 (·.l1d) (fun p => { p with l1d := p.l1d &&& ~~~bit }) s
  updPlace a l (fun p =>
    let p := if store then { p with l2 := p.l2 &&& bit, l1d := p.l1d &&& bit, l1i := p.l1i &&& bit } else p
    { p with l2 := p.l2 ||| bit, l1d := if code then p.l1d else p.l1d ||| bit, l1i := if code then p.l1i ||| bit else p.l1i }) s

/-- The tags of a core's requests, from its hart's srmcfg (R288). -/
def hartTag (s : State) (h : Nat) : ReqTag :=
  let v := (SMap.get 0 (hartOf s h).csrs 0x181).toNat
  { rcid := bits v 0 12, mcid := bits v 16 12 }

/-! ## The home (R257, R258) -/

/-- Sends the grant, or performs the request, once every answer awaited has arrived. A home's own eviction of a directory
entry (R255) stands as an evictClean that no agent asked for. -/
def proceed (l : Nat) (s : State) : State :=
  match busyOf s l with
  | none => s
  | some b =>
    if !b.awaiting.isEmpty || b.granted then s
    else
      let h := homeOf s (64 * l)
      let granted := putBusy l { b with granted := true, start := some s.time }
      let back := fun (s : State) => match b.recalled with | some d => memRewrite l d s | none => s
      let clear := fun (s : State) => endBusy l (setDir l {} s)
      match b.req with
      | .readShared => s
      | .readUnique =>
        match (ownerOf (dirOf s l)).filter (· != b.src) with
        | some o => sendMsg (.fwdUnique b.src) h o l (granted s)
        | none => sendMsg (.data (if ownerOf (dirOf s l) = some b.src then heldLine s l else memLine s l) .m) h b.src l (granted s)
      | .cleanUnique => sendMsg .writeAck h b.src l (granted s)
      | .writeLine d m => sendMsg .writeAck h b.src l (clear (memStoreLine l m d (back s)))
      | .atomic op =>
        let s := back s
        let r := amoLine op (memLine s l)
        let s := updHome h (fun x => { x with atomics := bump x.atomics }) (memRewrite l r.2 s)
        sendMsg (.atomicResult r.1) h b.src l (clear s)
      | .reduce op d =>
        let s := back s
        let s := updHome h (fun x => { x with reduces := bump x.reduces }) (memRewrite l (reduceData op.toNat (memLine s l) d) s)
        sendMsg .writeAck h b.src l (clear s)
      | .writeBack _ => endBusy l s
      | .evictClean => clear (back s)

/-- Whether an agent's copy of a line is dirty. -/
def ownsDirty (s : State) (a l : Nat) : Bool := (l3At s a l).any fun x => x.st == .o || x.st == .m

/-- Takes a line BUSY and sends the messages whose answers it awaits. -/
def openTxn (l src : Nat) (req : CohReq) (inval owners : List Nat) (s : State) : State :=
  let h := homeOf s (64 * l)
  let awaiting := owners ++ inval
  let b : Busy := { src, req, awaiting, recalled := none, granted := false, start := if awaiting.isEmpty then none else some s.time }
  let s := each owners (fun a => sendMsg .recall h a l) (putBusy l b s)
  proceed l (each inval (fun a => sendMsg .invalidate h a l) s)

/-- The home accepts a request for a line that is not BUSY; it ends with the CompAck, or, for a write, an atomic or a reduction, with
the home's own completion (R258). A WriteBack that waited while its line was forwarded to another owner is only acknowledged; a read that
waited while its sender became the owner is answered from the sender's own copy. -/
def acceptReq (l src : Nat) (req : CohReq) (s : State) : State :=
  let e := dirOf s l
  let h := homeOf s (64 * l)
  let owner := ownerOf e
  let others := (sharersOf e).filter (· != src)
  let holder := owner = some src || (sharersOf e).contains src
  let shared : Busy := { src, req, awaiting := [], recalled := none, granted := true, start := some s.time }
  match req with
  | .readShared =>
    match owner with
    | some o =>
      if o = src then sendMsg (.data (heldLine s l) (if ownsDirty s src l then .o else .s)) h src l (putBusy l shared s)
      else sendMsg (.fwdShared src) h o l (putBusy l shared s)
    | none => sendMsg (.data (memLine s l) (if e.st == .i && isL3 src then .e else .s)) h src l (putBusy l shared s)
  | .readUnique => openTxn l src req (others.filter (some · != owner)) [] s
  | .cleanUnique =>
    if holder then openTxn l src req (others ++ (owner.filter fun o => o != src && !others.contains o).toList) [] s
    else openTxn l src .readUnique (others.filter (some · != owner)) [] s
  | .writeLine _ _ | .atomic _ | .reduce _ _ =>
    openTxn l src req ((sharersOf e).filter (some · != owner)) owner.toList s
  | .writeBack d =>
    let s := if owner = some src then setDir l (withoutHolder src e) (memRewrite l d (dropL3 src l s)) else s
    sendMsg .writeAck h src l (putBusy l shared s)
  | .evictClean =>
    sendMsg .writeAck h src l (putBusy l shared (if holder then setDir l (withoutHolder src e) (dropL3 src l s) else s))

/-- Serves the requests queued behind a line, in arrival order, until one holds it BUSY again. -/
def serveQueue (l : Nat) : Nat → State → State
  | 0, s => s
  | n + 1, s =>
    if (busyOf s l).isSome then s
    else match SMap.get [] s.dom.queue l with
      | [] => s
      | (src, req) :: rest =>
        serveQueue l n (acceptReq l src req { s with dom := { s.dom with queue := SMap.set [] s.dom.queue l rest } })

/-- Serves what waits for a line. -/
def nextReq (l : Nat) (s : State) : State := serveQueue l (SMap.get [] s.dom.queue l).length s

def queueReq (l src : Nat) (req : CohReq) (s : State) : State :=
  { s with dom := { s.dom with queue := SMap.upd [] s.dom.queue l (· ++ [(src, req)]) } }

/-- An answer of a holder reaches the home. -/
def answered (l a : Nat) (data : Option LineData) (s : State) : State :=
  match busyOf s l with
  | none => s
  | some b =>
    let rest := b.awaiting.filter (· != a)
    let b : Busy := { b with awaiting := rest, recalled := data <|> b.recalled, start := if rest.isEmpty then none else b.start }
    nextReq l (proceed l (putBusy l b s))

/-- The directory entry once the requester holds the line (R257). -/
def finalDir (s : State) (l : Nat) (b : Busy) : DirEnt :=
  let e := dirOf s l
  match b.req with
  | .readShared =>
    let gets := if b.src = agentIO then [] else [b.src]
    match ownerOf e with
    | some o =>
      if ownsDirty s o l then { st := .o, owner := e.owner, sharers := sharerMask (sharersOf e ++ gets) }
      else { st := .s, sharers := sharerMask (sharersOf e ++ [o] ++ gets) }
    | none =>
      if b.src = agentIO then e
      else if e.st == .i && isL3 b.src then { st := .em, owner := BitVec.ofNat 4 b.src }
      else { st := .s, sharers := sharerMask (sharersOf e ++ gets) }
  | .writeBack _ | .evictClean => e
  | _ => { st := .em, owner := BitVec.ofNat 4 b.src }

/-! ## Messages arriving (R256, R257) -/

/-- The context that a die's accesses run under. -/
def dieCtx (s : State) (d : Nat) : BitVec 12 :=
  match (dieOf s d).job.bind (jobOf s) with
  | some j => j.ctx
  | none => 0

/-- The effect of a message at the agent or home it is sent to. -/
def deliver (m : ShankMsg) (s : State) : State :=
  let l := m.line
  let h := homeOf s (64 * l)
  match m.kind with
  | .fwdShared req =>
    match l3At s m.dst l with
    | some x =>
      let st := match x.st with | .m => CacheState.o | .e => .s | z => z
      sendMsg (.data x.data .s) m.dst req l (putL3 m.dst l { x with st } s)
    | none => s
  | .fwdUnique req =>
    match l3At s m.dst l with
    | some x => sendMsg (.data x.data .m) m.dst req l (dropL3 m.dst l s)
    | none => s
  | .invalidate =>
    let s := if m.dst < 8 then updDie s m.dst (queueInval l s.time) else if isL3 m.dst then dropL3 m.dst l s else s
    sendMsg .invAck m.dst h l s
  | .recall =>
    match l3At s m.dst l with
    | some x =>
      let s := dropL3 m.dst l s
      if x.st == .m || x.st == .o then sendMsg (.recallData x.data) m.dst h l s else sendMsg .invAck m.dst h l s
    | none => sendMsg .invAck m.dst h l (if m.dst < 8 then updDie s m.dst (queueInval l s.time) else s)
  | .data d st =>
    let s :=
      if isL3 m.dst then
        let t := putL3 m.dst l { st, data := d } s
        match SMap.find s.dom.asked (l3Key m.dst l) with
        | some k => touchCore m.dst l k.core k.code (st == .m) t
        | none => t
      else if m.dst < 8 then updDie s m.dst (fun x => { x with edge := SMap.put x.edge l { ctx := dieCtx s m.dst, data := d } })
      else answer (.bytes d) s
    sendMsg .compAck m.dst h l s
  | .invAck => answered l m.src none s
  | .recallData d => answered l m.src (some d) s
  | .writeAck =>
    match (busyOf s l).filter fun b => b.src == m.dst && b.granted with
    | none => s
    | some b =>
      match b.req, l3At s m.dst l with
      | .cleanUnique, some x => sendMsg .compAck m.dst h l (putL3 m.dst l { x with st := .m } s)
      | .writeBack _, _ | .evictClean, _ => sendMsg .compAck m.dst h l s
      | _, _ => s
  | .atomicResult old => answer (if isL3 m.dst && poisoned s l then .trap 19 else .value old) s
  | .compAck =>
    match busyOf s l with
    | some b => nextReq l (endBusy l (setDir l (finalDir s l b) s))
    | none => s

def takeMsg (m : ShankMsg) (s : State) : State := { s with dom := { s.dom with net := s.dom.net.erase m } }

/-- The virtual network a message travels in (R20, R256): 1 forward, 2 response, 3 acknowledge; requests are not kept as messages. -/
def netOf : MsgKind → Nat
  | .fwdShared _ | .fwdUnique _ | .invalidate | .recall => 1
  | .data _ _ | .invAck | .recallData _ | .writeAck | .atomicResult _ => 2
  | .compAck => 3

/-- A message with those that arrive before it, since they were sent earlier from its source to its destination in its network (R21). -/
def laneTo (s : State) (m : ShankMsg) : List ShankMsg :=
  (s.dom.net.takeWhile (· != m)).filter (fun k => k.src == m.src && k.dst == m.dst && netOf k.kind == netOf m.kind) ++ [m]

/-- A message arrives and has its effect; the link's run of CRC failures ends (R22). -/
def arriveMsg (m : ShankMsg) (s : State) : State := deliver m (linksGood m.src m.dst (takeMsg m s))

/-- Delivers the messages of a line, each after those that arrive before it, until none is left. -/
def settleLoop (l : Nat) : Nat → State → State
  | 0, s => s
  | n + 1, s =>
    match s.dom.net.find? (·.line == l) with
    | some m => settleLoop l n (each (laneTo s m) arriveMsg s)
    | none => s

/-- Runs what holds or waits for a line to its end. -/
def settleLine (l : Nat) (s : State) : State :=
  if (busyOf s l).isNone then s else settleLoop l (64 * (2 + (SMap.get [] s.dom.queue l).length)) s

/-! ## Accesses served at once -/

/-- Removes every copy of a line, writing dirty data back first: the Recall and Invalidates of R257. -/
def recallLine (l : Nat) (s : State) : State :=
  let s := settleLine l s
  let s := match l3Line s 0 l, l3Line s 1 l with
    | none, none => s
    | _, _ =>
      let d := heldLine s l
      let s := if d = memLine s l then s else memRewrite l d s
      { s with dom := { s.dom with l3 := SMap.del (SMap.del s.dom.l3 (2 * l)) (2 * l + 1) } }
  let s := { s with dies := s.dies.map (fun (p : Nat × DieSt) => (p.1, queueInval l s.time p.2)) }
  { s with dom := { s.dom with dir := SMap.del s.dom.dir l } }

/-- A write of masked bytes of a line as its home serves it: WriteLine of R257. -/
def cohStoreLine (l : Nat) (mask : BitVec 64) (data : LineData) (s : State) : State :=
  memStoreLine l mask data (recallLine l s)

/-- Writes bytes from an address up, line by line. -/
def cohWrite (a : Nat) (bs : List Byte) (s : State) : State :=
  let first := a / 64
  each (List.range ((a + bs.length + 63) / 64 - first)) (fun i t =>
    let l := first + i
    let lo := if i = 0 then a % 64 else 0
    let at0 := 64 * l + lo - a
    let chunk := (bs.drop at0).take (64 - lo)
    cohStoreLine l (lineMask lo chunk.length) (zeros lo ++ chunk) t) s

/-- Writes a little-endian number of n bytes. -/
def cohPut (a n v : Nat) (s : State) : State := cohWrite a (leBytes n v) s

/-- A ReadShared that runs to its end at once (R257): the line's data, the state a cache takes it in, an owner's copy left O or S and the
directory as the request leaves it. -/
def sharedCopy (src l : Nat) (s : State) : LineData × CacheState × State :=
  let s := settleLine l s
  let data := heldLine s l
  let st := if (dirOf s l).st == .i && isL3 src then CacheState.e else .s
  let demoted := fun (p : Nat × L3Line) =>
    if p.1 / 2 = l then (p.1, { p.2 with st := match p.2.st with | .m => CacheState.o | .e => .s | x => x }) else p
  let s := { s with dom := { s.dom with l3 := s.dom.l3.map demoted } }
  let b : Busy := { src, req := .readShared, awaiting := [], recalled := none, granted := true, start := none }
  (data, st, setDir l (finalDir s l b) s)

/-- A ReadUnique of an L3 that runs to its end at once (R257): the line's data, and every other copy gone. -/
def uniqueCopy (m l : Nat) (s : State) : LineData × State :=
  let s := settleLine l s
  let data := heldLine s l
  let s := { s with dies := s.dies.map (fun (p : Nat × DieSt) => (p.1, queueInval l s.time p.2)),
                    dom := { s.dom with l3 := SMap.del s.dom.l3 (l3Key (17 - m) l) } }
  (data, putL3 m l { st := .m, data } (setDir l { st := .em, owner := BitVec.ofNat 4 m } s))

/-- A read of one line by the movers of a die: the edge cache's copy, old or fresh, when its context's access filled it,
otherwise the home's, under the context's tags, which fills the edge cache (R237, R288, R389). -/
def edgeRead (d ctx l : Nat) (s : State) : LineData × State :=
  match (SMap.find (dieOf s d).edge l).filter (fun e => e.ctx.toNat == ctx) with
  | some e => (e.data, s)
  | none =>
    let (data, _, s) := sharedCopy d l (noteTraffic (ctxTag s ctx) false 64 l s)
    (data, updDie s d (fun x => { x with edge := SMap.put x.edge l { ctx := BitVec.ofNat 12 ctx, data } }))

/-- Applies a Reduce at a line's home; a poisoned line stays poisoned (R262, R266, R271). -/
def reduceLine (op l : Nat) (data : LineData) (s : State) : State :=
  let s := recallLine l s
  updHome (homeOf s (64 * l)) (fun x => { x with reduces := bump x.reduces }) (memRewrite l (reduceData op (memLine s l) data) s)

/-- Performs an atomic at a line's home, which recalls the line first (R261). -/
def atomicAtHome (l : Nat) (op : AtomicOp) (s : State) : W64 × State :=
  let s := recallLine l s
  let r := amoLine op (memLine s l)
  (r.1, updHome (homeOf s (64 * l)) (fun x => { x with atomics := bump x.atomics }) (memRewrite l r.2 s))

end Sys2Proof.Machine
end

