-- ==== Sys2Proof/Machine/Ecc.lean ====
section
/-! DEFINITION. The errors a line's data may show where it is read (R265, R327, R329): in memory, a corrected one, counted by granule, or
an uncorrectable one, stored as poison; in a cache's copy, one that is counted, drops the copy, or poisons the line. -/

namespace Sys2Proof.Machine

/-! ## Errors found -/

/-- Whether a storage granule is withdrawn from its unit (R330, R331). -/
def retiredGran (s : State) (u g : Nat) : Bool := s.sep.withdrawn.contains (u, g)

/-- Counts a corrected error of a granule, most recent first, at most 1,024 granules; each entry is a granule, its count and whether
0x0303 has been posted for it (R329). -/
def countCe (threshold g : Nat) (l : List (Nat × Nat × Bool)) : List (Nat × Nat × Bool) :=
  let (n, posted) := ((l.find? (·.1 == g)).map (·.2)).getD (0, false)
  ((g, n + 1, posted || threshold ≤ n + 1) :: l.filter (·.1 != g)).take 1024

/-- Whether 0x0303 has been posted for a granule of a unit. -/
def cePosted (x : MemUnit) (g : Nat) : Bool := x.ce.any fun e => e.1 == g && e.2.2

/-- A corrected line: counted at the controller and the home; 0x0303 once, when its granule's count reaches the threshold; a retired granule is
not counted (R265, R329, R337). -/
def corrected (u g : Nat) (uni : Option Nat) (s : State) : State :=
  let was := unitOf s u
  let ce := if retiredGran s u g then was.ce else countCe (objNat s 0x3300 2 16) g was.ce
  let s := updUnit s u (fun x => { x with corrected := bump x.corrected, ce })
  let s := match uni with
    | some n => updHome (homeOf s (granuleAddr n)) (fun x => { x with corrected := bump x.corrected }) s
    | none => s
  if cePosted (unitOf s u) g && !cePosted was g then
    post 0x0303 (siteUnit u) [u, g, match uni with | some n => granuleAddr n | none => 0] s
  else s

/-- Whether a cache owns newer data of a line, so that the line in memory is read by no one. -/
def ownedDirty (s : State) (l : Nat) : Bool :=
  [0, 1].any fun m => (l3Line s m l).any fun x => x.st == .m || x.st == .o

/-- An uncorrectable line: poisoned, and 0x0401 posted by its home with the granule (R265, R327); one that is poison already stays so. -/
def uncorrectable (u i : Nat) (uni : Option Nat) (s : State) : State :=
  let bad := updUnit s u (fun x => { x with uncorrected := bump x.uncorrected })
  match uni with
  | none => bad
  | some n =>
    let l := granuleAddr n / 64 + i
    let h := homeOf s (granuleAddr n)
    if s.dom.poison.contains l then s
    else
      let s := updHome h (fun x => { x with poisoned := bump x.poisoned }) bad
      let s := if ownedDirty s l then s else { s with dom := { s.dom with poison := l :: s.dom.poison } }
      post 0x0401 h [h, granuleAddr n] s

/-- The L3 agent of a hart's die. -/
def accessL3 (a : Access) : Option Nat := match a.who with | .hart h => some (8 + h.toNat / 72) | _ => none

/-- The L3 whose copy of a line an access reads: its own die's when it has one, otherwise the owner's (R257); none when memory is read. -/
def copyRead (s : State) (a : Access) (l : Nat) : Option (Nat × L3Line) :=
  let at' := fun (m : Nat) => (l3At s m l).map (m, ·)
  (accessL3 a).bind at' <|> [8, 9].findSome? fun m => (at' m).filter (·.2.st != .s)

/-- An error in the data of an L3's copy (R265): one that is corrected is counted at the line's home; an uncorrectable one poisons a line
held in M or O, with 0x0401, and drops a clean copy, which is fetched again. No register counts the dropped copies (log 127). -/
def copyError (m l : Nat) (x : L3Line) (e : LineError) (s : State) : State :=
  let h := homeOf s (64 * l)
  match e with
  | .clean | .directory => s
  | .corrected => updHome h (fun x => { x with corrected := bump x.corrected }) s
  | .uncorrectable =>
    if x.st == .m || x.st == .o then
      let s := updHome h (fun x => { x with poisoned := bump x.poisoned }) s
      post 0x0401 h [h, granuleAddr (granuleOf (64 * l))]
        { s with dom := { s.dom with poison := if s.dom.poison.contains l then s.dom.poison else l :: s.dom.poison } }
    else setDir l (withoutHolder m (dirOf s l)) (dropL3 m l s)

/-- What an access finds in its first line where it reads it: in an L3's copy, or at the controller (R257, R265, R327, R329). -/
def controllerRead (a : Access) (s : State) : State :=
  let l := a.addr.toNat / 64
  let g := granuleOf a.addr.toNat
  match copyRead s a l, storageOf s g with
  | some (m, x), _ => copyError m l x a.ecc s
  | none, none => s
  | none, some (hbm, loc) =>
    let (u, k) := unitAt hbm loc
    match a.ecc with
    | .clean | .directory => s
    | .corrected => corrected u k (some g) s
    | .uncorrectable => uncorrectable u (l % 1024) (some g) s

end Sys2Proof.Machine
end

