-- ==== Sys2Proof/Machine/Tiers.lean ====
section
/-! DEFINITION. The Separator's tiers: placement (R153), moves (R154, R155), quotas (R156, R157) and what an access to a
granule does: it is held until the granule is in a tier (R151). -/

namespace Sys2Proof.Machine

/-! ## Quotas -/

def quotaUse (q : Quota) (hbm : Bool) : Nat := if hbm then q.hbmUse.toNat else q.farUse.toNat
def quotaLimit (q : Quota) (hbm : Bool) : Nat := if hbm then q.hbmQuota.toNat else q.farQuota.toNat

/-- At or over quota in a tier; 0xFFFFFFFF carries no limit (R156). -/
def atQuota (s : State) (c : Nat) (hbm : Bool) : Bool :=
  let q := quotaOf s c
  quotaLimit q hbm ≠ 0xFFFFFFFF && quotaUse q hbm ≥ quotaLimit q hbm * 32

/-- Over quota in a tier (R156). -/
def overQuota (s : State) (c : Nat) (hbm : Bool) : Bool :=
  let q := quotaOf s c
  quotaLimit q hbm ≠ 0xFFFFFFFF && quotaUse q hbm > quotaLimit q hbm * 32

def charge (c : Nat) (hbm : Bool) (s : State) : State :=
  updQuota s c (fun q => if hbm then { q with hbmUse := q.hbmUse + 1 } else { q with farUse := q.farUse + 1 })

/-- Uncharges a granule; the over-quota bit clears, with 0x0343, once use falls to the quota (R157). -/
def uncharge (c : Nat) (hbm : Bool) (s : State) : State :=
  let s := updQuota s c (fun q => if hbm then { q with hbmUse := q.hbmUse - 1 } else { q with farUse := q.farUse - 1 })
  let q := quotaOf s c
  if (if hbm then q.overHbm else q.overFar) && !overQuota s c hbm then
    post 0x0343 noSite [c, if hbm then 0 else 1]
      (updQuota s c (fun q => if hbm then { q with overHbm := false } else { q with overFar := false }))
  else s

/-- Pinned: PIN set or RPIN above 0 (R150). -/
def Granule.pinned (g : Granule) : Bool := g.pin || g.rpin ≠ 0

/-- Whether a granule counts as pinned: by its map entry (R150), or as part of the inbound staging region (R302). -/
def isPinned (s : State) (g : Nat) : Bool :=
  (granOf s g).pinned || (s.lacing.memb.stageBase.toNat * granBytes ≤ granuleAddr g
    && granuleAddr g < (s.lacing.memb.stageBase.toNat + s.lacing.memb.stageSize.toNat) * granBytes)

/-- Pinned HBM granules charged to a context (R160). -/
def hbmPinned (s : State) (c : Nat) : Nat :=
  (s.grans.filter (fun p => p.2.state == .hbm && isPinned s p.1 && p.2.owner.toNat == c)).length

/-- The 64-bit map entry of a granule as the dictionary mirror reads it (R150); the spec gives the mirror no address for it (log 126). -/
def mapEntry (s : State) (g : Nat) : BitVec 64 :=
  let x := granOf s g
  let st := match x.state with | .unplaced => 0 | .hbm => 1 | .far => 2 | .moving => 3
  BitVec.ofNat 64 (st + 4 * x.pull.toNat + 8 * x.pin.toNat + 16 * x.rpin.toNat + 2 ^ 12 * x.ref.toNat + 2 ^ 16 * x.owner.toNat
    + 2 ^ 32 * x.location.toNat)

/-! ## Contents of a granule -/

/-- The lines of a granule that some cache holds or a transaction holds BUSY. -/
def cachedLines (s : State) (g : Nat) : List Nat :=
  let lo := granuleAddr g / 64
  let inside := fun (l : Nat) => lo ≤ l && l < lo + 1024
  let held := s.dom.l3.map (fun (p : Nat × L3Line) => p.1 / 2)
  let edges := s.dies.flatMap (fun (p : Nat × DieSt) => p.2.edge.map (fun (e : Nat × EdgeLine) => e.1))
  let busy := s.dom.busy.map (fun (p : Nat × Busy) => p.1)
  ((held ++ edges ++ busy).filter inside).eraseDups

/-- Recalls the granule's cached lines at its home (R154 step 3b). -/
def recallGranule (g : Nat) (s : State) : State := each (cachedLines s g) recallLine s

/-- Zero-fills a granule under its owner's key (R153, R387). -/
def zeroGranule (g : Nat) (s : State) : State :=
  let a := granuleAddr g
  let l := a / 64
  { s with
    mem := ByteMap.clear s.mem a granBytes,
    sec := { s.sec with
      granKey := SMap.set [] s.sec.granKey g ((keyOf s g).getD []),
      lineKey := s.sec.lineKey.filter (fun p => p.1 < l || l + 1024 ≤ p.1) },
    dom := { s.dom with poison := s.dom.poison.filter (fun p => p < l || l + 1024 ≤ p) } }

/-- Re-encrypts a granule: each line's contents as read under the old owner's key, stored under the new one's (R384). -/
def rekeyGranule (g : Nat) (newOwner : BitVec 12) (s : State) : State :=
  let first := granuleAddr g / 64
  let lines := (List.range 1024).map (fun i => memLine s (first + i))
  let s := updGran s g (fun x => { x with owner := newOwner })
  { s with
    mem := ByteMap.write s.mem (64 * first) lines.flatten,
    sec := { s.sec with
      granKey := SMap.set [] s.sec.granKey g ((keyOf s g).getD []),
      lineKey := s.sec.lineKey.filter (fun p => p.1 < first || first + 1024 ≤ p.1) } }

/-! ## Placement -/

/-- Why a placement or a move is refused. -/
inductive NoRoom where
  | quota | storage
  deriving DecidableEq, Repr

/-- The tiers a placement tries, in order (R153). -/
def tierOrder (q : Quota) : List Bool := if q.firstTier then [false] else [true, false]

/-- Puts an UNPLACED granule into a tier for a context (R153): storage taken, charged, zero-filled. -/
def putIn (g c : Nat) (hbm : Bool) (loc : Nat) (s : State) : State :=
  let s := takeLoc s hbm loc
  let pd := (quotaOf s c).pullDefault
  let s := updGran s g (fun x => { x with state := if hbm then .hbm else .far, pull := pd, owner := BitVec.ofNat 12 c,
                                          location := BitVec.ofNat 32 loc })
  zeroGranule g (charge c hbm s)

/-- The first placement of a granule for a context (R153). -/
def placeGranule (g c : Nat) (die : Option Nat) (s : State) : Except NoRoom State :=
  let tiers := tierOrder (quotaOf s c)
  match tiers.findSome? (fun hbm => if atQuota s c hbm then none else (pickFree s hbm die).map (fun l => (hbm, l))) with
  | some (hbm, loc) => .ok (putIn g c hbm loc s)
  | none => .error (if tiers.all (atQuota s c) then .quota else .storage)

/-- The event of a placement no tier can take (R153, R170). -/
def postNoRoom (e : NoRoom) (c a : Nat) (s : State) : State :=
  match e with
  | .quota => post 0x0340 noSite [c, a] s
  | .storage => post 0x0341 noSite [a] s

/-! ## Moves -/

/-- Whether a granule can be moved to a tier for its owner: quota first, then storage (R154 step 2). -/
def moveRoom (s : State) (c : Nat) (hbm : Bool) (checkQuota : Bool) : Except NoRoom Nat :=
  if checkQuota && atQuota s c hbm then .error .quota
  else match pickFree s hbm none with
    | some l => .ok l
    | none => .error .storage

/-- Steps 1 and 3b of R154: STATE MOVING, the cached lines recalled, the target taken and charged. -/
def startMove (g : Nat) (kind : MoveKind) (toHbm : Bool) (target : Nat) (queued : List Waiter) (s : State) : State :=
  let x := granOf s g
  let fromHbm := x.state == .hbm
  let m : Move := { kind, fromHbm, source := x.location, toHbm, target := BitVec.ofNat 32 target, start := s.time, queued }
  let s := recallGranule g (takeLoc s toHbm target)
  let s := { updGran s g (fun x => { x with state := .moving }) with moves := SMap.put s.moves g m }
  if fromHbm = toHbm then s else charge x.owner.toNat toHbm s

/-- Ends a move without its copy: the granule is back at its source and the target is freed (R155, R169). -/
def undoMove (g : Nat) (m : Move) (s : State) : State :=
  let c := (granOf s g).owner.toNat
  let s := freeLoc s m.toHbm m.target.toNat
  let s := if m.fromHbm = m.toHbm then s else uncharge c m.toHbm s
  { updGran s g (fun x => { x with state := if m.fromHbm then .hbm else .far, location := m.source }) with
    moves := SMap.del s.moves g }

/-- Step 4 of R154: the map entry names the new storage, the old is freed and uncharged. A demoted granule takes PULL from
the owner's default (R158); a CHOWN re-encrypts and moves the charge (R384); a retirement's list record is then to be written (R330). -/
def completeMove (g : Nat) (m : Move) (s : State) : State :=
  let x := granOf s g
  let c := x.owner.toNat
  let s := freeLoc s m.fromHbm m.source.toNat
  let s := if m.fromHbm = m.toHbm then s else uncharge c m.fromHbm s
  let pd := (quotaOf s c).pullDefault
  let demotes := m.kind == .demote
  let s := { updGran s g (fun x => { x with state := if m.toHbm then .hbm else .far, location := m.target,
                                            pull := if demotes then pd else x.pull }) with moves := SMap.del s.moves g }
  let s := match m.kind with
    | .chown n => charge n.toNat m.toHbm (uncharge c m.toHbm (rekeyGranule g n s))
    | .retire cause =>
      let (u, i) := unitAt m.fromHbm m.source.toNat
      { s with sep := { s.sep with owed := s.sep.owed ++ [(u, i, cause)] } }
    | _ => s
  { s with sep := { s.sep with migrations := s.sep.migrations + 1,
                               demoted := if demotes then s.sep.demoted + 1 else s.sep.demoted } }

/-! ## Accesses to a granule in a tier (R257, R261, R266, R327, R384) -/

/-- The L3 in which an access may keep a line: lines of pages of type NC or IO, and of a granule that has no key, are not cached (R232,
R233, R383). -/
def cacheL3 (s : State) (a : Access) : Option Nat :=
  if a.page == .pma && (keyOf s (granuleOf a.addr.toNat)).isSome then accessL3 a else none

/-- One line as a load reads it: the die's own copy, or a ReadShared, whose line an L3 keeps. -/
def loadLine (m : Option Nat) (l : Nat) (s : State) : LineData × State :=
  match m, m.bind (l3At s · l) with
  | some _, some x => (x.data, s)
  | some k, none =>
    let (d, st, s) := sharedCopy k l s
    (d, putL3 k l { st, data := d } s)
  | none, _ =>
    let (d, _, s) := sharedCopy agentIO l s
    (d, s)

/-- The bytes a load reads. -/
def loadBytes (m : Option Nat) (p n : Nat) (s : State) : List Byte × State :=
  let first := p / 64
  let r := (List.range ((p + n + 63) / 64 - first)).foldl (fun (acc : List Byte × State) i =>
    let (d, s) := loadLine m (first + i) acc.2
    (acc.1 ++ d, s)) ([], s)
  ((r.1.drop (p % 64)).take n, r.2)

/-- The data of a line that an L3 holds in M or E, where its cores write it in place (R261). -/
def ownedLine (s : State) (m l : Nat) : Option LineData :=
  (l3At s m l).bind fun x => if (busyOf s l).isNone && (x.st == .m || x.st == .e) then some x.data else none

/-- A store in an L3: each line is taken by a ReadUnique unless the L3 owns it, and is held in M (R257). -/
def storeL3 (m p : Nat) (bs : List Byte) (s : State) : State :=
  let first := p / 64
  each (List.range ((p + bs.length + 63) / 64 - first)) (fun i t =>
    let l := first + i
    let lo := if i = 0 then p % 64 else 0
    let chunk := (bs.drop (64 * l + lo - p)).take (64 - lo)
    match ownedLine t m l with
    | some d => putL3 m l { st := .m, data := putBytes d lo chunk } t
    | none =>
      let (d, t) := uniqueCopy m l t
      putL3 m l { st := .m, data := putBytes d lo chunk } t) s

/-- An access consumes poison (R266): a core takes the hardware-error exception 19, as does the reader of a host's access; an engine's
command is killed. -/
def consumePoison (a : Access) (s : State) : State :=
  match a.who with
  | .engine d => answer .none { s with dom := { s.dom with stops := s.dom.stops ++ [(d.val, a.addr.toNat)] } }
  | _ => answer (.trap 19) s

/-- The lines of an access. -/
def accessLines (a : Access) : List Nat :=
  let p := a.addr.toNat
  let n := match a.kind with | .load n => n | .store b => b.length | .amo _ => 1
  (List.range ((p % 64 + n + 63) / 64)).map (p / 64 + ·)

/-- Whether an access writes. -/
def writesKind (k : AccessKind) : Bool := match k with | .load _ => false | _ => true

/-- The tags of an access (R288): a hart's from its srmcfg, an engine's from its context; the IO agent and the Pail serve none here. -/
def accessTag (s : State) (w : Agent) : ReqTag :=
  match w with
  | .hart h => hartTag s h.toNat
  | .engine d => ctxTag s (dieCtx s d.val).toNat
  | _ => {}

/-- What an access asks of memory: a line its L3 lacks and no other holds newer, or a line that is not cached (R287, R288). -/
def askLine (a : Access) (m : Option Nat) (l : Nat) (s : State) : State :=
  let t := accessTag s a.who
  match m, a.kind, a.who with
  | some k, .load _, .hart h | some k, .store _, .hart h =>
    if (l3At s k l).isSome then s
    else
      let asker : Asker := { core := h.toNat % 72, tag := t, code := a.fetch }
      noteAsker k l asker (if (ownerOf (dirOf s l)).isSome then s else noteTraffic t false 64 l s)
  | some k, _, _ => if (ownedLine s k l).isSome then s else noteTraffic t true 64 l s
  | none, _, _ => noteTraffic t (writesKind a.kind) 64 l s

/-- A hart's own caches take the lines of its access that its L3 holds (R275). -/
def useLines (a : Access) (m : Option Nat) (s : State) : State :=
  match m, a.who with
  | some k, .hart h => each (accessLines a) (fun l => touchCore k l (h.toNat % 72) a.fetch (writesKind a.kind)) s
  | _, _ => s

/-- Performs an access to a granule that is in a tier. -/
def performAccess (a : Access) (s : State) : State :=
  let p := a.addr.toNat
  let l := p / 64
  let s := controllerRead a (if (keyOf s (granuleOf p)).isNone then noKey p s else s)
  let m := cacheL3 s a
  useLines a m <|
  match a.kind with
  | .load n =>
    if (List.range ((p % 64 + n + 63) / 64)).any fun i => poisoned s (l + i) then consumePoison a s
    else
      let (b, s) := loadBytes m p n (each (accessLines a) (askLine a m) s)
      answer (.bytes b) s
  | .store bs =>
    let s := each (accessLines a) (askLine a m) s
    answer .none (match m with | some k => storeL3 k p bs s | none => cohWrite p bs s)
  | .amo op =>
    if poisoned s l then consumePoison a s
    else match m.bind fun k => (ownedLine s k l).map (k, ·) with
      | some (k, d) =>
        let r := amoLine op d
        answer (.value r.1) (putL3 k l { st := .m, data := r.2 } s)
      | none =>
        let r := atomicAtHome l op (askLine a m l s)
        answer (.value r.1) r.2

/-- What waited for a granule proceeds: an access is performed, a request is served by the line's home or queues behind a BUSY line (R154
step 5, R155). -/
def letIn (w : Waiter) (s : State) : State :=
  match w with
  | .access a => performAccess a s
  | .request l src req =>
    if (busyOf s l).isSome || SMap.get [] s.dom.queue l ≠ [] then queueReq l src req s else acceptReq l src req s

def serveAll (q : List Waiter) (s : State) : State := each q letIn s

/-! ## The end of a move, and what holds an access (R151, R153 to R155) -/

/-- Ticks of the 1 ms in which a move must reach step 4 (R155). -/
def moveLimit : Nat := 100000

/-- A retirement that is still to move its granule waits (R330). -/
def retireLater (g cause : Nat) (s : State) : State := { s with sep := { s.sep with retiring := s.sep.retiring ++ [(g, cause)] } }

/-- The move took longer than 1 ms and is abandoned: PULL is cleared, 0x0342 posted, and what waits is served in place (R155, R160); a
retirement then waits to move its granule again. -/
def abandonMove (g : Nat) (m : Move) (s : State) : State :=
  let s := updGran (undoMove g m s) g (fun x => { x with pull := false })
  let s := match m.kind with | .retire cause => retireLater g cause s | _ => s
  let s := post 0x0342 noSite [granuleAddr g, if m.toHbm then 0 else 1] s
  serveAll m.queued (if m.kind = .placementFault then { s with sep := { s.sep with inPlace := s.sep.inPlace + 1 } } else s)

/-- Steps 4 and 5 of R154, within the limit. -/
def finishMove (g : Nat) (m : Move) (s : State) : State :=
  if moveLimit < (s.time - m.start).toNat then abandonMove g m s else serveAll m.queued (completeMove g m s)

/-- What becomes of an access or a request that reaches its granule: it goes on, it is held, or no tier takes the granule. -/
inductive Arrival where
  | goes (s : State)
  | held (s : State)
  | refused (e : NoRoom) (s : State)
  deriving DecidableEq, Repr

/-- An access or a request reaches its granule (R151, R153, R154): it waits while the granule is filled or moved, behind what came
before it. -/
def arriveAt (g c : Nat) (die : Option Nat) (w : Waiter) (s : State) : Arrival :=
  let x := granOf s g
  let refd := fun (s : State) => updGran s g (fun x => { x with ref := true })
  match SMap.find s.filling g, SMap.find s.moves g, x.state with
  | some q, _, _ => .held { s with filling := SMap.put s.filling g (q ++ [w]) }
  | none, some m, _ => .held { s with moves := SMap.put s.moves g { m with queued := m.queued ++ [w] } }
  | none, none, .unplaced =>
    match placeGranule g c die s with
    | .error e => .refused e s
    | .ok s => .held { refd s with filling := SMap.put s.filling g [w] }
  | none, none, .far =>
    let s := refd s
    if x.pull && !isPinned s g then
      let s := { s with sep := { s.sep with placementFaults := s.sep.placementFaults + 1 } }
      match moveRoom s x.owner.toNat true true with
      | .ok l => .held (startMove g .placementFault true l [w] s)
      | .error _ => .goes { s with sep := { s.sep with inPlace := s.sep.inPlace + 1 } }
    else .goes s
  | none, none, _ => .goes (refd s)

/-- Ends a fill or a move of a granule; what waited for it is served first. -/
def settleGranule (g : Nat) (s : State) : State :=
  match SMap.find s.filling g, SMap.find s.moves g with
  | some q, _ => serveAll q { s with filling := SMap.del s.filling g }
  | none, some m => finishMove g m s
  | none, none => s

/-! ## Engine accesses -/

/-- What an engine of a die, or the agent for it, does to a granule before its access proceeds (R151, R153, R154). Its hold lies inside the
engine's own action: the fill or move it waits for, its own among them, ends within it, and what came before it is served first
(log 128). -/
def touchGranule (g c : Nat) (die : Option Nat) (s : State) : Except NoRoom State :=
  let s := settleGranule g s
  let x := granOf s g
  let refd := fun (s : State) => updGran s g (fun x => { x with ref := true })
  match x.state with
  | .unplaced => (placeGranule g c die s).map refd
  | .far =>
    let s := refd s
    if x.pull && !isPinned s g then
      let s := { s with sep := { s.sep with placementFaults := s.sep.placementFaults + 1 } }
      match moveRoom s x.owner.toNat true true with
      | .ok l => .ok (settleGranule g (startMove g .placementFault true l [] s))
      | .error _ => .ok { s with sep := { s.sep with inPlace := s.sep.inPlace + 1 } }
    else .ok s
  | _ => .ok (refd s)

/-- Touches every granule of n bytes from an address up; the address of the first that cannot be placed otherwise. -/
def touchRange (a n c : Nat) (die : Option Nat) (s : State) : Except (NoRoom × Nat) State :=
  let first := granuleOf a
  (List.range ((a + n - 1 - unifiedBase) / granBytes + 1 - first)).foldl (fun r i =>
    match r with
    | .error e => .error e
    | .ok t => match touchGranule (first + i) c die t with
      | .error e => .error (e, granuleAddr (first + i))
      | .ok t => .ok t) (.ok s)

/-- Touches for accesses of the IO agent and the dispatcher, charged to context 0; an access that cannot be placed leaves
the granule as it is, with the Separator's event. -/
def touchIo (a n : Nat) (s : State) : State :=
  match touchRange a n 0 none s with
  | .ok t => t
  | .error (e, b) => postNoRoom e 0 b s

/-- Whether every granule of an IO access can be placed, so that it proceeds (R153). -/
def ioReady (a n : Nat) (s : State) : Bool := match touchRange a n 0 none s with | .ok _ => true | .error _ => false

/-- A write by the IO agent to the unified range; it does not proceed where no tier takes a granule (R153). -/
def ioWrite (a : Nat) (bs : List Byte) (s : State) : State :=
  if !inUnified s a bs.length then s
  else if ioReady a bs.length s then cohWrite a bs (touchIo a bs.length s)
  else touchIo a bs.length s

def ioPut (a n v : Nat) (s : State) : State := ioWrite a (leBytes n v) s

end Sys2Proof.Machine
end

