-- ==== Sys2Proof/Machine/LaceCore.lean ====
section
/-! DEFINITION. The sending side of a lace: membership tests (R299, R310, R313), packets and their keys (R298, R309, R385),
the retransmit buffer (R307), ABORTs and GET tags (R184, R304). -/

namespace Sys2Proof.Machine

/-- Ticks of a time in ms on the 100 MHz timebase (R4, R7). -/
def msTicks (n : Nat) : Nat := 100000 * n

/-- Ticks since an earlier timebase value. -/
def since (s : State) (t : BitVec 64) : Nat := (s.time - t).toNat

/-! ## Objects -/

/-- The staging lease in ticks: 0x5000:03 (R318). -/
def leaseTicks (s : State) : Nat := msTicks (objNat s 0x5000 3 100)

/-! ## Membership -/

/-- Whether membership is on: the voter set is not empty (R310). -/
def membershipOn (s : State) : Bool := !s.lacing.memb.voters.isEmpty

/-- Whether a partner counts as a member (R299, R310, R313, R314); a Skim package joins no system (R3). -/
def isMember (s : State) (p : Nat) : Bool :=
  s.variant != .skim && (partnerOf s p).valid && (!membershipOn s || (s.lacing.memb.mstate == .member && s.lacing.memb.view.contains p))

/-- Whether the package is Held with local jobs stopped, so that the dispatcher places none (R313). -/
def heldStops (s : State) : Bool := s.lacing.memb.mstate == .held && s.lacing.memb.joined && objNat s 0x5000 4 0 = 0

/-! ## Packets -/

def ptPut : Nat := 0x01
def ptGetReq : Nat := 0x02
def ptGetRsp : Nat := 0x03
def ptReduce : Nat := 0x04
def ptSignal : Nat := 0x05
def ptCommit : Nat := 0x08
def ptCommitAck : Nat := 0x09
def ptCommitNak : Nat := 0x0A
def ptAbort : Nat := 0x0B
def ptRenew : Nat := 0x0C
def ptRefused : Nat := 0x0D
def ptAck : Nat := 0x10
def ptHello : Nat := 0x20
def ptPropose : Nat := 0x21
def ptAccept : Nat := 0x22
def ptView : Nat := 0x23

def reasonNoStaging : Nat := 1
def reasonWindow : Nat := 2
def reasonRank : Nat := 3
def reasonFull : Nat := 4
def reasonEpoch : Nat := 5

/-- A packet's clear header, and its body (R298). -/
def packetHeader (p : Packet) : List Byte :=
  leBytes 2 p.dst.toNat ++ leBytes 2 p.src.toNat
    ++ leBytes 1 ((if p.vc1 then 1 else 0) + (if p.memb then 2 else 0)) ++ [0] ++ leBytes 2 (16 + p.data.length)
    ++ leBytes 4 p.epoch.toNat ++ leBytes 4 p.lseq.toNat ++ leBytes 8 p.nonce.toNat

def packetBody (ty : Nat) (p : Packet) : List Byte :=
  leBytes 1 ty ++ leBytes 1 p.aux.toNat ++ leBytes 2 p.tag.toNat ++ leBytes 4 p.cmd.toNat ++ leBytes 8 p.oper.toNat ++ p.data

/-- The bytes the GCM tag covers. -/
def packetBytes (ty : Nat) (p : Packet) : List Byte := packetHeader p ++ packetBody ty p

/-- A packet as it goes over the eyelets: clear header, encrypted body, tag (R298, R309). -/
def wireBytes (key : List Byte) (ty : Nat) (p : Packet) : List Byte :=
  packetHeader p ++ fit (packetBody ty p).length (Config.packetCipher key (packetHeader p) (packetBody ty p)) ++ fit 16 p.mac

/-- Bytes a packet takes on the wire (R298). -/
def packetSize (p : Packet) : Nat := 24 + 16 + p.data.length + 16

/-- The key slot check of R385: set, and bound to the entry's RX_CONTEXT. -/
def laceKeyOf (s : State) (p : Nat) : Option LaceKey :=
  let e := partnerOf s p
  match SMap.find s.sec.laceKeys e.keySlot.toNat with
  | some k => if e.keySlot ≠ 0 && k.ctx = e.rxContext then some k else none
  | none => none

/-- Types carried on VC 1 (R298). -/
def onVc1 (ty : Nat) : Bool := [ptGetRsp, ptCommitAck, ptCommitNak, ptRefused, ptAck].contains ty || 0x20 ≤ ty

/-! ## Eyelets -/

/-- The eyelet numbers a lace uses (R299). -/
def laceEyes (e : Partner) : List Nat := (List.range (e.neye.toNat + 1)).map fun i => bits e.eyes.toNat (5 * i) 5

/-- The eyelets of a lace that are UP. -/
def upEyes (s : State) (e : Partner) : List Nat := (laceEyes e).eraseDups.filter fun i => (eyeOf s i).state == .up

/-- A flit (R296): SEQ, ACK with NAK and KIND, 248 payload bytes, CRC. -/
def flitOf (seq ack kind : Nat) (nak : Bool) (payload : List Byte) : List Byte :=
  let b := leBytes 2 (seq % 4096) ++ leBytes 2 (ack % 4096 + (if nak then 4096 else 0) + kind * 8192) ++ fit 248 payload
  b ++ leBytes 4 (crc32c b).toNat

/-- The last SEQ received in order. -/
def lastIn (x : Eyelet) : Nat := (x.rxSeq - 1).toNat

/-- Sends the next 248 waiting bytes, or those there are, as a data flit while fewer than 2,048 are unacknowledged (R297); what a
flit lacks is zero bytes (log 52). -/
def sendFlit (x : Eyelet) : Eyelet :=
  if x.txq.isEmpty || 2048 ≤ x.replay.length then x
  else
    let f := flitOf x.txSeq.toNat (lastIn x) 0 false (x.txq.take 248)
    { x with txq := x.txq.drop 248, txSeq := x.txSeq + 1, replay := x.replay ++ [f], sent := x.sent ++ [f],
             flitsTx := bump x.flitsTx }

/-- Sends full flits only, so that the packets of a burst lie back to back (R298); the rest waits for the next packet or for the next
tick of the timebase, which sends it as it stands (log 52). -/
def pumpFlits : Nat → Eyelet → Eyelet
  | 0, x => x
  | n + 1, x => if x.txq.length < 248 then x else pumpFlits n (sendFlit x)

def pumped (x : Eyelet) : Eyelet := pumpFlits (x.txq.length / 248) x

/-- The eyelets that carry a lace's packets: those UP, or all of its own while none is (R307, R308). -/
def laceEngines (s : State) (p : Nat) : List Nat :=
  let e := partnerOf s p
  if (upEyes s e).isEmpty then (laceEyes e).eraseDups else upEyes s e

/-- The eyelet of a lace's packet: striping by its number (R307). -/
def laceEye (s : State) (p n : Nat) : Nat := ((laceEngines s p)[n % max 1 (laceEngines s p).length]?).getD 0

/-- Hands a packet's bytes to its eyelet, when that is UP. -/
def transmit (p n : Nat) (wire : List Byte) (s : State) : State :=
  if (upEyes s (partnerOf s p)).isEmpty then s
  else updEye s (laceEye s p n) fun x => pumped { x with txq := x.txq ++ wire }

/-- Sends a lace packet: numbered, authenticated, kept until acknowledged (R307, R309); without its key it is not sent and
0x0904 is posted (R385). An E2E_ACK takes no number of its own and is not kept (log 50). -/
def sendLace (p ty aux tag cmd oper : Nat) (data : List Byte) (s : State) : State :=
  let e := partnerOf s p
  match laceKeyOf s p with
  | none => post 0x0904 noSite [p, e.rxContext.toNat] s
  | some k =>
    if k.nonce = BitVec.allOnes 64 then s
    else
      let base : Packet :=
        { dst := BitVec.ofNat 13 p, src := s.lacing.memb.pkgId, vc1 := onVc1 ty, memb := false, epoch := s.lacing.memb.epoch,
          lseq := e.lseqTx, nonce := k.nonce, aux := BitVec.ofNat 8 aux, tag := BitVec.ofNat 16 tag,
          cmd := BitVec.ofNat 32 cmd, oper := BitVec.ofNat 64 oper, data, mac := [] }
      let pkt := { base with mac := Config.packetMac k.key (packetBytes ty base) }
      let wire := wireBytes k.key ty pkt
      let s := { s with sec := { s.sec with
        laceKeys := SMap.put s.sec.laceKeys e.keySlot.toNat { k with nonce := k.nonce + 1 } } }
      let s := if ty ≠ ptAck then
          updPartner s p (fun e => { e with lseqTx := e.lseqTx + 1,
                                            retransmit := e.retransmit ++
                                              [⟨BitVec.ofNat 8 ty, pkt, wire, s.time, laceEye s p pkt.lseq.toNat⟩] })
        else s
      transmit p pkt.lseq.toNat wire
        { s with lacing := { s.lacing with outbox := s.lacing.outbox ++ [(BitVec.ofNat 8 ty, pkt)] } }

/-- Sends a membership packet under the membership key (R309, R310); numbered outside the lace and not kept (log 50). A HELLO's
payload and a view's bitmap stand in the data, the epoch proposed, accepted or adopted in OPER (log 53). -/
def sendMemb (p ty oper : Nat) (data : List Byte) (s : State) : State :=
  match s.sec.membKey with
  | none => s
  | some key =>
    if s.lacing.memb.membNonce = BitVec.allOnes 64 then s
    else
      let base : Packet :=
        { dst := BitVec.ofNat 13 p, src := s.lacing.memb.pkgId, vc1 := true, memb := true, epoch := s.lacing.memb.epoch,
          lseq := 0, nonce := s.lacing.memb.membNonce, aux := 0, tag := 0, cmd := 0, oper := BitVec.ofNat 64 oper, data, mac := [] }
      let pkt := { base with mac := Config.packetMac key (packetBytes ty base) }
      transmit p pkt.nonce.toNat (wireBytes key ty pkt) { s with lacing := { s.lacing with
        memb := { s.lacing.memb with membNonce := s.lacing.memb.membNonce + 1 },
        outbox := s.lacing.outbox ++ [(BitVec.ofNat 8 ty, pkt)] } }

/-- Bytes that an eyelet engine keeps for retransmission, of every lace it carries (R307). -/
def engineBytes (s : State) (e : Nat) : Nat :=
  sumList (s.lacing.partners.flatMap fun (p : Nat × Partner) => (p.2.retransmit.filter (·.eye == e)).map fun k => packetSize k.pkt)

/-- Whether the 16 MiB buffer of an engine that carries the lace is full (R307; log 51). -/
def retransmitFull (s : State) (p : Nat) : Bool := (laceEngines s p).any fun e => 16 * 2 ^ 20 ≤ engineBytes s e

/-! ## Commands at partners -/

/-- The uncommitted lace command of a die at a partner. -/
def laceCmdOf (s : State) (d p : Nat) : Option LaceCmd :=
  (partnerOf s p).cmds.find? (fun c => c.die == d && c.committed.isNone)

/-- Sends ABORT to every partner holding inbound staging for the die's running command (R184 step 4). -/
def abortFor (d : Nat) (s : State) : State :=
  each (s.lacing.partners.map (·.1)) (fun p s =>
    match laceCmdOf s d p with
    | none => s
    | some c =>
      sendLace p ptAbort 0 0 c.cmd.toNat 0 []
        (updPartner s p (fun e => { e with cmds := e.cmds.filter (fun x => x.cmd != c.cmd) }))) s

/-- The key of a (die, partner) in the tag table. -/
def tagKey (d p : Nat) : Nat := d * 2 ^ 13 + p

/-- Retires every outstanding GET tag of a die (R184 step 3). -/
def retireTags (d : Nat) (s : State) : State :=
  let f := fun (x : Nat × List GetTag) =>
    if x.1 / 2 ^ 13 = d then (x.1, x.2.map fun (t : GetTag) => { t with retired := some (t.retired.getD s.time) }) else x
  { s with lacing := { s.lacing with tags := s.lacing.tags.map f } }

/-- Whether a die has a GET outstanding, to one partner or to any (R308, R312). -/
def getOutstanding (s : State) (d : Nat) (p : Option Nat) : Bool :=
  s.lacing.tags.any fun x =>
    x.1 / 2 ^ 13 == d && (p.isNone || p == some (x.1 % 2 ^ 13)) && x.2.any (fun t => t.retired.isNone)

end Sys2Proof.Machine
end

