-- ==== Sys2Proof/Machine/PowerCore.lean ====
section
/-! DEFINITION. The power model: the estimator (R357), caps (R359), setpoints and throttling (R360, R364), hint levels and
borrowing (R367). -/

namespace Sys2Proof.Machine

/-! ## Objects -/

/-- Rated power of the variant, W (R2's table of variants). -/
def ratedW (s : State) : Nat := match s.variant with | .whole => 3800 | .half => 2000 | .skim => 1700

def pkgCapMw (s : State) : Nat := 1000 * objNat s 0x2000 1 (ratedW s)
def govMode (s : State) : Nat := objNat s 0x2000 2 0
def fixedMv (s : State) : Nat := objNat s 0x2000 3 700
def thermalLimit (s : State) : Nat := objNat s 0x2000 4 95
def idleMv (s : State) : Nat := objNat s 0x2000 5 500
/-- The cap of Cn in mW; none when the object reads 0. -/
def dieCapMw (s : State) (d : Nat) : Option Nat :=
  let w := objNat s 0x2001 (d + 1) 0
  if w = 0 then none else some (1000 * w)
def fallbackCapMw (s : State) : Nat := 500 * ratedW s

/-! ## The estimator (R357) -/

/-- Event counts of the last interval: class k of a site is keyed 32 site + k. -/
def countOf (s : State) (site k : Nat) : Nat := SMap.get 0 s.power.counts (32 * site + k)

/-- Dynamic power of a site in mW at a rail voltage, over the last interval's counts. -/
def dynMw (s : State) (site mv : Nat) : Nat :=
  (((List.range 32).map fun k => Config.energyWeight site k * countOf s site k).foldl (· + ·) 0) * mv ^ 2 / (2 * 10 ^ 9)

def leakMw (s : State) (site mv : Nat) : Nat := Config.leakage site mv (railOf s site).tjMax.toNat

/-- A site's trimmed estimate at a rail voltage (R357, R358). -/
def siteMw (s : State) (site mv : Nat) : Nat := (dynMw s site mv + leakMw s site mv) * s.power.trim / 10000

/-- Sites with a rail status register (R371). -/
def railSites : List Nat := (List.range 12) ++ (List.range 16).map (· + 16)

/-- The package estimate with the rails at proposed voltages (R357, R364). -/
def pkgMw (s : State) (mv : Nat → Nat) : Nat :=
  ((railSites.map fun i => siteMw s i (mv i)).foldl (· + ·) 0) * 10000 / Config.efficiency (s.time.toNat / 200)

def measMv (s : State) (i : Nat) : Nat := (railOf s i).meas.toNat
def setMv (s : State) (i : Nat) : Nat := (railOf s i).setpoint.toNat

/-- Sites with a logic rail (R353). -/
def hasLogic (i : Nat) : Bool := i < 10

/-- The proposal in which logic rails stand at their setpoints and every other rail as measured. -/
def atSetpoints (s : State) (i : Nat) : Nat := if hasLogic i then setMv s i else measMv s i

/-- A proposal with one site at another voltage. -/
def withMv (f : Nat → Nat) (site mv : Nat) : Nat → Nat := fun i => if i = site then mv else f i

/-- The caps in force as (die or none for the package, mW) (R359). -/
def caps (s : State) : List (Option Nat × Nat) :=
  (none, if s.power.fallback then min (pkgCapMw s) (fallbackCapMw s) else pkgCapMw s)
    :: (List.range 8).filterMap fun d => (dieCapMw s d).map fun w => (some d, w)

/-- What a cap is compared with under a proposal. -/
def capLoad (s : State) (mv : Nat → Nat) (c : Option Nat) : Nat :=
  match c with
  | none => pkgMw s mv
  | some d => siteMw s d (mv d)

/-- Whether the model predicts at most 97 % of every cap (R364, R367). -/
def within97 (s : State) (mv : Nat → Nat) : Bool := (caps s).all fun c => 100 * capLoad s mv c.1 ≤ 97 * c.2

/-- Whether the model predicts no cap exceeded. -/
def withinCaps (s : State) (mv : Nat → Nat) : Bool := (caps s).all fun c => capLoad s mv c.1 ≤ c.2

/-- Dies that run a job. -/
def runningDies (s : State) : List Nat := (List.range 8).filter fun d => (dieOf s d).job.isSome

def diesUnder (s : State) (c : Option Nat) : List Nat :=
  match c with
  | none => runningDies s
  | some d => (runningDies s).filter (· == d)

/-! ## Actuators -/

/-- Decides a new setpoint of a logic rail; the slew completes later (R360). A rail that is not on keeps its setpoint. -/
def setPoint (site mv : Nat) (s : State) : State :=
  let r := railOf s site
  if r.state ≠ .on || !hasLogic site || r.setpoint.toNat = mv then s
  else updRail s site (fun r => { r with setpoint := BitVec.ofNat 12 mv, slewing := true, borrower := r.borrower && 700 < mv })

/-- Sets THROTTLE of the dies under a cap that a load exceeds: t = ceil(64 excess / dynamic part), at most 56 (R364). -/
def throttleFor (c : Option Nat × Nat) (load : Nat) (s : State) : State :=
  let ds := diesUnder s c.1
  let dyn := (ds.map fun d => dynMw s d (measMv s d) * s.power.trim / 10000).foldl (· + ·) 0
  let t := min 56 (if dyn = 0 then 56 else (64 * (load - c.2) + dyn - 1) / dyn)
  each ds (fun d s => updRail s d (fun r => { r with throttle := BitVec.ofNat 6 (max r.throttle.toNat t) })) s

/-- Covers slews that the model predicts to pass a cap with throttling (R367). -/
def coverSlews (s : State) : State :=
  let mv := fun i => max (atSetpoints s i) (measMv s i)
  each (caps s) (fun c s => if capLoad s mv c.1 > c.2 then throttleFor c (capLoad s mv c.1) s else s) s

/-! ## Hints (R367) -/

def levelMv (l : Nat) : Nat := match l with | 0 => 550 | 1 => 620 | 2 => 700 | _ => 850

/-- What thermal control and the fallback allow a rail: no rise while a site is hot, OP-L or below in FALLBACK (R369, R370). -/
def ceilingMv (s : State) (site : Nat) : Nat :=
  let isHot := (railOf s site).hot || (site < 8 && ((railOf s (16 + 2 * site)).hot || (railOf s (17 + 2 * site)).hot))
  let hot := if isHot then setMv s site else 900
  if s.power.fallback then min hot 550 else hot

/-- Lowers every other borrower to the level 2 target before a lender's rail rises. -/
def lowerBorrowers (site : Nat) (s : State) : State :=
  each ((List.range 10).filter fun i => i ≠ site && (railOf s i).borrower) (fun i s => setPoint i (min 700 (setMv s i)) s) s

/-- Moves a rail to what its level asks for: up to the level 2 target always, above it only within 97 % of every cap. -/
def moveToLevel (site want : Nat) (s : State) : State :=
  let top := min want (ceilingMv s site)
  if top ≤ 700 then
    let s := if setMv s site < top then lowerBorrowers site s else s
    coverSlews (setPoint site top s)
  else
    let steps := (List.range 31).map fun i => 850 - 5 * i
    let best := (steps.find? fun mv => mv ≤ top && within97 s (withMv (atSetpoints s) site mv)).getD 700
    let s := setPoint site best s
    coverSlews (updRail s site (fun r => { r with borrower := 700 < best }))

/-- Sets a site's hint level; its rail follows in governor mode 0 (R367). -/
def setLevel (site level : Nat) (s : State) : State :=
  let s := updRail s site (fun r => { r with level := BitVec.ofNat 2 level })
  if govMode s = 0 then moveToLevel site (levelMv level) (updRail s site (fun r => { r with target := BitVec.ofNat 12 (levelMv level) }))
  else s

/-- A job is placed on a die: level 2, or the fixed setpoint in governor mode 1. -/
def levelPlaced (d : Nat) (s : State) : State :=
  let s := setLevel d 2 s
  if govMode s = 0 then s else coverSlews (setPoint d (min (fixedMv s) (ceilingMv s d)) s)

/-- A die runs no job: its rail returns to the idle setpoint. -/
def levelIdle (d : Nat) (s : State) : State :=
  let s := updRail s d (fun r => { r with level := 0, throttle := 0, target := BitVec.ofNat 12 (idleMv s), horizonEnd := none })
  setPoint d (min (idleMv s) (ceilingMv s d)) s

end Sys2Proof.Machine
end

