-- ==== Sys2Proof/Machine/JobEnd.lean ====
section
/-! DEFINITION. How a job ends: its completion record and MSI (R177, R190), the host queues that wait on it (R346), the
release of its dies and of its round-engine pins (R166). -/

namespace Sys2Proof.Machine

def stDone : Nat := 0
def stFailed : Nat := 1
def stKilled : Nat := 2
def stRerunExhausted : Nat := 3
def stRefused : Nat := 4
def stFaulted : Nat := 5

/-! ## Pins -/

/-- Releases one RPIN of a granule; when both pins reach none and the entry asked for it, the granule is demoted in class 2
(R166), if the far tier has room. -/
def releaseRpin (demote : Bool) (g : Nat) (s : State) : State :=
  let s := updGran s g (fun x => { x with rpin := x.rpin - 1 })
  let x := granOf s g
  if demote && !isPinned s g && x.state == .hbm then
    match moveRoom s x.owner.toNat false true with
    | .ok l => startMove g .demote false l [] s
    | .error _ => s
  else s

/-- Bit DEMOTE_AFTER of a round-list entry (R163). -/
def demoteAfter (img : Option Image) (i : Nat) : Bool :=
  match img with
  | some m => bits (ByteMap.num m.round (64 + 32 * i) 32) 117 1 = 1
  | none => false

/-- Releases every RPIN a die's round engine holds (R166). -/
def releasePins (d : Nat) (s : State) : State :=
  let x := dieOf s d
  let s := each x.round.pins (fun (p : Nat × Nat) s => releaseRpin (demoteAfter x.image p.1) p.2 s) s
  updDie s d (fun x => { x with round := { x.round with pins := [] } })

/-! ## Completion records -/

/-- Entries of a ring of a given log2 (R173, R177). -/
def ringSize (log2 : Nat) : Nat := 2 ^ log2

/-- The 64-byte completion record (R190). -/
def completionRecord (s : State) (c : Context) (j : Job) (status event : Nat) : List Byte :=
  leBytes 8 j.jobId.toNat ++ leBytes 2 j.ctx.toNat ++ leBytes 1 status ++ leBytes 1 j.firstDie.toNat ++ leBytes 1 j.gang
    ++ leBytes 1 ((if j.unmetered then 1 else 0) + (if c.phase then 128 else 0)) ++ leBytes 2 event
    ++ leBytes 4 j.commands.toNat ++ leBytes 4 j.reruns.toNat ++ leBytes 4 j.flagWord.toNat ++ leBytes 4 j.preemptions.toNat
    ++ leBytes 8 (j.energyNj / 1000000) ++ leBytes 8 j.duration.toNat ++ leBytes 8 j.stall.toNat ++ leBytes 8 s.time.toNat

/-- Moves CQ_TAIL past a record; PHASE inverts when the ring wraps (R190). -/
def advanceCq (c : Context) : Context :=
  let n := (c.cqTail.toNat + 1) % ringSize c.cqLog2.toNat
  { c with cqTail := BitVec.ofNat 16 n, phase := if n = 0 then !c.phase else c.phase }

/-- Counts a job that ended in its context's counters (R173). -/
def countEnd (status : Nat) (c : Context) : Context :=
  if status = stDone then { c with completed := bump c.completed }
  else if status = stKilled then { c with killed := bump c.killed }
  else { c with failed := bump c.failed }

/-- Asks for an MSI of a context when MSI_EN is set (R177, R202). -/
def requestMsi (c : Nat) (s : State) : State :=
  if (ctxOf s c).msiEn then { s with disp := { s.disp with msis := s.disp.msis ++ [BitVec.ofNat 12 c] } } else s

/-- Applies a function to every JOB record the ingest queues remember. -/
def mapHostJobs (f : BitVec 64 × Nat × Option (BitVec 8) → BitVec 64 × Nat × Option (BitVec 8)) (s : State) : State :=
  let g := fun (p : Nat × IngestQueue) => (p.1, { p.2 with jobs := p.2.jobs.map f })
  { s with host := { s.host with queues := s.host.queues.map g } }

/-- Tells the ingest queues that the job of a serial ended (R346). -/
def hostJobEnded (serial status : Nat) (s : State) : State :=
  mapHostJobs (fun x => if x.2.1 = 2 ^ 28 + serial && x.2.2.isNone then (x.1, x.2.1, some (BitVec.ofNat 8 status)) else x) s

/-- The dispatcher has read the descriptor at a ring slot of a context; its job has a serial. -/
def hostJobRead (c slot serial : Nat) (s : State) : State :=
  mapHostJobs (fun x => if x.2.1 = 2 ^ 16 * c + slot && x.2.2.isNone then (x.1, 2 ^ 28 + serial, none) else x) s

/-- A context reset has completed: the jobs it discarded without a record count as KILLED (R346). -/
def hostJobsLost (c : Nat) (s : State) : State :=
  let lost := fun (n : Nat) => if n < 2 ^ 28 then n / 2 ^ 16 == c else (SMap.find s.jobs (n - 2 ^ 28)).isNone
  mapHostJobs (fun x => if lost x.2.1 && x.2.2.isNone then (x.1, x.2.1, some 2) else x) s

/-- Writes a job's completion record and advances CQ_TAIL, then asks for the MSI when the job wants one (R177). -/
def writeRecord (j : Job) (serial status event : Nat) (msi : Bool) (s : State) : State :=
  let c := ctxOf s j.ctx.toNat
  let s := ioWrite (c.cqBase.toNat * 4096 + 64 * (c.cqTail.toNat % ringSize c.cqLog2.toNat)) (completionRecord s c j status event) s
  let s := updCtx s j.ctx.toNat (fun c => countEnd status (advanceCq c))
  let s := if msi && fieldAt j.desc 37 1 % 2 = 1 then requestMsi j.ctx.toNat s else s
  hostJobEnded serial status s

/-! ## Releasing dies -/

/-- The requests of a die no longer belong to a job; they stay outstanding (R222, R228). -/
def orphans (m : SMap PageSlot) : SMap PageSlot := m.map fun (p : Nat × PageSlot) => (p.1, { p.2 with job := none, start := none })

/-- Ends a die's part in its job: no command, no image, nothing in flight; near SRAM keeps its bytes under the old tag. -/
def idleDie (x : DieSt) : DieSt :=
  { x with job := none, image := none, start := none, wait := none, occ := [], passes := [], loads := [], log := [],
           drain := none, commit := none, heldCopies := [], held := [], walkWait := [], pageSlots := orphans x.pageSlots, pendingFlags := 0, boundary := false,
           laceInc := [], sent := [], relLace := [], getTokens := [], deferred := [], fenceX := 0, hintEnd := none, lastKill := none, round := {}, seq := { x.seq with state := .idle, issued := false, ctlHeld := false } }

/-- Ticks of the placement that ends now, added to DURATION (R190). -/
def endPlacement (now : BitVec 64) (j : Job) : Job := { j with duration := j.duration + (now - j.placedAt) }

/-- Weight stall ticks the die counted since they were last moved to its job (R167). -/
def takeStall (d : Nat) (k : Nat) (s : State) : State :=
  let t := (dieOf s d).round.stall
  updDie (updJob s k (fun j => { j with stall := j.stall + t })) d (fun x => { x with round := { x.round with stall := 0 } })

/-- Releases the dies of a job. -/
def releaseDies (k : Nat) (s : State) : State :=
  match jobOf s k with
  | none => s
  | some j =>
    let s := each j.dies (fun d s => levelIdle d (updDie (takeStall d k (releasePins d s)) d idleDie)) s
    updJob s k (fun j => { endPlacement s.time j with dies := [], checked := [] })

/-- Whether a job holds dies: it runs, is killed, saves or restores. -/
def placed (j : Job) : Bool := !j.dies.isEmpty

/-- In Shared mode a context that goes FREE loses its memory key and the lace keys bound to it (R387). -/
def dropCtxKeys (c : Nat) (s : State) : State :=
  if s.sec.mode ≠ 1 then s
  else { s with sec := { s.sec with
    memKeys := SMap.del s.sec.memKeys c,
    laceKeys := s.sec.laceKeys.filter fun (p : Nat × LaceKey) => p.2.ctx.toNat != c } }

/-- A context reset ends once no placed job of the context is left (R174, R285): MSIs of the context that still wait are dropped and counted,
its RCID is released when no other live context holds it, and STATE reads FREE. -/
def settleReset (c : Nat) (s : State) : State :=
  let x := ctxOf s c
  if x.state ≠ .resetting || s.jobs.any (fun (p : Nat × Job) => p.2.ctx.toNat == c) then s
  else
    let queued := s.disp.msis.filter (·.toNat == c)
    let s := { s with disp := { s.disp with msis := s.disp.msis.filter (·.toNat != c) } }
    let s := updCtx s c fun x => { x with droppedMsis := x.droppedMsis + BitVec.ofNat 32 queued.length }
    let live := fun (p : Nat × Context) => p.1 != c && p.2.state != .free && p.2.rcid == x.rcid
    let s := hostJobsLost c (dropCtxKeys c (updCtx s c (fun x => { x with state := .free })))
    if s.ctxs.any live then s
    else
      let other := fun (k : Nat) => k % 4096 != x.rcid.toNat
      { s with cluster := { s.cluster with
          cbqri := s.cluster.cbqri.filter fun (p : Nat × CbqriAlloc) => other p.1,
          monitors := s.cluster.monitors.filter fun (p : Nat × BitVec 64) => other p.1 } }

/-- Ends a job with a record (R190). -/
def finishJob (k status event : Nat) (msi : Bool) (s : State) : State :=
  let s := if (jobOf s k).any placed then releaseDies k s else s
  match jobOf s k with
  | none => s
  | some j =>
    let s := writeRecord j k status event msi s
    let s := updCtx s j.ctx.toNat (fun c => { c with requeued := c.requeued.filter (· != k) })
    settleReset j.ctx.toNat { s with jobs := SMap.del s.jobs k }

end Sys2Proof.Machine
end

