-- ==== Sys2Proof/Machine/Translation.lean ====
section
/-! DEFINITION. Address translation (R212 to R219): directories, the two-stage walk and the IOTLB. Structure layouts are those
of the RISC-V IOMMU and privileged specifications the spec names (log 20). -/

namespace Sys2Proof.Machine

/-- What a translation gives: a physical address, and whether its type is NC; a fault the operating system may resolve; a failure it cannot,
by its cause code (R220); or a structure that no tier can take (R153). -/
inductive TrResult where
  | ok (pa : Nat) (nc : Bool)
  | fault
  | failed (cause : Nat)
  | noRoom (e : NoRoom) (a : Nat)
  deriving DecidableEq, Repr

/-- Why a walk gives no leaf: a page fault, one of the G-stage at a guest address, an access fault, or a table that no tier can take. -/
inductive TrFault where
  | page
  | guest (gpa : Nat)
  | access
  | noRoom (e : NoRoom) (a : Nat)
  deriving DecidableEq, Repr

/-- A leaf found by a walk. `pbmt` is its memory type under Svpbmt: 0 none, 1 NC, 2 IO. -/
structure Leaf where
  base : Nat
  size : Nat
  r : Bool
  w : Bool
  u : Bool
  a : Bool
  d : Bool
  pbmt : Nat
  g : Bool
  deriving DecidableEq, Repr

/-! ## Reading structures -/

/-- Reads an 8-byte structure entry for a context. -/
def readEntry (c pa : Nat) (s : State) : Except TrFault Nat × State :=
  if inUnified s pa 8 then
    match touchGranule (granuleOf pa) c none s with
    | .ok s => (.ok (cohNum s pa 8), s)
    | .error e => (.error (.noRoom e pa), s)
  else (.error .access, s)

/-- Writes an 8-byte structure entry at its home (R217). -/
def writeEntry (pa v : Nat) (s : State) : State := cohPut pa 8 v s

/-! ## Page walks -/

def pteV (p : Nat) : Bool := bits p 0 1 = 1
def pteR (p : Nat) : Bool := bits p 1 1 = 1
def pteW (p : Nat) : Bool := bits p 2 1 = 1
def pteX (p : Nat) : Bool := bits p 3 1 = 1
def pteU (p : Nat) : Bool := bits p 4 1 = 1
def pteA (p : Nat) : Bool := bits p 6 1 = 1
def pteD (p : Nat) : Bool := bits p 7 1 = 1
def ptePpn (p : Nat) : Nat := bits p 10 44
def ptePbmt (p : Nat) : Nat := bits p 61 2
def pteN (p : Nat) : Bool := bits p 63 1 = 1

/-- Whether an entry is well formed: valid, no write without read, reserved bits zero. -/
def pteSound (p : Nat) : Bool := pteV p && !(pteW p && !pteR p) && bits p 54 7 = 0 && ptePbmt p ≠ 3

/-- The leaf an entry at a level gives, or none where R216 or the specification makes it a fault. -/
def leafOf (level p : Nat) : Option Leaf :=
  let ppn := ptePpn p
  let mk := fun (base size : Nat) => some
    { base, size, r := pteR p, w := pteW p, u := pteU p, a := pteA p, d := pteD p, pbmt := ptePbmt p,
      g := bits p 5 1 = 1 : Leaf }
  if pteN p then
    if level = 0 && ppn % 16 = 8 then mk ((ppn / 16) * 65536) 16 else none
  else if ppn % 2 ^ (9 * level) ≠ 0 then none
  else mk (ppn * 4096) (12 + 9 * level)

/-- A walk's access needs: permission for a read or a write, and U (R213). -/
def leafAllows (l : Leaf) (write : Bool) : Bool := l.u && (if write then l.w else l.r)

/-- How one stage's tables are walked: what physical address an entry has, for a read or an update of it; what the walk cache keeps of a step
down to a level's table; whether A and D are set by the walker (R217); and the index of the address at a level. -/
structure Walking where
  entry : Nat → Bool → State → Except TrFault Nat × State
  note : Nat → Nat → Bool → State → State
  ade : Bool
  write : Bool
  index : Nat → Nat

/-- One stage's walk from a table of a level (R216, R217); `glob` says that an entry above has G set. -/
def walk (c : Nat) (k : Walking) : Nat → Nat → Bool → State → Except TrFault Leaf × State
  | level, table, glob, s =>
    let ea := table + 8 * k.index level
    match k.entry ea false s with
    | (.error e, s) => (.error e, s)
    | (.ok pa, s) =>
      match readEntry c pa s with
      | (.error e, s) => (.error e, s)
      | (.ok p, s) =>
        if !pteSound p then (.error .page, s)
        else if pteR p || pteX p then
          match leafOf level p with
          | none => (.error .page, s)
          | some lf =>
            let lf := { lf with g := lf.g || glob }
            if !leafAllows lf k.write then (.error .page, s)
            else if lf.a && (lf.d || !k.write) then (.ok lf, s)
            else if !k.ade then (.error .page, s)
            else
              match k.entry ea true s with
              | (.error e, s) => (.error e, s)
              | (.ok pa, s) =>
                let p' := p ||| 64 ||| (if k.write then 128 else 0)
                (.ok { lf with a := true, d := lf.d || k.write }, writeEntry pa p' s)
        else if bits p 4 1 = 1 || pteA p || pteD p || ptePbmt p ≠ 0 || pteN p then (.error .page, s)
        else match level with
          | 0 => (.error .page, s)
          | l + 1 =>
            let glob := glob || bits p 5 1 = 1
            walk c k l (ptePpn p * 4096) glob (k.note l (ptePpn p * 4096) glob s)

def samePa (a : Nat) (_ : Bool) (s : State) : Except TrFault Nat × State := (.ok a, s)

/-! ## The walk cache (R218, R219) -/

/-- The tag of a context with no G-stage: a host address space (R226; log 20). -/
def hostSpace : Nat := 65536

/-- The PSCID tag of an entry: a global mapping is marked above the 20 bits. -/
def pscidTag (pscid : Nat) (glob : Bool) : Nat := if glob then 2 ^ 20 + pscid else pscid

/-- A translation context: G-stage and first-stage roots and modes, tags, the A/D options (R214, R217), and the flat MSI page table with the
pages it serves (R215). -/
structure TrCtx where
  gMode : Nat
  gRoot : Nat
  gscid : Nat
  sMode : Nat
  sRoot : Nat
  pscid : Nat
  gade : Bool
  sade : Bool
  msi : Bool
  msiRoot : Nat
  msiMask : Nat
  msiPattern : Nat
  deriving DecidableEq, Repr

/-- The address bits above those a table of a level resolves. -/
def walkTag (level addr : Nat) : Nat := addr >>> (12 + 9 * (level + 1))

/-- The cached step of a stage nearest the leaf, of the levels below the root's: its level, table and G. -/
def cachedStep (x : DieSt) (t : TrCtx) (gStage : Bool) (addr root : Nat) : Option (Nat × Nat × Bool) :=
  (List.range root).findSome? fun l =>
    (x.walkCache.find? fun e => e.gStage == gStage && e.gscid == t.gscid && (gStage || e.pscid % 2 ^ 20 == t.pscid) && e.level == l &&
      e.tag == walkTag l addr).map fun e => (l, e.table, decide (2 ^ 20 ≤ e.pscid))

/-- Keeps a step down, evicting the oldest of 1,024 (R218). -/
def keepStep (t : TrCtx) (gStage : Bool) (addr level table : Nat) (glob : Bool) (x : DieSt) : DieSt :=
  let e : WalkEntry := { gStage, gscid := t.gscid, pscid := if gStage then 0 else pscidTag t.pscid glob, level, tag := walkTag level addr, table }
  { x with walkCache := (e :: x.walkCache).take 1024 }

/-- Walks one stage for a die, from the nearest step its walk cache holds; a walk for a PCIe function has no die, and keeps nothing. -/
def walkStage (c : Nat) (die : Option Nat) (t : TrCtx) (gStage : Bool) (entry : Nat → Bool → State → Except TrFault Nat × State)
    (ade write : Bool) (index : Nat → Nat) (addr root table : Nat) (s : State) : Except TrFault Leaf × State :=
  let note := fun (l a : Nat) (glob : Bool) (s : State) =>
    match die with
    | some d => updDie s d (keepStep t gStage addr l a glob)
    | none => s
  let (l, a, glob) := ((die.bind fun d => cachedStep (dieOf s d) t gStage addr root).getD (root, table, false))
  walk c { entry, note, ade, write, index } l a glob s

/-! ## Stages -/

/-- The leaf of a stage that is Bare. -/
def bareLeaf (a : Nat) : Leaf :=
  { base := a / 2 ^ 30 * 2 ^ 30, size := 30, r := true, w := true, u := true, a := true, d := true, pbmt := 0, g := false }

/-- The G-stage leaf of a guest-physical address: Bare, Sv48x4 or Sv57x4. -/
def gStage (c : Nat) (die : Option Nat) (t : TrCtx) (gpa : Nat) (write : Bool) (s : State) : Except TrFault Leaf × State :=
  if t.gMode = 0 then (.ok (bareLeaf gpa), s)
  else
    let levels := if t.gMode = 9 then 3 else 4
    if gpa ≥ 2 ^ (12 + 9 * (levels + 1) + 2) then (.error (.guest gpa), s)
    else
      let index := fun l => if l = levels then gpa >>> (12 + 9 * l) else bits gpa (12 + 9 * l) 9
      match walkStage c die t true samePa t.gade write index gpa levels (t.gRoot * 4096) s with
      | (.error .page, s) => (.error (.guest gpa), s)
      | r => r

/-- The address of a first-stage table entry through the G-stage. -/
def viaG (c : Nat) (die : Option Nat) (t : TrCtx) (gpa : Nat) (write : Bool) (s : State) : Except TrFault Nat × State :=
  match gStage c die t gpa write s with
  | (.ok l, s) => (.ok (l.base + gpa % 2 ^ l.size), s)
  | (.error e, s) => (.error e, s)

/-- The first-stage leaf of a virtual address: Bare, Sv48 or Sv57. -/
def sStage (c : Nat) (die : Option Nat) (t : TrCtx) (va : Nat) (write : Bool) (s : State) : Except TrFault Leaf × State :=
  if t.sMode = 0 then (.ok (bareLeaf va), s)
  else
    let levels := if t.sMode = 9 then 3 else 4
    let width := 12 + 9 * (levels + 1)
    let hi := va >>> (width - 1)
    if hi ≠ 0 && hi ≠ 2 ^ (65 - width) - 1 then (.error .page, s)
    else walkStage c die t false (viaG c die t) t.sade write (fun l => bits va (12 + 9 * l) 9) va levels (t.sRoot * 4096) s

/-- The guest-physical address a first-stage leaf gives a virtual one. -/
def leafAddr (l : Leaf) (va : Nat) : Nat := l.base + va % 2 ^ l.size

/-- Whether a guest-physical address lies in a page that the device's MSI page table serves (R215). -/
def isMsi (t : TrCtx) (gpa : Nat) : Bool := t.msi && (gpa / 4096 ||| t.msiMask) = (t.msiPattern ||| t.msiMask)

/-- A first-stage leaf combined with the G-stage's, cached at no more than 1 GiB (R216). A first-stage memory type overrides the G-stage's
(Svpbmt). -/
def overG (c : Nat) (die : Option Nat) (t : TrCtx) (va : Nat) (write : Bool) (l1 : Leaf) (s : State) : Except TrFault Leaf × State :=
  let gpa := leafAddr l1 va
  match gStage c die t gpa write s with
  | (.error e, s) => (.error e, s)
  | (.ok l2, s) =>
    let pa := leafAddr l2 gpa
    let size := min 30 (min l1.size l2.size)
    (.ok { base := pa / 2 ^ size * 2 ^ size, size, r := l1.r && l2.r, w := l1.w && l2.w, u := true,
           a := l1.a && l2.a, d := l1.d && l2.d, pbmt := if l1.pbmt = 0 then l2.pbmt else l1.pbmt, g := l1.g }, s)

/-- Both stages of an engine's access, with the size of the first-stage page (R226). An MSI page lies outside the unified range, which is an
access fault of an engine (R216). -/
def bothStages (c : Nat) (die : Option Nat) (t : TrCtx) (va : Nat) (write : Bool) (s : State) : Except TrFault (Leaf × Nat) × State :=
  match sStage c die t va write s with
  | (.error e, s) => (.error e, s)
  | (.ok l1, s) =>
    if isMsi t (leafAddr l1 va) then (.error .access, s)
    else match overG c die t va write l1 s with
      | (.error e, s) => (.error e, s)
      | (.ok l, s) => (.ok (l, l1.size), s)

/-! ## Directories -/

/-- The device directory pointer register at offset 0x10 of the agent's register file (R215; log 20). -/
def ddtp (s : State) : Nat := ByteMap.num s.iommu.regs 0x10 8

/-- A register of the agent's file, of n bytes. -/
def iommuReg (s : State) (off n : Nat) : Nat := ByteMap.num s.iommu.regs off n
def setIommuReg (off n v : Nat) (s : State) : State :=
  { s with iommu := { s.iommu with regs := ByteMap.write s.iommu.regs off (leBytes n v) } }

/-- Walks the device directory to the 64-byte context of a device; an error is its cause code. -/
def ddtWalk (did : Nat) (c : Nat) : Nat → Nat → State → Except Nat (List W64) × State
  | level, table, s =>
    let idx := if level = 0 then bits did 0 6 else if level = 1 then bits did 6 9 else bits did 15 9
    match level with
    | 0 =>
      let a := table + 64 * idx
      if inUnified s a 64 then
        let s := touchIo a 64 s
        (.ok ((List.range 8).map (fun i => BitVec.ofNat 64 (cohNum s (a + 8 * i) 8))), s)
      else (.error 257, s)
    | l + 1 =>
      match readEntry c (table + 8 * idx) s with
      | (.error _, s) => (.error 257, s)
      | (.ok e, s) =>
        if bits e 0 1 = 0 then (.error 258, s)
        else if bits e 1 9 ≠ 0 || bits e 54 10 ≠ 0 then (.error 259, s)
        else ddtWalk did c l (bits e 10 44 * 4096) s

/-- A device context's checks (R215): the modes must be supported ones, no unsupported option set and every reserved bit 0. -/
def dcSound (dc : List W64) : Except Nat Unit :=
  let word := fun (i : Nat) => (dc.getD i 0).toNat
  let tc := word 0
  let gmode := bits (word 1) 60 4
  let smode := bits (word 3) 60 4
  let pdtv := bits tc 5 1 = 1
  if bits tc 0 1 = 0 then .error 258
  else if bits tc 1 3 ≠ 0 || bits tc 6 1 ≠ 0 || bits tc 10 14 ≠ 0 || bits tc 32 32 ≠ 0 then .error 259
  else if bits tc 9 1 = 1 && !pdtv then .error 259
  else if (gmode ≠ 0 && gmode ≠ 9 && gmode ≠ 10) || (gmode ≠ 0 && bits (word 1) 0 2 ≠ 0) then .error 259
  else if pdtv && smode > 3 then .error 259
  else if !pdtv && smode ≠ 0 && smode ≠ 9 && smode ≠ 10 then .error 259
  else if bits (word 2) 0 12 ≠ 0 || bits (word 2) 32 32 ≠ 0 || bits (word 3) 44 16 ≠ 0 then .error 259
  else if bits (word 4) 60 4 > 1 || bits (word 4) 44 16 ≠ 0 || bits (word 5) 52 12 ≠ 0 || bits (word 6) 52 12 ≠ 0 || word 7 ≠ 0 then
    .error 259
  else .ok ()

/-- The device context of a device, from the cache or by a walk. -/
def deviceCtx (did c : Nat) (s : State) : Except Nat (List W64) × State :=
  match SMap.find s.iommu.ddtCache did with
  | some dc => (.ok dc, s)
  | none =>
    let mode := bits (ddtp s) 0 4
    let root := bits (ddtp s) 10 44 * 4096
    if mode < 2 || mode > 4 then (.error 256, s)
    else if did ≥ 2 ^ (if mode = 2 then 6 else if mode = 3 then 15 else 24) then (.error 260, s)
    else match ddtWalk did c (mode - 2) root s with
      | (.error e, s) => (.error e, s)
      | (.ok dc, s) => match dcSound dc with
        | .error e => (.error e, s)
        | .ok _ => (.ok dc, { s with iommu := { s.iommu with ddtCache := SMap.put s.iommu.ddtCache did dc } })

/-- Walks the process directory, whose addresses go through the G-stage. -/
def pdtWalk (pid c : Nat) (die : Option Nat) (t : TrCtx) : Nat → Nat → State → Except Nat (Nat × Nat) × State
  | level, table, s =>
    let idx := if level = 0 then bits pid 0 8 else if level = 1 then bits pid 8 9 else bits pid 17 3
    let ea := table + (if level = 0 then 16 else 8) * idx
    match viaG c die t ea false s with
    | (.error _, s) => (.error 265, s)
    | (.ok pa, s) =>
      match readEntry c pa s with
      | (.error _, s) => (.error 265, s)
      | (.ok e, s) =>
        if bits e 0 1 = 0 then (.error 266, s)
        else match level with
          | 0 => match readEntry c (pa + 8) s with
            | (.error _, s) => (.error 265, s)
            | (.ok f, s) =>
              let m := bits f 60 4
              if bits e 3 9 ≠ 0 || bits e 32 32 ≠ 0 || bits f 44 16 ≠ 0 || (m ≠ 0 && m ≠ 9 && m ≠ 10) then (.error 267, s)
              else (.ok (e, f), s)
          | l + 1 => if bits e 1 9 ≠ 0 || bits e 54 10 ≠ 0 then (.error 267, s)
            else pdtWalk pid c die t l (bits e 10 44 * 4096) s

/-- The G-stage half of a device's translation context. -/
def deviceStage (dc : List W64) : TrCtx :=
  let tc := (dc.getD 0 0).toNat
  let hg := (dc.getD 1 0).toNat
  { gMode := bits hg 60 4, gRoot := bits hg 0 44, gscid := if bits hg 60 4 = 0 then hostSpace else bits hg 44 16, sMode := 0, sRoot := 0,
    pscid := 0, gade := bits tc 7 1 = 1, sade := bits tc 8 1 = 1, msi := bits (dc.getD 4 0).toNat 60 4 = 1,
    msiRoot := bits (dc.getD 4 0).toNat 0 44 * 4096, msiMask := (dc.getD 5 0).toNat, msiPattern := (dc.getD 6 0).toNat }

/-- A context with the first stage of a process: its PSCID and the root and mode of its tables. -/
def withProcess (t : TrCtx) (ta fsc : Nat) : TrCtx :=
  { t with sMode := bits fsc 60 4, sRoot := bits fsc 0 44, pscid := bits ta 12 20 }

/-- The process of a device's directory (R215). -/
def processCtx (did pid c : Nat) (die : Option Nat) (dc : List W64) (s : State) : Except Nat TrCtx × State :=
  let t := deviceStage dc
  let fsc := (dc.getD 3 0).toNat
  let mode := bits fsc 60 4
  if mode = 0 then (.ok t, s)
  else if pid ≥ 2 ^ (if mode = 1 then 8 else if mode = 2 then 17 else 20) then (.error 260, s)
  else
    let key := did * 2 ^ 20 + pid
    match SMap.find s.iommu.pdtCache key with
    | some pc => (.ok (withProcess t (pc.getD 0 0).toNat (pc.getD 1 0).toNat), s)
    | none =>
      match pdtWalk pid c die t (mode - 1) (bits fsc 0 44 * 4096) s with
      | (.error e, s) => (.error e, s)
      | (.ok (e, f), s) =>
        (.ok (withProcess t e f), { s with iommu := { s.iommu with
          pdtCache := SMap.put s.iommu.pdtCache key [BitVec.ofNat 64 e, BitVec.ofNat 64 f] } })

/-- The translation context of a device's request, with a process or with none (R213 to R215): without one, process 0 where the device
context says so, and the device's own first stage where it has no process directory. -/
def trCtx (did : Nat) (pid : Option Nat) (c : Nat) (die : Option Nat) (s : State) : Except Nat TrCtx × State :=
  match deviceCtx did c s with
  | (.error e, s) => (.error e, s)
  | (.ok dc, s) =>
    let tc := (dc.getD 0 0).toNat
    if bits tc 5 1 = 0 then
      match pid with
      | some _ => (.error 260, s)
      | none => (.ok (withProcess (deviceStage dc) (dc.getD 2 0).toNat (dc.getD 3 0).toNat), s)
    else match pid with
      | some p => processCtx did p c die dc s
      | none => if bits tc 9 1 = 1 then processCtx did 0 c die dc s else (.ok (deviceStage dc), s)

/-! ## The IOTLB -/

def tlbCovers (e : TlbEntry) (t : TrCtx) (va : Nat) : Bool :=
  e.gscid = t.gscid && e.pscid % 2 ^ 20 = t.pscid && va / 2 ^ e.size = e.vpage

/-- A usable cached leaf: the permission holds, and D is set for a write. -/
def tlbHit (x : DieSt) (t : TrCtx) (va : Nat) (write : Bool) : Option TlbEntry :=
  x.iotlb.find? (fun e => tlbCovers e t va && (if write then e.w && e.d else e.r))

/-- Adds a leaf, evicting the oldest of 8,192 (R218). -/
def tlbAdd (e : TlbEntry) (x : DieSt) : DieSt := { x with iotlb := (e :: x.iotlb).take 8192 }

/-- Whether a request is for a page of a context. -/
def samePage (p : PageSlot) (c : Nat) (pid : BitVec 20) (va : Nat) : Bool :=
  p.did == c && p.pid == pid && p.va.toNat / 4096 == va / 4096

/-- Whether a walk of the running job's already waits for the page of an address: on a page request, or on the walkers. Later accesses to the
page join it (R218, R223). -/
def pageAwaited (s : State) (d c va : Nat) : Bool :=
  let x := dieOf s d
  x.job.isSome && (x.pageSlots.any (fun p => p.2.job == x.job && samePage p.2 c (ctxOf s c).pasid va)
    || x.walkWait.any fun w => w.va.toNat / 4096 == va / 4096)

/-- The actions of a die that its page requests and its walkers hold. -/
def heldActs (x : DieSt) : List HeldAct := x.held.map (·.2) ++ x.walkWait.map (·.act)

/-- Walkers that hold a fault until a page-request slot is free (R218, R222). -/
def walkersBusy (x : DieSt) : Nat := (x.walkWait.filter (·.walked)).length

/-- Translates one engine access of a die in a context (R213 to R219). An access whose page is awaited, and a miss that finds all 32 walkers
busy, are held as a fault is. -/
def translate (d c va : Nat) (write : Bool) (s : State) : TrResult × State :=
  let mode := bits (ddtp s) 0 4
  if mode = 1 then (if inUnified s va 1 then .ok va false else .fault, s)
  else if pageAwaited s d c va then (.fault, s)
  else match trCtx c (some (ctxOf s c).pasid.toNat) c (some d) s with
    | (.error e, s) => (.failed e, s)
    | (.ok t, s) =>
      match tlbHit (dieOf s d) t va write with
      | some e =>
        (.ok (e.base + va % 2 ^ e.size) e.nc,
          updDie s d (fun x => { x with tr := { x.tr with iotlbHits := x.tr.iotlbHits + 1 } }))
      | none =>
        if 32 ≤ walkersBusy (dieOf s d) then (.fault, s)
        else
          let s := updDie s d (fun x => { x with tr := { x.tr with walks := x.tr.walks + 1 } })
          match bothStages c (some d) t va write s with
          | (.error (.noRoom e a), s) => (.noRoom e a, s)
          | (.error _, s) => (.fault, s)
          | (.ok (l, span), s) =>
            let pa := leafAddr l va
            if l.pbmt = 2 || !inUnified s pa 1 then (.fault, s)
            else
              let e : TlbEntry := { gscid := t.gscid, pscid := pscidTag t.pscid l.g, vpage := va / 2 ^ l.size, size := l.size,
                                    base := l.base, r := l.r, w := l.w, u := l.u, a := l.a, d := l.d, nc := l.pbmt = 1, span }
              (.ok pa e.nc, updDie s d (tlbAdd e))

/-- The IOTLB entry a staged write was translated under (R226). -/
def stageKey (d c va : Nat) (s : State) : Option StageKey :=
  match trCtx c (some (ctxOf s c).pasid.toNat) c (some d) s with
  | (.ok t, _) => (tlbHit (dieOf s d) t va true).map fun e =>
      { gscid := e.gscid, pscid := e.pscid, vpage := e.vpage, size := e.size, span := e.span }
  | (.error _, _) => none

/-- What a job's read of virtual memory gives: bytes, or the address of the fault. -/
inductive VRead where
  | ok (b : List Byte)
  | fault (va : Nat)
  | failed (cause : Nat)
  | noRoom (e : NoRoom) (a : Nat)
  | poison (a : Nat)
  deriving DecidableEq, Repr

/-- Reads n bytes of a context's virtual memory for a die, page by page, with poison and placement (R151, R266). `viaEdge`
reads through the die's edge cache, but for pages of type NC, which are not cached (R233); others are served at the homes. -/
def vread (d c : Nat) (viaEdge : Bool) (va n : Nat) (s : State) : VRead × State :=
  let first := va / 64
  let count := (va + n + 63) / 64 - first
  let r := (List.range count).foldl (fun (acc : VRead × State) i =>
    match acc with
    | (.ok b, s) =>
      let l := first + i
      match translate d c (64 * l) false s with
      | (.fault, s) => (.fault (max va (64 * l)), s)
      | (.failed e, s) => (.failed e, s)
      | (.noRoom e a, s) => (.noRoom e a, s)
      | (.ok pa nc, s) =>
        match touchGranule (granuleOf pa) c (some d) s with
        | .error e => (.noRoom e pa, s)
        | .ok s =>
          let s := if (keyOf s (granuleOf pa)).isNone then noKey pa s else s
          if poisoned s (pa / 64) then (.poison pa, s)
          else if viaEdge && !nc then
            let (x, s) := edgeRead d c (pa / 64) s
            (.ok (b ++ x), s)
          else (.ok (b ++ cohLine s (pa / 64)), noteTraffic (ctxTag s c) false 64 (pa / 64) s)
    | r => r) (.ok [], s)
  match r with
  | (.ok b, s) => (.ok ((b.drop (va % 64)).take n), s)
  | r => r

/-- Writes bytes to a context's virtual memory at once: saves and the step builder's structures. -/
def vwrite (d c va : Nat) (bs : List Byte) (s : State) : VRead × State :=
  let first := va / 64
  let count := (va + bs.length + 63) / 64 - first
  (List.range count).foldl (fun (acc : VRead × State) i =>
    match acc with
    | (.ok _, s) =>
      let l := first + i
      let lo := if i = 0 then va % 64 else 0
      let chunk := (bs.drop (64 * l + lo - va)).take (64 - lo)
      match translate d c (64 * l) true s with
      | (.fault, s) => (.fault (max va (64 * l)), s)
      | (.failed e, s) => (.failed e, s)
      | (.noRoom e a, s) => (.noRoom e a, s)
      | (.ok pa _, s) =>
        match touchGranule (granuleOf pa) c (some d) s with
        | .error e => (.noRoom e pa, s)
        | .ok s =>
          (.ok [], cohStoreLine (pa / 64) (lineMask lo chunk.length) (zeros lo ++ chunk) (noteTraffic (ctxTag s c) true 64 (pa / 64) s))
    | r => r) (.ok [], s)

end Sys2Proof.Machine
end

