-- ==== Sys2Proof/Machine/Operands.lean ====
section
/-! DEFINITION. The operand forms of a compute die: the tables of the job image (R87, R94, R95, R111, R131), pan accesses
through tokens (R96 to R98), the staging log (R180, R181), Churn registers (R126) and slot fields (R62, R110, R113, R129). -/

namespace Sys2Proof.Machine

/-! ## Why an action stops its command -/

/-- How an action of a stream can fail to take effect. -/
inductive Stop where
  /-- a program fault: the event and its payload (R125, R68) -/
  | program (code : Nat) (payload : List Nat)
  /-- a contained fault: the command is re-run (R183) -/
  | contained (code : Nat) (payload : List Nat)
  /-- a failing error: the job ends FAILED (R183) -/
  | failing (code : Nat) (payload : List Nat)
  /-- the action cannot start yet and issue waits -/
  | stall
  deriving DecidableEq, Repr

/-- An action's result. -/
abbrev Act (α : Type) := Except Stop α

/-! ## Tables of the image -/

/-- A pan table entry (R94). -/
structure PanEnt where
  base : Nat
  size : Nat
  persistent : Bool
  deriving DecidableEq, Repr

def panEnt (img : Image) (p : Nat) : PanEnt :=
  let v := ByteMap.num img.pans (16 * p) 16
  { base := bits v 0 24, size := bits v 24 24, persistent := bits v 48 1 = 1 }

/-- A token table entry (R95). -/
structure TokEnt where
  pan : Nat
  offset : Nat
  length : Nat
  source : Nat
  deriving DecidableEq, Repr

def tokEnt (img : Image) (t : Nat) : TokEnt :=
  let v := ByteMap.num img.tokens (16 * t) 16
  { pan := bits v 0 12, offset := bits v 12 24, length := bits v 36 24, source := bits v 60 4 }

/-- A vat descriptor's entry (R64). -/
def vatDescAt (img : Image) (i : Nat) : Nat := ByteMap.num img.vatDesc (32 * i) 32

/-- A mover descriptor (R111). -/
structure MovDesc where
  pan : Nat
  token : Nat
  offset : Nat
  length : Nat
  target : Nat
  redOp : Nat
  reserved : Bool
  deriving DecidableEq, Repr

def movDesc (img : Image) (i : Nat) : MovDesc :=
  let v := ByteMap.num img.movDesc (32 * i) 32
  { pan := bits v 0 12, token := bits v 12 13, offset := bits v 25 24, length := bits v 64 24, target := bits v 128 64,
    redOp := bits v 192 3, reserved := bits v 49 15 ≠ 0 || bits v 88 40 ≠ 0 || bits v 195 61 ≠ 0 }

/-- The COPY fields of TARGET (R111). -/
structure CopyTarget where
  rank : Nat
  pan : Nat
  token : Nat
  offset : Nat
  reserved : Bool
  deriving DecidableEq, Repr

def copyTarget (t : Nat) : CopyTarget :=
  { rank := bits t 0 4, pan := bits t 4 12, token := bits t 16 13, offset := bits t 29 24, reserved := bits t 53 11 ≠ 0 }

/-- A Churn descriptor (R131). -/
structure ChurnDesc where
  pan : Nat
  offset : Nat
  byte : Nat
  estride : Int
  count : Nat
  reserved : Bool
  deriving DecidableEq, Repr

def churnDesc (img : Image) (i : Nat) : ChurnDesc :=
  let v := ByteMap.num img.churnDesc (16 * i) 16
  { pan := bits v 0 12, offset := bits v 12 24, byte := bits v 36 6, estride := signed 32 (bits v 64 32),
    count := bits v 96 11 + 1, reserved := bits v 42 22 ≠ 0 || bits v 107 21 ≠ 0 }

/-! ## The stream section -/

/-- The fields of the stream section (R87). -/
structure Section87 where
  streamVa : Nat
  words : Nat
  waitLimit : Nat
  panVa : Nat
  tokenVa : Nat
  vatVa : Nat
  movVa : Nat
  churnVa : Nat
  useVats : Nat
  useUnits : Nat
  gang : Nat
  bl : Nat
  roundUsed : Nat
  reserved : Nat
  deriving DecidableEq, Repr

def section87 (b : List Byte) : Section87 :=
  let f := fieldAt b
  { streamVa := f 0 8, words := f 8 4, waitLimit := f 12 4, panVa := f 16 8, tokenVa := f 24 8, vatVa := f 32 8,
    movVa := f 40 8, churnVa := f 48 8, useVats := f 56 2, useUnits := f 58 1, gang := f 59 1, bl := f 60 1,
    roundUsed := f 61 1, reserved := f 62 2 }

def imageSect (img : Image) : Section87 := section87 (ByteMap.read img.sect 0 64)

/-- Word i of the stream. -/
def streamWord (img : Image) (i : Nat) : Nat := ByteMap.num img.stream (8 * i) 8

/-! ## Scalars and tokens -/

def svOf (x : DieSt) (i : Nat) : W64 := SMap.get 0 x.sv i
def setSv (i : Nat) (v : W64) (x : DieSt) : DieSt := { x with sv := SMap.set 0 x.sv i v }
def lcOf (x : DieSt) (i : Nat) : BitVec 32 := SMap.get 0 x.lc i
def setLc (i : Nat) (v : BitVec 32) (x : DieSt) : DieSt := { x with lc := SMap.set 0 x.lc i v }
def tokOf (x : DieSt) (t : Nat) : TokenSt := SMap.get {} x.tokens t
def updTok (t : Nat) (f : TokenSt → TokenSt) (x : DieSt) : DieSt := { x with tokens := SMap.upd {} x.tokens t f }

/-- An access naming a LENT token faults (R105). The word index is that of the bundle's header (log 114). -/
def tokenLocal (x : DieSt) (t : Nat) : Act Unit :=
  if (tokOf x t).lent.isSome then .error (.program 0x0605 [t, x.seq.pos]) else .ok ()

/-! ## The staging log -/

def maxLogEntries : Nat := 458752

/-- Entries that take space in the log (R181). -/
def logCount (x : DieSt) : Nat := (x.log.filter (fun e => e.kind != .fence)).length

/-- Adds an entry, or reports a full log (R181). -/
def logAdd (e : LogEntry) (x : DieSt) : Act DieSt :=
  if logCount x < maxLogEntries then .ok { x with log := x.log ++ [e] }
  else .error (.program 0x0606 [64 * logCount x])

/-- Merges a line write into the entry made for that line since the last FENCE.S, or makes a new one (R181). -/
def mergeLast (e : LogEntry) : List LogEntry → Option (List LogEntry)
  | [] => none
  | o :: rest =>
    match mergeLast e rest with
    | some r => some (o :: r)
    | none =>
      if o.kind = e.kind && o.addr = e.addr && !rest.any (fun z => z.kind == .fence) then
        some ({ o with data := mergeLine e.mask e.data o.data, mask := o.mask ||| e.mask, key := e.key } :: rest)
      else none

/-- Stages a line write (R180, R181). -/
def stageLine (e : LogEntry) (x : DieSt) : Act DieSt :=
  match mergeLast e x.log with
  | some l => .ok { x with log := l }
  | none => logAdd e x

/-- A line as the staged entries of one kind leave it (R180). -/
def forwarded (x : DieSt) (kind : LogKind) (addr : Nat) (base : LineData) : LineData :=
  x.log.foldl (fun d e => if e.kind = kind && e.addr = addr then mergeLine e.mask e.data d else d) base

/-! ## Near SRAM -/

/-- A line of the pan area; one whose tag is not the current one reads zero (R389). -/
def sramLine (x : DieSt) (l : Nat) : LineData :=
  if SMap.get 0 x.lineTag l = x.placeCtr.toNat + 1 then ByteMap.read x.sram (64 * l) 64 else zeros 64

/-- Writes a line of the pan area under the current tag (R388). -/
def putSramLine (l : Nat) (mask : BitVec 64) (data : LineData) (x : DieSt) : DieSt :=
  let new := mergeLine mask data (sramLine x l)
  { x with sram := ByteMap.write x.sram (64 * l) new, lineTag := SMap.set 0 x.lineTag l (x.placeCtr.toNat + 1) }

/-- A line of a pan as the running command sees it. -/
def panLineNow (x : DieSt) (p : PanEnt) (l : Nat) : LineData :=
  if p.persistent then forwarded x .panLine (p.base + l) (sramLine x (p.base + l)) else sramLine x (p.base + l)

/-- Reads bytes of a pan; an unwritten line of a command-local pan faults (R97). -/
def readPan (x : DieSt) (p : PanEnt) (token off n : Nat) : Act (List Byte) :=
  let first := off / 64
  let lines := (List.range ((off + n + 63) / 64 - first)).map (first + ·)
  match lines.find? (fun l => !p.persistent && !x.written.contains (p.base + l)) with
  | some l => .error (.program 0x0607 [token, l])
  | none => .ok (((lines.map (panLineNow x p)).flatten.drop (off % 64)).take n)

/-- Writes masked bytes of a line of a pan: at once into a command-local pan, staged for a job-persistent one (R97, R180). -/
def writePanLine (p : PanEnt) (l : Nat) (mask : BitVec 64) (data : LineData) (x : DieSt) : Act DieSt :=
  let a := p.base + l
  if p.persistent then stageLine { kind := .panLine, addr := a, data, mask, key := none } x
  else if x.written.contains a then .ok (putSramLine a mask data x)
  else .ok { putSramLine a (BitVec.allOnes 64) (mergeLine mask data (zeros 64)) x with written := a :: x.written }

/-- Writes bytes of a pan. -/
def writePan (p : PanEnt) (off : Nat) (bs : List Byte) (x : DieSt) : Act DieSt :=
  let first := off / 64
  (List.range ((off + bs.length + 63) / 64 - first)).foldl (fun r i =>
    r.bind fun x =>
      let l := first + i
      let lo := if i = 0 then off % 64 else 0
      let chunk := (bs.drop (64 * l + lo - off)).take (64 - lo)
      writePanLine p l (lineMask lo chunk.length) (zeros lo ++ chunk) x) (.ok x)

/-! ## Regions (R96) -/

/-- Whether bytes lo to hi of a pan lie in a token's region of that pan (R96). -/
def inRegion (img : Image) (pan token : Nat) (lo hi : Int) : Bool :=
  let t := tokEnt img token
  token ≠ 0 && t.pan ≠ 0 && t.pan = pan && lo ≤ hi && (64 * t.offset : Int) ≤ lo && hi < (64 * (t.offset + t.length) : Int)

/-- The byte of its pan where a scalar access of LDS or STS lies; an indexed one that leaves the region faults (R96, R114).
The index register counts as two's complement (DEDUCED, log 10). -/
def scalarAddr (img : Image) (x : DieSt) (a : ScalarMem) : Act Nat :=
  let t := tokEnt img a.token.toNat
  let unit : Int := a.offset.toNat + (if a.idx then (svOf x a.xsv.toNat).toInt else 0)
  if 0 ≤ unit && 8 * unit + 8 ≤ 64 * (t.length : Int) then .ok (64 * t.offset + 8 * unit.toNat)
  else .error (.program 0x0604 [a.token.toNat, intCode 64 unit])

/-! ## Churn registers -/

def churnOf (x : DieSt) (u : Nat) : ChurnUnit := SMap.get {} x.churn u
def updChurn (u : Nat) (f : ChurnUnit → ChurnUnit) (x : DieSt) : DieSt := { x with churn := SMap.upd {} x.churn u f }

/-- Bytes of vector register r. -/
def vecBytes (c : ChurnUnit) (r : Nat) : List Byte := ByteMap.read c.v (2048 * r) 2048
def setVec (r : Nat) (b : List Byte) (c : ChurnUnit) : ChurnUnit := { c with v := ByteMap.write c.v (2048 * r) (fit 2048 b) }
def maskOf (c : ChurnUnit) (m : Nat) : BitVec 2048 := SMap.get 0 c.m m
def setMask (m : Nat) (v : BitVec 2048) (c : ChurnUnit) : ChurnUnit := { c with m := SMap.set 0 c.m m v }

/-- Lane bytes of a type; INT4 and the 8-bit types use one byte (R128). -/
def laneBytes (ty : Nat) : Nat := if ty = 0 || ty = 0xB then 4 else if ty = 1 || ty = 2 then 2 else 1
def laneCount (ty : Nat) : Nat := 2048 / laneBytes ty

/-- The lanes of a register viewed in a type (R126). -/
def lanes (ty : Nat) (b : List Byte) : List Nat := elems (laneBytes ty) (laneCount ty) b

/-- The value bits of an element: INT4 reads bits 3:0 of its lane (R128). -/
def elemCode (ty lane : Nat) : Nat := if ty = 9 then lane % 16 else lane

/-- The lane an element code is written as: INT4 sign-extended (R128). -/
def laneCode (ty code : Nat) : Nat := if ty = 9 then intCode 8 (signed 4 code) else code

/-- The signed value of an integer element. -/
def elemInt (ty code : Nat) : Int := signed (if ty = 0xB then 32 else fmtWidth ty) code
def intWidth (ty : Nat) : Nat := if ty = 9 then 4 else if ty = 8 then 8 else 32
def isIntType (ty : Nat) : Bool := ty == 8 || ty == 9 || ty == 0xB
def isFType (ty : Nat) : Bool := ty ≤ 4

/-! ## Occupancy (R92) -/

/-- The key of a unit in the occupancy table: vats 0-15, Churn units 16-19, movers 20-23. -/
def churnUnitKey (u : Nat) : Nat := 16 + u
def moverUnitKey (m : Nat) : Nat := 20 + m

/-- Marks a unit occupied from the step of the last issued bundle for d steps. -/
def occupy (unit d : Nat) (x : DieSt) : DieSt :=
  { x with occ := SMap.set 0 x.occ unit (max (SMap.get 0 x.occ unit) (x.seq.step.toNat + d)) }

/-! ## Slot fields -/

/-- The register layout of a Churn slot (R129). -/
def churnReg (w : Nat) : ChurnReg :=
  { ty := BitVec.ofNat 4 (bits w 52 4), vd := BitVec.ofNat 5 (bits w 47 5), va := BitVec.ofNat 5 (bits w 42 5),
    vb := BitVec.ofNat 5 (bits w 37 5), vc := BitVec.ofNat 5 (bits w 32 5), msk := BitVec.ofNat 3 (bits w 29 3),
    men := bits w 28 1 = 1, za := bits w 27 1 = 1, zb := bits w 26 1 = 1, zc := bits w 25 1 = 1, sat := bits w 24 1 = 1,
    rm := BitVec.ofNat 2 (bits w 22 2), svb := bits w 21 1 = 1, imm := BitVec.ofNat 16 (bits w 0 16) }

/-- The memory layout of a Churn slot (R130). -/
def churnMem (w : Nat) : ChurnMem :=
  { ty := BitVec.ofNat 4 (bits w 52 4), vr := BitVec.ofNat 5 (bits w 47 5), desc := BitVec.ofNat 12 (bits w 35 12),
    token := BitVec.ofNat 13 (bits w 22 13), msk := BitVec.ofNat 3 (bits w 19 3), men := bits w 18 1 = 1 }

/-- The fields of a mover slot (R110). -/
def moverArgs (w : Nat) : MoverArgs :=
  { desc := BitVec.ofNat 12 (bits w 48 12), idx := bits w 47 1 = 1, xsv := BitVec.ofNat 4 (bits w 43 4),
    crit := bits w 42 1 = 1 }

/-- The fields of LDS and STS (R113). -/
def scalarMem (w : Nat) : ScalarMem :=
  { sv := BitVec.ofNat 4 (bits w 52 4), idx := bits w 51 1 = 1, xsv := BitVec.ofNat 4 (bits w 47 4),
    token := BitVec.ofNat 13 (bits w 34 13), offset := BitVec.ofNat 24 (bits w 0 24) }

/-- Lowest and highest byte a Churn memory access touches in its pan (R131). -/
def churnSpan (ty : Nat) (c : ChurnDesc) : Int × Int :=
  let last : Int := (c.count - 1 : Nat) * c.estride
  let lo := min 0 last
  let hi := max 0 last
  if ty = 9 then
    let b : Int := 2 * (64 * c.offset + c.byte)
    ((b + lo) / 2, (b + hi) / 2)
  else
    let w : Int := laneBytes ty
    let b : Int := 64 * c.offset + c.byte
    (b + lo * w, b + hi * w + w - 1)

end Sys2Proof.Machine
end

