-- ==== Sys2Proof/Machine/VatMath.lean ====
section
/-! DEFINITION. The arithmetic of the vats: weight conversion at load (R71, R75, R76), activation conversion at the feeders
(R74), column values and special results (R77, R78), integer passes (R79), accumulation (R80) and output (R81, R82). -/

namespace Sys2Proof.Machine

/-- Logical columns of a weight mode (R48). -/
def modeCols (wmode : Nat) : Nat := if wmode = 1 then 512 else if wmode = 2 then 1024 else 256

/-- The tag an element carries (R74). -/
def tagOf : FVal → Option WTag
  | .nan true => some .snan
  | .nan false => some .qnan
  | .inf false => some .pinf
  | .inf true => some .ninf
  | .fin _ _ _ => none

def WTag.isNan : WTag → Bool
  | .qnan => true
  | .snan => true
  | _ => false

/-! ## Loading -/

/-- One column block as the loader stores it (R75). -/
structure ColBlock where
  w : List Int
  g : Option Int
  sigma : Int
  tags : List (Option WTag)
  invalid : Bool
  deriving DecidableEq, Repr

/-- A KT2 code's value; the reserved code reads as 0 (R71). -/
def kt2Val (code : Nat) : Int := if code = 1 then 1 else if code = 3 then -1 else 0

/-- A KT2 column block under its BF16 scale (R71, R75). -/
def kt2Block (codes : List Nat) (scale : Nat) : ColBlock :=
  let reserved := codes.any (· == 2)
  let ex := bits scale 7 8
  let fr := bits scale 0 7
  let neg := bits scale 15 1 = 1
  match decodeF 1 scale with
  | .nan sig =>
    { w := codes.map fun _ => 0, g := none, sigma := 0,
      tags := codes.map fun _ => some (if sig then .snan else .qnan), invalid := reserved }
  | .inf n =>
    { w := codes.map fun _ => 0, g := none, sigma := 0,
      tags := codes.map fun c =>
        if kt2Val c = 0 then some .qnan else if (kt2Val c < 0) != n then some .ninf else some .pinf,
      invalid := codes.any fun c => kt2Val c = 0 }
  | .fin _ _ _ =>
    let sg : Int := if ex = 0 then fr else 128 + fr
    { w := codes.map kt2Val, g := some (if ex = 0 then -133 else (ex : Int) - 134),
      sigma := if neg then -sg else sg, tags := codes.map fun _ => none, invalid := reserved }

/-- One column block of 32 codes (R75); `scale` is the block's scale where the format has one. -/
def loadBlock (wmode wfmt : Nat) (codes : List Nat) (scale : Nat) : ColBlock :=
  if wfmt = 0xA then kt2Block codes scale
  else if wfmt = 8 || wfmt = 9 then
    { w := codes.map (signed (fmtWidth wfmt)), g := some 0, sigma := 1, tags := codes.map fun _ => none, invalid := false }
  else if isMxFmt wfmt && scale = 0xFF then
    { w := codes.map fun _ => 0, g := none, sigma := 1, tags := codes.map fun _ => some .qnan, invalid := false }
  else if wmode = 1 then
    { w := codes.map fun c => match decodeF 7 c with
        | .fin n m e => let x : Int := (m <<< (e + 1).toNat : Nat); if n then -x else x
        | _ => 0,
      g := some ((scale : Int) - 128), sigma := 1, tags := codes.map fun _ => none, invalid := false }
  else
    let k : Int := if isMxFmt wfmt then (scale : Int) - 127 else 0
    let vals := codes.map fun c => (decodeF wfmt c).scale k
    let (g, w) := align (if wmode = 3 then 14 else 6) vals
    { w, g, sigma := 1, tags := vals.map tagOf, invalid := false }

/-- Turns a list of rows of n entries into its n columns. -/
def transpose {α : Type} (n : Nat) (rows : List (List α)) : List (List α) :=
  rows.foldr (List.zipWith List.cons) (List.replicate n [])

/-- The scale of column j in block b of a load's scales (R70): one byte for MX, two for KT2, none for the others. -/
def scaleAt (wfmt cols : Nat) (scales : List Byte) (b j : Nat) : Nat :=
  if wfmt = 0xA then fieldAt scales (2 * (b * cols + j)) 2
  else if isMxFmt wfmt then fieldAt scales (b * cols + j) 1
  else 0

/-- Bytes of scales a load carries (R70). -/
def scaleBytes (wmode wfmt : Nat) : Nat :=
  if wfmt = 0xA then 16 * modeCols wmode else if isMxFmt wfmt then 8 * modeCols wmode else 0

/-- The check cells of every row: CK_H holds bits 15:8 of the row's sum S and CK_L bits 7:0 (R54). -/
def checkCells (w : List (List Int)) : List (Int × Int) :=
  w.map fun r => let s := r.foldl (· + ·) 0; (s / 256, s % 256)

/-- The slot contents with the check cells the loader computes from the rows it writes (R50, R54). -/
def withChecks (s : SlotData) : SlotData := { s with ck := checkCells s.w }

/-- Converts 256 weight rows and their scales (R75): the slot's contents with the whole integers, and whether invalid is
raised (R71). -/
def loadSlot (wmode wfmt : Nat) (rows : List (List Byte)) (scales : List Byte) : SlotData × Bool :=
  let n := modeCols wmode
  let codes := rows.map fun r => unpackAll r (fmtWidth wfmt) n
  let blocks : List (List ColBlock) := (List.range 8).map fun b =>
    (transpose n ((codes.drop (32 * b)).take 32)).mapIdx fun j col => loadBlock wmode wfmt col (scaleAt wfmt n scales b j)
  let tags := blocks.mapIdx fun b cols => cols.mapIdx fun j c =>
    (c.tags.mapIdx fun i t => t.map fun t => (32 * b + i, j, t)).filterMap id
  let data : SlotData := {
    wmode := BitVec.ofNat 2 wmode, wfmt := BitVec.ofNat 4 wfmt,
    w := (blocks.map fun cols => transpose 32 (cols.map (·.w))).flatten,
    g := blocks.map fun cols => cols.map (·.g),
    sigma := blocks.map fun cols => cols.map (·.sigma),
    tags := (tags.flatten).flatten, ck := [] }
  (withChecks data,
   blocks.any fun cols => cols.any (·.invalid))

/-- The high or low plane of a mode 3 load (R76). -/
def planeOf (high : Bool) (s : SlotData) : SlotData :=
  withChecks { s with w := s.w.map fun r => r.map fun x => if high then x / 256 else x % 256 }

/-- The whole integers of a slot, joined from its planes in mode 3 (R49, R76). -/
def joinPlanes (hi : SlotData) (lo : Option SlotData) : SlotData :=
  match lo with
  | none => hi
  | some l => { hi with w := List.zipWith (List.zipWith fun h x => 256 * h + x) hi.w l.w }

/-! ## Feeders -/

/-- Bytes of an activation vector (R70). -/
def actBytes (actFmt : Nat) : Nat := (256 * fmtWidth actFmt + 7) / 8 + (if isMxFmt actFmt then 8 else 0)

/-- A converted block of 32 activations (R74): LSB exponent, integers and tags. -/
structure ActBlock where
  a : Option Int
  v : List Int
  tags : List (Option WTag)
  deriving DecidableEq, Repr

/-- The eight blocks of one activation vector (R74). -/
def actBlocks (actFmt : Nat) (rec : List Byte) : List ActBlock :=
  let codes := unpackAll rec (fmtWidth actFmt) 256
  (List.range 8).map fun b =>
    let cs := (codes.drop (32 * b)).take 32
    if actFmt = 8 || actFmt = 9 then
      ⟨some 0, cs.map (signed (fmtWidth actFmt)), cs.map fun _ => none⟩
    else
      let x := if isMxFmt actFmt then fieldAt rec (32 * fmtWidth actFmt + b) 1 else 127
      if isMxFmt actFmt && x = 0xFF then ⟨none, cs.map fun _ => 0, cs.map fun _ => some .qnan⟩
      else
        let vals := cs.map fun c => (decodeF actFmt c).scale ((x : Int) - 127)
        let (e, v) := align 9 vals
        ⟨e, v, vals.map tagOf⟩

/-- The block partials P of every column (R77): the exact sums of a·w over the block's rows. -/
def partials (cols : Nat) (a : List Int) (rows : List (List Int)) : List Int :=
  (a.zip rows).foldl (fun acc (x, r) => if x = 0 then acc else List.zipWith (fun s w => s + x * w) acc r)
    (List.replicate cols 0)

/-! ## Column values -/

/-- The value R77 gives from block terms (t, x). -/
def sumTerms (terms : List (Int × Int)) : Int × Int :=
  match terms with
  | [] => (0, 0)
  | (_, x0) :: _ =>
    let xmax := terms.foldl (fun m p => max m p.2) x0
    let lo := xmax - 24
    (terms.foldl (fun z (t, x) => z + (if x ≥ lo then t * 2 ^ (x - lo).toNat else rneInt t (x - lo))) 0, lo)

/-- `column_value` of R77 for finite columns: the FP32 code and its flags. -/
def finiteColumn (sat : Bool) (A : List (Option Int)) (G : List (Option Int)) (sigma P : List Int) : Rounded :=
  let terms := ((A.zip G).zip (sigma.zip P)).filterMap fun ((a, g), (s, p)) =>
    match a, g with
    | some a, some g => if s * p = 0 then none else some (s * p, a + g)
    | _, _ => none
  let (z, x) := sumTerms terms
  roundFp 0 .nearest sat (z < 0) z.natAbs x

/-- One row's contribution to a column's special result (R78). -/
structure Special where
  nan : Bool := false
  pinf : Bool := false
  ninf : Bool := false
  invalid : Bool := false
  deriving DecidableEq, Repr

/-- Adds one tagged term (R78): the tags, the activation integer a and the weight integer times σ. -/
def Special.term (sp : Special) (ta tw : Option WTag) (a w : Int) : Special :=
  let isNan := fun (t : Option WTag) => t.any WTag.isNan
  if ta.isNone && tw.isNone then sp
  else if isNan ta || isNan tw then
    { sp with nan := true, invalid := sp.invalid || ta == some .snan || tw == some .snan }
  else if (ta.isSome && tw.isNone && w = 0) || (tw.isSome && ta.isNone && a = 0) then
    { sp with nan := true, invalid := true }
  else
    let neg := fun (t : Option WTag) (x : Int) => match t with
      | some .ninf => true
      | some _ => false
      | none => decide (x < 0)
    if neg ta a == neg tw w then { sp with pinf := true } else { sp with ninf := true }

/-- The special result of a column, with its flag (R78): none where no term is tagged. -/
def Special.result (sp : Special) : Option Nat × Flg :=
  let fl := flagIf (sp.invalid || (sp.pinf && sp.ninf)) fInvalid
  if sp.nan || (sp.pinf && sp.ninf) then (some 0x7FC00000, fl)
  else if sp.pinf then (some (infCode (fmtOf 0) false), fl)
  else if sp.ninf then (some (infCode (fmtOf 0) true), fl)
  else (none, fl)

/-- The special result of logical column j (R78). -/
def specialColumn (s : SlotData) (acts : List ActBlock) (j : Nat) : Option Nat × Flg :=
  let colTags := s.tags.filter fun (_, c, _) => c == j
  let sp := (List.range 256).foldl (fun (sp : Special) i =>
    let blk := acts.getD (i / 32) ⟨none, [], []⟩
    let ta := (blk.tags.getD (i % 32) none)
    let tw := (colTags.find? fun (r, _, _) => r == i).map fun (_, _, t) => t
    if ta.isNone && tw.isNone then sp
    else sp.term ta tw (blk.v.getD (i % 32) 0) (((s.w.getD i []).getD j 0) * ((s.sigma.getD (i / 32) []).getD j 0))) {}
  sp.result

/-! ## Passes -/

/-- The fields of a vat descriptor (R64). -/
structure VatDesc where
  srcPan : Nat
  srcToken : Nat
  dstPan : Nat
  dstToken : Nat
  srcOffset : Nat
  dstOffset : Nat
  count : Nat
  srcStride : Nat
  dstStride : Nat
  actFmt : Nat
  wFmt : Nat
  outFmt : Nat
  round : Nat
  sat : Bool
  acc : Bool
  wmode : Nat
  outBase : Nat
  reserved : Bool
  deriving DecidableEq, Repr

/-- R64 read from an entry's number; `count` is vectors, `reserved` is true when a reserved bit is set. -/
def vatDesc (v : Nat) : VatDesc :=
  { srcPan := bits v 0 12, srcToken := bits v 12 13, dstPan := bits v 25 12, dstToken := bits v 37 13,
    srcOffset := bits v 64 24, dstOffset := bits v 88 24, count := bits v 112 13 + 1, srcStride := bits v 128 24,
    dstStride := bits v 152 24, actFmt := bits v 192 4, wFmt := bits v 196 4, outFmt := bits v 200 4,
    round := bits v 204 2, sat := bits v 206 1 = 1, acc := bits v 207 1 = 1, wmode := bits v 208 2,
    outBase := bits v 224 32,
    reserved := bits v 50 14 ≠ 0 || bits v 125 3 ≠ 0 || bits v 176 16 ≠ 0 || bits v 210 14 ≠ 0 }

/-- Bytes of an output vector (R70). -/
def outBytes (p : VatDesc) : Nat := modeCols p.wmode * fmtWidth p.outFmt / 8

/-! ## The check columns (R55) -/

/-- Whether the block partials of a vector's block agree with its combined check partial C = 256 · P_H + P_L, mod 2^24. -/
def blockChecks (s : SlotData) (blk : ActBlock) (b : Nat) : Bool :=
  let P := partials (modeCols s.wmode.toNat) blk.v ((s.w.drop (32 * b)).take 32)
  let C := partials 2 blk.v (((s.ck.drop (32 * b)).take 32).map fun c => [c.1, c.2])
  (P.foldl (· + ·) 0 - (256 * C.getD 0 0 + C.getD 1 0)) % 2 ^ 24 = 0

/-- The first block of a vector whose check fails against one plane. -/
def badBlock (actFmt : Nat) (act : List Byte) (s : SlotData) : Option Nat :=
  (((actBlocks actFmt act).zipIdx).find? fun z => !blockChecks s z.1 z.2).map (·.2)

/-- The first (vector, block) of a pass whose check fails, in either plane of a pair (R49, R55). -/
def badCheck (p : VatDesc) (acts : List (List Byte)) (planes : List SlotData) : Option (Nat × Nat) :=
  acts.zipIdx.findSome? fun a => (planes.findSome? (badBlock p.actFmt a.1)).map (a.2, ·)

/-- The result of one output element (R79, R80, R81): its code and flags. `z` is the integer sum of an integer pass, `p` the
FP32 pass value of a float pass, `d` the destination element's code. Of an ACC48 destination element the low 48 bits are read and bits
63:48 ignored; R80 does not say what they do where they are not the sign extension (DESIGN CHOICE, log 111). -/
def outElement (p : VatDesc) (z : Int) (pv d : Nat) (mode : RMode) : Rounded :=
  if p.outFmt = 0xC then
    let s := if p.acc then signed 48 d + z else z
    (intCode 64 (clampInt 48 s), flagIf (clampInt 48 s ≠ s) fSaturation)
  else if p.outFmt = 0xB then
    let s := if p.acc then signed 32 d + z else z
    (intCode 32 (clampInt 32 s), flagIf (clampInt 32 s ≠ s) fSaturation)
  else if p.acc then
    let (r, f1) := addF (decodeF 0 d) (decodeF 0 pv)
    let (c, f2) := finishF 0 p.sat r
    (c, f1 ||| f2)
  else if p.outFmt = 0 then (pv, 0)
  else convertF p.outFmt mode p.sat (decodeF 0 pv)

/-- One output vector of a pass (R77 to R82): the destination record's bytes and the flags raised. -/
def passVector (job : W64) (p : VatDesc) (s : SlotData) (v : Nat) (act : List Byte) (dst : List Byte) : List Byte × Flg :=
  let cols := modeCols p.wmode
  let acts := actBlocks p.actFmt act
  let Ps := acts.mapIdx fun b blk => partials cols blk.v ((s.w.drop (32 * b)).take 32)
  let colP := transpose cols Ps
  let colG := transpose cols s.g
  let colS := transpose cols s.sigma
  let A := acts.map (·.a)
  let w := fmtWidth p.outFmt
  let dcodes := if p.acc then unpackAll dst w cols else List.replicate cols 0
  let satP := p.outFmt = 0 && p.sat
  let isInt := p.outFmt = 0xB || p.outFmt = 0xC
  let tagged := !s.tags.isEmpty || acts.any fun blk => blk.tags.any Option.isSome
  let res := (List.range cols).zip (colP.zip (colG.zip (colS.zip dcodes))) |>.map fun (j, P, G, S, d) =>
    if isInt then outElement p (P.foldl (· + ·) 0) 0 d .nearest
    else
      let (sp, f0) := if tagged then specialColumn s acts j else (none, 0)
      let (pv, f1) := match sp with
        | some c => (c, 0)
        | none => finiteColumn satP A G S P
      let mode := if p.round = 1 then RMode.stochastic (draw job j ((p.outBase + v) % 2 ^ 32)) else .nearest
      let (c, f2) := outElement p 0 pv d mode
      (c, f0 ||| f1 ||| f2)
  (packAll w (res.map (·.1)), flagsOr (res.map (·.2)))

end Sys2Proof.Machine
end

