-- ==== Sys2Proof/Machine/RoundList.lean ====
section
/-! DEFINITION. The round list (R162, R163), tiles (R164), gates and the order of a vat's round loads (R165, R168). -/

namespace Sys2Proof.Machine

/-- The header of a round list (R162). -/
structure RoundHead where
  format : Nat
  nearLead : Nat
  hbmLead : Nat
  entries : Nat
  base : Nat
  size : Nat
  reserved : Bool
  deriving DecidableEq, Repr

def roundHead (m : ByteMap) : RoundHead :=
  let v := ByteMap.num m 0 64
  { format := bits v 0 8, nearLead := bits v 8 8, hbmLead := bits v 16 8, entries := bits v 32 32, base := bits v 64 24,
    size := bits v 88 24, reserved := bits v 24 8 ≠ 0 || bits v 112 400 ≠ 0 }

/-- An entry of a round list (R163). -/
structure RoundEnt where
  src : Nat
  stride : Nat
  layer : Nat
  vat : Nat
  slot : Nat
  wfmt : Nat
  wmode : Nat
  pin : Bool
  demote : Bool
  gateToken : Nat
  gateCount : Nat
  reserved : Bool
  deriving DecidableEq, Repr

def roundEnt (m : ByteMap) (i : Nat) : RoundEnt :=
  let v := ByteMap.num m (64 + 32 * i) 32
  { src := bits v 0 64, stride := bits v 64 24, layer := bits v 88 16, vat := bits v 104 4, slot := bits v 108 2,
    wfmt := bits v 110 4, wmode := bits v 114 2, pin := bits v 116 1 = 1, demote := bits v 117 1 = 1,
    gateToken := bits v 128 13, gateCount := bits v 160 32,
    reserved := bits v 118 10 ≠ 0 || bits v 141 19 ≠ 0 || bits v 192 64 ≠ 0 }

/-- Bytes of a weight row (R70). -/
def rowBytes (wmode wfmt : Nat) : Nat := modeCols wmode * fmtWidth wfmt / 8

def lineCount (n : Nat) : Nat := (n + 63) / 64

/-- Lines of an entry's tile in the round pan (R164). -/
def tileLines (wmode wfmt : Nat) : Nat := 256 * lineCount (rowBytes wmode wfmt) + lineCount (scaleBytes wmode wfmt)

/-- Rows and scales of a tile held in packed form (R164). -/
def tileRows (wmode wfmt : Nat) (t : ByteMap) : List (List Byte) :=
  let n := rowBytes wmode wfmt
  (List.range 256).map fun i => ByteMap.read t (64 * lineCount n * i) n

def tileScales (wmode wfmt : Nat) (t : ByteMap) : List Byte :=
  ByteMap.read t (64 * lineCount (rowBytes wmode wfmt) * 256) (scaleBytes wmode wfmt)

/-- The slots an operation in a weight mode names: a pair in mode 3 (R49). -/
def slotSpan (wmode slot : Nat) : List Nat := if wmode = 3 then [slot, slot + 1] else [slot]

def overlaps (a b : List Nat) : Bool := a.any b.contains

/-- The round image of a die's job. -/
def roundImg (x : DieSt) : ByteMap := match x.image with | some m => m.round | none => []

/-- Entries in force: none when the job carries no round list (R87). -/
def roundCount (x : DieSt) : Nat :=
  match x.image with
  | some m => if (imageSect m).roundUsed = 1 then (roundHead m.round).entries else 0
  | none => 0

/-- The entries whose slot loads a vat's loader still has to make, in its order: refills first, in list order (R168), then
those whose gates have opened, as they opened (R165). -/
def roundQueue (x : DieSt) (vat : Nat) : List Nat :=
  let onVat := fun i => (roundEnt (roundImg x) i).vat == vat
  let refills := (x.round.refills.map (·.2)).eraseDups
  let refills := (List.range (roundCount x)).filter (fun i => refills.contains i && onVat i)
  refills ++ x.round.opened.filter (fun i => !x.round.loaded.contains i && onVat i && !refills.contains i)

/-- The last entry of a vat's queue that will write one of some slots: what an operation on them waits for. -/
def waitsFor (x : DieSt) (vat : Nat) (span : List Nat) : Option Nat :=
  ((roundQueue x vat).filter fun i =>
    let e := roundEnt (roundImg x) i
    overlaps (slotSpan e.wmode e.slot) span).getLast?

/-! ## Passes and loads on the same slots (R51) -/

def passDesc (f : PassFlight) : VatDesc := vatDesc f.desc.toNat

/-- Vector entries of a pass: a 16-bit vector counts twice (R49, R66). -/
def passEntries (p : VatDesc) : Nat := if p.wmode = 3 then 2 * p.count else p.count

/-- Rows of a load, which is also its occupancy (R50, R65). -/
def loadSteps (wmode : Nat) : Nat := if wmode = 3 then 512 else 256

/-- Whether a pass on some slots of a vat, other than those that wait for one entry, has still vectors to feed (R51, R165). -/
def unfed (x : DieSt) (vat : Nat) (span : List Nat) : Bool :=
  x.passes.any fun f => f.vat = vat && !f.fed && f.entry.isNone && overlaps (slotSpan (passDesc f).wmode f.slot) span

/-- Whether an earlier stream load of a pass's slots has still to write row 255, so that the pass may not begin (R51). -/
def behindLoad (x : DieSt) (f : PassFlight) : Bool :=
  x.loads.any fun l => l.vat = f.vat && l.id < f.id && overlaps (slotSpan l.wmode l.slot) (slotSpan (passDesc f).wmode f.slot)

/-- Whether an earlier pass on a stream load's slots has still to feed row 255, so that the load may not begin (R51). -/
def behindPass (x : DieSt) (f : LoadFlight) : Bool :=
  x.passes.any fun p => p.vat = f.vat && p.id < f.id && !p.fed && overlaps (slotSpan (passDesc p).wmode p.slot) (slotSpan f.wmode f.slot)

def hasTile (x : DieSt) (i : Nat) : Bool := x.round.tiles.any (·.1 == i)

/-- The slots of a vat that an action names (R49). -/
def actSlots (img : Image) (vat : Nat) : UnitAct → List Nat
  | .pass k s i => if k = vat then slotSpan (vatDesc (vatDescAt img i)).wmode s else []
  | .load k s i => if k = vat then slotSpan (vatDesc (vatDescAt img i)).wmode s else []
  | .passld k s i t l =>
    if k = vat then slotSpan (vatDesc (vatDescAt img i)).wmode s ++ slotSpan (vatDesc (vatDescAt img l)).wmode t else []
  | _ => []

/-- Whether an action that issued before an entry's gate opened still waits to start on its slots (R165). -/
def issuedBefore (x : DieSt) (vat i : Nat) (span : List Nat) : Bool :=
  match x.image with
  | none => false
  | some img => x.deferred.any fun e => !e.opened.contains i && overlaps (actSlots img vat e.act) span

/-- The entry a vat's loader writes next, if nothing holds it back: its tile has arrived, no stream load runs on the vat and
every earlier pass on its slots has fed row 255 (R165, R168). -/
def loadable (x : DieSt) (vat : Nat) : Option Nat :=
  match (roundQueue x vat).head? with
  | none => none
  | some i =>
    let e := roundEnt (roundImg x) i
    if hasTile x i && x.round.fetching ≠ some i && !x.loads.any (·.vat == vat) && !unfed x vat (slotSpan e.wmode e.slot)
        && ((x.round.refills.any (·.2 == i)) || !issuedBefore x vat i (slotSpan e.wmode e.slot)) then
      some i else none

/-- Whether an action of the stream or a round read that a pass waits for is held on a page request; a round read ahead of its gate holds
nothing back (R117, R224). -/
def actsHeld (x : DieSt) : Bool := (heldActs x).any fun h => match h with | .roundRead _ => false | _ => true

/-- Whether every entry whose gate has opened is loaded, so that its flags are in the command of its SIGNAL (R84, R85, R165). -/
def gatesLoaded (x : DieSt) : Bool := x.round.opened.all x.round.loaded.contains

/-- The current layer of R166: the LAYER of the last entry of the list whose gate has opened (log 54). -/
def currentLayer (x : DieSt) : Int :=
  x.round.opened.foldl (fun c i => max c ((roundEnt (roundImg x) i).layer : Int)) (-1)

end Sys2Proof.Machine
end

