-- ==== Sys2Proof/Machine/Kill.lean ====
section
/-! DEFINITION. Killing a command (R183, R184, R193): its causes, steps 1 to 4 on every die, and how an action that cannot
take effect starts a kill. Step 5 and what follows it are in Jobs. -/

namespace Sys2Proof.Machine

/-- The serial of the job on a die. -/
def jobOn (s : State) (d : Nat) : Option Nat := (dieOf s d).job

/-- The JOB_ID of the job on a die; 0 when none runs. -/
def jobIdOn (s : State) (d : Nat) : Nat :=
  match (jobOn s d).bind (jobOf s) with
  | some j => j.jobId.toNat
  | none => 0

/-- The context of the job on a die. -/
def ctxOn (s : State) (d : Nat) : Nat :=
  match (jobOn s d).bind (jobOf s) with
  | some j => j.ctx.toNat
  | none => 0

/-- Ticks that passes of a die have waited for a round-engine write of their slots, up to now (R167). -/
def waitingStall (now : BitVec 64) (x : DieSt) : BitVec 64 :=
  (x.passes.filter (fun p => p.entry.isSome)).foldl (fun t p => t + (now - p.arrived)) 0

/-- Adds the ticks of a WAIT that ends now to WAIT_TICKS (R122). -/
def endWait (now : BitVec 64) (x : DieSt) : DieSt :=
  match x.wait with
  | some w => { x with wait := none, seq := { x.seq with waitTicks := x.seq.waitTicks + (now - w.start) } }
  | none => x

/-- The physical vat a logical vat runs on (R38). -/
def physVat (u : UnitMap) (k : Nat) : Nat := if u.spareFor.toNat = k then 16 else k

/-- Whether a sequencer state is one in which the units of a die work on its command. -/
def atWork (st : SeqState) : Bool := st == .running || st == .waiting || st == .committing

/-- Of `n` vectors or rows, those a kill finds done; the spec does not say how many, so the number is free (log 2). -/
def doneOf (i n : Nat) : Nat := (Config.freeWord i).toNat % (n + 1)

/-- What a killed die's vats had already done, which VECTORS_IN and ROWS_LOADED include (R66): vectors of the pass each vat was feeding,
rows of the load, of the stream or of the round engine, its loader was writing. -/
def countKilled (u : UnitMap) (free : Nat) (x : DieSt) : SMap PVat :=
  if !atWork x.seq.state then x.pvats else (List.range 16).foldl (fun m k =>
    let vin := match x.passes.find? (fun f => f.vat == k && !f.fed) with
      | some f => if f.entry.isNone && !behindLoad x f then doneOf (free + 2 * k) (passEntries (passDesc f)) else 0
      | none => 0
    let rows := match x.loads.find? (·.vat == k), loadable x k with
      | some f, _ => if behindPass x f then 0 else doneOf (free + 2 * k + 1) (loadSteps f.wmode)
      | none, some i => doneOf (free + 2 * k + 1) (loadSteps (roundEnt (roundImg x) i).wmode)
      | none, none => 0
    if vin = 0 && rows = 0 then m
    else SMap.upd {} m (physVat u k) fun v => { v with vectorsIn := bump v.vectorsIn vin, rowsLoaded := bump v.rowsLoaded rows })
    x.pvats

/-- Steps 1, 2 and the rest of step 4 of R184 on a die's own state. Ticks that a power pause holds are no weight stall (R167). -/
def stopDie (u : UnitMap) (now : BitVec 64) (pausedAt : Option (BitVec 64)) (free : Nat) (x : DieSt) : DieSt :=
  let x := endWait now x
  { x with
    pvats := countKilled u free x, lastKill := some (now, x.passes),
    seq := { x.seq with state := .killing, ctlHeld := false }, passes := [], loads := [], log := [], pendingFlags := 0, heldCopies := [],
    held := [], drain := none, boundary := false, commit := none, fenceL := 0, fenceX := 0, deferred := [], relLace := [], getTokens := [],
    round := { x.round with stall := x.round.stall + waitingStall (pausedAt.getD now) x, fetching := none } }

/-- Drops what gang dies have in flight toward or from a die (R184). -/
def dropNets (d : Nat) (s : State) : State :=
  { s with copyNet := s.copyNet.filter (fun c => c.dst != d && c.src != d),
           sigNet := s.sigNet.filter (fun c => c.dst != d && c.src != d) }

/-- The key of a rail in the power manager's table: logic rails by site, memory rails and stack rails after them. -/
def railKey : RailId → Nat
  | .logic i => i
  | .memory i => 16 + i
  | .stack k => 32 + k

def lineOf (s : State) (r : Nat) : RailLine := SMap.get {} s.power.lines r

/-- Steps 1 to 4 of R184 on one die. -/
def killDie (d : Nat) (s : State) : State :=
  let t := dropNets d (abortFor d (retireTags d s))
  updDie { t with free := t.free + 32 } d (stopDie (unitMapOf t d) s.time (lineOf t d).pausedAt t.free)

/-- The page-request slots a job's dies wait on, as (die, slot). -/
def outstanding (s : State) (k : Nat) (dies : List Nat) : List (Nat × Nat) :=
  dies.flatMap fun d => ((dieOf s d).pageSlots.filter (fun (p : Nat × PageSlot) => p.2.job == some k)).map fun p => (d, p.1)

/-- The die's requests no longer belong to a running command, and nothing waits on its walkers; the requests stay outstanding (R222, R228). -/
def orphanRequests (x : DieSt) : DieSt := { x with pageSlots := orphans x.pageSlots, walkWait := [] }

/-- Steps 1 to 4 on every die of a job; the requests it then waits on are remembered (R193, R228). -/
def startKill (k : Nat) (s : State) : State :=
  match jobOf s k with
  | none => s
  | some j =>
    let waits := outstanding s k j.dies
    let s := each j.dies (fun d s => updDie (killDie d s) d orphanRequests) s
    updJob s k (fun j => { j with stage := .killing, awaiting := waits })

/-- Whether a die of the job has begun its drain, or waits for the serving boundary after it, which no kill interrupts
(R182, R210). -/
def draining (s : State) (j : Job) : Bool := j.dies.any (fun d => (dieOf s d).drain.isSome || (dieOf s d).boundary)

/-- Whether a cause of a kill ends the job wherever the kill finds it (R183). -/
def endsJob (c : KillCause) : Bool :=
  match c with
  | .contextReset | .dieReset | .failing _ => true
  | _ => false

/-- Whether the step builder holds the job's next command at step 6 of the boundary for want of an eligible stream (R203). -/
def stepHeld (s : State) (j : Job) : Bool := j.dies.any fun d => (dieOf s d).boundary && (partOf s d).holding

/-- Adds a cause to a job's kill and begins it, unless a drain past step 3 or a boundary must finish first (R182, R193, R210). A boundary held
at step 6 has done all but issue: a cause that ends the job takes effect there (R185, R210; log 130). While a kill runs a further cause joins
it; while the state is being saved only a reset abandons the save (R174). -/
def beginKill (k : Nat) (c : KillCause) (s : State) : State :=
  match jobOf s k with
  | none => s
  | some j =>
    let abandons := c == .contextReset || c == .dieReset
    match j.stage with
    | .running | .checking | .restoring =>
      let s := updJob s k (fun j => { j with causes := j.causes ++ [c] })
      if draining s j && !(endsJob c && stepHeld s j) then s else startKill k s
    | .killing => updJob s k (fun j => { j with causes := j.causes ++ [c] })
    | .saving => if abandons then startKill k (updJob s k (fun j => { j with causes := j.causes ++ [c] })) else s
    | .saved | .waitingOs => s

/-- Begins a kill of the job on a die. -/
def killOn (d : Nat) (c : KillCause) (s : State) : State :=
  match jobOn s d with
  | some k => beginKill k c s
  | none => s

/-- Records a class 0x06 event in LAST_EVENT and LAST_WORD (R122). -/
def noteSeq (code : Nat) (x : DieSt) : DieSt :=
  let word := match x.wait with
    | some w => if code = 0x0608 then w.word else x.seq.pos
    | none => x.seq.pos
  { x with seq := { x.seq with lastEvent := BitVec.ofNat 16 code, lastWord := BitVec.ofNat 24 word } }

/-- Posts an event of a die's units; records of class 0x06 name the job first (R124). -/
def postDie (code d : Nat) (payload : List Nat) (s : State) : State :=
  if code / 256 = 6 then updDie (post code d (jobIdOn s d :: payload) s) d (noteSeq code) else post code d payload s

/-- Carries out why an action did not take effect: posts its event and kills the command (R183); a stall changes nothing. -/
def stopWith (d : Nat) (e : Stop) (s : State) : State :=
  match e with
  | .stall => s
  | .program code p => killOn d (.program (BitVec.ofNat 16 code)) (postDie code d p s)
  | .contained code p => killOn d (.fault (BitVec.ofNat 16 code)) (postDie code d p s)
  | .failing code p => killOn d (.failing (BitVec.ofNat 16 code)) (postDie code d p s)

/-- Whether a power pause holds a site's handshakes (R47, R362). -/
def paused (s : State) (site : Nat) : Bool := (lineOf s site).pausedAt.isSome

/-- Whether a die's command is running and no pause holds it, so that its units act. -/
def running (s : State) (d : Nat) : Bool := (dieOf s d).seq.state == .running && !paused s d

/-- Runs an action on a running die's own state. -/
def dieAct (d : Nat) (f : DieSt → Act DieSt) (s : State) : State :=
  if running s d then
    match f (dieOf s d) with
    | .ok x => setDie s d x
    | .error e => stopWith d e s
  else s

end Sys2Proof.Machine
end

