-- ==== Sys2Proof/Machine/Drain.lean ====
section
/-! DEFINITION. When a COMMIT's drain begins (R56, R117, R181 steps 1 to 4, R182). -/

namespace Sys2Proof.Machine

/-- Whether every action a die has issued is complete, the round loads its own SIGNALs opened among them, so that its COMMIT may drain
(R56, R100, R117; log 122). -/
def quiet (s : State) (d : Nat) : Bool :=
  let x := dieOf s d
  let held := s.dies.flatMap fun (p : Nat × DieSt) => p.2.heldCopies
  x.passes.isEmpty && x.loads.isEmpty && !actsHeld x && x.getTokens.isEmpty && x.deferred.isEmpty && gatesLoaded x
    && !(s.copyNet ++ held).any (·.src == d) && !s.sigNet.any (·.src == d)

/-- Partners with staging recorded in a die's log. -/
def lacePartners (x : DieSt) : List Nat :=
  (x.log.filterMap fun e => match e.kind with | .lace p => some p | _ => none).eraseDups

/-- Whether a die's log records a lace write that was not sent, since its partner was a non-member (R252, R301). -/
def laceUnsent (x : DieSt) : Bool := x.log.any fun e => match e.kind with | .lace _ => e.addr ≠ 0 | _ => false

/-- Step 4 of R181: one COMMIT per partner, with the count of the command's request packets (R305). -/
def sendCommits (d : Nat) (s : State) : State :=
  each (lacePartners (dieOf s d)) (fun p s =>
    match laceCmdOf s d p with
    | none => s
    | some c =>
      let s := sendLace p ptCommit 0 0 c.cmd.toNat c.packets [] s
      updPartner s p (fun e => { e with cmds := e.cmds.map fun x =>
        if x.cmd = c.cmd then { x with committed := some s.time, repeatAt := s.time } else x })) s

/-- Steps 3 and 4 of R181 on one die. -/
def startDrain (d : Nat) (s : State) : State :=
  let x := dieOf s d
  let c := x.commit.getD (false, false)
  let waits := (lacePartners x).filter fun p => (laceCmdOf s d p).isSome
  sendCommits d (updDie s d fun x =>
    { x with drain := some { last := c.1, sb := c.2, awaiting := waits.map (·, s.time), undelivered := false } })

/-- Steps 1 and 2 of R181: once every die of the job has issued its COMMIT and is quiet, a partner that is no member, or
was none when the command wrote to it, kills the command (R182, R252), otherwise the drain starts. -/
def tryDrain (k : Nat) (s : State) : State :=
  match jobOf s k with
  | none => s
  | some j =>
    let ready := fun d => (dieOf s d).commit.isSome && (dieOf s d).drain.isNone && quiet s d && !paused s d
    if j.stage == .running && !j.dies.isEmpty && j.dies.all ready then
      if j.dies.any (fun d => laceUnsent (dieOf s d) || (lacePartners (dieOf s d)).any fun p => !isMember s p) then beginKill k (.failing 0) s
      else each j.dies startDrain s
    else s

def tryDrainOn (d : Nat) (s : State) : State := match jobOn s d with | some k => tryDrain k s | none => s

end Sys2Proof.Machine
end

