-- ==== Sys2Proof/Machine/Domain.lean ====
section
/-! DEFINITION. Faults that end the domain (R264, R267, R268, R419) and what other happenings share with them: sites that
leave service (R36, R447), harts (R272, R289) and ingest queues that enter DISCARD (R348). -/

namespace Sys2Proof.Machine

/-! ## Sites -/

def stPresent : Nat := 1
def stFault : Nat := 2
def stIncompatible : Nat := 3
def stExcluded : Nat := 4
def stDegraded : Nat := 5

/-- Index of the I/O die, the Welt, an eyelet and an inlet among the sites of R33. -/
def siteIO : Nat := 10
def siteW : Nat := 11
def siteEye (e : Nat) : Nat := 48 + e
def siteInlet (i : Nat) : Nat := 80 + i

/-- Sets a site's STATE and REASON (R33). -/
def setSite (i state reason : Nat) (s : State) : State :=
  { s with map := { s.map with sites := SMap.upd {} s.map.sites i (fun x =>
      { x with state := BitVec.ofNat 3 state, reason := BitVec.ofNat 8 reason }) } }

/-- Counts one change of the map (R36). -/
def countChange (s : State) : State := { s with map := { s.map with changeCount := s.map.changeCount + 1 } }

/-- Whether the dispatcher may place jobs on a die (R176). -/
def dieInService (s : State) (d : Nat) : Bool := siteUp s d && (unitMapOf s d).seq

/-- The memory units attached to a die site (R447). -/
def unitsOf (site : Nat) : List Nat :=
  if site < 8 then [2 * site, 2 * site + 1] else if site < 10 then (List.range 8).map (16 + 8 * (site - 8) + ·) else []

/-- Makes the memory units of a die read a state with it; absent channels stay NOT_FITTED (R36, R447). -/
def setMemorySites (site state reason : Nat) (s : State) : State :=
  each (unitsOf site) (fun u s => if (siteOf s (siteUnit u)).state = 0 then s else setSite (siteUnit u) state reason s) s

/-- A die's unit map returns to its reset value (R36). -/
def clearUnitMap (d : Nat) (s : State) : State := { s with map := { s.map with units := SMap.del s.map.units d } }

/-! ## Harts -/

/-- Resets every hart and starts those in service at the firmware entry; interrupt files and the APLIC reset (R289). -/
def restartHarts (s : State) : State :=
  { s with cluster := { s.cluster with
      harts := ((List.range 144).filter (hartPresent s)).map fun h => (h, { state := .started }),
      files := [], aplic := [], pend := 0 } }

/-! ## Ingest queues -/

/-- Moves a queue into DISCARD (R348): landed bytes beyond CONSUMED go, a waiting RETURN is abandoned. -/
def discardQueue (q code : Nat) (s : State) : State :=
  if (queueOf s q).state == .run then
    updQueue s q (fun x => { x with state := .discard, cause := BitVec.ofNat 8 code, discards := x.discards + 1, landed := [],
                                    waiting := none })
  else s

/-- Bytes of a queue landed and not acted on. -/
def landedBytes (x : IngestQueue) : Nat := 4 * x.landed.length

/-- A queue enters DISCARD with 0x0810 (R348, R351). -/
def idleDiscard (q : Nat) (s : State) : State :=
  let x := queueOf s q
  if x.state == .run then post 0x0810 noSite [q, landedBytes x, x.curSeq.toNat] (discardQueue q 0x0810 s) else s

def queueIds (s : State) : List Nat := s.host.queues.map (·.1)

/-! ## IOFENCE.C (R227) -/

/-- The jobs being killed and the dies with a drain: what a fence begun now waits for, since any of them may end accesses that used a removed
translation. -/
def killsNow (s : State) : List Nat := (s.jobs.filter fun (p : Nat × Job) => p.2.stage == .killing).map (·.1)
def drainsNow (s : State) : List Nat := (s.dies.filter fun (p : Nat × DieSt) => p.2.drain.isSome).map (·.1)

/-- The queue's head moves past a command carried out, when the tail says that one waits (R225, log 20). -/
def cqAdvance (s : State) : State :=
  let n := 2 ^ (bits (iommuReg s 0x18 8) 0 5 + 1)
  let h := iommuReg s 0x20 4
  if h = iommuReg s 0x24 4 then s else setIommuReg 0x20 4 ((h + 1) % n) s

/-- Completes an IOFENCE.C: with AV its data is written. -/
def completeFence (a : FenceArgs) (s : State) : State := if a.av then ioWrite (a.addr.toNat / 4 * 4) (leBytes 4 a.data.toNat) s else s

/-- A fence with the kills and drains it waits for that have not ended. -/
def fenceWaits (s : State) (f : HeldFence) : HeldFence :=
  { f with kills := f.kills.filter (killsNow s).contains, drains := f.drains.filter (drainsNow s).contains }

/-- The fence at the head of the queue completes once the kills and drains it waits for have ended, and the head moves past it. -/
def settleFences (s : State) : State :=
  match s.iommu.fence with
  | none => s
  | some f =>
    let f := fenceWaits s f
    if f.kills.isEmpty && f.drains.isEmpty then cqAdvance (completeFence f.args { s with iommu := { s.iommu with fence := none } })
    else { s with iommu := { s.iommu with fence := some f } }

/-! ## Domain faults -/

/-- A placed job is lost without a record (R14). -/
def dropJob (k : Nat) (s : State) : State :=
  match jobOf s k with
  | none => s
  | some j => settleReset j.ctx.toNat { releaseDies k s with jobs := SMap.del s.jobs k }

/-- Every placed job leaves its dies; with `record` its record says FAILED with the code (R267 steps 2 and 7). -/
def failPlaced (code : Nat) (record : Bool) (s : State) : State :=
  let ks := (s.jobs.filter (fun (p : Nat × Job) => placed p.2)).map (·.1)
  each ks (fun k s => if record then finishJob k stFailed code false s
                      else dropJob k s) s

/-- What the dies lose at step 5 of R267: staging logs, edge caches and everything in flight. -/
def resetDieDomain (x : DieSt) : DieSt :=
  { x with log := [], edge := [], invQueue := [], passes := [], loads := [], heldCopies := [], held := [], walkWait := [], deferred := [], drain := none,
           lastKill := none }

/-- Step 5 of R267 and R268: protocol state, moves, inbound staging, queued MSIs and waiting accesses go; memory, quotas,
laces and the dictionary stay. -/
def resetDomainState (s : State) : State :=
  let s := each s.moves (fun (p : Nat × Move) s => undoMove p.1 p.2 s) s
  let s := { s with
    dies := s.dies.map (fun (p : Nat × DieSt) =>
      (p.1, resetDieDomain { p.2 with pvats := countKilled (unitMapOf s p.1) (s.free + 32 * p.1) p.2 })),
    free := s.free + 256, copyNet := [], sigNet := [], filling := [],
    dom := { s.dom with dir := [], busy := [], queue := [], l3 := [], net := [], shankFails := [], stops := [], asked := [] },
    disp := { s.disp with msis := [], sent := [] }, cluster := { s.cluster with monitors := [] } }
  let s := each s.lacing.partners (fun (p : Nat × Partner) s =>
    updPartner s p.1 (fun e => { e with stagedBytes := 0, cmds := [], heldCommits := [] })) s
  let s := { s with lacing := { s.lacing with staging := [] }, sep := { s.sep with retiring := [] } }
  let s := each (List.range 8) retireTags s
  each (queueIds s) idleDiscard s

/-- The origin of a domain fault leaves: its site reads FAULT with REASON 0x07; a home that stays out poisons what it homed;
after 0x0414 only the engines stay out (R36, R267). The unit map of a compute die changes with a die failure alone (R36); the core map
of a lost processor die marks no core in service (R34). -/
def loseOrigin (code origin : Nat) (s : State) : State :=
  let s := countChange (setSite origin stFault 7 s)
  if code = 0x0414 then clearUnitMap origin s
  else
    let s := if origin < 8 then s else { s with map := { s.map with cores := SMap.del s.map.cores (origin - 8) } }
    let s := setMemorySites origin stFault 7 s
    { s with dom := { s.dom with out := if s.dom.out.contains origin then s.dom.out else origin :: s.dom.out } }

/-- The domain fault (R267): its whole sequence; it stops after step 2 when the origin is IO or the Dairyman is down, and
the Cowbell then holds the dies in reset (R419). The origin is the detecting site, the lost site for 0x0413 and the failed
die for 0x0414 (log 21). -/
def domainFault (code detect detail origin : Nat) (s : State) : State :=
  let s := post code detect [detect, detail] s
  if origin = siteIO || !dairymanUp s then
    let s := failPlaced code false s
    let s := postCowbell 0x0A0B [code, origin] { s with dom := { s.dom with halted := true, held := true } }
    setSupervisor 4 { s with su := { s.su with phase := .domainHeld } }
  else
    let n := (s.jobs.filter (fun (p : Nat × Job) => placed p.2)).length
    let s := loseOrigin code origin (resetDomainState s)
    let s := { s with dom := { s.dom with resets := s.dom.resets + 1, lastCause := BitVec.ofNat 16 code } }
    let s := failPlaced code true s
    settleFences (restartHarts (post 0x0420 noSite [origin, n] s))

end Sys2Proof.Machine
end

