-- ==== Sys2Proof/Machine/PageReq.lean ====
section
/-! DEFINITION. Page requests and fault records (R220, R222, R223), the agent's queues in memory, and what an engine's memory
access that cannot proceed does to its command (R153, R183, R266). Register layout of the RISC-V IOMMU (log 20). -/

namespace Sys2Proof.Machine

/-! ## Queues of the agent -/

/-- Sets bits of a control and status register. -/
def orIommuReg (off v : Nat) (s : State) : State := setIommuReg off 4 (iommuReg s off 4 ||| v) s

/-- The interrupt file whose page starts at an address, on a hart in service (R281). -/
def imsicFile (s : State) (a : Nat) : Option Nat :=
  let m := a - 0x01000000
  let v := a - 0x01200000
  if a % 0x1000 ≠ 0 then none
  else if 0x01000000 ≤ a && m < 144 * 0x1000 then
    if hartPresent s (m / 0x1000) then some (fileKey (m / 0x1000) 0) else none
  else if 0x01200000 ≤ a && v < 144 * 0x8000 then
    if hartPresent s (v / 0x8000) then some (fileKey (v / 0x8000) (1 + v / 0x1000 % 8)) else none
  else none

/-- A 4-byte write to an interrupt file's page: an identity 1-2,047 becomes pending (R281). -/
def imsicWrite (a v : Nat) (s : State) : State :=
  match imsicFile s a with
  | some k => if 1 ≤ v && v ≤ 2047 then setPendingId k v s else s
  | none => s

/-- The vector of an interrupt cause of the agent: 1 command queue, 2 fault queue, 8 page-request queue (log 20). -/
def agentVector (s : State) (ip : Nat) : Nat :=
  bits (iommuReg s 0x2F8 8) (if ip = 1 then 0 else if ip = 2 then 4 else if ip = 4 then 8 else 12) 4

/-- The agent's interrupts are MSIs (R215): an address and a number from its table, unless that vector is masked. -/
def agentMsi (ip : Nat) (s : State) : State :=
  let e := 0x300 + 16 * agentVector s ip
  if bits (iommuReg s (e + 12) 4) 0 1 = 1 then s else imsicWrite (iommuReg s e 8) (iommuReg s (e + 8) 4) s

/-- An interrupt cause of the agent becomes pending; when it was not, its MSI goes out. -/
def raiseAgent (ip : Nat) (s : State) : State :=
  let was := iommuReg s 0x54 4 &&& ip
  let s := orIommuReg 0x54 ip s
  if was = 0 then agentMsi ip s else s

/-- Appends a record to one of the agent's queues in memory when it is on; a full queue sets its overflow bit. `base`,
`head` and `csr` are register offsets, the tail follows the head. -/
def queueRecord (base head csr ovf ip : Nat) (rec : List Byte) (s : State) : State :=
  let b := iommuReg s base 8
  let size := 2 ^ (bits b 0 5 + 1)
  let h := iommuReg s head 4 % size
  let t := iommuReg s (head + 4) 4 % size
  let c := iommuReg s csr 4
  if bits c 16 1 = 0 || bits c 8 2 ≠ 0 then s
  else if (t + 1) % size = h then orIommuReg csr ovf s
  else
    let s := setIommuReg (head + 4) 4 ((t + 1) % size) (ioWrite (bits b 10 44 * 4096 + rec.length * t) rec s)
    if bits c 1 1 = 1 then raiseAgent ip s else s

/-- A fault record: cause, process if the request named one, device and address, and for a fault of the G-stage the guest address (R220). -/
def faultRecord (did : Nat) (pid : Option Nat) (cause va guest : Nat) (write : Bool) : List Byte :=
  let pv := match pid with | some p => p * 2 ^ 12 + 2 ^ 32 | none => 0
  leBytes 8 (cause + pv + (if write then 3 else 2) * 2 ^ 34 + did * 2 ^ 40) ++ leBytes 8 0 ++ leBytes 8 va ++ leBytes 8 guest

/-- Whether a device's context has the reporting of its faults off: DTF, which leaves the causes of the directory itself (log 20). -/
def faultsOff (s : State) (did cause : Nat) : Bool :=
  !(256 ≤ cause && cause ≤ 259) && (SMap.find s.iommu.ddtCache did).any fun dc => bits (dc.getD 0 0).toNat 4 1 = 1

/-- Records a fault of a device's request in the fault queue (R220). -/
def recordFault (did : Nat) (pid : Option Nat) (cause va guest : Nat) (write : Bool) (s : State) : State :=
  if faultsOff s did cause then s
  else
    let s := { s with iommu := { s.iommu with faults := s.iommu.faults ++ [(did, cause)] } }
    queueRecord 0x28 0x30 0x4C 0x200 2 (faultRecord did pid cause va guest write) s

/-- Records a fault of an engine's request, whose device is its context (R213, R220). -/
def postFault (c cause va : Nat) (write : Bool) (s : State) : State :=
  recordFault c (some (ctxOf s c).pasid.toNat) cause va 0 write s

/-! ## Page requests -/

/-- The fault wait budget in ticks: 0x3200:01 (R230). -/
def budgetTicks (s : State) : Nat := 100 * objNat s 0x3200 1 2000

/-- A request record (R220): PRIV 0, EXEC 0, L set, PRGI 32 n + s. -/
def requestRecord (c pid va prgi : Nat) (write : Bool) : List Byte :=
  leBytes 8 (pid * 2 ^ 12 + 2 ^ 32 + c * 2 ^ 40)
    ++ leBytes 8 ((if write then 2 else 1) + 4 + prgi * 8 + va / 4096 * 4096)

/-- Posts a page request under a free slot and holds actions on it; `start` is when the budget began, if it has (R222, R223). -/
def postRequest (d c va i : Nat) (write : Bool) (start : Option (BitVec 64)) (acts : List HeldAct) (s : State) : State :=
  let prgi := 32 * d + i
  let pid := (ctxOf s c).pasid
  let slot : PageSlot := { did := c, pid, va := BitVec.ofNat 64 va, r := !write, w := write, start, budget := budgetTicks s,
                           job := (dieOf s d).job }
  let s := updDie s d (fun x => { x with pageSlots := SMap.put x.pageSlots i slot,
                                         held := x.held ++ acts.map (BitVec.ofNat 5 i, ·),
                                         tr := { x.tr with pageRequests := x.tr.pageRequests + 1 } })
  let s := { s with iommu := { s.iommu with pageReqs := s.iommu.pageReqs ++ [(d, c, va, prgi)] } }
  post 0x0360 d [d, c, va, prgi] (queueRecord 0x38 0x40 0x50 0x200 8 (requestRecord c pid.toNat va prgi write) s)

/-- A free page-request slot of a die (R222). -/
def freeSlot (x : DieSt) : Option Nat := (List.range 32).find? fun i => (SMap.find x.pageSlots i).isNone

/-- Holds a faulting action on a page request (R222, R223): it joins the request for the page, or what waits on the walkers for it; it takes a
free slot and posts one; or it waits, its walker keeping the fault until a slot is free, or behind the 32 walkers. `now` starts the budget
with the request. -/
def pageRequest (d c va : Nat) (write now : Bool) (act : HeldAct) (s : State) : State :=
  let x := dieOf s d
  let joined := fun (x : DieSt) => { x.tr with coalesced := x.tr.coalesced + 1 }
  match x.pageSlots.find? (fun p => p.2.job == x.job && samePage p.2 c (ctxOf s c).pasid va) with
  | some (i, p) =>
    updDie s d (fun x => { x with
      pageSlots := SMap.put x.pageSlots i { p with start := if now then some (p.start.getD s.time) else p.start },
      held := x.held ++ [(BitVec.ofNat 5 i, act)], tr := joined x })
  | none =>
    let wait : WalkWait := { va := BitVec.ofNat 64 va, write, now, walked := decide (walkersBusy x < 32), act }
    if x.walkWait.any fun w => w.va.toNat / 4096 == va / 4096 then
      updDie s d fun x => { x with walkWait := x.walkWait ++ [{ wait with walked := false }], tr := joined x }
    else match freeSlot x with
      | none => updDie s d fun x => { x with walkWait := x.walkWait ++ [wait] }
      | some i => postRequest d c va i write (if now then some s.time else none) [act] s

/-! ## Accesses that cannot proceed -/

/-- Why a memory access of an engine does not proceed. -/
inductive MemStop where
  | page (va : Nat) (write : Bool)
  | failed (cause va : Nat) (write : Bool)
  | noRoom (e : NoRoom) (a : Nat)
  | poison (a : Nat)
  deriving DecidableEq, Repr

/-- What a stopped access does to the command of its die (R153, R183, R220, R223, R266). -/
def memStop (d c : Nat) (act : HeldAct) (now : Bool) (e : MemStop) (s : State) : State :=
  match e with
  | .page va w => pageRequest d c va w now act s
  | .failed cause va w => stopWith d (.failing 0x0362 [c, cause]) (postFault c cause va w s)
  | .noRoom e a =>
    killOn d (.fault (match e with | .quota => 0x0340 | .storage => 0x0341)) (postNoRoom e c a s)
  | .poison a => stopWith d (.failing 0x0402 [d, c, a]) s

/-- Reads n bytes of a context's virtual memory. -/
def readVirtual (d c : Nat) (viaEdge : Bool) (va n : Nat) (s : State) : Except MemStop (List Byte) × State :=
  match vread d c viaEdge va n s with
  | (.ok b, s) => (.ok b, s)
  | (.fault a, s) => (.error (.page a false), s)
  | (.failed e, s) => (.error (.failed e va false), s)
  | (.noRoom e a, s) => (.error (.noRoom e a), s)
  | (.poison a, s) => (.error (.poison a), s)

end Sys2Proof.Machine
end

