-- ==== Sys2Proof/Machine/Defer.lean ====
section
/-! DEFINITION. Actions that have issued and cannot start yet: what they name, what is ordered behind them (R98, R115, R116, R123), and
how an action waits its turn (log 119). -/

namespace Sys2Proof.Machine

/-- The operation a LACE target names (R300). -/
def laceOp (target : Nat) : Nat := bits target 13 3

/-- The tokens an action names, each with whether the action writes the token's region (R98). -/
def actTokens (img : Image) : UnitAct → List (Nat × Bool)
  | .pass _ _ i => let p := vatDesc (vatDescAt img i); [(p.srcToken, false), (p.dstToken, true)]
  | .load _ _ i => [((vatDesc (vatDescAt img i)).srcToken, false)]
  | .passld _ _ i _ l =>
    let p := vatDesc (vatDescAt img i)
    [(p.srcToken, false), (p.dstToken, true), ((vatDesc (vatDescAt img l)).srcToken, false)]
  | .ldv _ a => [(a.token.toNat, false)]
  | .stv _ a => [(a.token.toNat, true)]
  | .reg _ _ _ => []
  | .mover op _ a =>
    let m := movDesc img a.desc.toNat
    if op = 3 then (m.token, false) :: (if (copyTarget m.target).rank = 0xF then [((copyTarget m.target).token, true)] else [])
    else if op = 5 then (if laceOp m.target = 3 then [] else [(m.token, laceOp m.target == 1)])
    else [(m.token, op == 1)]

/-- The unit whose own contents order an action: a vat's slots or a Churn unit's registers (R51, R99). -/
def actOwner : UnitAct → Option Nat
  | .pass k _ _ => some k
  | .load k _ _ => some k
  | .passld k _ _ _ _ => some k
  | .ldv u _ => some (churnUnitKey u)
  | .stv u _ => some (churnUnitKey u)
  | .reg _ u _ => some (churnUnitKey u)
  | .mover _ _ _ => none

/-- The key of an action's unit in the occupancy table (R92). -/
def actUnit : UnitAct → Nat
  | .mover _ mv _ => moverUnitKey mv
  | a => (actOwner a).getD 0

/-- The partner of a LACE action. -/
def actPartner (img : Image) : UnitAct → Option Nat
  | .mover 5 _ a => some (bits (movDesc img a.desc.toNat).target 0 13)
  | _ => none

/-- Whether an action is ordered behind an earlier one by its unit, by the partner of a LACE operation, or by a token that either writes
(R51, R98, R99). -/
def behindAct (img : Image) (a e : UnitAct) : Bool :=
  ((actOwner a).isSome && actOwner a == actOwner e) || ((actPartner img a).isSome && actPartner img a == actPartner img e)
    || (actTokens img a).any fun t => (actTokens img e).any fun u => t.1 == u.1 && (t.2 || u.2)

/-- Whether an action is ordered behind one that still waits. -/
def mustWait (img : Image) (x : DieSt) (a : UnitAct) : Bool := x.deferred.any fun e => behindAct img a e.act

/-- Whether an action that still waits names a token. -/
def deferredNames (img : Image) (x : DieSt) (t : Nat) : Bool := x.deferred.any fun e => (actTokens img e.act).any (·.1 == t)

/-- Puts an action among those that wait, with its number and what it reads of the sequencer; it occupies its unit (R92). Eight numbers
are set aside for what it starts. -/
def deferAct (steps : Nat) (a : UnitAct) (x : DieSt) : DieSt :=
  let e : Deferred := { act := a, id := x.actSeq, word := x.seq.pos, sv := x.sv, sent := x.sent, fenceL := x.fenceL, fenceX := x.fenceX,
                        barrier := x.barrier, relLace := x.relLace, opened := x.round.opened }
  occupy (actUnit a) steps { x with deferred := x.deferred ++ [e], actSeq := x.actSeq + 8 }

/-- Issues an action of a unit (R93, R98): it starts, or waits when it is ordered behind another or cannot start yet. -/
def issueAct (d steps : Nat) (img : Image) (a : UnitAct) (act : State → Option State) (s : State) : State :=
  match (if mustWait img (dieOf s d) a then none else act s) with
  | some t => t
  | none => updDie s d (deferAct steps a)

/-- A die while a waiting action is tried: only the earlier ones wait, and the sequencer is as it was when the action issued. -/
def asIssued (before : List Deferred) (e : Deferred) (x : DieSt) : DieSt :=
  { x with deferred := before, actSeq := e.id, sv := e.sv, sent := e.sent, fenceL := e.fenceL, fenceX := e.fenceX, barrier := e.barrier,
           relLace := e.relLace, round := { x.round with opened := e.opened }, seq := { x.seq with pos := e.word, state := .running } }

/-- The die `y` that a waiting action leaves, with the sequencer as it is now, in `x`. -/
def asNow (x : DieSt) (rest : List Deferred) (y : DieSt) : DieSt :=
  let killed := y.seq.state == .killing
  { y with deferred := if killed then [] else y.deferred ++ rest, actSeq := max x.actSeq y.actSeq, occ := x.occ, sv := x.sv, sent := x.sent,
           fenceL := if killed then y.fenceL else x.fenceL, fenceX := if killed then y.fenceX else x.fenceX, barrier := x.barrier,
           relLace := if killed then y.relLace else x.relLace, round := { y.round with opened := x.round.opened },
           seq := { y.seq with pos := x.seq.pos, state := if killed then .killing else x.seq.state } }

end Sys2Proof.Machine
end

