-- ==== Sys2Proof/Machine/Slots.lean ====
section
/-! DEFINITION. Weight slots and passes in flight: which physical vat serves a logical one (R38), slot contents under the
context tag (R52, R389), loads into slots (R50), what a pass meets in its slot (R49, R52, R64), its outputs (R65, R97, R98),
and the completion of passes that a later action waits for (R98). -/

namespace Sys2Proof.Machine

/-! ## Slots -/

def physOf (s : State) (d k : Nat) : Nat := physVat (unitMapOf s d) k

def slotKey (phys slot : Nat) : Nat := 4 * phys + slot

def rawSlot (x : DieSt) (phys slot : Nat) : Slot := SMap.get {} x.slots (slotKey phys slot)

/-- A slot as an operation finds it: one whose tag is not the current one reads as EMPTY (R389). -/
def slotNow (x : DieSt) (phys slot : Nat) : Slot :=
  let z := rawSlot x phys slot
  if z.tag = some x.placeCtr then z else {}

def setSlot (phys slot : Nat) (z : Slot) (x : DieSt) : DieSt :=
  { x with slots := SMap.set {} x.slots (slotKey phys slot) z }

/-- Writes a load's contents into its slot or slot pair under the current tag (R49, R50, R52, R76, R388). -/
def fillSlots (phys slot : Nat) (kind : SlotKind) (loading : Bool) (entry : Option Nat) (data : SlotData) (x : DieSt) : DieSt :=
  let base : Slot := { kind, loading, tag := some x.placeCtr, entry }
  if data.wmode = 3 then
    let id := x.actSeq
    let x := setSlot phys slot { base with data := some (planeOf true data), pair := some id } x
    let x := setSlot phys (slot + 1) { base with data := some (planeOf false data), pair := some id } x
    { x with actSeq := x.actSeq + 1 }
  else setSlot phys slot { base with data := some data } x

def pvatOf (x : DieSt) (phys : Nat) : PVat := SMap.get {} x.pvats phys
def updPvat (phys : Nat) (f : PVat → PVat) (x : DieSt) : DieSt := { x with pvats := SMap.upd {} x.pvats phys f }

/-- The loader has written all rows of a load (R50, R66). -/
def countRows (phys wmode : Nat) (x : DieSt) : DieSt :=
  updPvat phys (fun v => { v with rowsLoaded := bump v.rowsLoaded (loadSteps wmode) }) x

/-! ## What a pass meets in its slot -/

/-- The slot data of a pass, or why it faults (R49, R52, R64): a mode 3 pass needs the two planes of one load. -/
def meetSlot (x : DieSt) (phys slot : Nat) (desc : Nat) (p : VatDesc) : Act (SlotData × Option SlotData) :=
  let hi := slotNow x phys slot
  let lo := slotNow x phys (slot + 1)
  let empty := fun (z : Slot) => z.kind == .empty
  if empty hi || (p.wmode = 3 && empty lo) then .error (.program 0x0505 [phys, slot, desc])
  else
    match hi.data, lo.data with
    | some a, b =>
      if a.wfmt.toNat ≠ p.wFmt || a.wmode.toNat ≠ p.wmode then .error (.program 0x0506 [phys, slot, desc])
      else if p.wmode = 3 then
        match b with
        | some b => if hi.pair.isSome && hi.pair = lo.pair then .ok (a, some b) else .error (.program 0x0506 [phys, slot, desc])
        | none => .error (.program 0x0506 [phys, slot, desc])
      else .ok (a, none)
    | none, _ => .error (.program 0x0505 [phys, slot, desc])

/-! ## Passes in flight -/

/-- Feeds the last vector of a pass into row 255 (R51, R66). -/
def feedPass (f : PassFlight) (x : DieSt) : DieSt :=
  if f.fed then x
  else
    let x := updPvat f.phys (fun v => { v with vectorsIn := bump v.vectorsIn (passEntries (passDesc f)) }) x
    { x with passes := x.passes.map fun g => if g.id = f.id then { g with fed := true } else g }

/-- Writes one output vector of a pass (R80, R97, R98). -/
def writeVector (img : Image) (job : W64) (p : VatDesc) (w : SlotData) (v : Nat) (act : List Byte) (x : DieSt) : Act DieSt := do
  let pan := panEnt img p.dstPan
  let off := 64 * (p.dstOffset + v * p.dstStride)
  let n := outBytes p
  let dst ← if p.acc then readPan x pan p.dstToken off n else .ok []
  let (out, fl) := passVector job p w v act dst
  let x ← writePan pan off out x
  .ok (raise fl x)

/-- The (vector, block) of a pass that fails its check against the slot contents it met (R55). -/
def failedCheck (f : PassFlight) : Option (Nat × Nat) :=
  badCheck (passDesc f) f.acts (f.hi.toList ++ f.lo.toList)

/-- The last output of a pass leaves the drains (R65): its destination is written, its flags join the pending word. It does not while an
earlier load of its slots is under way (R51), and a pass whose check fails writes nothing (R55, R57). -/
def finishPass (img : Image) (job : W64) (f : PassFlight) (x : DieSt) : Act DieSt :=
  let p := passDesc f
  match f.hi with
  | none => .error .stall
  | some hi =>
    if behindLoad x f || (failedCheck f).isSome then .error .stall else
    let w := joinPlanes hi f.lo
    let x := feedPass f x
    let x := { x with passes := x.passes.filter (·.id != f.id) }
    f.acts.zipIdx.foldl (fun (r : Act DieSt) (a : List Byte × Nat) => r.bind (writeVector img job p w a.2 a.1)) (.ok x)

/-- Whether a mover held on a page request or a lace GET under way names one of some tokens. -/
def tokenBusy (img : Image) (x : DieSt) (tokens : List Nat) : Bool :=
  let heldTok := fun (h : HeldAct) => match h with
    | .mover _ op di _ =>
      let m := movDesc img di.toNat
      tokens.contains m.token || (op = 3 && tokens.contains (copyTarget m.target).token)
    | _ => false
  (heldActs x).any heldTok || overlaps (x.getTokens.map (·.1)) tokens

/-- Completes, in issue order, the passes in flight that write a region some later action names (R98). A pass that still
waits for a round load, a mover held on a page or a lace GET under way holds the later action back. -/
def settle (img : Image) (job : W64) (tokens : List Nat) (x : DieSt) : Act DieSt :=
  if tokenBusy img x tokens then .error .stall
  else
    (x.passes.filter fun f => tokens.contains (passDesc f).dstToken).foldl
      (fun (r : Act DieSt) f => r.bind (finishPass img job f)) (.ok x)

/-- Completes a pass and, before it, the earlier passes with the same destination token (R98). -/
def completeUpTo (img : Image) (job : W64) (f : PassFlight) (x : DieSt) : Act DieSt :=
  (x.passes.filter fun g => g.id ≤ f.id && (passDesc g).dstToken = (passDesc f).dstToken).foldl
    (fun (r : Act DieSt) g => r.bind (finishPass img job g)) (.ok x)

/-- Resolves the passes of a vat that waited for round loads, after one of them was written: those whose entries are all
written meet their slots, and their wait joins the stall ticks (R167). -/
def resolveWaiting (now : BitVec 64) (vat : Nat) (x : DieSt) : Act DieSt :=
  (x.passes.filter fun f => f.vat = vat && f.entry.isSome).foldl (fun (r : Act DieSt) f => r.bind fun x =>
    let p := passDesc f
    let still := f.entry.any fun e => (roundQueue x vat).contains e
    if still then .ok x
    else
      let x := { x with round := { x.round with stall := x.round.stall + (now - f.arrived) } }
      match meetSlot x f.phys f.slot f.index p with
      | .error e => .error e
      | .ok (hi, lo) =>
        .ok { x with passes := x.passes.map fun g =>
                if g.id = f.id then { g with entry := none, hi := some hi, lo := lo } else g }) (.ok x)

end Sys2Proof.Machine
end

