-- ==== Sys2Proof/Machine/Round.lean ====
section
/-! DEFINITION. The milk round (R162 to R168): promotion and pins, near fetch into the round pan, and slot loads. -/

namespace Sys2Proof.Machine

/-- Whether the units of a die work on its job: no kill, check or pause holds them. -/
def working (s : State) (d : Nat) : Bool :=
  atWork (dieOf s d).seq.state && !paused s d

def jobWord (s : State) (d : Nat) : W64 := BitVec.ofNat 64 (jobIdOn s d)

/-- Runs a function of a die's own state; an error stops the command as it says. -/
def onDie (d : Nat) (f : DieSt → Act DieSt) (s : State) : State :=
  match f (dieOf s d) with
  | .ok x => setDie s d x
  | .error e => stopWith d e s

/-! ## Promotion (R166) -/

/-- First addresses of the 4 KiB pages an entry's source touches. -/
def entryPages (e : RoundEnt) : List Nat :=
  let pages := fun (a n : Nat) => if n = 0 then [] else (List.range ((a + n - 1) / 4096 + 1 - a / 4096)).map (a / 4096 + ·)
  let rows := (List.range 256).flatMap fun i => pages (e.src + 64 * e.stride * i) (rowBytes e.wmode e.wfmt)
  (rows ++ pages (e.src + 64 * e.stride * 256) (scaleBytes e.wmode e.wfmt)).eraseDups.map (· * 4096)

/-- The round engine's MIGRATE to HBM of one granule, with its pin: a granule the Separator refuses takes no pin, and RPIN
saturates at 255 (R166). An UNPLACED granule is left alone (log 55). -/
def promoteGranule (d i : Nat) (pin : Bool) (g : Nat) (s : State) : State :=
  let x := granOf s g
  let (carried, s) := match x.state with
    | .unplaced => (false, s)
    | .hbm => (true, s)
    | .moving => ((SMap.find s.moves g).any (·.toHbm), s)
    | .far =>
      if isPinned s g then (false, s)
      else match moveRoom s x.owner.toNat true true with
        | .ok l => (true, startMove g .migrate true l [] s)
        | .error _ => (false, s)
  if carried && pin && x.rpin ≠ 255 then
    updDie (updGran s g (fun x => { x with rpin := x.rpin + 1 })) d
      (fun x => { x with round := { x.round with pins := x.round.pins ++ [(i, g)] } })
  else s

/-- Promotes an entry's source granules; a page that does not translate is left for the fetch to fault on. -/
def promoteEntry (d i : Nat) (s : State) : State :=
  let e := roundEnt (roundImg (dieOf s d)) i
  let c := ctxOn s d
  let (gs, s) := (entryPages e).foldl (fun (acc : List Nat × State) va =>
    match translate d c va false acc.2 with
    | (.ok pa _, t) => (acc.1 ++ [granuleOf pa], t)
    | (_, t) => (acc.1, t)) ([], s)
  each gs.eraseDups (promoteGranule d i e.pin) s

/-- ROUND_PROMOTION: every entry with LAYER ≤ C + HBM_LEAD that has not been promoted; one whose slot load is complete, as after a restore,
takes no granule any more. -/
def promote (d : Nat) (s : State) : State :=
  let x := dieOf s d
  let lim := currentLayer x + (x.round.hbmLead : Int)
  let next := ((List.range (roundCount x)).drop x.round.promoted).takeWhile fun i => ((roundEnt (roundImg x) i).layer : Int) ≤ lim
  updDie (each (next.filter fun i => !x.round.loaded.contains i) (promoteEntry d) s) d
    (fun x => { x with round := { x.round with promoted := x.round.promoted + next.length } })

/-! ## Near fetch (R166, R168) -/

def entryLines (x : DieSt) (i : Nat) : Nat :=
  let e := roundEnt (roundImg x) i
  tileLines e.wmode e.wfmt

def panUsed (x : DieSt) : Nat := (x.round.tiles.map fun t => entryLines x t.1).foldl (· + ·) 0

/-- Frees tiles, newest first, until an entry's tile fits; none when it cannot. -/
def freeFor (need size : Nat) : List Nat → DieSt → Option DieSt
  | [], x => if panUsed x + need ≤ size then some x else none
  | v :: vs, x =>
    if panUsed x + need ≤ size then some x
    else freeFor need size vs { x with round := { x.round with tiles := x.round.tiles.filter (·.1 != v) } }

/-- The entry whose tile the engine fetches next: a refill's, then one whose gate has opened, then the walk's, up to
LAYER ≤ C + NEAR_LEAD. -/
def fetchNext (x : DieSt) : Option Nat :=
  let n := roundCount x
  let wants := fun i => !hasTile x i
  let refills := x.round.refills.map (·.2)
  let lim := currentLayer x + (x.round.nearLead : Int)
  (((List.range n).filter refills.contains).find? wants
    <|> (x.round.opened.filter (fun i => !x.round.loaded.contains i)).find? wants
    <|> (List.range n).find? (fun i => wants i && !x.round.loaded.contains i && ((roundEnt (roundImg x) i).layer : Int) ≤ lim))

/-- The tiles an entry's fetch may push out of the round pan, newest first. -/
def victims (x : DieSt) (i : Nat) : List Nat :=
  let held := (x.round.tiles.map (·.1)).reverse
  if (x.round.refills.map (·.2)).contains i then held
  else if x.round.opened.contains i then held.filter (fun j => !x.round.opened.contains j)
  else []

/-- Reads an entry's tile at the homes (R166, R237), packed as R164 holds it. -/
def readTile (d i : Nat) (s : State) : Except MemStop ByteMap × State :=
  let e := roundEnt (roundImg (dieOf s d)) i
  let c := ctxOn s d
  let w := 64 * lineCount (rowBytes e.wmode e.wfmt)
  let piece := fun (acc : Except MemStop ByteMap × State) (p : Nat × Nat × Nat) =>
    match acc with
    | (.error x, s) => (.error x, s)
    | (.ok m, s) =>
      if p.2.2 = 0 then (.ok m, s)
      else match readVirtual d c false p.2.1 p.2.2 s with
        | (.ok b, s) => (.ok (ByteMap.write m p.1 b), s)
        | (.error x, s) => (.error x, s)
  ((List.range 256).map (fun r => (w * r, e.src + 64 * e.stride * r, rowBytes e.wmode e.wfmt))
    ++ [(w * 256, e.src + 64 * e.stride * 256, scaleBytes e.wmode e.wfmt)]).foldl piece (.ok [], s)

/-- Whether a pass waits for an entry (R167). -/
def passWaits (x : DieSt) (i : Nat) : Bool := x.passes.any (fun f => f.entry == some i)

/-- Starts the fetch of an entry's tile. A page fault posts its request at once; its budget runs only once a pass waits on
the entry (R224). -/
def fetchEntry (d i : Nat) (s : State) : State :=
  let x := dieOf s d
  match freeFor (entryLines x i) (roundHead (roundImg x)).size (victims x i) x with
  | none => s
  | some x' =>
    let s' := setDie s d x'
    match readTile d i s' with
    | (.ok t, s) => updDie s d (fun x => { x with round := { x.round with tiles := x.round.tiles ++ [(i, t)], fetching := some i } })
    | (.error e, s) => memStop d (ctxOn s d) (.roundRead i) (passWaits x i) e s

/-- Whether a round read is held on a page request. -/
def roundHeld (x : DieSt) : Bool := (heldActs x).any fun h => match h with | .roundRead _ => true | _ => false

def nearFetch (d : Nat) (s : State) : State :=
  if working s d then
    let s := promote d s
    let x := dieOf s d
    if x.round.fetching.isSome || roundHeld x then s
    else match fetchNext x with
      | some i => fetchEntry d i s
      | none => s
  else s

def tileFetched (d : Nat) (s : State) : State :=
  if working s d && (dieOf s d).round.fetching.isSome then
    promote d (updDie s d (fun x => { x with round := { x.round with fetching := none } }))
  else s

/-! ## Slot loads (R165, R168) -/

/-- Writes the slots of a refill: those the kill, restore or binding left to it, as recorded at command start (R168). -/
def refillSlots (i : Nat) (data : SlotData) (x : DieSt) : DieSt :=
  (x.round.refills.filter (·.2 == i)).foldl (fun x k =>
    let old : Slot := match x.start with | some r => SMap.get {} r.slots k.1 | none => {}
    let plane := if data.wmode = 3 then planeOf (k.1 % 2 = 0) data else data
    let z : Slot := { kind := .job, data := some plane, pair := old.pair, tag := some x.placeCtr, entry := some i }
    { x with slots := SMap.set {} x.slots k.1 z }) x

/-- An entry's slot load writes row 255 on a die's own state (R50, R165, R166, R168). -/
def writeEntryLoad (now : BitVec 64) (phys vat i : Nat) (x : DieSt) : Act DieSt :=
  let e := roundEnt (roundImg x) i
  let tile := (x.round.tiles.lookup i).getD []
  let (data, inv) := loadSlot e.wmode e.wfmt (tileRows e.wmode e.wfmt tile) (tileScales e.wmode e.wfmt tile)
  let refill := x.round.refills.any (·.2 == i)
  let x := if refill then refillSlots i data x else fillSlots phys e.slot .job false (some i) data x
  let x := raise (flagIf inv fInvalid) (countRows phys e.wmode x)
  let r := x.round
  let x := { x with round := { r with
    tiles := r.tiles.filter (·.1 != i), refills := r.refills.filter (·.2 != i),
    loaded := if r.loaded.contains i then r.loaded else r.loaded ++ [i] } }
  resolveWaiting now vat x

/-- Releases the RPINs an entry holds (R166). -/
def releaseEntry (d i : Nat) (s : State) : State :=
  let x := dieOf s d
  let mine := x.round.pins.filter (·.1 == i)
  let s := updDie s d (fun x => { x with round := { x.round with pins := x.round.pins.filter (·.1 != i) } })
  each mine (fun (p : Nat × Nat) s => releaseRpin (demoteAfter x.image i) p.2 s) s

def slotLoadDone (d vat : Nat) (s : State) : State :=
  if working s d then
    match loadable (dieOf s d) vat with
    | none => s
    | some i => promote d (releaseEntry d i (onDie d (writeEntryLoad s.time (physOf s d vat) vat i) s))
  else s

/-! ## Gates (R165) -/

/-- An own SIGNAL's effect on a token's own-signal count, and the gates it opens, in list order (R165). -/
def ownSignal (t : Nat) (inc : BitVec 16) (x : DieSt) : DieSt :=
  let x := updTok t (fun k => { k with own := k.own + inc.zeroExtend 32 }) x
  let own := (tokOf x t).own.toNat
  let opens := (List.range (roundCount x)).filter fun i =>
    let e := roundEnt (roundImg x) i
    e.gateToken = t && !x.round.opened.contains i && e.gateCount ≤ own
  { x with round := { x.round with opened := x.round.opened ++ opens } }

/-! ## The rows -/

/-- ROUND_NEAR_FETCH (R166, R217, R219, R224, R237). -/
def execRoundNearFetch (d : Die) (s : State) : Host.Outcome State Fault Refusal := command (nearFetch d) s
/-- ROUND_TILE_FETCHED (R165, R166). -/
def execRoundTileFetched (d : Die) (s : State) : Host.Outcome State Fault Refusal := command (tileFetched d) s
/-- ROUND_SLOT_LOAD_DONE (R52, R165, R166, R167). -/
def execRoundSlotLoadDone (d : Die) (vat : BitVec 4) (s : State) : Host.Outcome State Fault Refusal :=
  command (fun s => tryDrainOn d (slotLoadDone d vat.toNat s)) s

end Sys2Proof.Machine
end

