-- ==== Sys2Proof/Machine/Store.lean ====
section
/-! DEFINITION. Records of the NV store (R422, R423) and the compaction of its A/B areas (R425). -/

namespace Sys2Proof.Machine

/-- The A/B areas of R422, numbered by the model (log 56). -/
def areaParams : Nat := 0
def areaState : Nat := 1
def areaLists : Nat := 2

/-- Bytes of one copy of an A/B area (R422). -/
def copyBytes (area : Nat) : Nat := if area = 0 then 4 * 2 ^ 20 else if area = 1 then 2 * 2 ^ 20 else 12 * 2 ^ 20

/-- Bytes a record of a payload takes: header, padded payload, CRC and COMMIT, up to the next 16-byte boundary (R423). -/
def recordBytes (payload : Nat) : Nat := (24 + (payload + 3) / 4 * 4 + 8 + 15) / 16 * 16

/-- Payload bytes of the live items of an area (R425; the payload layouts of parameters and state items are not given,
log 56). -/
def liveItems (s : State) (area : Nat) : List Nat :=
  if area = 0 then s.dict.values.map fun (p : Nat × List Byte) => 4 + p.2.length
  else if area = 1 then
    (List.replicate s.nv.retiredVats.length 8) ++ [8, 8, 8, 32, 8, 8]
  else (s.nv.lists.flatMap fun (p : Nat × List (BitVec 64)) => p.2.map fun _ => 16)

/-- Compacts an area into its other copy and erases the old one (R425). -/
def compactArea (area : Nat) (s : State) : State :=
  let live := liveItems s area
  let used := (live.map recordBytes).foldl (· + ·) (recordBytes 0)
  let flip := if s.nv.copyB.contains area then s.nv.copyB.filter (· != area) else area :: s.nv.copyB
  post 0x0B04 noSite [area, live.length]
    { s with nv := { s.nv with fill := SMap.set 0 s.nv.fill area used, copyB := flip,
                               seq := bump s.nv.seq (live.length + 2) } }

/-- Whether the store accepts writes: a device is in use (R424, R432). -/
def storeUp (s : State) : Bool := !(s.nv.device0Bad && s.nv.device1Bad)

/-- Whether a device of the store is in use (R424). -/
def deviceInUse (s : State) (d : Nat) : Bool := if d = 0 then !s.nv.device0Bad else !s.nv.device1Bad

/-- A device that fails to read or program is taken out of use; the one that remains holds the store alone (R424). -/
def takeDeviceOut (d : Nat) (s : State) : State :=
  { s with nv := if d = 0 then { s.nv with device0Bad := true } else { s.nv with device1Bad := true } }

/-- Programs with `act` while some devices of the store fail: those leave it before `act`, and 0x0B02 is posted for each after it. -/
def programWith (fails : List Nat) (act : State → State) (s : State) : State :=
  let gone := fails.filter (deviceInUse s)
  each gone (fun d s => post 0x0B02 noSite [d] s) (act (each gone takeDeviceOut s))

/-- Programs one record of an area; a copy left with less than 25 % free is compacted (R423, R425). -/
def storeRecord (area payload : Nat) (s : State) : State :=
  let used := SMap.get 0 s.nv.fill area + recordBytes payload
  let s := { s with nv := { s.nv with fill := SMap.set 0 s.nv.fill area used, seq := bump s.nv.seq } }
  if 4 * used > 3 * copyBytes area then compactArea area s else s

end Sys2Proof.Machine
end

