-- ==== Sys2Proof/Machine/Vats.lean ====
section
/-! DEFINITION. The vat slot (R62 to R65): validity of its encodings and descriptors (R63, R64, R70, R72), PASS, LOAD and
PASSLD, the completion of passes and loads, and check mismatches with vat retirement (R57 to R60). -/

namespace Sys2Proof.Machine

/-! ## Validity -/

def floatAct (f : Nat) : Bool := 1 ≤ f && f ≤ 7
def narrowFloat (f : Nat) : Bool := 1 ≤ f && f ≤ 4

/-- WMODE and W_FMT appear together in a row of R72. -/
def loadPair (wmode wfmt : Nat) : Bool :=
  match wmode with
  | 0 => [1, 2, 3, 4, 5, 6, 8].contains wfmt
  | 1 => [7, 9].contains wfmt
  | 2 => wfmt = 0xA
  | _ => [1, 2, 3, 4, 5, 6].contains wfmt

/-- A full combination of R72. -/
def fullCombo (p : VatDesc) : Bool :=
  loadPair p.wmode p.wFmt &&
    (if p.wFmt = 8 || p.wFmt = 9 then
      (p.actFmt = 8 || p.actFmt = 9) && (p.outFmt = 0xB || p.outFmt = 0xC) && p.round = 0
    else
      floatAct p.actFmt && (p.outFmt = 0 || (narrowFloat p.outFmt && !p.acc)) &&
        (p.round = 0 || (p.round = 1 && narrowFloat p.outFmt)))

/-- A pass descriptor is valid (R64). -/
def passValid (p : VatDesc) : Bool :=
  !p.reserved && fullCombo p && lineCount (actBytes p.actFmt) ≤ p.srcStride && lineCount (outBytes p) ≤ p.dstStride

/-- A load descriptor is valid: the fields R64 marks zero for a load are zero (R64, R70, R72). -/
def loadValid (v : Nat) : Bool :=
  let p := vatDesc v
  !p.reserved && loadPair p.wmode p.wFmt && bits v 25 25 = 0 && bits v 88 37 = 0 && bits v 152 24 = 0 && p.actFmt = 0 &&
    bits v 200 8 = 0 && p.outBase = 0 && lineCount (rowBytes p.wmode p.wFmt) ≤ p.srcStride

/-- The bytes a pass reads and writes lie in its tokens' regions (R96). -/
def passFootprint (img : Image) (p : VatDesc) : Bool :=
  inRegion img p.srcPan p.srcToken (64 * p.srcOffset) (64 * (p.srcOffset + (p.count - 1) * p.srcStride) + actBytes p.actFmt - 1)
    && inRegion img p.dstPan p.dstToken (64 * p.dstOffset) (64 * (p.dstOffset + (p.count - 1) * p.dstStride) + outBytes p - 1)

/-- The bytes a load reads lie in its token's region (R96). -/
def loadFootprint (img : Image) (p : VatDesc) : Bool :=
  let last := if scaleBytes p.wmode p.wFmt = 0 then 64 * (p.srcOffset + 255 * p.srcStride) + rowBytes p.wmode p.wFmt
    else 64 * (p.srcOffset + 256 * p.srcStride) + scaleBytes p.wmode p.wFmt
  inRegion img p.srcPan p.srcToken (64 * p.srcOffset) (last - 1)

/-- A mode 3 descriptor names slot A or C (R63). -/
def pairSlot (wmode slot : Nat) : Bool := wmode ≠ 3 || slot % 2 = 0

/-- Whether logical vat k is one the job names (R87). -/
def vatNamed (img : Image) (k : Nat) : Bool := bits (imageSect img).useVats k 1 = 1

def passOk (img : Image) (slot di : Nat) : Bool :=
  let p := vatDesc (vatDescAt img di)
  passValid p && pairSlot p.wmode slot && passFootprint img p

def loadOk (img : Image) (slot di : Nat) : Bool :=
  let p := vatDesc (vatDescAt img di)
  loadValid (vatDescAt img di) && pairSlot p.wmode slot && loadFootprint img p

def passldOk (img : Image) (slot di lslot ldi : Nat) : Bool :=
  passOk img slot di && loadOk img lslot ldi &&
    !overlaps (slotSpan (vatDesc (vatDescAt img di)).wmode slot) (slotSpan (vatDesc (vatDescAt img ldi)).wmode lslot)

/-! ## Actions -/

/-- A pass starts (R41, R51, R65): its sources and its slot are what every earlier action left. One that meets a round load
not yet written waits for it (R167). -/
def passAct (img : Image) (job : W64) (now : BitVec 64) (phys vat slot di : Nat) (x : DieSt) : Act DieSt := do
  let v := vatDescAt img di
  let p := vatDesc v
  tokenLocal x p.srcToken
  tokenLocal x p.dstToken
  let x ← if tokenBusy img x [p.dstToken] then .error .stall else settle img job [p.srcToken] x
  let wait := waitsFor x vat (slotSpan p.wmode slot)
  let (hi, lo) ← match wait with
    | some _ => .ok (none, none)
    | none => (meetSlot x phys slot di p).map fun w => (some w.1, w.2)
  let pan := panEnt img p.srcPan
  let acts ← (List.range p.count).mapM fun i =>
    readPan x pan p.srcToken (64 * (p.srcOffset + i * p.srcStride)) (actBytes p.actFmt)
  let f : PassFlight := { id := x.actSeq, vat, phys, slot, index := di, desc := BitVec.ofNat 256 v, acts, hi, lo, entry := wait,
                          fed := false, arrived := now }
  .ok (occupy vat (passEntries p) { x with passes := x.passes ++ [f], actSeq := x.actSeq + 1 })

/-- A load starts (R50, R51): the slot holds its new weights for every later pass; a round load of the slot whose gate opened
earlier is written first. -/
def loadAct (img : Image) (job : W64) (phys vat slot di : Nat) (x : DieSt) : Act DieSt := do
  let p := vatDesc (vatDescAt img di)
  tokenLocal x p.srcToken
  let x ← settle img job [p.srcToken] x
  if (waitsFor x vat (slotSpan p.wmode slot)).isSome then .error .stall
  else
    let pan := panEnt img p.srcPan
    let rows ← (List.range 256).mapM fun i =>
      readPan x pan p.srcToken (64 * (p.srcOffset + i * p.srcStride)) (rowBytes p.wmode p.wFmt)
    let n := scaleBytes p.wmode p.wFmt
    let scales ← if n = 0 then .ok [] else readPan x pan p.srcToken (64 * (p.srcOffset + 256 * p.srcStride)) n
    let (data, inv) := loadSlot p.wmode p.wFmt rows scales
    let f : LoadFlight := { id := x.actSeq, vat, phys, slot, wmode := p.wmode }
    let x := { x with loads := x.loads ++ [f], actSeq := x.actSeq + 1 }
    .ok (occupy vat (loadSteps p.wmode) (raise (flagIf inv fInvalid) (fillSlots phys slot .command true none data x)))

/-- Starts the budget of a page request that a round read holds, now that a pass waits on its entry (R224). -/
def startBudgets (d : Nat) (s : State) : State :=
  let x := dieOf s d
  let mine := fun (h : HeldAct) => match h with | .roundRead i => passWaits x i | _ => false
  let waited := (x.held.filter fun h => mine h.2).map (·.1.toNat)
  let begin1 := fun (p : Nat × PageSlot) =>
    if waited.contains p.1 && p.2.start.isNone then (p.1, { p.2 with start := some s.time }) else p
  updDie s d (fun x => { x with pageSlots := x.pageSlots.map begin1,
                                walkWait := x.walkWait.map fun w => { w with now := w.now || mine w.act } })

/-- Runs a function of a die's own state as an action: a stop is carried out, a stall answers none. -/
def dieStep (d : Nat) (f : DieSt → Act DieSt) (s : State) : Option State :=
  match f (dieOf s d) with
  | .ok x => some (setDie s d x)
  | .error .stall => none
  | .error e => some (stopWith d e s)

/-- The action of a vat slot (R62). -/
def vatStart (d : Nat) (img : Image) (a : UnitAct) (s : State) : Option State :=
  let job := jobWord s d
  let phys := physOf s d
  let run := fun (f : DieSt → Act DieSt) => (dieStep d f s).map (startBudgets d)
  match a with
  | .pass k slot i => run (passAct img job s.time (phys k) k slot i)
  | .load k slot i => run (loadAct img job (phys k) k slot i)
  | .passld k slot i lslot l => run fun x => (passAct img job s.time (phys k) k slot i x).bind (loadAct img job (phys k) k lslot l)
  | _ => some s

/-- Steps an action of a vat occupies it (R65). -/
def vatSteps (img : Image) (a : UnitAct) : Nat :=
  let p := fun i => passEntries (vatDesc (vatDescAt img i))
  let l := fun i => loadSteps (vatDesc (vatDescAt img i)).wmode
  match a with
  | .pass _ _ i => p i
  | .load _ _ i => l i
  | .passld _ _ i _ j => max (p i) (l j)
  | _ => 1

def issueVat (d : Nat) (img : Image) (a : UnitAct) (s : State) : State := issueAct d (vatSteps img a) img a (vatStart d img a) s

/-- A vat row: on a named vat of a running die, with valid descriptors, the action issues; anything else has not happened (log 1). -/
def vatRow (d k : Nat) (ok : Image → Bool) (a : UnitAct) (s : State) : State :=
  match (dieOf s d).image with
  | none => s
  | some img => if running s d && vatNamed img k && ok img then issueVat d img a s else s

def passRow (d k slot di : Nat) (s : State) : State := vatRow d k (fun img => passOk img slot di) (.pass k slot di) s

def loadRow (d k slot di : Nat) (s : State) : State := vatRow d k (fun img => loadOk img slot di) (.load k slot di) s

def passldRow (d k slot di lslot ldi : Nat) (s : State) : State :=
  vatRow d k (fun img => passldOk img slot di lslot ldi) (.passld k slot di lslot ldi) s

/-! ## Completion -/

/-- The oldest pass of a vat that waits for nothing. -/
def oldestPass (x : DieSt) (vat : Nat) : Option PassFlight :=
  match x.passes.find? (·.vat == vat) with
  | some f => if f.entry.isNone then some f else none
  | none => none

def passFed (d vat : Nat) (s : State) : State :=
  if working s d then
    updDie s d fun x =>
      match x.passes.find? (fun f => f.vat == vat && !f.fed) with
      | some f => if f.entry.isNone && !behindLoad x f then feedPass f x else x
      | none => x
  else s

/-- A load writes row 255, after every earlier pass on its slots has fed its last vector (R50, R51); a slot that a later load still writes
stays LOADING. -/
def loadComplete (d vat : Nat) (s : State) : State :=
  if working s d then
    updDie s d fun x =>
      match x.loads.find? (·.vat == vat) with
      | none => x
      | some f =>
        if behindPass x f then x
        else
          let rest := x.loads.filter (·.id != f.id)
          let done := (slotSpan f.wmode f.slot).filter fun k => !rest.any fun l => l.phys = f.phys && (slotSpan l.wmode l.slot).contains k
          let x := done.foldl (fun x k => setSlot f.phys k { rawSlot x f.phys k with loading := false } x) x
          countRows f.phys f.wmode { x with loads := rest }
  else s

/-! ## Mismatch and retirement -/

/-- Ticks within which a second mismatch retires a vat (R58). -/
def mismatchWindow : Nat := 1000000000

/-- The Dairyman's retirement record of a vat, or a die's failed record (R31). -/
def recordRetired (d phys : Nat) (s : State) : State :=
  storeRecord areaState 8 { s with nv := { s.nv with
    retiredVats := SMap.upd 0 s.nv.retiredVats d (· ||| BitVec.ofNat 17 (2 ^ phys)) } }

def recordFailedDie (d : Nat) (s : State) : State :=
  storeRecord areaState 8 { s with nv := { s.nv with failedDies := s.nv.failedDies ||| BitVec.ofNat 8 (2 ^ d) } }

/-- Retires a physical vat (R58 to R60): the spare is claimed for its logical vat, or the die fails. -/
def retireVat (d phys : Nat) (first : BitVec 64) (s : State) : State :=
  let u := unitMapOf s d
  let s := recordRetired d phys (post 0x0502 d [phys, first.toNat] (updDie s d (updPvat phys fun v => { v with retired := true })))
  if u.spareFree && (dieOf s d).spareClaim.isNone then updDie s d (fun x => { x with spareClaim := some phys })
  else
    let gone := (List.range 17).filter fun k => (pvatOf (dieOf s d) k).retired
    let s := post 0x0504 d (phys :: gone) (updDie (recordFailedDie d s) d (fun x => { x with failed := true }))
    domainFault 0x0414 d d d s

/-- The passes whose outputs may leave the drains now: those in flight, or in the step in which a kill stopped them, those it stopped
(R67: in that step both take effect). -/
def checkedPasses (s : State) (d : Nat) : List PassFlight :=
  let x := dieOf s d
  if working s d then x.passes
  else match x.lastKill with
    | some k => if k.1 = s.time then k.2 else []
    | none => []

/-- A check mismatch (R57, R58): posted and recorded, then the command is killed as a fault. -/
def mismatch (d phys block vec : Nat) (s : State) : State :=
  let x := dieOf s d
  match (checkedPasses s d).find? (fun f => f.phys == phys && f.entry.isNone) with
  | none => s
  | some f =>
    if vec < (passDesc f).count && block < 8 then
      let v := pvatOf x phys
      let second := v.last.any fun t => (s.time - t).toNat ≤ mismatchWindow
      let s := post 0x0501 d [phys, block, vec, f.vat] s
      let s := updDie s d (updPvat phys fun v =>
        { v with mismatches := if v.mismatches = 0xFF then v.mismatches else v.mismatches + 1,
                 last := if second then v.last else some s.time })
      let s := killOn d (.fault 0x0501) s
      if second then retireVat d phys (v.last.getD 0) s else s
    else s

/-- The outputs of a vat's oldest pass, and of earlier passes with its destination token, leave the drains (R65, R98): their destinations
are written, unless one fails its check, which kills the command (R55, R57). -/
def passComplete (d vat : Nat) (s : State) : State :=
  let x := dieOf s d
  match x.image, oldestPass x vat with
  | some img, some f =>
    let group := x.passes.filter fun g => g.id ≤ f.id && (passDesc g).dstToken = (passDesc f).dstToken && !behindLoad x g
    match group.findSome? (fun g => (failedCheck g).map fun e => (g.phys, e)) with
    | some (phys, vec, block) => mismatch d phys block vec s
    | none => if working s d then onDie d (completeUpTo img (jobWord s d) f) s else s
  | _, _ => s

/-! ## The rows -/

/-- VAT_HOLD (R62, R92). -/
def execVatHold (_d : Die) (_vat : BitVec 4) (s : State) : Host.Outcome State Fault Refusal := command (fun s => s) s
/-- PASS (R41, R49, R51, R52, R64). -/
def execPass (d : Die) (vat : BitVec 4) (slot : BitVec 2) (desc : BitVec 12) (s : State) : Host.Outcome State Fault Refusal :=
  command (passRow d vat.toNat slot.toNat desc.toNat) s
/-- PASS_COMPLETE (R55, R65). -/
def execPassComplete (d : Die) (vat : BitVec 4) (s : State) : Host.Outcome State Fault Refusal :=
  command (fun s => tryDrainOn d (passComplete d vat.toNat s)) s
/-- LOAD (R50, R51). -/
def execLoad (d : Die) (vat : BitVec 4) (lslot : BitVec 2) (ldesc : BitVec 12) (s : State) : Host.Outcome State Fault Refusal :=
  command (loadRow d vat.toNat lslot.toNat ldesc.toNat) s
/-- PASSLD (R62, R65). -/
def execPassld (d : Die) (vat : BitVec 4) (slot : BitVec 2) (desc : BitVec 12) (lslot : BitVec 2) (ldesc : BitVec 12) (s : State) :
    Host.Outcome State Fault Refusal :=
  command (passldRow d vat.toNat slot.toNat desc.toNat lslot.toNat ldesc.toNat) s
/-- LOAD_COMPLETE (R50, R51). -/
def execLoadComplete (d : Die) (vat : BitVec 4) (s : State) : Host.Outcome State Fault Refusal :=
  command (fun s => tryDrainOn d (loadComplete d vat.toNat s)) s
/-- VAT_CHECK_MISMATCH (R57 to R60). -/
def execVatCheckMismatch (d : Die) (phys block vec : Nat) (s : State) : Host.Outcome State Fault Refusal :=
  command (mismatch d phys block vec) s
/-- PASS_LAST_ROW_FED (R51). -/
def execPassLastRowFed (d : Die) (vat : BitVec 4) (s : State) : Host.Outcome State Fault Refusal :=
  command (passFed d vat.toNat) s

end Sys2Proof.Machine
end

