-- ==== Sys2Proof/Machine/Churn.lean ====
section
/-! DEFINITION. The Churn (R126 to R146): its register operations and its pan accesses, slot validity, occupancies, and one
command per row. -/

namespace Sys2Proof.Machine

/-! ## Operations on registers -/

/-- What a register operation reads beside its slot: the unit, the scalar registers and the job ID. -/
structure ChurnIn where
  c : ChurnUnit
  sv : SMap W64
  job : W64

/-- What a register operation gives: the unit, the flags raised and the active elements. -/
structure ChurnOut where
  c : ChurnUnit
  flags : Flg := 0
  count : Nat := 0

/-- Which of the first n elements are active (R133). -/
def actives (c : ChurnUnit) (men : Bool) (msk n : Nat) : List Bool :=
  (List.range n).map fun i => !men || (maskOf c msk).getLsbD i

def countTrue (l : List Bool) : Nat := (l.filter id).length

/-- The first n element codes of a register operand, at stride one or zero (R132). -/
def regOperand (c : ChurnUnit) (ty r : Nat) (zero : Bool) (n : Nat) : List Nat :=
  let l := (elems (laneBytes ty) n (vecBytes c r)).map (elemCode ty)
  if zero then List.replicate n (l.headD 0) else l

def opA (k : ChurnIn) (a : ChurnReg) (ty n : Nat) : List Nat := regOperand k.c ty a.va.toNat a.za n
def opC (k : ChurnIn) (a : ChurnReg) (ty n : Nat) : List Nat := regOperand k.c ty a.vc.toNat a.zc n

/-- Operand B: a register, or a broadcast scalar register under SVB (R129, R132). -/
def opB (k : ChurnIn) (a : ChurnReg) (ty n : Nat) : List Nat :=
  if a.svb then
    List.replicate n (elemCode ty ((SMap.get 0 k.sv (a.vb.toNat % 16)).toNat % 2 ^ (8 * laneBytes ty)))
  else regOperand k.c ty a.vb.toNat a.zb n

/-- Writes the leading elements of a register; an element given none keeps its contents (R133). -/
def putElems (ty r : Nat) (vals : List (Option Nat)) (c : ChurnUnit) : ChurnUnit :=
  let b := vecBytes c r
  let w := laneBytes ty
  let old := elems w vals.length b
  let new := List.zipWith (fun o v => match v with | some x => laneCode ty x | none => o) old vals
  setVec r (elemBytes w new ++ b.drop (w * vals.length)) c

/-- A register operation on each active element of VD's type (R133): results and the OR of their flags. -/
def eachElem (k : ChurnIn) (a : ChurnReg) (ty n : Nat) (res : List Rounded) : ChurnOut :=
  let act := actives k.c a.men a.msk.toNat n
  let z := List.zipWith (fun m (r : Rounded) => if m then some r else none) act res
  { c := putElems ty a.vd.toNat (z.map (·.map (·.1))) k.c,
    flags := flagsOr (z.filterMap (·.map (·.2))), count := countTrue act }

/-- An element operation of one operand. -/
def unary (f : Nat → Bool → Nat → Rounded) (k : ChurnIn) (a : ChurnReg) : ChurnOut :=
  let ty := a.ty.toNat
  let n := laneCount ty
  eachElem k a ty n ((opA k a ty n).map (f ty a.sat))

/-- An element operation of two operands. -/
def binary (f : Nat → Bool → Nat → Nat → Rounded) (k : ChurnIn) (a : ChurnReg) : ChurnOut :=
  let ty := a.ty.toNat
  let n := laneCount ty
  eachElem k a ty n (List.zipWith (f ty a.sat) (opA k a ty n) (opB k a ty n))

/-! ### Arithmetic (R135, R136) -/

/-- An integer result as an element code (R136). -/
def intElem (ty : Nat) (sat : Bool) (z : Int) : Rounded :=
  let (x, f) := intResult (intWidth ty) sat z
  (intCode (intWidth ty) x, f)

/-- A floating-point result in the element type, with the flag of the operation (R135). -/
def floatElem (ty : Nat) (sat : Bool) (r : FVal × Flg) : Rounded :=
  let (c, f) := finishF ty sat r.1
  (c, f ||| r.2)

def elemAdd (ty : Nat) (sat : Bool) (x y : Nat) : Rounded :=
  if isIntType ty then intElem ty sat (elemInt ty x + elemInt ty y)
  else floatElem ty sat (addF (decodeF ty x) (decodeF ty y))

def elemSub (ty : Nat) (sat : Bool) (x y : Nat) : Rounded :=
  if isIntType ty then intElem ty sat (elemInt ty x - elemInt ty y)
  else floatElem ty sat (addF (decodeF ty x) (decodeF ty y).flip)

def elemMul (ty : Nat) (sat : Bool) (x y : Nat) : Rounded :=
  if isIntType ty then intElem ty sat (elemInt ty x * elemInt ty y)
  else floatElem ty sat (mulF (decodeF ty x) (decodeF ty y))

def elemFma (ty : Nat) (sat : Bool) (x y z : Nat) : Rounded :=
  if isIntType ty then intElem ty sat (elemInt ty x * elemInt ty y + elemInt ty z)
  else floatElem ty sat (fmaF (decodeF ty x) (decodeF ty y) (decodeF ty z))

/-- IEEE minimum or maximum: a NaN operand gives the type's NaN, −0 is below +0 (R135). -/
def elemPick (max : Bool) (ty : Nat) (x y : Nat) : Rounded :=
  if isIntType ty then
    (if (elemInt ty x < elemInt ty y) = max then y else x, 0)
  else
    let a := decodeF ty x
    let b := decodeF ty y
    if a.isNan || b.isNan then ((fmtOf ty).nanCode, flagIf (a.snan || b.snan) fInvalid)
    else (if (if max then ltTotal a b else ltTotal b a) then y else x, 0)

def elemMin (ty : Nat) (_ : Bool) (x y : Nat) : Rounded := elemPick false ty x y
def elemMax (ty : Nat) (_ : Bool) (x y : Nat) : Rounded := elemPick true ty x y

/-- ABS: only the sign bit of a float changes (R135, R136). -/
def elemAbs (ty : Nat) (sat : Bool) (x : Nat) : Rounded :=
  if isIntType ty then intElem ty sat (elemInt ty x).natAbs else (x % 2 ^ ((fmtOf ty).width - 1), 0)

/-- NEG: only the sign bit of a float changes (R135, R136). -/
def elemNeg (ty : Nat) (sat : Bool) (x : Nat) : Rounded :=
  if isIntType ty then intElem ty sat (-(elemInt ty x)) else (x ^^^ 2 ^ ((fmtOf ty).width - 1), 0)

/-! ### Logic and shifts (R134) -/

def elemAnd (_ : Nat) (_ : Bool) (x y : Nat) : Rounded := (x &&& y, 0)
def elemOr (_ : Nat) (_ : Bool) (x y : Nat) : Rounded := (x ||| y, 0)
def elemXor (_ : Nat) (_ : Bool) (x y : Nat) : Rounded := (x ^^^ y, 0)
def elemShl (ty : Nat) (_ : Bool) (x y : Nat) : Rounded :=
  ((x <<< (y % intWidth ty)) % 2 ^ intWidth ty, 0)
def elemShra (ty : Nat) (_ : Bool) (x y : Nat) : Rounded :=
  (intCode (intWidth ty) (elemInt ty x / (2 ^ (y % intWidth ty) : Int)), 0)
def elemShrl (ty : Nat) (_ : Bool) (x y : Nat) : Rounded := (x >>> (y % intWidth ty), 0)

/-! ### The operations of the table (R134) -/

def opAdd (k : ChurnIn) (a : ChurnReg) : ChurnOut := binary elemAdd k a
def opSub (k : ChurnIn) (a : ChurnReg) : ChurnOut := binary elemSub k a
def opMul (k : ChurnIn) (a : ChurnReg) : ChurnOut := binary elemMul k a
def opFma (k : ChurnIn) (a : ChurnReg) : ChurnOut :=
  let ty := a.ty.toNat
  let n := laneCount ty
  eachElem k a ty n (List.zipWith (fun x (p : Nat × Nat) => elemFma ty a.sat x p.1 p.2) (opA k a ty n)
    ((opB k a ty n).zip (opC k a ty n)))
def opMin (k : ChurnIn) (a : ChurnReg) : ChurnOut := binary elemMin k a
def opMax (k : ChurnIn) (a : ChurnReg) : ChurnOut := binary elemMax k a
def opAbs (k : ChurnIn) (a : ChurnReg) : ChurnOut := unary elemAbs k a
def opNeg (k : ChurnIn) (a : ChurnReg) : ChurnOut := unary elemNeg k a
def opAnd (k : ChurnIn) (a : ChurnReg) : ChurnOut := binary elemAnd k a
def opOr (k : ChurnIn) (a : ChurnReg) : ChurnOut := binary elemOr k a
def opXor (k : ChurnIn) (a : ChurnReg) : ChurnOut := binary elemXor k a
def opShl (k : ChurnIn) (a : ChurnReg) : ChurnOut := binary elemShl k a
def opShra (k : ChurnIn) (a : ChurnReg) : ChurnOut := binary elemShra k a
def opShrl (k : ChurnIn) (a : ChurnReg) : ChurnOut := binary elemShrl k a

/-- A predicate on ordered operands: lt and eq as they compare (R134). -/
def predHolds (pred : Nat) (lt eq : Bool) : Bool :=
  match pred with
  | 0 => eq
  | 1 => !eq
  | 2 => lt
  | 3 => lt || eq
  | 4 => !(lt || eq)
  | 5 => !lt
  | _ => false

/-- One comparison and its flag (R134, R135). -/
def elemCmp (ty pred x y : Nat) : Bool × Flg :=
  if isIntType ty then (predHolds pred (elemInt ty x < elemInt ty y) (elemInt ty x = elemInt ty y), 0)
  else
    let a := decodeF ty x
    let b := decodeF ty y
    if a.isNan || b.isNan then
      (pred = 1 || pred = 6, flagIf (a.snan || b.snan || (2 ≤ pred && pred ≤ 5)) fInvalid)
    else (predHolds pred (ltNum a b) (!ltNum a b && !ltNum b a), 0)

/-- Mask bits from a list, low bit first, over those the mask held. -/
def maskBits (old : BitVec 2048) (l : List (Option Bool)) : BitVec 2048 :=
  let new := l.zipIdx.foldl (fun (acc : Nat) (p : Option Bool × Nat) =>
    if p.1.getD (old.getLsbD p.2) then acc + 2 ^ p.2 else acc) 0
  BitVec.ofNat 2048 (new + (old.toNat >>> l.length) <<< l.length)

def opCmp (k : ChurnIn) (a : ChurnReg) : ChurnOut :=
  let ty := a.ty.toNat
  let n := laneCount ty
  let md := a.vd.toNat % 8
  let act := actives k.c a.men a.msk.toNat n
  let res := List.zipWith (elemCmp ty (a.imm.toNat % 8)) (opA k a ty n) (opB k a ty n)
  let z := List.zipWith (fun m (r : Bool × Flg) => if m then some r else none) act res
  { c := setMask md (maskBits (maskOf k.c md) (z.map (·.map (·.1)))) k.c,
    flags := flagsOr (z.filterMap (·.map (·.2))), count := countTrue act }

/-- A mask operation over all 2,048 bits (R134). -/
def maskOp (f : BitVec 2048 → BitVec 2048 → BitVec 2048) (k : ChurnIn) (a : ChurnReg) : ChurnOut :=
  { c := setMask (a.vd.toNat % 8) (f (maskOf k.c (a.va.toNat % 8)) (maskOf k.c (a.vb.toNat % 8))) k.c }

def opMand (k : ChurnIn) (a : ChurnReg) : ChurnOut := maskOp (· &&& ·) k a
def opMor (k : ChurnIn) (a : ChurnReg) : ChurnOut := maskOp (· ||| ·) k a
def opMxor (k : ChurnIn) (a : ChurnReg) : ChurnOut := maskOp (· ^^^ ·) k a
def opMnot (k : ChurnIn) (a : ChurnReg) : ChurnOut := maskOp (fun x _ => ~~~x) k a

/-- SEL: the mask chooses between A and B in every lane (R133, R134). -/
def opSel (k : ChurnIn) (a : ChurnReg) : ChurnOut :=
  let ty := a.ty.toNat
  let n := laneCount ty
  let m := actives k.c true a.msk.toNat n
  let v := List.zipWith (fun s (p : Nat × Nat) => some (if s then p.1 else p.2)) m ((opA k a ty n).zip (opB k a ty n))
  { c := putElems ty a.vd.toNat v k.c, count := n }

def opMov (k : ChurnIn) (a : ChurnReg) : ChurnOut := unary (fun _ _ x => (x, 0)) k a

/-- MCNT: the number of set mask bits among the type's elements, in lane 0 as INT32 (R134). -/
def opMcnt (k : ChurnIn) (a : ChurnReg) : ChurnOut :=
  let n := countTrue (actives k.c true a.msk.toNat (laneCount a.ty.toNat))
  { c := setVec a.vd.toNat (leBytes 4 n) k.c }

def opIota (k : ChurnIn) (a : ChurnReg) : ChurnOut :=
  eachElem k a 0xB 512 ((List.range 512).map fun i => (i, 0))

/-! ### Conversion (R137, R138) -/

def isPacked (f : Nat) : Bool := f == 5 || f == 6 || f == 7 || f == 0xA

/-- Elements of a conversion: those of the wider type; packed formats count as narrower (R137). -/
def cvtCount (src dst : Nat) : Nat :=
  if isPacked src then laneCount dst else if isPacked dst then laneCount src else min (laneCount src) (laneCount dst)

/-- A float to an integer of n bits: nearest, ties to even; clamped with saturation; NaN gives 0 with invalid (R137). -/
def floatToInt (n : Nat) (v : FVal) : Rounded :=
  match v with
  | .nan _ => (0, fInvalid)
  | .inf neg => (intCode n (if neg then -(2 ^ (n - 1) : Int) else 2 ^ (n - 1) - 1), fSaturation)
  | .fin neg m e =>
    let q := rneMag m e
    let z : Int := if neg then -(q : Int) else q
    let exact := if 0 ≤ e then true else q * 2 ^ (-e).toNat = m
    if clampInt n z ≠ z then (intCode n (clampInt n z), fSaturation) else (intCode n z, flagIf (!exact) fInexact)

/-- The value an element of a Churn type stands for. -/
def elemVal (ty code : Nat) : FVal := if isIntType ty then FVal.ofInt (elemInt ty code) else decodeF ty code

/-- One element between Churn types (R137). -/
def convertElem (src dst : Nat) (mode : RMode) (sat : Bool) (code : Nat) : Rounded :=
  if isIntType dst then
    if isIntType src then
      let z := elemInt src code
      let w := intWidth dst
      (intCode w (clampInt w z), flagIf (clampInt w z ≠ z) fSaturation)
    else floatToInt (intWidth dst) (decodeF src code)
  else
    let v := elemVal src code
    let (c, f) := convertF dst mode sat v
    (c, f ||| flagIf v.snan fInvalid)

/-- An element of a packed format with its group's scale, as an exact product (R137). -/
def unpackElem (src code scale : Nat) : FVal × Flg :=
  if src = 0xA then
    let v : FVal := if code = 1 then .fin false 1 0 else if code = 3 then .fin true 1 0 else .fin false 0 0
    let (r, f) := mulF v (decodeF 1 scale)
    (r, f ||| flagIf (code = 2) fInvalid)
  else
    match mxExp scale with
    | none => (.nan false, 0)
    | some k => ((decodeF src code).scale k, 0)

/-- The exponent of a packed element format's largest finite value (R137). -/
def packedEmax (f : Nat) : Int := if f = 5 then 4 else 2

def FVal.mag : FVal → FVal
  | .fin _ m e => .fin false m e
  | v => v

/-- The largest magnitude of finite values; zero for none. -/
def maxMag (l : List FVal) : FVal :=
  l.foldl (fun a b => if ltNum a b.mag then b.mag else a) (.fin false 0 0)

/-- A group's scale and element codes (R137): the active elements' values in, their codes out. -/
def packGroup (dst : Nat) (vals : List FVal) : Nat × List Nat × Flg :=
  let top := maxMag (vals.filter FVal.isFinite)
  if vals.any (fun v => !v.isFinite) then
    (if dst = 0xA then 0x7FC0 else 0xFF, vals.map fun _ => 0, fInvalid)
  else if dst = 0xA then
    let (s, f) := convertF 1 .nearest true top
    let sv := decodeF 1 s
    (s, vals.map (fun v => if ltNum sv (v.scale 1) then 1 else if ltNum sv (v.flip.scale 1) then 3 else 0), f)
  else
    match top with
    | .fin _ 0 _ => (0, vals.map fun _ => 0, 0)
    | .fin _ m e =>
      let x := max 0 (min 254 (lead m e - packedEmax dst + 127))
      let r := vals.map fun v => convertF dst .nearest true (v.scale (127 - x))
      (x.toNat, r.map (·.1), flagsOr (r.map (·.2)))
    | _ => (0, [], 0)

/-- Conversion to MX or KT2, group by group; a group with no active element writes nothing (R137). -/
def cvtPack (k : ChurnIn) (a : ChurnReg) (src dst : Nat) : ChurnOut :=
  let n := laneCount src
  let w := fmtWidth dst
  let act := actives k.c a.men a.msk.toNat n
  let vals := (opA k a src n).map (decodeF src)
  let groups := (List.range (n / 32)).map fun g =>
    let z := ((act.zip vals).drop (32 * g)).take 32
    let on := (z.filter (·.1)).map (·.2)
    if on.isEmpty then none
    else some (packGroup dst on)
  let old := unpackAll (vecBytes k.c a.vd.toNat) w n
  let codes := (List.range n).map fun i =>
    let g := i / 32
    let rank := countTrue ((act.take i).drop (32 * g))
    match groups.getD g none with
    | some (_, l, _) => if act.getD i false then l.getD rank 0 else old.getD i 0
    | none => old.getD i 0
  let c := setVec a.vd.toNat (putBytes (vecBytes k.c a.vd.toNat) 0 (packAll w codes)) k.c
  let sw := if dst = 0xA then 2 else 1
  let sc := groups.zipIdx.foldl (fun (b : List Byte) (p : Option (Nat × List Nat × Flg) × Nat) =>
    match p.1 with
    | some (s, _, _) => putBytes b (sw * p.2) (leBytes sw s)
    | none => b) (vecBytes c a.vc.toNat)
  { c := setVec a.vc.toNat sc c, flags := flagsOr (groups.filterMap (·.map (·.2.2))), count := countTrue act }

/-- The rounding mode of element i: stochastic rounding draws with the job ID, the element and the counter (R138). -/
def cvtMode (k : ChurnIn) (a : ChurnReg) (i : Nat) : RMode :=
  if a.rm = 1 then .stochastic (draw k.job i ((SMap.get 0 k.sv (a.vb.toNat % 16)).toNat % 2 ^ 32)) else .nearest

/-- CVT (R137). -/
def opCvt (k : ChurnIn) (a : ChurnReg) : ChurnOut :=
  let dst := a.ty.toNat
  let src := a.imm.toNat % 16
  if isPacked dst then cvtPack k a src dst
  else
    let n := cvtCount src dst
    if isPacked src then
      let codes := unpackAll (vecBytes k.c a.va.toNat) (fmtWidth src) n
      let codes := if a.za then List.replicate n (codes.headD 0) else codes
      let sb := vecBytes k.c a.vc.toNat
      eachElem k a dst n (codes.zipIdx.map fun (p : Nat × Nat) =>
        let g := p.2 / 32
        let (v, f) := unpackElem src p.1 (if src = 0xA then fieldAt sb (2 * g) 2 else fieldAt sb g 1)
        let (c, f2) := convertF dst (cvtMode k a p.2) a.sat v
        (c, f ||| f2))
    else
      eachElem k a dst n ((opA k a src n).zipIdx.map fun (p : Nat × Nat) =>
        convertElem src dst (cvtMode k a p.2) a.sat p.1)

/-! ### Special functions (R139) -/

def opExp2 (k : ChurnIn) (a : ChurnReg) : ChurnOut := unary (specialFn 0x40) k a
def opLog2 (k : ChurnIn) (a : ChurnReg) : ChurnOut := unary (specialFn 0x41) k a
def opRecip (k : ChurnIn) (a : ChurnReg) : ChurnOut := unary (specialFn 0x42) k a
def opRsqrt (k : ChurnIn) (a : ChurnReg) : ChurnOut := unary (specialFn 0x43) k a
def opTanh (k : ChurnIn) (a : ChurnReg) : ChurnOut := unary (specialFn 0x44) k a
def opSigmoid (k : ChurnIn) (a : ChurnReg) : ChurnOut := unary (specialFn 0x45) k a
def opErf (k : ChurnIn) (a : ChurnReg) : ChurnOut := unary (specialFn 0x46) k a

/-! ### COMPRESS and EXPAND (R140) -/

def opCompress (k : ChurnIn) (a : ChurnReg) : ChurnOut :=
  let ty := a.ty.toNat
  let n := laneCount ty
  let m := actives k.c true a.msk.toNat n
  let picked := ((m.zip (opA k a ty n)).filter (·.1)).map (·.2)
  let v := (picked ++ List.replicate (n - picked.length) 0).map some
  { c := setMask (a.vc.toNat % 8) (BitVec.ofNat 2048 (2 ^ picked.length - 1)) (putElems ty a.vd.toNat v k.c),
    count := picked.length }

/-- Gives the j-th set position the j-th value. -/
def scatter : List Bool → List Nat → List (Option Nat)
  | [], _ => []
  | true :: m, v :: vs => some v :: scatter m vs
  | true :: m, [] => none :: scatter m []
  | false :: m, vs => none :: scatter m vs

def opExpand (k : ChurnIn) (a : ChurnReg) : ChurnOut :=
  let ty := a.ty.toNat
  let n := laneCount ty
  let m := actives k.c true a.msk.toNat n
  { c := putElems ty a.vd.toNat (scatter m (opA k a ty n)) k.c, count := countTrue m }

/-! ### Reductions (R141) -/

/-- The type a reduction works and answers in. -/
def sumType (ty : Nat) : Nat := if ty = 3 || ty = 4 then ty else if isIntType ty then 0xB else 0

/-- An element as it enters the tree: BF16 and FP16 exactly as FP32, INT8 and INT4 as INT32. -/
def widen (ty code : Nat) : Nat :=
  if isIntType ty then intCode 32 (elemInt ty code)
  else if sumType ty = ty then code
  else match decodeF ty code with
    | .nan true => 0x7F800001
    | v => (convertF 0 .nearest false v).1

/-- One level of the tree: neighbours combined, flags joined. -/
def pairUp (f : Nat → Nat → Rounded) : List Nat → List Nat × Flg
  | x :: y :: rest =>
    let r := f x y
    let t := pairUp f rest
    (r.1 :: t.1, r.2 ||| t.2)
  | _ => ([], 0)

/-- G levels of the tree. -/
def treeLevels (f : Nat → Nat → Rounded) : Nat → List Nat → List Nat × Flg
  | 0, l => (l, 0)
  | g + 1, l =>
    let (l, a) := pairUp f l
    let (l, b) := treeLevels f g l
    (l, a ||| b)

/-- A grouped tree reduction; an inactive element enters as the identity (R141). -/
def reduceWith (f : Nat → Bool → Nat → Nat → Rounded) (identity : Nat → Nat) (k : ChurnIn) (a : ChurnReg) : ChurnOut :=
  let ty := a.ty.toNat
  let rt := sumType ty
  let n := laneCount ty
  let act := actives k.c a.men a.msk.toNat n
  let xs := List.zipWith (fun m x => if m then widen ty x else identity rt) act (opA k a ty n)
  let (sums, fl) := treeLevels (f rt a.sat) (a.imm.toNat % 16) xs
  { c := putElems rt a.vd.toNat ((sums ++ List.replicate (laneCount rt - sums.length) 0).map some) k.c,
    flags := fl, count := countTrue act }

/-- −0, or integer zero. -/
def idSum (rt : Nat) : Nat := if rt = 0xB then 0 else signBit (fmtOf rt) true

/-- The lowest value a type's maximum starts from, or the highest a minimum starts from; E4M3 uses 448. -/
def idPick (neg : Bool) (rt : Nat) : Nat :=
  if rt = 0xB then (if neg then 0x80000000 else 0x7FFFFFFF)
  else if rt = 3 then signBit (fmtOf 3) neg + 0x7E
  else infCode (fmtOf rt) neg

def opRsum (k : ChurnIn) (a : ChurnReg) : ChurnOut := reduceWith elemAdd idSum k a
def opRmax (k : ChurnIn) (a : ChurnReg) : ChurnOut := reduceWith elemMax (idPick true) k a
def opRmin (k : ChurnIn) (a : ChurnReg) : ChurnOut := reduceWith elemMin (idPick false) k a

/-! ### TOPK (R142) -/

/-- Whether x ranks above y: every NaN above +Inf and equal, zeros equal. -/
def ranksAbove (ty x y : Nat) : Bool :=
  if isIntType ty then elemInt ty y < elemInt ty x
  else
    let a := decodeF ty x
    let b := decodeF ty y
    if a.isNan then !b.isNan else if b.isNan then false else ltNum b a

/-- Inserts an element below those it does not rank above, keeping the best. -/
def insertRank (ty : Nat) (p : Nat × Nat) : List (Nat × Nat) → List (Nat × Nat)
  | [] => [p]
  | q :: rest => if ranksAbove ty p.1 q.1 then p :: q :: rest else q :: insertRank ty p rest

/-- The k best of a group, in rank order. -/
def bestOf (ty k : Nat) (l : List (Nat × Nat)) : List (Nat × Nat) :=
  l.foldl (fun acc p => (insertRank ty p acc).take k) []

def opTopk (k : ChurnIn) (a : ChurnReg) : ChurnOut :=
  let ty := a.ty.toNat
  let n := laneCount ty
  let top := a.imm.toNat % 128
  let act := actives k.c a.men a.msk.toNat n
  let on := ((act.zip ((opA k a ty n).zipIdx)).filter (·.1)).map (·.2)
  let groups := (List.range (n / 512)).map fun g => bestOf ty top (on.filter fun (p : Nat × Nat) => p.2 / 512 = g)
  let pad := fun (w x : Nat) (l : List Nat) => l ++ List.replicate (w - l.length) x
  let vals := (groups.map fun l => pad 512 0 (l.map (·.1))).flatten
  let idx := (groups.map fun l => pad 64 0xFFFFFFFF (l.map (·.2))).flatten
  let c := putElems ty a.vd.toNat (vals.map some) k.c
  { c := putElems 0xB a.vc.toNat ((pad 512 0xFFFFFFFF idx).map some) c,
    flags := flagIf (!isIntType ty && on.any fun (p : Nat × Nat) => (decodeF ty p.1).snan) fInvalid,
    count := countTrue act }

/-! ### RAND (R143) -/

def opRand (k : ChurnIn) (a : ChurnReg) : ChurnOut :=
  let ty := a.ty.toNat
  let base := SMap.get 0 k.sv (a.va.toNat % 16)
  let key := if a.imm.toNat % 2 = 1 then base ^^^ k.job else base
  let c := (SMap.get 0 k.sv (a.vb.toNat % 16)).toNat % 2 ^ 32
  eachElem k a ty 512 ((List.range 512).map fun i =>
    let r := draw key i c
    (if ty = 0xB then r else (roundFp 0 .nearest false false (r >>> 8) (-24)).1, 0))

/-- The register operation of an opcode (R134). -/
def churnOp (op : Nat) : Option (ChurnIn → ChurnReg → ChurnOut) :=
  match op with
  | 0x10 => some opAdd | 0x11 => some opSub | 0x12 => some opMul | 0x13 => some opFma | 0x14 => some opMin
  | 0x15 => some opMax | 0x16 => some opAbs | 0x17 => some opNeg | 0x20 => some opAnd | 0x21 => some opOr
  | 0x22 => some opXor | 0x23 => some opShl | 0x24 => some opShra | 0x25 => some opShrl | 0x28 => some opCmp
  | 0x2C => some opMand | 0x2D => some opMor | 0x2E => some opMxor | 0x2F => some opMnot | 0x30 => some opSel
  | 0x31 => some opMov | 0x32 => some opMcnt | 0x33 => some opIota | 0x38 => some opCvt | 0x40 => some opExp2
  | 0x41 => some opLog2 | 0x42 => some opRecip | 0x43 => some opRsqrt | 0x44 => some opTanh | 0x45 => some opSigmoid
  | 0x46 => some opErf | 0x50 => some opCompress | 0x51 => some opExpand | 0x58 => some opRsum | 0x59 => some opRmax
  | 0x5A => some opRmin | 0x60 => some opTopk | 0x68 => some opRand
  | _ => none

/-! ## Slot validity (R129 to R142) -/

/-- The fields of a register slot. -/
inductive CField where
  | ty | vd | va | vb | vc | msk | men | za | zb | zc | sat | rm | svb | imm
  deriving DecidableEq, Repr

/-- Bits a slot holds in a field. -/
def fieldOf (a : ChurnReg) : CField → Nat
  | .ty => a.ty.toNat | .vd => a.vd.toNat | .va => a.va.toNat | .vb => a.vb.toNat | .vc => a.vc.toNat
  | .msk => a.msk.toNat | .men => a.men.toNat | .za => a.za.toNat | .zb => a.zb.toNat | .zc => a.zc.toNat
  | .sat => a.sat.toNat | .rm => a.rm.toNat | .svb => a.svb.toNat | .imm => a.imm.toNat

def allFields : List CField := [.ty, .vd, .va, .vb, .vc, .msk, .men, .za, .zb, .zc, .sat, .rm, .svb, .imm]

/-- What an operation reads: types, and how many low bits of each field (R134). -/
structure OpRule where
  types : List Nat
  used : List (CField × Nat)
  deriving DecidableEq, Repr

def fTypes : List Nat := [0, 1, 2, 3, 4]
def iTypes : List Nat := [8, 9, 0xB]
def sTypes : List Nat := [0, 1, 2]

def unFields : List (CField × Nat) := [(.ty, 4), (.vd, 5), (.va, 5), (.msk, 3), (.men, 1), (.za, 1)]
def binFields : List (CField × Nat) := unFields ++ [(.vb, 5), (.zb, 1), (.svb, 1)]

/-- The table of R134. -/
def opRule (op : Nat) : Option OpRule :=
  if op = 0x10 || op = 0x11 || op = 0x12 then some ⟨fTypes ++ iTypes, binFields ++ [(.sat, 1)]⟩
  else if op = 0x13 then some ⟨fTypes ++ iTypes, binFields ++ [(.vc, 5), (.zc, 1), (.sat, 1)]⟩
  else if op = 0x14 || op = 0x15 then some ⟨fTypes ++ iTypes, binFields⟩
  else if op = 0x16 || op = 0x17 then some ⟨fTypes ++ iTypes, unFields ++ [(.sat, 1)]⟩
  else if 0x20 ≤ op && op ≤ 0x25 then some ⟨iTypes, binFields⟩
  else if op = 0x28 then
    some ⟨fTypes ++ iTypes, [(.ty, 4), (.vd, 3), (.va, 5), (.msk, 3), (.men, 1), (.za, 1), (.vb, 5), (.zb, 1), (.svb, 1), (.imm, 3)]⟩
  else if 0x2C ≤ op && op ≤ 0x2E then some ⟨[0], [(.vd, 3), (.va, 3), (.vb, 3)]⟩
  else if op = 0x2F then some ⟨[0], [(.vd, 3), (.va, 3)]⟩
  else if op = 0x30 then
    some ⟨fTypes ++ iTypes, [(.ty, 4), (.vd, 5), (.va, 5), (.vb, 5), (.msk, 3), (.za, 1), (.zb, 1), (.svb, 1)]⟩
  else if op = 0x31 then some ⟨fTypes ++ iTypes, unFields⟩
  else if op = 0x32 then some ⟨fTypes ++ iTypes, [(.ty, 4), (.vd, 5), (.msk, 3)]⟩
  else if op = 0x33 then some ⟨[0xB], [(.ty, 4), (.vd, 5), (.msk, 3), (.men, 1)]⟩
  else if op = 0x38 then
    some ⟨[0, 1, 2, 3, 4, 5, 6, 7, 8, 9, 0xA, 0xB],
      [(.ty, 4), (.vd, 5), (.va, 5), (.vc, 5), (.vb, 5), (.msk, 3), (.men, 1), (.za, 1), (.sat, 1), (.rm, 2), (.svb, 1), (.imm, 4)]⟩
  else if 0x40 ≤ op && op ≤ 0x46 then some ⟨sTypes, unFields ++ [(.sat, 1)]⟩
  else if op = 0x50 then some ⟨fTypes ++ iTypes, [(.ty, 4), (.vd, 5), (.va, 5), (.vc, 3), (.msk, 3), (.za, 1)]⟩
  else if op = 0x51 then some ⟨fTypes ++ iTypes, [(.ty, 4), (.vd, 5), (.va, 5), (.msk, 3), (.za, 1)]⟩
  else if op = 0x58 then some ⟨fTypes ++ iTypes, unFields ++ [(.sat, 1), (.imm, 4)]⟩
  else if op = 0x59 || op = 0x5A then some ⟨fTypes ++ iTypes, unFields ++ [(.imm, 4)]⟩
  else if op = 0x60 then some ⟨[0, 1, 2, 0xB], unFields ++ [(.vc, 5), (.imm, 7)]⟩
  else if op = 0x68 then some ⟨[0, 0xB], [(.ty, 4), (.vd, 5), (.va, 4), (.vb, 4), (.msk, 3), (.men, 1), (.imm, 1)]⟩
  else none

/-- The further rules of CVT: permitted pairs and its conditional fields (R137, R138; log 13). -/
def cvtValid (a : ChurnReg) : Bool :=
  let dst := a.ty.toNat
  let src := a.imm.toNat
  let packed := isPacked src || isPacked dst
  src ≤ 0xB && (!packed || ((isPacked src != isPacked dst) && (sTypes.contains src || sTypes.contains dst)))
    && (packed || a.vc = 0) && (!(isPacked dst || isIntType dst) || !a.sat)
    && (if a.rm = 1 then a.svb && a.vb.toNat ≤ 15 && [1, 2, 3, 4].contains dst
        else a.rm = 0 && !a.svb && a.vb = 0)

/-- Whether a register slot is valid for an opcode (R134, reason 0x03 of R121). -/
def regSlotValid (op : Nat) (a : ChurnReg) : Bool :=
  match opRule op with
  | none => false
  | some r =>
    let g := a.imm.toNat % 16
    r.types.contains a.ty.toNat
      && allFields.all (fun f => fieldOf a f < 2 ^ ((r.used.lookup f).getD 0))
      && (!a.svb || a.vb.toNat ≤ 15)
      && (if op = 0x28 then a.imm.toNat ≤ 5 || (a.imm.toNat = 6 && !isIntType a.ty.toNat)
          else if op = 0x38 then cvtValid a
          else if op = 0x58 || op = 0x59 || op = 0x5A then
            1 ≤ g && 2 ^ g ≤ laneCount a.ty.toNat && laneCount a.ty.toNat / 2 ^ g ≤ laneCount (sumType a.ty.toNat)
          else if op = 0x60 then 1 ≤ a.imm.toNat && a.imm.toNat ≤ 64
          else true)

/-- Whether a memory slot is valid by itself (R128, R130). -/
def memSlotValid (a : ChurnMem) : Bool := (fTypes ++ iTypes).contains a.ty.toNat && a.desc ≠ 0

/-- Whether a Churn descriptor is valid for an access of a type (R131, reason 0x04). -/
def churnDescValid (ty : Nat) (c : ChurnDesc) : Bool :=
  !c.reserved && (ty = 9 || c.byte % laneBytes ty = 0) && c.count ≤ laneCount ty

/-- Occupancy of a register operation in steps (R134). -/
def regOcc (op : Nat) (a : ChurnReg) : Nat :=
  if op = 0x38 then (if isPacked a.ty.toNat || isPacked (a.imm.toNat % 16) then 2 else 1)
  else if 0x40 ≤ op && op ≤ 0x46 then 4
  else if op = 0x50 || op = 0x51 || op = 0x58 || op = 0x59 || op = 0x5A then 2
  else if op = 0x60 then 8
  else 1

/-- Occupancy of LDV and STV (R134). -/
def memOcc (c : ChurnDesc) : Nat := if c.estride = 0 || c.estride = 1 then 1 else 4

/-! ## Actions -/

/-- A register operation on unit u (R134, R145, R146). -/
def churnRegAct (op : Nat) (f : ChurnIn → ChurnReg → ChurnOut) (job : W64) (u : Nat) (a : ChurnReg) (x : DieSt) : DieSt :=
  let r := f { c := churnOf x u, sv := x.sv, job } a
  let special := 0x40 ≤ op && op ≤ 0x46
  let c := { r.c with lastOp := BitVec.ofNat 8 op, opsIssued := bump r.c.opsIssued, elements := bump r.c.elements r.count,
                      specialOps := bump r.c.specialOps (if special then 1 else 0) }
  occupy (churnUnitKey u) (regOcc op a) (raise r.flags (updChurn u (fun _ => c) x))

/-- The place of element i of an access: its byte in the pan and, for INT4, the nibble's shift (R131). -/
def elemPlace (ty : Nat) (c : ChurnDesc) (i : Nat) : Nat × Nat :=
  if ty = 9 then
    let nib := (2 * (64 * c.offset + c.byte : Nat) + i * c.estride : Int).toNat
    (nib / 2, 4 * (nib % 2))
  else ((64 * c.offset + c.byte + i * c.estride * laneBytes ty : Int).toNat, 0)

/-- The active element indices of an access (R130). -/
def memActives (c : ChurnUnit) (a : ChurnMem) (n : Nat) : List Nat :=
  (List.range n).filter fun i => !a.men || (maskOf c a.msk.toNat).getLsbD i

/-- Places of the pan that some elements of an access lie at: two INT4 elements share a byte, and with ESTRIDE 0 all share one place
(R131, R146). -/
def placeCount (ty : Nat) (c : ChurnDesc) (act : List Nat) : Nat := ((act.map fun i => (elemPlace ty c i).1).eraseDups).length

/-- LDV (R131): elements of the pan into VR; elements above COUNT become zero, but for those that MEN and MSK mask off, which keep their
contents (R133; log 123). -/
def ldvAct (img : Image) (job : W64) (u : Nat) (a : ChurnMem) (x : DieSt) : Act DieSt := do
  let c := churnDesc img a.desc.toNat
  let ty := a.ty.toNat
  let w := laneBytes ty
  tokenLocal x a.token.toNat
  let x ← settle img job [a.token.toNat] x
  let unit := churnOf x u
  let act := memActives unit a c.count
  let p := panEnt img c.pan
  let lineNos := (act.map fun i => (elemPlace ty c i).1 / 64).eraseDups
  let lines ← lineNos.mapM fun l => do
    let b ← readPan x p a.token.toNat (64 * l) 64
    .ok (l, b)
  let elem := fun i =>
    let (b, sh) := elemPlace ty c i
    let v := fieldAt ((lines.lookup (b / 64)).getD []) (b % 64) w
    if ty = 9 then (v >>> sh) % 16 else v
  let vals := (List.range (laneCount ty)).map fun i =>
    if i < c.count then (if act.contains i then some (elem i) else none)
    else if a.men && !(maskOf unit a.msk.toNat).getLsbD i then none else some 0
  let n := act.length
  let unit := putElems ty a.vr.toNat vals unit
  let unit := { unit with lastOp := 1, opsIssued := bump unit.opsIssued, elements := bump unit.elements n,
                          panRead := bump unit.panRead (w * placeCount ty c act) }
  .ok (occupy (churnUnitKey u) (memOcc c) (updChurn u (fun _ => unit) x))

/-- STV (R131): active elements of VR into the pan, in ascending order. -/
def stvAct (img : Image) (job : W64) (u : Nat) (a : ChurnMem) (x : DieSt) : Act DieSt := do
  let c := churnDesc img a.desc.toNat
  let ty := a.ty.toNat
  let w := laneBytes ty
  tokenLocal x a.token.toNat
  let x ← settle img job [a.token.toNat] x
  let unit := churnOf x u
  let on := memActives unit a c.count
  let act := if c.estride = 0 then on.drop (on.length - 1) else on
  let p := panEnt img c.pan
  let regs := vecBytes unit a.vr.toNat
  let lineNos := (act.map fun i => (elemPlace ty c i).1 / 64).eraseDups
  let x ← lineNos.foldlM (fun (x : DieSt) l => do
    let old := if p.persistent || x.written.contains (p.base + l) then panLineNow x p l else zeros 64
    let (data, mask) := (act.filter fun i => (elemPlace ty c i).1 / 64 = l).foldl (fun (acc : List Byte × Nat) i =>
      let (b, sh) := elemPlace ty c i
      let lane := fieldAt regs (w * i) w
      let o := b % 64
      let v := if ty = 9 then
          let cur := fieldAt acc.1 o 1
          if sh = 0 then cur / 16 * 16 + lane % 16 else cur % 16 + 16 * (lane % 16)
        else lane
      (putBytes acc.1 o (leBytes w v), acc.2 ||| (lineMask o w).toNat)) (old, 0)
    writePanLine p l (BitVec.ofNat 64 mask) data x) x
  let bytes := w * placeCount ty c act
  .ok (occupy (churnUnitKey u) (memOcc c) (updChurn u (fun c =>
    { c with lastOp := 2, opsIssued := bump c.opsIssued, elements := bump c.elements on.length,
             panWritten := bump c.panWritten bytes }) x))

/-- LDV or STV of a unit as an action; one that faults has issued all the same, and counts (R146). -/
def memStart (d : Nat) (img : Image) (a : UnitAct) (s : State) : Option State :=
  let run := fun (op u : Nat) (f : DieSt → Act DieSt) =>
    match f (dieOf s d) with
    | .ok x => some (setDie s d x)
    | .error .stall => none
    | .error e => some (stopWith d e (updDie s d (updChurn u fun c =>
        { c with lastOp := BitVec.ofNat 8 op, opsIssued := bump c.opsIssued })))
  match a with
  | .ldv u a => run 1 u (ldvAct img (jobWord s d) u a)
  | .stv u a => run 2 u (stvAct img (jobWord s d) u a)
  | _ => some s

/-- Steps LDV and STV occupy their unit. -/
def memSteps (img : Image) (a : UnitAct) : Nat :=
  match a with
  | .ldv _ a => memOcc (churnDesc img a.desc.toNat)
  | .stv _ a => memOcc (churnDesc img a.desc.toNat)
  | _ => 1

def issueMem (d : Nat) (img : Image) (a : UnitAct) (s : State) : State := issueAct d (memSteps img a) img a (memStart d img a) s

/-- Whether unit u of a die is one the job names (R87, R121). -/
def unitNamed (img : Image) (u : Nat) : Bool := bits (imageSect img).useUnits u 1 = 1

/-- A register row: a valid slot on a named unit of a running die acts; anything else has not happened (log 1). -/
def churnRegRow (op : Nat) (f : ChurnIn → ChurnReg → ChurnOut) (d : Die) (u : BitVec 2) (a : ChurnReg) (s : State) : State :=
  match (dieOf s d).image with
  | none => s
  | some img =>
    if running s d && unitNamed img u.toNat && regSlotValid op a then
      issueAct d (regOcc op a) img (.reg op u.toNat a) (dieStep d fun x => .ok (churnRegAct op f (jobWord s d) u.toNat a x)) s
    else s

/-- The static rules of a pan access of a Churn slot (R96, R131). -/
def churnMemValid (img : Image) (a : ChurnMem) : Bool :=
  let c := churnDesc img a.desc.toNat
  let (lo, hi) := churnSpan a.ty.toNat c
  memSlotValid a && churnDescValid a.ty.toNat c && inRegion img c.pan a.token.toNat lo hi

/-- A memory row. -/
def churnMemRow (act : UnitAct) (d : Die) (u : BitVec 2) (a : ChurnMem) (s : State) : State :=
  match (dieOf s d).image with
  | none => s
  | some img => if running s d && unitNamed img u.toNat && churnMemValid img a then issueMem d img act s else s

/-! ## The rows -/

/-- CHURN_HOLD (R109, R92). -/
def execChurnHold (_d : Die) (_u : BitVec 2) (s : State) : Host.Outcome State Fault Refusal := command (fun s => s) s
/-- LDV (R131). -/
def execLdv (d : Die) (u : BitVec 2) (a : ChurnMem) (s : State) : Host.Outcome State Fault Refusal :=
  command (churnMemRow (.ldv u.toNat a) d u a) s
/-- STV (R131). -/
def execStv (d : Die) (u : BitVec 2) (a : ChurnMem) (s : State) : Host.Outcome State Fault Refusal :=
  command (churnMemRow (.stv u.toNat a) d u a) s
/-- ADD (R135, R136). -/
def execAdd (d : Die) (u : BitVec 2) (a : ChurnReg) (s : State) : Host.Outcome State Fault Refusal :=
  command (churnRegRow 0x10 opAdd d u a) s
/-- SUB (R135, R136). -/
def execSub (d : Die) (u : BitVec 2) (a : ChurnReg) (s : State) : Host.Outcome State Fault Refusal :=
  command (churnRegRow 0x11 opSub d u a) s
/-- MUL (R135, R136). -/
def execMul (d : Die) (u : BitVec 2) (a : ChurnReg) (s : State) : Host.Outcome State Fault Refusal :=
  command (churnRegRow 0x12 opMul d u a) s
/-- FMA (R135, R136). -/
def execFma (d : Die) (u : BitVec 2) (a : ChurnReg) (s : State) : Host.Outcome State Fault Refusal :=
  command (churnRegRow 0x13 opFma d u a) s
/-- MIN (R135). -/
def execMinOp (d : Die) (u : BitVec 2) (a : ChurnReg) (s : State) : Host.Outcome State Fault Refusal :=
  command (churnRegRow 0x14 opMin d u a) s
/-- MAX (R135). -/
def execMaxOp (d : Die) (u : BitVec 2) (a : ChurnReg) (s : State) : Host.Outcome State Fault Refusal :=
  command (churnRegRow 0x15 opMax d u a) s
/-- ABS (R135, R136). -/
def execAbs (d : Die) (u : BitVec 2) (a : ChurnReg) (s : State) : Host.Outcome State Fault Refusal :=
  command (churnRegRow 0x16 opAbs d u a) s
/-- NEG (R135, R136). -/
def execNeg (d : Die) (u : BitVec 2) (a : ChurnReg) (s : State) : Host.Outcome State Fault Refusal :=
  command (churnRegRow 0x17 opNeg d u a) s
/-- AND (R134). -/
def execAndOp (d : Die) (u : BitVec 2) (a : ChurnReg) (s : State) : Host.Outcome State Fault Refusal :=
  command (churnRegRow 0x20 opAnd d u a) s
/-- OR (R134). -/
def execOrOp (d : Die) (u : BitVec 2) (a : ChurnReg) (s : State) : Host.Outcome State Fault Refusal :=
  command (churnRegRow 0x21 opOr d u a) s
/-- XOR (R134). -/
def execXorOp (d : Die) (u : BitVec 2) (a : ChurnReg) (s : State) : Host.Outcome State Fault Refusal :=
  command (churnRegRow 0x22 opXor d u a) s
/-- SHL (R134). -/
def execShl (d : Die) (u : BitVec 2) (a : ChurnReg) (s : State) : Host.Outcome State Fault Refusal :=
  command (churnRegRow 0x23 opShl d u a) s
/-- SHRA (R134). -/
def execShra (d : Die) (u : BitVec 2) (a : ChurnReg) (s : State) : Host.Outcome State Fault Refusal :=
  command (churnRegRow 0x24 opShra d u a) s
/-- SHRL (R134). -/
def execShrl (d : Die) (u : BitVec 2) (a : ChurnReg) (s : State) : Host.Outcome State Fault Refusal :=
  command (churnRegRow 0x25 opShrl d u a) s
/-- CMP (R134, R135). -/
def execCmp (d : Die) (u : BitVec 2) (a : ChurnReg) (s : State) : Host.Outcome State Fault Refusal :=
  command (churnRegRow 0x28 opCmp d u a) s
/-- MAND (R134). -/
def execMand (d : Die) (u : BitVec 2) (a : ChurnReg) (s : State) : Host.Outcome State Fault Refusal :=
  command (churnRegRow 0x2C opMand d u a) s
/-- MOR (R134). -/
def execMor (d : Die) (u : BitVec 2) (a : ChurnReg) (s : State) : Host.Outcome State Fault Refusal :=
  command (churnRegRow 0x2D opMor d u a) s
/-- MXOR (R134). -/
def execMxor (d : Die) (u : BitVec 2) (a : ChurnReg) (s : State) : Host.Outcome State Fault Refusal :=
  command (churnRegRow 0x2E opMxor d u a) s
/-- MNOT (R134). -/
def execMnot (d : Die) (u : BitVec 2) (a : ChurnReg) (s : State) : Host.Outcome State Fault Refusal :=
  command (churnRegRow 0x2F opMnot d u a) s
/-- SEL (R133, R134). -/
def execSel (d : Die) (u : BitVec 2) (a : ChurnReg) (s : State) : Host.Outcome State Fault Refusal :=
  command (churnRegRow 0x30 opSel d u a) s
/-- MOV (R134). -/
def execMov (d : Die) (u : BitVec 2) (a : ChurnReg) (s : State) : Host.Outcome State Fault Refusal :=
  command (churnRegRow 0x31 opMov d u a) s
/-- MCNT (R134). -/
def execMcnt (d : Die) (u : BitVec 2) (a : ChurnReg) (s : State) : Host.Outcome State Fault Refusal :=
  command (churnRegRow 0x32 opMcnt d u a) s
/-- IOTA (R134). -/
def execIota (d : Die) (u : BitVec 2) (a : ChurnReg) (s : State) : Host.Outcome State Fault Refusal :=
  command (churnRegRow 0x33 opIota d u a) s
/-- CVT (R137, R138). -/
def execCvt (d : Die) (u : BitVec 2) (a : ChurnReg) (s : State) : Host.Outcome State Fault Refusal :=
  command (churnRegRow 0x38 opCvt d u a) s
/-- EXP2 (R139). -/
def execExp2 (d : Die) (u : BitVec 2) (a : ChurnReg) (s : State) : Host.Outcome State Fault Refusal :=
  command (churnRegRow 0x40 opExp2 d u a) s
/-- LOG2 (R139). -/
def execLog2 (d : Die) (u : BitVec 2) (a : ChurnReg) (s : State) : Host.Outcome State Fault Refusal :=
  command (churnRegRow 0x41 opLog2 d u a) s
/-- RECIP (R139). -/
def execRecip (d : Die) (u : BitVec 2) (a : ChurnReg) (s : State) : Host.Outcome State Fault Refusal :=
  command (churnRegRow 0x42 opRecip d u a) s
/-- RSQRT (R139). -/
def execRsqrt (d : Die) (u : BitVec 2) (a : ChurnReg) (s : State) : Host.Outcome State Fault Refusal :=
  command (churnRegRow 0x43 opRsqrt d u a) s
/-- TANH (R139). -/
def execTanh (d : Die) (u : BitVec 2) (a : ChurnReg) (s : State) : Host.Outcome State Fault Refusal :=
  command (churnRegRow 0x44 opTanh d u a) s
/-- SIGMOID (R139). -/
def execSigmoid (d : Die) (u : BitVec 2) (a : ChurnReg) (s : State) : Host.Outcome State Fault Refusal :=
  command (churnRegRow 0x45 opSigmoid d u a) s
/-- ERF (R139). -/
def execErf (d : Die) (u : BitVec 2) (a : ChurnReg) (s : State) : Host.Outcome State Fault Refusal :=
  command (churnRegRow 0x46 opErf d u a) s
/-- COMPRESS (R140). -/
def execCompress (d : Die) (u : BitVec 2) (a : ChurnReg) (s : State) : Host.Outcome State Fault Refusal :=
  command (churnRegRow 0x50 opCompress d u a) s
/-- EXPAND (R140). -/
def execExpand (d : Die) (u : BitVec 2) (a : ChurnReg) (s : State) : Host.Outcome State Fault Refusal :=
  command (churnRegRow 0x51 opExpand d u a) s
/-- RSUM (R141). -/
def execRsum (d : Die) (u : BitVec 2) (a : ChurnReg) (s : State) : Host.Outcome State Fault Refusal :=
  command (churnRegRow 0x58 opRsum d u a) s
/-- RMAX (R141). -/
def execRmax (d : Die) (u : BitVec 2) (a : ChurnReg) (s : State) : Host.Outcome State Fault Refusal :=
  command (churnRegRow 0x59 opRmax d u a) s
/-- RMIN (R141). -/
def execRmin (d : Die) (u : BitVec 2) (a : ChurnReg) (s : State) : Host.Outcome State Fault Refusal :=
  command (churnRegRow 0x5A opRmin d u a) s
/-- TOPK (R142). -/
def execTopk (d : Die) (u : BitVec 2) (a : ChurnReg) (s : State) : Host.Outcome State Fault Refusal :=
  command (churnRegRow 0x60 opTopk d u a) s
/-- RAND (R143). -/
def execRand (d : Die) (u : BitVec 2) (a : ChurnReg) (s : State) : Host.Outcome State Fault Refusal :=
  command (churnRegRow 0x68 opRand d u a) s

end Sys2Proof.Machine
end

