-- ==== Sys2Proof/Machine/Cluster.lean ====
section
/-! DEFINITION. The processor cluster (R272 to R291): timer compares, predictor partitions, CBQRI allocation and the firmware
calls. -/

namespace Sys2Proof.Machine

/-! ## Timers (R277) -/

/-- A hart's compare value. -/
def compareOf (h : Hart) (k : TimerKind) : BitVec 64 :=
  match k with | .machine => h.mtimecmp | .supervisor => h.stimecmp | .virtual => h.vstimecmp

def setTimer (k : TimerKind) (h : Hart) : Hart :=
  match k with | .machine => { h with mtip := true } | .supervisor => { h with stip := true } | .virtual => { h with vstip := true }

/-- Whether a power pause holds a hart: one of its die's logic rail (R276, R362). -/
def hartPaused (s : State) (h : Nat) : Bool := paused s (8 + h / 72)

/-- An interrupt that a suspended hart takes wakes it (log 67). -/
def wakeHart (x : Hart) : Hart := { x with state := if x.state == .suspended then .started else x.state }

/-- A timer interrupt becomes pending once time has reached its compare, and is taken unless a pause holds the hart, which takes it when the
pause ends (R277, R292). -/
def timerCompare (h : Nat) (k : TimerKind) (s : State) : State :=
  let x := hartOf s h
  guarded (hartPresent s h && (compareOf x k).toNat ≤ s.time.toNat)
    (updHart · h (fun x => if hartPaused s h then setTimer k x else wakeHart (setTimer k x))) s

/-! ## Predictors (R279) -/

/-- Whether a level is a guest's. -/
def guestLevel (p : Priv) : Bool := p == .vs || p == .vu

/-- The partition that a hart's instructions at a level train: the level, and at a guest's level the VMID. -/
def partitionOf (x : Hart) (p : Priv) : Priv × BitVec 14 := (p, if guestLevel p then x.vmid else 0)

/-- A hart's instructions at a level train the partition of that level and VMID, and no other. -/
def trainAt (p : Priv) (x : Hart) : Hart :=
  { x with predictors := if x.predictors.contains (partitionOf x p) then x.predictors else partitionOf x p :: x.predictors }

/-- A hart with another VMID in hgatp: a change flushes every VS and VU partition. -/
def withVmid (v : BitVec 14) (x : Hart) : Hart :=
  { x with vmid := v, predictors := if v = x.vmid then x.predictors else x.predictors.filter fun p => !guestLevel p.1 }

/-- A write of the VMID of hgatp. -/
def writeVmid (h : Nat) (v : BitVec 14) (s : State) : State := guarded (hartPresent s h) (updHart · h (withVmid v)) s

/-! ## CBQRI (R287) -/

/-- Ways of a capacity controller; none for a bandwidth controller. -/
def ctrlWays (c : Nat) : Option Nat := if c < 2 then some 18 else if c < 12 then some 16 else none

def cbqriOf (s : State) (c r : Nat) : CbqriAlloc := SMap.get {} s.cluster.cbqri (cbqriKey c r)
def setCbqri (c r : Nat) (x : CbqriAlloc) (s : State) : State :=
  { s with cluster := { s.cluster with cbqri := SMap.set {} s.cluster.cbqri (cbqriKey c r) x } }

/-- Blocks a bandwidth controller's other RCIDs reserve. -/
def otherBlocks (s : State) (c r : Nat) : Nat :=
  ((s.cluster.cbqri.filter fun (p : Nat × CbqriAlloc) => p.1 / 4096 == c && p.1 % 4096 != r).map fun p => p.2.reserved).foldl (· + ·) 0

/-- Status codes of the CBQRI specification (log 68). -/
def cbqriOk : Nat := 1
def cbqriBadAt : Nat := 4
def cbqriBadBlocks : Nat := 5

def cbqriRequest (a : CbqriArgs) (s : State) : State :=
  let r := a.rcid.toNat
  let x := cbqriOf s a.ctrl r
  match ctrlWays a.ctrl with
  | some w =>
    if a.code && 2 ≤ a.ctrl then answer (.status cbqriBadAt) s
    else if a.blocks = 0 || 2 ^ w ≤ a.blocks.toNat then answer (.status cbqriBadBlocks) s
    else
      let ways := if a.blocks.toNat = 2 ^ w - 1 then none else some a.blocks
      answer (.status cbqriOk) (setCbqri a.ctrl r (if a.code then { x with codeWays := ways } else { x with ways }) s)
  | none =>
    if 44 ≤ a.ctrl then s
    else if a.code then answer (.status cbqriBadAt) s
    else if 819 < otherBlocks s a.ctrl r + a.blocks.toNat then answer (.status cbqriBadBlocks) s
    else answer (.status cbqriOk) (setCbqri a.ctrl r { x with reserved := a.blocks.toNat, weight := a.weight } s)

/-! ## SBI (R290, R291) -/

def sbiSuccess : Int := 0
def sbiFailed : Int := -1
def sbiNotSupported : Int := -2
def sbiInvalidParam : Int := -3
def sbiInvalidAddress : Int := -5

def variantCode (v : Variant) : Nat := match v with | .whole => 1 | .half => 2 | .skim => 3

def hartsInService (s : State) : Nat := ((List.range 144).filter (hartPresent s)).length

def platformInfo (s : State) : State :=
  answer (.sbi sbiSuccess (BitVec.ofNat 64 (variantCode s.variant + 256 * s.map.effBl.toNat + 65536 * hartsInService s))) s

def calendarRead (s : State) : State :=
  if dairymanUp s then answer (.sbi sbiSuccess s.cal.time) s else answer (.sbi sbiFailed 0) s

/-- QK_CORE_PHASE: a hint for the caller's processor die, its horizon in ticks (R291, R367). -/
def corePhase (h : Nat) (level horizon : BitVec 64) (s : State) : State :=
  if 3 < level.toNat then answer (.sbi sbiInvalidParam 0) s
  else
    let site := 8 + h / 72
    answer (.sbi sbiSuccess 0) (updRail (setLevel site level.toNat s) site (fun r => { r with horizonEnd := some (s.time + horizon) }))

/-- HSM state codes: STARTED, STOPPED, SUSPENDED. -/
def hsmCode (x : HartState) : Nat := match x with | .started => 0 | .stopped => 1 | .suspended => 4

def hartStatus (h : Nat) (s : State) : State :=
  if hartPresent s h then answer (.sbi sbiSuccess (BitVec.ofNat 64 (hsmCode (hartOf s h).state))) s
  else answer (.sbi sbiInvalidParam 0) s

def hartSuspend (h : Nat) (retentive : Bool) (s : State) : State :=
  if !retentive then answer (.sbi sbiNotSupported 0) s
  else if hartPresent s h && (hartOf s h).state == .started then
    answer (.sbi sbiSuccess 0) (updHart s h (fun x => { x with state := .suspended }))
  else s

/-! ## The rows -/

/-- TIMER_COMPARE (R273, R277, R292). -/
def execTimerCompare (h : HartId) (which : TimerKind) (s : State) : Host.Outcome State Fault Refusal :=
  command (timerCompare h.toNat which) s
/-- HGATP_VMID_WRITE (R273, R279). -/
def execHgatpVmidWrite (h : HartId) (vmid : BitVec 14) (s : State) : Host.Outcome State Fault Refusal :=
  command (writeVmid h.toNat vmid) s
/-- CBQRI_ALLOC_REQUEST (R287). -/
def execCbqriAllocRequest (a : CbqriArgs) (s : State) : Host.Outcome State Fault Refusal := command (cbqriRequest a) s
/-- QK_PLATFORM_INFO (R291). -/
def execQkPlatformInfo (s : State) : Host.Outcome State Fault Refusal := command platformInfo s
/-- QK_CALENDAR_READ (R291, R430). -/
def execQkCalendarRead (s : State) : Host.Outcome State Fault Refusal := command calendarRead s
/-- QK_CORE_PHASE (R118, R291, R367). -/
def execQkCorePhase (h : HartId) (level : BitVec 64) (horizon : BitVec 64) (s : State) : Host.Outcome State Fault Refusal :=
  command (corePhase h.toNat level horizon) s
/-- HART_SUSPEND (R290). -/
def execHartSuspend (h : HartId) (retentive : Bool) (s : State) : Host.Outcome State Fault Refusal :=
  command (hartSuspend h.toNat retentive) s

end Sys2Proof.Machine
end

