-- ==== Sys2Proof/Machine/Coherence.lean ====
section
/-! DEFINITION. Coherence messages as commands (R253 to R264, R271): a request reaches its home, every other message reaches
the site it was sent to. A message the receiver's state for the line does not allow is domain-fatal (R264). -/

namespace Sys2Proof.Machine

/-- Whether a pause on a site's memory rail holds its protocol engines (R362). -/
def engineHeld (s : State) (site : Nat) : Bool := paused s (16 + site)

/-- Whether the domain is formed and running. -/
def domainUp (s : State) : Bool := s.su.phase == .running && !s.dom.halted

/-- 0x0410 at the receiver (R264, R267). -/
def protocolFault (site line : Nat) (s : State) : State := domainFault 0x0410 site (64 * line) site s

/-- Who may send a request (R253, R256, R261). -/
def requesterOk (src : Nat) (req : CohReq) : Bool :=
  match req with
  | .readShared => src ≤ 10
  | .readUnique | .cleanUnique | .writeBack _ | .evictClean => isL3 src
  | .writeLine _ m => (src < 8 && m = BitVec.allOnes 64) || src = agentIO
  | .atomic _ => isL3 src || src = agentIO
  | .reduce _ _ => src < 8

/-- Whether the home's state for the line allows a request now. A release from a site whose copy an earlier message takes is
allowed while the line is BUSY (R271). -/
def requestAllowed (s : State) (line src : Nat) (req : CohReq) : Bool :=
  let e := dirOf s line
  let held := (l3At s src line).map (·.st)
  let between := (busyOf s line).isSome || (granOf s (granuleOf (64 * line))).state == .moving
  requesterOk src req && match req with
    | .readShared | .readUnique => between || ownerOf e != some src
    | .writeBack _ => between || held == some .m || held == some .o || held == some .e
    | .evictClean => between || held == some .e || held == some .s
    | _ => true

/-- A WriteBack's data is what its sender held in M or O; a line taken in E has become M in its cache (R256, R257). -/
def noteWriteBack (line src : Nat) (req : CohReq) (s : State) : State :=
  match req, l3At s src line with
  | .writeBack d, some x => putL3 src line { st := if x.st == .e then .m else x.st, data := d } s
  | _, _ => s

/-- A WriteBack that meets a Recall of the same line: the home takes its data as the RecallData, and the holder will answer
the Recall with InvAck (R271). -/
def crossesRecall (s : State) (line src : Nat) (req : CohReq) : Option LineData :=
  match req, busyOf s line with
  | .writeBack d, some b => if b.awaiting.contains src then some d else none
  | _, _ => none

/-- A request that can be accepted now: one the home's state does not allow is domain-fatal (R264); a WriteBack that meets a Recall answers
it; the others queue behind a BUSY line (R258). -/
def takeRequest (line src : Nat) (req : CohReq) (s : State) : State :=
  match crossesRecall s line src req, busyOf s line with
  | some d, some b =>
    sendMsg .writeAck (homeOf s (64 * line)) src line (dropL3 src line (putBusy line { b with recalled := some d } s))
  | _, _ => letIn (.request line src req) (noteWriteBack line src req s)

/-- A request whose granule no tier takes: an engine's command is killed as a fault, a core takes an access fault (R153). -/
def refuseRequest (line src : Nat) (req : CohReq) (e : NoRoom) (c : Nat) (s : State) : State :=
  let s := postNoRoom e c (64 * line) s
  if src < 8 then killOn src (.fault (match e with | .quota => 0x0340 | .storage => 0x0341)) s
  else if isL3 src then answer (.trap (match req with | .readShared => 5 | _ => 7)) s
  else s

/-- The tags of a request that a site sends, for a core of its die where the site is an L3 (R288): a release carries those its line was filled
under. -/
def requestTag (s : State) (line src core : Nat) (req : CohReq) : ReqTag :=
  if isL3 src then
    match req with
    | .writeBack _ | .evictClean => ((l3At s src line).map (·.place.tag)).getD {}
    | _ => hartTag s (72 * (src - 8) + core)
  else if src < 8 then ctxTag s (dieCtx s src).toNat
  else {}

/-- What a request asks of the memory behind its home: a read where no cache owns the line, or a write (R287); an L3 notes for which core it
asks. -/
def noteRequest (line src core : Nat) (req : CohReq) (s : State) : State :=
  let t := requestTag s line src core req
  match req with
  | .readShared | .readUnique | .cleanUnique =>
    if req == .cleanUnique && (l3At s src line).isSome then touchCore src line core false true s
    else noteAsker src line { core, tag := t } (if (ownerOf (dirOf s line)).isSome then s else noteTraffic t false 64 line s)
  | .evictClean => s
  | _ => noteTraffic t true 64 line s

/-- A request reaches its home (R258): it is accepted, or queued behind a BUSY line, or behind its granule's fill or migration (R153, R155,
R271). -/
def homeRequest (line src core : Nat) (req : CohReq) (s : State) : State :=
  if !domainUp s || !inUnified s (64 * line) 64 || engineHeld s (homeOf s (64 * line)) then s
  else
    let g := granuleOf (64 * line)
    let h := homeOf s (64 * line)
    let c := if src < 8 then (dieCtx s src).toNat else 0
    let s := linksGood src h s
    if !requestAllowed s line src req then protocolFault h line s
    else match arriveAt g c (if src < 8 then some src else none) (.request line src req) (noteRequest line src core req s) with
      | .goes s => takeRequest line src req s
      | .held s => noteWriteBack line src req s
      | .refused e s => refuseRequest line src req e c s

/-- Whether a message is one its destination takes as a home. -/
def toHome (k : MsgKind) : Bool := match k with | .invAck | .recallData _ | .compAck => true | _ => false

/-- Whether a pause of the destination's memory rail holds a message: the edge caches are never held (R237, R260, R362). -/
def engineWaits (s : State) (m : ShankMsg) : Bool := engineHeld s m.dst && (8 ≤ m.dst || toHome m.kind)

/-- A forward that finds no copy at its destination: a message that the receiver's state does not allow (R264). -/
def fwdLacks (s : State) (m : ShankMsg) : Bool :=
  match m.kind with | .fwdShared _ | .fwdUnique _ => (l3At s m.dst m.line).isNone | _ => false

/-- A message that is on its way arrives. -/
def takeIn (m : ShankMsg) (s : State) : State :=
  if !s.dom.net.contains m then s
  else if fwdLacks s m then protocolFault m.dst m.line (takeMsg m s)
  else arriveMsg m s

/-- A message sent earlier reaches its destination, after those sent before it on its way (R21); one that was never sent is not allowed
there. -/
def receive (site line : Nat) (pick : ShankMsg → Bool) (s : State) : State :=
  if !domainUp s || !inUnified s (64 * line) 64 then s
  else match s.dom.net.find? (fun m => m.line == line && pick m) with
    | none => if engineHeld s site then s else protocolFault site line s
    | some m => if (laneTo s m).any (engineWaits s) then s else each (laneTo s m) takeIn s

def isFwdShared (k : MsgKind) : Bool := match k with | .fwdShared _ => true | _ => false
def isFwdUnique (k : MsgKind) : Bool := match k with | .fwdUnique _ => true | _ => false
def isData (k : MsgKind) : Bool := match k with | .data _ _ => true | _ => false
def isRecallData (k : MsgKind) : Bool := match k with | .recallData _ => true | _ => false
def isResult (k : MsgKind) : Bool := match k with | .atomicResult _ => true | _ => false

/-- An Invalidate at a full edge-cache queue waits until an entry is applied (R237). -/
def invalidateFull (s : State) (holder line : Nat) : Bool :=
  holder < 8 && 64 ≤ (dieOf s holder).invQueue.length && (SMap.find (dieOf s holder).edge line).isSome

/-- Whether a Recall that reaches a holder is the first of an eviction: none is under way to it, and its home may evict the
line's directory entry. The number of entries a full store holds is not given (R255, log 97). -/
def evicts (s : State) (holder line : Nat) : Bool :=
  domainUp s && inUnified s (64 * line) 64 && !(engineHeld s holder && 8 ≤ holder) && !engineHeld s (homeOf s (64 * line))
    && !(s.dom.net.any fun m => m.line == line && m.dst == holder && m.kind == .recall)
    && (busyOf s line).isNone && SMap.get [] s.dom.queue line == [] && (granOf s (granuleOf (64 * line))).state != .moving
    && (holdersOf (dirOf s line)).contains holder

/-- The home evicts a directory entry: it recalls the line from every holder and holds it BUSY until all have answered (R255,
R258). -/
def evictEntry (line : Nat) (s : State) : State :=
  let h := homeOf s (64 * line)
  let holders := holdersOf (dirOf s line)
  let b : Busy := { src := h, req := .evictClean, awaiting := holders, recalled := none, granted := false, start := some s.time }
  let s := updHome h (fun x => { x with recalls := bump x.recalls }) (putBusy line b s)
  each holders (fun a => sendMsg .recall h a line) s

/-- RECALL: a holder receives a Recall, one of an eviction that its home begins among them. -/
def recallArrives (holder line : Nat) (s : State) : State :=
  if invalidateFull s holder line then s
  else receive holder line (fun m => m.dst == holder && m.kind == .recall) (if evicts s holder line then evictEntry line s else s)

/-- The home of a line as the site its answers reach. -/
def atHome (line : Nat) (f : Nat → State → State) (s : State) : State := f (homeOf s (64 * line)) s

/-- The home timeout of 2 ms runs out (R259). -/
def homeTimeout (line : Nat) (s : State) : State :=
  match (busyOf s line).bind (·.start) with
  | some t =>
    if (s.time - t).toNat < 200000 || !domainUp s then s
    else atHome line (fun h s => domainFault 0x0411 h (64 * line) h s) s
  | none => s

/-- A CRC failure on a site's link: the ninth in a row ends its eighth retry, and the link is lost (R22, R264). -/
def crcFail (site : Nat) (s : State) : State :=
  if !domainUp s || 10 < site || !siteUp s site then s
  else
    let n := SMap.get 0 s.dom.shankFails site + 1
    let s := { s with dom := { s.dom with shankFails := SMap.put s.dom.shankFails site n } }
    if 9 ≤ n then domainFault 0x0413 siteW site site s else s

/-- The edge cache applies its oldest queued invalidation (R237). -/
def applyInval (x : DieSt) : DieSt :=
  match x.invQueue with
  | (l, _) :: rest => { x with edge := SMap.del x.edge l, invQueue := rest }
  | [] => x

/-! ## The rows -/

/-- READ_SHARED (R253 to R258). -/
def execReadShared (src : ReqSrc) (line : Nat) (s : State) : Host.Outcome State Fault Refusal :=
  command (homeRequest line src.site src.core.toNat .readShared) s
/-- READ_UNIQUE (R256 to R258). -/
def execReadUnique (src : ReqSrc) (line : Nat) (s : State) : Host.Outcome State Fault Refusal :=
  command (homeRequest line src.site src.core.toNat .readUnique) s
/-- CLEAN_UNIQUE (R256 to R258). -/
def execCleanUnique (src : ReqSrc) (line : Nat) (s : State) : Host.Outcome State Fault Refusal :=
  command (homeRequest line src.site src.core.toNat .cleanUnique) s
/-- WRITE_LINE (R256 to R258, R266). -/
def execWriteLine (src line : Nat) (data : LineData) (mask : BitVec 64) (s : State) : Host.Outcome State Fault Refusal :=
  command (homeRequest line src 0 (.writeLine (fit 64 data) mask)) s
/-- WRITE_BACK (R256 to R258, R271). -/
def execWriteBack (src line : Nat) (data : LineData) (s : State) : Host.Outcome State Fault Refusal :=
  command (homeRequest line src 0 (.writeBack (fit 64 data))) s
/-- EVICT_CLEAN (R256 to R258). -/
def execEvictClean (src line : Nat) (s : State) : Host.Outcome State Fault Refusal := command (homeRequest line src 0 .evictClean) s
/-- ATOMIC_REQ (R256, R261). -/
def execAtomicReq (src : ReqSrc) (line : Nat) (op : AtomicOp) (s : State) : Host.Outcome State Fault Refusal :=
  command (homeRequest line src.site src.core.toNat (.atomic op)) s
/-- REDUCE (R256, R262, R263). -/
def execReduce (src line : Nat) (op : BitVec 3) (data : LineData) (s : State) : Host.Outcome State Fault Refusal :=
  command (homeRequest line src 0 (.reduce op (fit 64 data))) s
/-- FWD_SHARED (R256, R257, R264). -/
def execFwdShared (owner line : Nat) (s : State) : Host.Outcome State Fault Refusal :=
  command (receive owner line (fun m => m.dst == owner && isFwdShared m.kind)) s
/-- FWD_UNIQUE (R256, R257, R264). -/
def execFwdUnique (owner line : Nat) (s : State) : Host.Outcome State Fault Refusal :=
  command (receive owner line (fun m => m.dst == owner && isFwdUnique m.kind)) s
/-- INVALIDATE (R237, R256, R257, R264). -/
def execInvalidate (holder line : Nat) (s : State) : Host.Outcome State Fault Refusal :=
  command (fun s => if invalidateFull s holder line then s
    else receive holder line (fun m => m.dst == holder && m.kind == .invalidate) s) s
/-- RECALL (R237, R255, R256, R257, R264). -/
def execRecall (holder line : Nat) (s : State) : Host.Outcome State Fault Refusal := command (recallArrives holder line) s
/-- DATA (R256, R257, R264). -/
def execDataMsg (dst line : Nat) (s : State) : Host.Outcome State Fault Refusal :=
  command (receive dst line (fun m => m.dst == dst && isData m.kind)) s
/-- INV_ACK (R256, R258, R264). -/
def execInvAck (holder line : Nat) (s : State) : Host.Outcome State Fault Refusal :=
  command (atHome line (fun h => receive h line (fun m => m.src == holder && m.kind == .invAck))) s
/-- RECALL_DATA (R256, R258, R264). -/
def execRecallData (holder line : Nat) (s : State) : Host.Outcome State Fault Refusal :=
  command (atHome line (fun h => receive h line (fun m => m.src == holder && isRecallData m.kind))) s
/-- WRITE_ACK (R256, R264). -/
def execWriteAck (dst line : Nat) (s : State) : Host.Outcome State Fault Refusal :=
  command (receive dst line (fun m => m.dst == dst && m.kind == .writeAck)) s
/-- ATOMIC_RESULT (R256, R261, R264). -/
def execAtomicResult (dst line : Nat) (s : State) : Host.Outcome State Fault Refusal :=
  command (receive dst line (fun m => m.dst == dst && isResult m.kind)) s
/-- COMP_ACK (R256, R258, R264). -/
def execCompAck (src line : Nat) (s : State) : Host.Outcome State Fault Refusal :=
  command (atHome line (fun h => receive h line (fun m => m.src == src && m.kind == .compAck))) s
/-- HOME_TIMEOUT (R259, R260, R264, R267). -/
def execHomeTimeout (line : Nat) (s : State) : Host.Outcome State Fault Refusal := command (homeTimeout line) s
/-- SHANK_CRC_FAIL (R22, R264, R267). -/
def execShankCrcFail (site : Nat) (s : State) : Host.Outcome State Fault Refusal := command (crcFail site) s
/-- INVALIDATION_APPLY (R237, R238). -/
def execInvalidationApply (d : Die) (s : State) : Host.Outcome State Fault Refusal := command (updDie · d applyInval) s
/-- EDGE_CACHE_EVICT (R237). -/
def execEdgeCacheEvict (d : Die) (line : Nat) (s : State) : Host.Outcome State Fault Refusal :=
  command (updDie · d (fun x => { x with edge := SMap.del x.edge line })) s

end Sys2Proof.Machine
end

