-- ==== Sys2Proof/Machine/ServeCore.lean ====
section
/-! DEFINITION. What serving shares with the sequencer and the dispatcher: the partition a job serves (R194), the step
builder's accesses (R206) and the step record (R204). -/

namespace Sys2Proof.Machine

def popcount (n : Nat) : Nat → Nat
  | 0 => 0
  | k + 1 => bits n k 1 + popcount n k

/-- Dies named by a mask. -/
def diesOf (mask : Nat) : List Nat := (List.range 8).filter fun d => bits mask d 1 = 1

/-- ALLOWED of a job's descriptor (R175). -/
def allowedOf (j : Job) : Nat := fieldAt j.desc 36 1

/-- Whether a partition is in service and a job is its serving job (R194). -/
def servesJob (s : State) (n : Nat) (j : Job) : Bool :=
  let p := partOf s n
  p.enable && p.context == j.ctx && allowedOf j = p.bind.toNat && j.gang = popcount p.bind.toNat 8

/-- The partition a job serves. -/
def servedBy (s : State) (k : Nat) : Option Nat :=
  match jobOf s k with
  | some j => (List.range 8).find? fun n => servesJob s n j
  | none => none

/-- What the step builder's access met: what it read, or what stopped it. -/
abbrev Built (α : Type) := Except MemStop α

/-- A read by the step builder of Cn in its bound context. -/
def buildRead (n va len : Nat) (s : State) : Built (List Byte) × State := readVirtual n (partOf s n).context.toNat false va len s

/-- A write by the step builder of Cn. -/
def buildWrite (n va : Nat) (b : List Byte) (s : State) : Built Unit × State :=
  match vwrite n (partOf s n).context.toNat va b s with
  | (.ok _, s) => (.ok (), s)
  | (.fault a, s) => (.error (.page a true), s)
  | (.failed e, s) => (.error (.failed e va true), s)
  | (.noRoom e a, s) => (.error (.noRoom e a), s)
  | (.poison a, s) => (.error (.poison a), s)

/-- A fault of the step builder's translation: 0x0523 with the address; the serving job ends FAILED and the partition goes out of service
(R206). -/
def serveFault (n k va : Nat) (s : State) : State :=
  beginKill k (.failing 0x0523) (updPart (post 0x0523 n [n, va] s) n fun p => { p with enable := false })

/-- What an access of the step builder that did not succeed does to the serving job: a fault of its translation is R206's, with a directory
error recorded in the fault queue (R220); poison and a refused placement are as for any engine's access (R153, R266). -/
def serveFail (n k : Nat) (e : MemStop) (s : State) : State :=
  let c := (partOf s n).context.toNat
  match e with
  | .page va _ => serveFault n k va s
  | .failed cause va w => serveFault n k va (postFault c cause va w s)
  | .noRoom e a => beginKill k (.fault (match e with | .quota => 0x0340 | .storage => 0x0341)) (postNoRoom e c a s)
  | .poison a => beginKill k (.failing 0x0402) (post 0x0402 n [n, c, a] s)

/-- The address of table entry i (R195). -/
def entryVa (s : State) (n i : Nat) : Nat := (partOf s n).tableVa.toNat * 4096 + 128 * i

/-- One slot's record (R204) from its slot and its table entry. -/
def slotRecord (n : Nat) (z : ServeSlot) (e : List Byte) : List Byte :=
  leBytes 4 (16384 * n + z.index) ++ leBytes 4 z.position ++ leBytes 4 z.limit ++ leBytes 4 z.pages ++ leBytes 4 z.goff
    ++ (e.drop 44).take 4 ++ (e.drop 16).take 8 ++ (e.drop 48).take 8 ++ (e.drop 56).take 8 ++ zeros 16

/-- The step record of the step in hand (R204). Before the first boundary of a job its step has COUNT 0 (log 58). -/
def stepRecord (n : Nat) (s : State) : Built (List Byte) × State :=
  let p := partOf s n
  let slots := p.slots.getD []
  let head := leBytes 8 p.steps.toNat ++ leBytes 4 slots.length ++ [if p.stopReq then 1 else 0] ++ zeros 51
  slots.foldl (fun (acc : Built (List Byte) × State) z =>
    match acc with
    | (.error a, s) => (.error a, s)
    | (.ok b, s) =>
      match buildRead n (entryVa s n z.index) 128 s with
      | (.ok e, s) => (.ok (b ++ slotRecord n z e), s)
      | (.error a, s) => (.error a, s)) (.ok head, s)

/-- Writes the step record into a die's step pan, with the written bits of its lines (R97, R204). -/
def putRecord (pan : Nat) (b : List Byte) (x : DieSt) : DieSt :=
  match x.image with
  | none => x
  | some img =>
    let base := (panEnt img pan).base
    (List.range ((b.length + 63) / 64)).foldl (fun x i =>
      let l := base + i
      { putSramLine l (BitVec.allOnes 64) (fit 64 ((b.drop (64 * i)).take 64)) x with
        written := if x.written.contains l then x.written else l :: x.written }) x

/-- The step of a partition before its job's first boundary is taken in hand once: a re-run reads the same STOP_REQ (R208). -/
def takeFirstStep (p : Partition) : Partition := if p.slots.isSome then p else { p with slots := some [], stopReq := p.stop }

/-- Writes the step record for every die of a serving job at the start of its command (R204). -/
def writeStepRecord (k : Nat) (s : State) : State :=
  match servedBy s k, jobOf s k with
  | some n, some j =>
    match stepRecord n (updPart s n takeFirstStep) with
    | (.ok b, s) => each j.dies (fun d s => updDie s d (putRecord (partOf s n).stepPan.toNat b)) s
    | (.error e, s) => serveFail n k e s
  | _, _ => s

end Sys2Proof.Machine
end

