-- ==== Sys2Proof/Machine/Command.lean ====
section
/-! DEFINITION. Command boundaries: the start of a command (R108, R127, R168, R239), the spare's binding (R59), and the COMMIT
drain (R117, R181, R182). -/

namespace Sys2Proof.Machine

/-! ## The spare's binding -/

/-- Renames the slots of a physical vat to those of another in a slot table. -/
def moveSlots (src dst : Nat) (m : SMap Slot) : SMap Slot :=
  (List.range 4).foldl (fun m i =>
    let z := SMap.get {} m (slotKey src i)
    SMap.set {} (SMap.set {} m (slotKey src i) {}) (slotKey dst i) z) m

/-- Binds a claimed spare at a command boundary (R34, R36, R59): the map changes, 0x0503 is posted, and the JOB slots the
retired vat held are refilled in the spare. -/
def bindSpare (d : Nat) (s : State) : State :=
  match (dieOf s d).spareClaim with
  | none => s
  | some phys =>
    let u := unitMapOf s d
    let u : UnitMap := { u with spareFree := false, spareFor := BitVec.ofNat 8 phys }
    let s := { s with map := { s.map with units := SMap.set {} s.map.units d u } }
    let s := countChange (setSite d stDegraded 0 s)
    let s := updDie s d fun x =>
      let keyed := fun (r : Nat × Nat) => (if r.1 / 4 = phys then slotKey 16 (r.1 % 4) else r.1, r.2)
      let jobs := (List.range 4).filterMap fun i =>
        let z := slotNow x phys i
        if z.kind == .job then z.entry.map fun e => (slotKey 16 i, e) else none
      let waiting := x.round.refills.map keyed
      { x with
        spareClaim := none,
        slots := (List.range 4).foldl (fun m i => SMap.del m (slotKey phys i)) x.slots,
        start := x.start.map fun r => { r with slots := moveSlots phys 16 x.slots },
        round := { x.round with refills := waiting ++ jobs.filter fun r => !waiting.contains r } }
    post 0x0503 d [16, phys] s

/-! ## Command start -/

/-- The JOB slots of a die at a command start, those whose refill is still to come included (R168). -/
def pendingSlots (x : DieSt) : SMap Slot :=
  let now := x.slots.filter fun (p : Nat × Slot) => p.2.kind == .job && p.2.tag == some x.placeCtr
  let old : SMap Slot := match x.start with | some r => r.slots | none => []
  x.round.refills.foldl (fun m (r : Nat × Nat) =>
    SMap.put m r.1 { kind := .job, pair := (SMap.get {} old r.1).pair, tag := some x.placeCtr, entry := some r.2 }) now

/-- The command-start record of a die as it stands (R108, R127, R168). -/
def takeRecord (x : DieSt) : CmdStart :=
  { pos := x.seq.pos, nextStep := x.seq.nextStep, sv := x.sv, lc := x.lc, tokens := x.tokens,
    churnV := (x.churn.map fun (p : Nat × ChurnUnit) => (p.1, p.2.v)).filter (!·.2.isEmpty),
    churnM := (x.churn.map fun (p : Nat × ChurnUnit) => (p.1, p.2.m)).filter (!·.2.isEmpty),
    slots := pendingSlots x,
    opened := x.round.opened, loaded := x.round.loaded, sent := x.sent, occ := x.occ }

/-- At a command boundary each COMMAND slot becomes EMPTY (R52). -/
def jobSlots (m : SMap Slot) : SMap Slot := m.filter fun p => p.2.kind != .command

/-- A command starts on a die's own state: COMMAND slots are EMPTY (R52), written bits clear (R97), an ACQUIRE is performed
(R239), the record is taken. -/
def startOnDie (x : DieSt) : DieSt :=
  let x := applyInvals { x with slots := jobSlots x.slots, lastKill := none, written := [], pendingFlags := 0, laceInc := [], fenceL := 0, fenceX := 0,
                                commit := none, drain := none, boundary := false, wait := none, log := [] }
  { x with start := some (takeRecord x),
           seq := { x.seq with state := .running, issued := false, command := x.seq.command + 1 } }

/-- Starts the next command of a job on every die (R108, R204, R239). -/
def startCommand (k : Nat) (s : State) : State :=
  match jobOf s k with
  | none => s
  | some j =>
    let s := each j.dies (fun d s => updDie (bindSpare d s) d startOnDie) s
    writeStepRecord k (each j.dies promote s)

/-! ## COMMIT -/

/-- COMMIT (R117): refused while a token is LENT, otherwise the sequencer waits and then drains. With several tokens LENT 0x0605 names the
first of the token map (log 115). -/
def commitAct (last sb : Bool) (x : DieSt) : Act DieSt :=
  match x.tokens.find? fun (p : Nat × TokenSt) => p.2.lent.isSome with
  | some t => .error (.program 0x0605 [t.1, x.seq.pos])
  | none => .ok { x with commit := some (last, sb), seq := { x.seq with state := .committing } }

/-! ## The drain's completion -/

/-- Applies one log entry at its pan or home (R181, R262). -/
def applyEntry (d : Nat) (e : LogEntry) (s : State) : State :=
  match e.kind with
  | .panLine => updDie s d (putSramLine e.addr e.mask e.data)
  | .put => cohStoreLine e.addr e.mask e.data (noteTraffic (ctxTag s (dieCtx s d).toNat) true 64 e.addr s)
  | .hred op => reduceLine op.toNat e.addr e.data (noteTraffic (ctxTag s (dieCtx s d).toNat) true 64 e.addr s)
  | _ => s

def applyLog (d : Nat) (s : State) : State := each (dieOf s d).log (applyEntry d) s

/-- Whether two log entries write one line of the same memory, and so keep their order (R21, R236). -/
def sameTarget (e k : LogEntry) : Bool := e.addr == k.addr && (e.kind == .panLine) == (k.kind == .panLine)

/-- One entry of the first span that a draining log still holds takes effect, or none does yet: which, is open (R236, R263; log 2). -/
def drainOne (d : Nat) (s : State) : State :=
  let log := (dieOf s d).log.dropWhile (·.kind == .fence)
  let span := log.takeWhile (·.kind != .fence)
  match span[(Config.freeWord s.free).toNat % (span.length + 1)]? with
  | none => drew s
  | some e =>
    let i := span.findIdx (sameTarget e)
    match span[i]? with
    | some k => applyEntry d k (updDie (drew s) d fun x => { x with log := log.eraseIdx i })
    | none => drew s

/-- While a die's log drains, some of its entries take effect as time passes (R236, R271). -/
def drainSome (d : Nat) (s : State) : State :=
  if (dieOf s d).drain.isSome && !paused s d then each (List.range (dieOf s d).log.length) (fun _ => drainOne d) s else s

/-- An order of the dies of a gang: entries of different dies reach a home in no fixed order (R236, R263). -/
def anyOrder (s : State) : Nat → Nat → List Nat → List Nat
  | 0, _, l => l
  | n + 1, i, l =>
    let m := if l.isEmpty then 0 else (Config.freeWord (s.free + i)).toNat % l.length
    match l[m]? with
    | some d => d :: anyOrder s n (i + 1) (l.eraseIdx m)
    | none => l

/-- The commands of a die at its partners are done with (R305). -/
def closeCmds (d : Nat) (s : State) : State :=
  { s with lacing := { s.lacing with partners := s.lacing.partners.map fun (p : Nat × Partner) =>
      (p.1, { p.2 with cmds := p.2.cmds.filter fun c => !(c.die == d && c.committed.isSome) }) } }

/-- Step 6 of R181 (R84, R117, R145, R186): END counts where SB does not make it a COMMIT without END (R194; log 130). The logs clear, flags join the job flag word, and the job ends, waits for its
serving boundary, or starts its next command, to which a kill that came during the drain then applies (R193). -/
def drainComplete (k : Nat) (s : State) : State :=
  match jobOf s k with
  | none => s
  | some j =>
    let drains := j.dies.filterMap fun d => (dieOf s d).drain
    if drains.length = j.dies.length && !j.dies.isEmpty && drains.all (·.awaiting.isEmpty) && !j.dies.any (paused s) then
      let s := each (anyOrder s j.dies.length 0 j.dies) applyLog s
      let s := { s with free := s.free + j.dies.length }
      let flags := flagsOr (j.dies.map fun d => (dieOf s d).pendingFlags)
      let s := each j.dies (fun d s => closeCmds d (updDie s d fun x =>
        { x with log := [], drain := none, commit := none, pendingFlags := 0, slots := jobSlots x.slots })) s
      let s := updJob s k fun j => { j with flagWord := j.flagWord ||| flags, commands := j.commands + 1, faultKills := 0,
                                            rerunDue := false }
      let served := (servedBy s k).isSome
      let last := drains.any fun x => x.last && (served || !x.sb)
      let undelivered := drains.any (·.undelivered)
      let reset := j.causes.contains .contextReset
      if undelivered && !reset then finishJob k stFailed 0 true s
      else if last && !reset then finishJob k stDone 0 true s
      else if last then finishJob k stKilled 0 false s
      else
        let s :=
          if drains.any (·.sb) && served then
            each j.dies (fun d s => updDie s d fun x => { x with boundary := true }) s
          else startCommand k s
        if j.causes.isEmpty || j.dies.any (fun d => (dieOf s d).boundary) then s else startKill k s
    else s

/-- COMMIT_DRAIN_COMPLETE (R14, R84, R97, R108, R117, R127, R145, R166, R177, R181, R182, R186, R190, R236). -/
def execCommitDrainComplete (d : Die) (s : State) : Host.Outcome State Fault Refusal :=
  command (fun s => settleFences (match jobOn s d with | some k => drainComplete k s | none => s)) s

end Sys2Proof.Machine
end

