-- ==== Sys2Proof/Machine/Movers.lean ====
section
/-! DEFINITION. The movers: GET, PUT, COPY and HRED (R102, R104, R111, R112, R180, R181) and the LACE operations (R300, R301,
R385). An action answers none while it cannot start. -/

namespace Sys2Proof.Machine

/-! ## Actions -/

/-- The rank of a die in its job, and the die of a rank. -/
def rankOf (s : State) (d : Nat) : Nat := (dieOf s d).seq.rank.toNat

def dieOfRank (s : State) (d q : Nat) : Option Nat :=
  match (jobOn s d).bind (jobOf s) with
  | some j => j.dies[q]?
  | none => none

/-- The remote COPYs of a die that have issued and wait to start. -/
def waitingCopies (s : State) (d : Nat) : List RemoteCopy :=
  match (dieOf s d).image with
  | none => []
  | some img => (dieOf s d).deferred.filterMap fun e => match e.act with
    | .mover 3 _ a =>
      let c := copyTarget (movDesc img a.desc.toNat).target
      if c.rank = 0xF then none
      else some { id := e.id, src := d, srcRank := rankOf s d, dst := (dieOfRank s d c.rank).getD 8, token := BitVec.ofNat 13 c.token,
                  seq := 0, line := c.offset, lines := [] }
    | _ => none

/-- Every remote COPY of a die, numbered below n, that has not been applied. -/
def copiesOut (s : State) (d n : Nat) : List RemoteCopy :=
  let held := s.dies.flatMap fun (p : Nat × DieSt) => p.2.heldCopies
  (s.copyNet ++ held ++ waitingCopies s d).filter fun c => c.src == d && c.id < n

/-- Whether an action is a lace write. -/
def isLaceWrite (img : Image) : UnitAct → Bool
  | .mover 5 _ a => laceOp (movDesc img a.desc.toNat).target ≠ 1
  | _ => false

/-- Whether every lace write of a die numbered below n has been sent, and the packets named have been acknowledged (R116, R307). -/
def laceClear (s : State) (d n : Nat) (rel : List (Nat × BitVec 32)) : Bool :=
  (match (dieOf s d).image with
   | some img => !(dieOf s d).deferred.any fun e => e.id < n && isLaceWrite img e.act
   | none => true)
    && rel.all fun r => !(partnerOf s r.1).retransmit.any fun k => (r.2 - k.pkt.lseq).toNat < 2 ^ 31

/-- Whether what a RELEASE of a die waits for has come about: remote COPYs applied, lace writes acknowledged (R116). -/
def releaseClear (s : State) (d : Nat) : Bool :=
  let x := dieOf s d
  (copiesOut s d x.barrier).isEmpty && laceClear s d x.barrier x.relLace

/-! ## Validity (R110, R111, R300) -/

def lacePartner (target : Nat) : Nat := bits target 0 13
def laceRemote (target : Nat) : Nat := bits target 16 48

/-- The LACE fields of a descriptor are valid (R300). -/
def laceDescValid (m : MovDesc) : Bool :=
  let lop := laceOp m.target
  let r := laceRemote m.target
  lop ≤ 3 && (if lop = 2 then m.redOp ≤ 6 else m.redOp = 0) &&
    (if lop = 3 then m.pan = 0 && m.token = 0 && m.offset = 0 && m.length = 0 && bits r 33 15 = 0 && bits r 17 16 ≠ 0
     else 1 ≤ m.length)

/-- A mover descriptor is valid for an operation (R111). RED_OP is a field of HRED: on GET, PUT and COPY it must be 0 (log 118). -/
def movDescValid (op : Nat) (m : MovDesc) : Bool :=
  !m.reserved &&
    (match op with
     | 1 => 1 ≤ m.length && m.target % 64 = 0 && m.redOp = 0
     | 2 => 1 ≤ m.length && m.target % 64 = 0 && m.redOp = 0
     | 3 => 1 ≤ m.length && !(copyTarget m.target).reserved && m.redOp = 0
     | 4 => 1 ≤ m.length && m.target % 64 = 0 && m.redOp ≤ 6
     | 5 => laceDescValid m
     | _ => false)

/-- The static footprints of a mover action (R96): its pan side, and the destination of a COPY. One image is checked on every die of a
gang, so the SOURCE of a remote COPY's token must be a rank of the job: that of the die that sends it (log 57). -/
def movFootprint (img : Image) (op : Nat) (m : MovDesc) : Bool :=
  let side := inRegion img m.pan m.token (64 * m.offset) (64 * (m.offset + m.length) - 1)
  match op with
  | 5 => laceOp m.target = 3 || side
  | 3 =>
    let c := copyTarget m.target
    side && inRegion img c.pan c.token (64 * c.offset) (64 * (c.offset + m.length) - 1) &&
      (c.rank = 0xF || (tokEnt img c.token).source < (imageSect img).gang)
  | _ => side

/-- A COPY names a rank of the job or the die itself (R102). -/
def movRank (img : Image) (op : Nat) (m : MovDesc) : Bool :=
  op ≠ 3 || (copyTarget m.target).rank = 0xF || (copyTarget m.target).rank < (imageSect img).gang

def moverOk (img : Image) (op di : Nat) : Bool :=
  let m := movDesc img di
  movDescValid op m && movFootprint img op m && movRank img op m

/-- Bytes a mover action moves, for its occupancy (R92). -/
def moverSteps (op : Nat) (m : MovDesc) : Nat :=
  if op = 5 && laceOp m.target = 3 then 1 else max 1 ((64 * m.length + 1023) / 1024)

/-! ## Memory lines -/

/-- One translated line of a mover's range: physical line, whether its type is NC, and staging key. -/
structure MovLine where
  line : Nat
  nc : Bool
  key : Option StageKey
  deriving DecidableEq, Repr

/-- Translates every line of a range, then takes each granule (R151, R213). -/
def movLines (d c va n : Nat) (write : Bool) (s : State) : Except MemStop (List MovLine) × State :=
  (List.range n).foldl (fun (acc : Except MemStop (List MovLine) × State) i =>
    match acc with
    | (.error e, s) => (.error e, s)
    | (.ok ls, s) =>
      let a := (va + 64 * i) % 2 ^ 64
      match translate d c a write s with
      | (.fault, s) => (.error (.page a write), s)
      | (.failed cause, s) => (.error (.failed cause a write), s)
      | (.noRoom e b, s) => (.error (.noRoom e b), s)
      | (.ok pa nc, s) =>
        match touchGranule (granuleOf pa) c (some d) s with
        | .error e => (.error (.noRoom e pa), s)
        | .ok s => (.ok (ls ++ [{ line := pa / 64, nc, key := stageKey d c a s }]), s)) (.ok [], s)

/-- Whether the command's staged PUTs give a whole line (R180). -/
def stagedWhole (x : DieSt) (l : Nat) : Bool :=
  (x.log.filter fun e => e.kind == .put && e.addr == l).foldl (fun (m : BitVec 64) e => m ||| e.mask) 0 = BitVec.allOnes 64

/-- Reads translated lines through the edge cache, those of type NC at their homes, with the command's staged PUTs forwarded (R180, R233,
R237); poison stops it. -/
def movRead (d c : Nat) (ls : List MovLine) (s : State) : Except MemStop (List Byte) × State :=
  ls.foldl (fun (acc : Except MemStop (List Byte) × State) l =>
    match acc with
    | (.error e, s) => (.error e, s)
    | (.ok b, s) =>
      let x := dieOf s d
      if poisoned s l.line && !stagedWhole x l.line then (.error (.poison (64 * l.line)), s)
      else
        let (data, s) := if l.nc then (cohLine s l.line, noteTraffic (ctxTag s c) false 64 l.line s) else edgeRead d c l.line s
        (.ok (b ++ forwarded x .put l.line data), s)) (.ok [], s)

/-- Splits bytes into lines. -/
def toLines (b : List Byte) : List LineData := (List.range ((b.length + 63) / 64)).map fun i => (b.drop (64 * i)).take 64

def allMask : BitVec 64 := BitVec.allOnes 64

/-! ## GET, PUT, HRED -/

/-- The memory address of an action (R110): TARGET, and the scalar register in 64-byte units when IDX is set. -/
def moverAddr (x : DieSt) (m : MovDesc) (a : MoverArgs) : Nat :=
  (m.target + if a.idx then 64 * (svOf x a.xsv.toNat).toNat else 0) % 2 ^ 64

/-- The lines of memory a held mover reads or writes. -/
def heldRange (img : Image) : HeldAct → Option (Bool × Nat × Nat)
  | .mover _ op di va => some (op ≠ 1, va.toNat, 64 * (movDesc img di.toNat).length)
  | _ => none

/-- The memory accesses of a die that have issued and are not complete: (number, writes, first byte, bytes); a lace GET's bytes lie at
the partner. -/
def openAccesses (img : Image) (x : DieSt) : List (Nat × Bool × Nat × Nat) :=
  ((heldActs x).filterMap fun h => match h, heldRange img h with
    | .mover id _ _ _, some r => some (id, r)
    | _, _ => none)
    ++ (x.deferred.filterMap fun e => match e.act with
      | .mover op _ a =>
        let m := movDesc img a.desc.toNat
        if op = 1 || op = 2 || op = 4 then some (e.id, decide (op ≠ 1), moverAddr { x with sv := e.sv } m a, 64 * m.length)
        else if op = 5 && laceOp m.target = 1 then some (e.id, false, 0, 0)
        else none
      | _ => none)
    ++ x.getTokens.map fun g => (g.2, false, 0, 0)

/-- Whether a memory action must wait for one not complete: overlapping bytes of which one side writes (R98), reads on either side of a
FENCE.L, or a read and a write on either side of a FENCE.LS (R115). -/
def ordersBehind (img : Image) (x : DieSt) (write : Bool) (va n : Nat) : Bool :=
  (openAccesses img x).any fun (id, w, a, m) =>
    ((w || write) && a < va + n && va < a + m) || (!write && !w && id < x.fenceL) || (w != write && id < x.fenceX)

/-- Does something to the log as it stands before every FENCE.S issued after action `id`: what the action stages drains before them
(R115). -/
def beforeFences (id : Nat) (f : DieSt → Act DieSt) (x : DieSt) : Act DieSt :=
  let later := x.log.dropWhile fun e => !(e.kind == .fence && id < e.addr)
  if later.isEmpty then f x
  else if maxLogEntries ≤ logCount x then .error (.program 0x0606 [64 * logCount x])
  else (f { x with log := x.log.take (x.log.length - later.length) }).map fun y => { y with log := y.log ++ later }

/-- A memory mover's access: held on a page request when it faults (R222, R223). -/
def moverMem (d : Nat) (img : Image) (op di : Nat) (va id : Nat) (s : State) : Option State :=
  let m := movDesc img di
  let c := ctxOn s d
  let act : HeldAct := .mover id (BitVec.ofNat 4 op) (BitVec.ofNat 12 di) (BitVec.ofNat 64 va)
  let pan := panEnt img m.pan
  match movLines d c va m.length (op ≠ 1) s with
  | (.error e, s) => some (memStop d c act true e s)
  | (.ok ls, s) =>
    if op = 1 then
      match movRead d c ls s with
      | (.error e, s) => some (memStop d c act true e s)
      | (.ok b, s) => dieStep d (writePan pan (64 * m.offset) b) s
    else
      dieStep d (fun x => do
        let b ← readPan x pan m.token (64 * m.offset) (64 * m.length)
        (ls.zip (toLines b)).foldl (fun (r : Act DieSt) (p : MovLine × LineData) => r.bind (beforeFences id fun x =>
          if op = 2 then stageLine { kind := .put, addr := p.1.line, data := p.2, mask := allMask, key := p.1.key } x
          else logAdd { kind := .hred (BitVec.ofNat 3 m.redOp), addr := p.1.line, data := p.2, mask := allMask, key := p.1.key } x))
          (.ok x)) s

/-- GET, PUT and HRED (R112, R180): ordered by the token and by overlapping bytes of memory. -/
def memoryMover (d : Nat) (img : Image) (op mv : Nat) (a : MoverArgs) (s : State) : Option State :=
  let m := movDesc img a.desc.toNat
  let x := dieOf s d
  let va := moverAddr x m a
  if ordersBehind img x (op ≠ 1) va (64 * m.length) then none
  else
    match dieStep d (fun x => do
        tokenLocal x m.token
        let x ← settle img (jobWord s d) [m.token] x
        .ok (occupy (moverUnitKey mv) (moverSteps op m) { x with actSeq := x.actSeq + 1 })) s with
    | none => none
    | some s => if running s d then moverMem d img op a.desc.toNat va x.actSeq s else some s

/-! ## COPY -/

/-- A local COPY (R102): pan to pan on the die, ordered by both tokens. -/
def localCopy (d : Nat) (img : Image) (mv : Nat) (m : MovDesc) (s : State) : Option State :=
  let c := copyTarget m.target
  dieStep d (fun x => do
    tokenLocal x m.token
    tokenLocal x c.token
    let x ← settle img (jobWord s d) [m.token, c.token] x
    let b ← readPan x (panEnt img m.pan) m.token (64 * m.offset) (64 * m.length)
    let x ← writePan (panEnt img c.pan) (64 * c.offset) b x
    .ok (occupy (moverUnitKey mv) (moverSteps 3 m) x)) s

/-- The key of (rank, token) in the table of issued SIGNALs (R104). -/
def sentKey (q t : Nat) : Nat := 8192 * q + t

/-- A remote COPY (R102, R104, R106): numbered with the INC values of the SIGNALs issued before it, and sent. -/
def remoteCopy (d : Nat) (img : Image) (mv : Nat) (m : MovDesc) (s : State) : Option State :=
  let c := copyTarget m.target
  if !releaseClear s d then none
  else
    let r := (do
      let x := dieOf s d
      tokenLocal x m.token
      let x ← settle img (jobWord s d) [m.token] x
      let b ← readPan x (panEnt img m.pan) m.token (64 * m.offset) (64 * m.length)
      .ok (x, toLines b) : Act (DieSt × List LineData))
    match r, dieOfRank s d c.rank with
    | .error .stall, _ => none
    | .error e, _ => some (stopWith d e s)
    | .ok (x, lines), some q =>
      if (tokEnt img c.token).source ≠ rankOf s d then
        some (setDie s d (occupy (moverUnitKey mv) (moverSteps 3 m) { x with actSeq := x.actSeq + 1 }))
      else
        let k : RemoteCopy := { id := x.actSeq, src := d, srcRank := rankOf s d, dst := q, token := BitVec.ofNat 13 c.token,
                                seq := SMap.get 0 x.sent (sentKey c.rank c.token), line := c.offset, lines }
        let s := setDie s d (occupy (moverUnitKey mv) (moverSteps 3 m) { x with actSeq := x.actSeq + 1 })
        some { s with copyNet := s.copyNet ++ [k] }
    | .ok _, none => some s

def copyMover (d : Nat) (img : Image) (mv : Nat) (a : MoverArgs) (s : State) : Option State :=
  let m := movDesc img a.desc.toNat
  if (copyTarget m.target).rank = 0xF then localCopy d img mv m s else remoteCopy d img mv m s

/-! ## LACE -/

/-- The lace command of a die at a partner, opened when it has none (R298, R303). -/
def openCmd (d p : Nat) (s : State) : LaceCmd × State :=
  match laceCmdOf s d p with
  | some c => (c, s)
  | none =>
    let c : LaceCmd := { cmd := (partnerOf s p).nextCmd, die := d, packets := 0, committed := none, repeatAt := 0, renewAt := s.time,
                         epoch := s.lacing.memb.epoch }
    (c, updPartner s p (fun e => { e with nextCmd := e.nextCmd + 1, cmds := e.cmds ++ [c] }))

/-- Sends one staged request packet of a die's command and counts it (R305). -/
def sendStaged (d p ty aux oper : Nat) (data : List Byte) (s : State) : State :=
  let (c, s) := openCmd d p s
  let s := sendLace p ty aux 0 c.cmd.toNat oper data s
  updPartner s p (fun e => { e with cmds := e.cmds.map fun k => if k.cmd = c.cmd then { k with packets := k.packets + 1 } else k })

/-- Packets of up to 16 lines: (first line, lines) (R301). -/
def laceChunks (n : Nat) : List (Nat × Nat) := (List.range ((n + 15) / 16)).map fun i => (16 * i, min 16 (n - 16 * i))

/-- OPER of a PUT, GET_REQ or REDUCE packet (R298). -/
def windowOper (off lines : Nat) : Nat := off % 2 ^ 48 + (lines - 1) * 2 ^ 48

/-- An open value in an event's payload. -/
def openReason (s : State) : Nat := (Config.freeWord s.free).toNat % 256

/-- The LACE record of the sender's log (R181); one that is recorded but not sent, to a non-member, bears address 1 (R301). -/
def laceRecord (p : Nat) (sent : Bool) : LogEntry :=
  { kind := .lace p, addr := if sent then 0 else 1, data := [], mask := 0, key := none }

/-- LACE_GET (R301, R304): a tag is taken, whose bits 15:13 name the die (log 69), and the requests sent. It is a read to the fences
(R115; log 120). -/
def laceGet (d p mv : Nat) (img : Image) (m : MovDesc) (s : State) : Option State :=
  if ordersBehind img (dieOf s d) false 0 0 then none else
  match dieStep d (fun x => do
      tokenLocal x m.token
      let x ← settle img (jobWord s d) [m.token] x
      .ok (occupy (moverUnitKey mv) (moverSteps 5 m) { x with actSeq := x.actSeq + 1, getTokens := x.getTokens ++ [(m.token, x.actSeq)] })) s with
  | none => none
  | some s =>
    if !running s d then some s else
    let used := SMap.get [] s.lacing.tags (tagKey d p)
    match ((List.range (min 8192 (used.length + 1))).map (8192 * d + ·)).find? (fun t => !used.any (·.tag.toNat == t)) with
    | none => none
    | some t =>
      let tag : GetTag := { tag := BitVec.ofNat 16 t, pan := m.pan, token := m.token, line := m.offset, lines := m.length, got := 0,
                            epoch := s.lacing.memb.epoch, retired := none }
      let s := { s with lacing := { s.lacing with tags := SMap.set [] s.lacing.tags (tagKey d p) (used ++ [tag]) } }
      let base := laceRemote m.target
      let cmd := match laceCmdOf s d p with | some c => c.cmd.toNat | none => 0
      some (each (laceChunks m.length) (fun (k : Nat × Nat) s => sendLace p ptGetReq 0 t cmd (windowOper (base + k.1) k.2) [] s) s)

/-- LACE_PUT and LACE_REDUCE (R301): recorded in the log, sent to a member as packets of up to 16 lines. -/
def laceWrite (d p mv : Nat) (img : Image) (m : MovDesc) (s : State) : Option State :=
  let r := (do
    let x := dieOf s d
    tokenLocal x m.token
    let x ← settle img (jobWord s d) [m.token] x
    let b ← readPan x (panEnt img m.pan) m.token (64 * m.offset) (64 * m.length)
    let x ← logAdd (laceRecord p (isMember s p)) x
    .ok (occupy (moverUnitKey mv) (moverSteps 5 m) { x with actSeq := x.actSeq + 1 }, b) : Act (DieSt × List Byte))
  match r with
  | .error .stall => none
  | .error e => some (stopWith d e s)
  | .ok (x, b) =>
    let s := setDie s d x
    let red := laceOp m.target = 2
    let base := laceRemote m.target
    if isMember s p then
      some (each (laceChunks m.length) (fun (k : Nat × Nat) s =>
        sendStaged d p (if red then ptReduce else ptPut) (if red then m.redOp else 0) (windowOper (base + k.1) k.2)
          ((b.drop (64 * k.1)).take (64 * k.2)) s) s)
    else some s

/-- LACE_SIGNAL (R300, R301). -/
def laceSig (d p mv : Nat) (m : MovDesc) (s : State) : Option State :=
  match dieStep d (fun x => do
      let x ← logAdd (laceRecord p (isMember s p)) x
      .ok (occupy (moverUnitKey mv) 1 { x with actSeq := x.actSeq + 1 })) s with
  | none => none
  | some s =>
    let r := laceRemote m.target
    let oper := bits r 0 4 + bits r 4 13 * 2 ^ 4 + bits r 17 16 * 2 ^ 32
    if running s d && isMember s p then some (sendStaged d p ptSignal 0 oper [] s) else some s

/-- A LACE operation issues (R301, R307, R385): an invalid partner, a missing key or a GET to a non-member ends the job;
it waits while the retransmit buffer is full, a counter would wrap or a RELEASE is pending. -/
def laceMover (d : Nat) (img : Image) (mv : Nat) (a : MoverArgs) (s : State) : Option State :=
  let m := movDesc img a.desc.toNat
  let p := lacePartner m.target
  let e := partnerOf s p
  let get := laceOp m.target = 1
  if !releaseClear s d then none
  else if p = s.lacing.memb.pkgId.toNat || !e.valid || (get && !isMember s p) then
    some (drew (stopWith d (.failing 0x0715 [p, openReason s]) s))
  else match laceKeyOf s p with
    | none => some (stopWith d (.failing 0x0904 [p, e.rxContext.toNat]) s)
    | some k =>
      if k.ctx.toNat ≠ ctxOn s d then some (stopWith d (.failing 0x0904 [p, e.rxContext.toNat]) s)
      else if k.nonce = BitVec.allOnes 64 || retransmitFull s p then none
      else if get then laceGet d p mv img m s
      else if laceOp m.target = 3 then laceSig d p mv m s
      else laceWrite d p mv img m s

/-! ## Dispatch by operation -/

/-- A mover action (R112) on a running die. -/
def moverAct (d : Nat) (img : Image) (op mv : Nat) (a : MoverArgs) (s : State) : Option State :=
  if !running s d then some s
  else match op with
    | 1 => memoryMover d img 1 mv a s
    | 2 => memoryMover d img 2 mv a s
    | 3 => copyMover d img mv a s
    | 4 => memoryMover d img 4 mv a s
    | 5 => laceMover d img mv a s
    | _ => some s

/-- Whether mover m is one the job names (R87). -/
def moverNamed (img : Image) (m : Nat) : Bool := bits (imageSect img).useUnits (4 + m) 1 = 1

/-- The action of a mover slot (R112). -/
def moverStart (d : Nat) (img : Image) (a : UnitAct) (s : State) : Option State :=
  match a with
  | .mover op mv args => moverAct d img op mv args s
  | _ => some s

def issueMover (d : Nat) (img : Image) (op mv : Nat) (a : MoverArgs) (s : State) : State :=
  issueAct d (moverSteps op (movDesc img a.desc.toNat)) img (.mover op mv a) (moverStart d img (.mover op mv a)) s

/-- A mover row. `lop` is the LACE operation the row stands for. -/
def moverRow (d op mv : Nat) (a : MoverArgs) (lop : Option Nat) (s : State) : State :=
  match (dieOf s d).image with
  | none => s
  | some img =>
    let fits := match lop with | some l => laceOp (movDesc img a.desc.toNat).target = l | none => true
    if running s d && moverNamed img mv && fits && moverOk img op a.desc.toNat then issueMover d img op mv a s else s

/-! ## The rows -/

/-- MOVER_HOLD (R110, R112). -/
def execMoverHold (_d : Die) (_mv : BitVec 2) (s : State) : Host.Outcome State Fault Refusal := command (fun s => s) s
/-- GET (R112, R180, R212 to R224, R235, R237, R266). -/
def execGet (d : Die) (mv : BitVec 2) (a : MoverArgs) (s : State) : Host.Outcome State Fault Refusal :=
  command (moverRow d 1 mv.toNat a none) s
/-- PUT (R112, R180, R181). -/
def execPut (d : Die) (mv : BitVec 2) (a : MoverArgs) (s : State) : Host.Outcome State Fault Refusal :=
  command (moverRow d 2 mv.toNat a none) s
/-- COPY (R102, R104, R112). -/
def execCopy (d : Die) (mv : BitVec 2) (a : MoverArgs) (s : State) : Host.Outcome State Fault Refusal :=
  command (moverRow d 3 mv.toNat a none) s
/-- HRED (R112, R180, R181). -/
def execHred (d : Die) (mv : BitVec 2) (a : MoverArgs) (s : State) : Host.Outcome State Fault Refusal :=
  command (moverRow d 4 mv.toNat a none) s
/-- LACE_PUT (R300, R301). -/
def execLacePut (d : Die) (mv : BitVec 2) (a : MoverArgs) (s : State) : Host.Outcome State Fault Refusal :=
  command (moverRow d 5 mv.toNat a (some 0)) s
/-- LACE_GET (R300, R301, R304). -/
def execLaceGet (d : Die) (mv : BitVec 2) (a : MoverArgs) (s : State) : Host.Outcome State Fault Refusal :=
  command (moverRow d 5 mv.toNat a (some 1)) s
/-- LACE_REDUCE (R300, R301). -/
def execLaceReduce (d : Die) (mv : BitVec 2) (a : MoverArgs) (s : State) : Host.Outcome State Fault Refusal :=
  command (moverRow d 5 mv.toNat a (some 2)) s
/-- LACE_SIGNAL (R300, R301). -/
def execLaceSignal (d : Die) (mv : BitVec 2) (a : MoverArgs) (s : State) : Host.Outcome State Fault Refusal :=
  command (moverRow d 5 mv.toNat a (some 3)) s

end Sys2Proof.Machine
end

