-- ==== Sys2Proof/Machine/Control.lean ====
section
/-! DEFINITION. The control slot (R113 to R119): scalars and branches, tokens, signals and lending (R103 to R107), fences,
ACQUIRE and RELEASE (R115, R116, R238), COMMIT, HINT.PHASE and FAULT. An action answers none while it cannot start. -/

namespace Sys2Proof.Machine

/-! ## Branches and scalars (R114, R120) -/

/-- A taken branch: issue continues at TARGET, and the words fetched beyond the bundle are discarded and counted (R120). -/
def branchTo (target endPos : Nat) (x : DieSt) : DieSt :=
  { x with seq := { x.seq with pos := target, fetchedTo := target,
                               discardedWords := bump x.seq.discardedWords (x.seq.fetchedTo - endPos) } }

/-- A sign-extended immediate. -/
def simm (n v : Nat) : W64 := BitVec.ofInt 64 (signed n v)

def loopAct (lc target endPos : Nat) (x : DieSt) : DieSt :=
  let v := lcOf x lc - 1
  let x := setLc lc v x
  if v ≠ 0 then branchTo target endPos x else x

/-- The conditions of BRC (R113). -/
def condHolds (cond : Nat) (a b : W64) : Bool :=
  match cond with
  | 0 => a = b
  | 1 => a ≠ b
  | 2 => a.toInt < b.toInt
  | 3 => b.toInt ≤ a.toInt
  | 4 => a.toNat < b.toNat
  | 5 => b.toNat ≤ a.toNat
  | _ => false

def brcAct (sv cond imm target endPos : Nat) (x : DieSt) : DieSt :=
  if condHolds cond (svOf x sv) (simm 16 imm) then branchTo target endPos x else x

def setsvAct (sv imm : Nat) (x : DieSt) : DieSt := setSv sv (simm 32 imm) x
def addsvAct (sv imm : Nat) (x : DieSt) : DieSt := setSv sv (svOf x sv + simm 32 imm) x

/-- Every earlier access that names a token completes, or the sequencer waits for it (R98, R104, R105). -/
def settleAll (img : Image) (job : W64) (t : Nat) (x : DieSt) : Act DieSt :=
  if deferredNames img x t then .error .stall else settle img job [t] x

/-- LDS (R114). -/
def ldsAct (img : Image) (job : W64) (a : ScalarMem) (x : DieSt) : Act DieSt := do
  tokenLocal x a.token.toNat
  let addr ← scalarAddr img x a
  let x ← settleAll img job a.token.toNat x
  let b ← readPan x (panEnt img (tokEnt img a.token.toNat).pan) a.token.toNat addr 8
  .ok (setSv a.sv.toNat (BitVec.ofNat 64 (leNat b)) x)

/-- STS (R114). -/
def stsAct (img : Image) (job : W64) (a : ScalarMem) (x : DieSt) : Act DieSt := do
  tokenLocal x a.token.toNat
  let addr ← scalarAddr img x a
  let x ← settleAll img job a.token.toNat x
  writePan (panEnt img (tokEnt img a.token.toNat).pan) addr (leBytes 8 (svOf x a.sv.toNat).toNat) x

/-! ## Remote COPYs at the receiver (R106, R107) -/

/-- Whether a remote COPY may be applied: its token is LENT with L above SEQ and the count equals SEQ. -/
def admitted (x : DieSt) (c : RemoteCopy) : Bool :=
  let t := tokOf x c.token.toNat
  (t.lent.any fun l => c.seq.toNat < l.toNat) && t.count = c.seq

/-- Writes a remote COPY into the pan of its token (R106, R180, R181). -/
def applyCopy (d : Nat) (c : RemoteCopy) (s : State) : State :=
  match (dieOf s d).image with
  | none => s
  | some img => onDie d (writePan (panEnt img (tokEnt img c.token.toNat).pan) (64 * c.line) c.lines.flatten) s

/-- Applies the held COPYs of a die that are now admitted, in arrival order; what remains stays held. -/
def applyHeld (d : Nat) (s : State) : State :=
  let hs := (dieOf s d).heldCopies
  (each hs (fun c s =>
    if admitted (dieOf s d) c then
      tryDrainOn c.src (applyCopy d c
        (updDie s d fun x => { x with heldCopies := x.heldCopies.filter fun h => h.id ≠ c.id || h.src ≠ c.src }))
    else s) s)

/-- One of several candidates: the only one, or one of them drawn at will, since R21 orders messages of one source alone (log 121). -/
def anyOne {α : Type} (l : List α) (s : State) : Option (α × State) :=
  match l with
  | [] => none
  | [a] => some (a, s)
  | _ => (l[(Config.freeWord s.free).toNat % l.length]?).map (·, drew s)

/-- The message that arrives at a die next: the oldest of some source (R21). -/
def nextCopy (s : State) (d : Nat) : Option (RemoteCopy × State) :=
  anyOne ((List.range 8).filterMap fun q => s.copyNet.find? fun c => c.dst == d && c.src == q) s

def copyReceived (d : Nat) (s : State) : State :=
  match nextCopy s d with
  | none => s
  | some (c, s) =>
    if paused s d then s
    else
      let s := linksGood c.src d { s with copyNet := s.copyNet.filter fun h => h.id ≠ c.id || h.src ≠ c.src }
      if admitted (dieOf s d) c then tryDrainOn c.src (applyCopy d c s)
      else updDie s d fun x => { x with heldCopies := x.heldCopies ++ [c] }

/-! ## Signals (R103, R104) -/

/-- Adds an increment to a token's count; COPYs that waited for it may then be applied. -/
def addCount (d t : Nat) (inc : BitVec 32) (s : State) : State :=
  applyHeld d (updDie s d (updTok t fun k => { k with count := k.count + inc }))

/-- An own SIGNAL applies once every access naming the token that the die issued before it is complete (R104). -/
def ownReady (s : State) (g : RemoteSignal) : Bool :=
  match (dieOf s g.dst).image with
  | some img => g.src ≠ g.dst || (match settleAll img (jobWord s g.dst) g.token.toNat (dieOf s g.dst) with | .error .stall => false | _ => true)
  | none => true

/-- Whether a SIGNAL on its way may be delivered: every remote COPY to its (rank, token) issued earlier, and all that a RELEASE before
it waits for, has been applied (R104, R116). -/
def deliverable (s : State) (g : RemoteSignal) : Bool :=
  !(copiesOut s g.src g.id).any (fun c => c.dst = g.dst && c.token = g.token) && (copiesOut s g.src g.barrier).isEmpty
    && laceClear s g.src g.barrier g.lace && ownReady s g

/-- Delivers a SIGNAL: an own one completes the accesses it waited for first (R103, R104). -/
def deliverSignal (g : RemoteSignal) (s : State) : State :=
  let add := fun (s : State) => addCount g.dst g.token.toNat (g.inc.zeroExtend 32) s
  match (if g.src = g.dst then (dieOf s g.dst).image else none) with
  | none => add s
  | some img =>
    match dieStep g.dst (settleAll img (jobWord s g.dst) g.token.toNat) s with
    | some t => if (dieOf t g.dst).seq.state == .killing then t else add t
    | none => s

/-- The SIGNAL that arrives at a die next: the oldest of some source that may be delivered. -/
def nextSignal (s : State) (d : Nat) : Option (RemoteSignal × State) :=
  anyOne ((List.range 8).filterMap fun q => s.sigNet.find? fun g => g.dst == d && g.src == q && deliverable s g) s

def signalReceived (d : Nat) (s : State) : State :=
  match nextSignal s d with
  | none => s
  | some (g, s) =>
    if paused s d then s
    else
      let s := { s with sigNet := s.sigNet.filter fun h => h.id ≠ g.id || h.src ≠ g.src }
      tryDrainOn g.src (deliverSignal g (if g.src = d then s else linksGood g.src d s))

/-- SIGNAL (R104, R165): it issues at once and is sent; one to the die itself applies now when nothing it waits for is under way. With
RANK 0xF its issue counts as an own signal and may open gates. A SIGNAL naming a token the die itself has LENT faults nothing: it is how
a count moves (R105; log 116). -/
def signalAct (d : Nat) (rank t : Nat) (inc : BitVec 16) (s : State) : Option State :=
  let q := if rank = 0xF then rankOf s d else rank
  match dieOfRank s d q with
  | none => some s
  | some dst =>
    let x := dieOf s d
    let g : RemoteSignal := { id := x.actSeq, src := d, dst, token := BitVec.ofNat 13 t, inc, barrier := x.barrier, lace := x.relLace }
    let s := updDie s d fun x =>
      { x with actSeq := x.actSeq + 1, sent := SMap.upd 0 x.sent (sentKey q t) (· + inc.zeroExtend 32) }
    let s := if dst = d && deliverable s g then deliverSignal g s else { s with sigNet := s.sigNet ++ [g] }
    some (if rank = 0xF && (dieOf s d).seq.state != .killing then promote d (updDie s d (ownSignal t inc)) else s)

/-- LEND (R105): after every earlier access to the token, which COPYs may then enter. A second LEND of a LENT token sets its limit anew
(log 116). -/
def lendAct (d : Nat) (img : Image) (t : Nat) (limit : BitVec 32) (s : State) : Option State :=
  (dieStep d (fun x => do
    let x ← settleAll img (jobWord s d) t x
    .ok (updTok t (fun k => { k with lent := some limit }) x)) s).map (applyHeld d)

/-! ## WAIT (R105, R125) -/

def waitAct (t : Nat) (n : BitVec 32) (now : BitVec 64) (x : DieSt) : DieSt :=
  { x with wait := some { token := BitVec.ofNat 13 t, count := n, start := now, word := x.seq.pos }, seq := { x.seq with state := .waiting } }

/-- A WAIT completes once its count is reached; a token LENT with L at most n returns to LOCAL (R105, R123). -/
def waitComplete (d : Nat) (s : State) : State :=
  let x := dieOf s d
  match x.wait with
  | none => s
  | some w =>
    let t := w.token.toNat
    if x.seq.state == .waiting && !paused s d && w.count.toNat ≤ (tokOf x t).count.toNat then
      updDie s d fun x =>
        let x := endWait s.time x
        let x := updTok t (fun k => { k with lent := k.lent.filter fun l => w.count.toNat < l.toNat }) x
        { x with seq := { x.seq with state := .running } }
    else s

/-- A WAIT has outlasted WAIT_LIMIT (R87, R125). -/
def waitTimeout (d : Nat) (s : State) : State :=
  let x := dieOf s d
  match x.wait, x.image with
  | some w, some img =>
    let limit := (imageSect img).waitLimit
    if x.seq.state == .waiting && limit ≠ 0 && limit < (s.time - w.start).toNat then
      stopWith d (.contained 0x0608 [w.token.toNat, w.count.toNat]) s
    else s
  | _, _ => s

/-! ## Fences, ACQUIRE, RELEASE, HINT, FAULT -/

/-- FENCE.L: later mover reads begin after earlier ones have completed. -/
def fenceLAct (x : DieSt) : DieSt := { x with fenceL := x.actSeq }

/-- FENCE.S: a point in the log, numbered by the actions issued before it, that their entries drain before. -/
def fenceSAct (x : DieSt) : DieSt :=
  { x with log := x.log ++ [{ kind := .fence, addr := x.actSeq, data := [], mask := 0, key := none }] }

/-- FENCE.LS: both, and reads and writes of memory on either side wait for each other. -/
def fenceLsAct (x : DieSt) : DieSt := { fenceLAct (fenceSAct x) with fenceX := x.actSeq }

/-- ACQUIRE (R116, R238): every earlier access completes, then the queued invalidations are applied. Feeder and operand
read-ahead holds nothing in this model. -/
def acquireAct (d : Nat) (img : Image) (s : State) : Option State :=
  let x := dieOf s d
  if actsHeld x || !x.getTokens.isEmpty || !x.deferred.isEmpty || !(copiesOut s d x.actSeq).isEmpty then none
  else dieStep d (fun x => do
    let x ← x.passes.foldl (fun (r : Act DieSt) f => r.bind (finishPass img (jobWord s d) f)) (.ok x)
    .ok (applyInvals x)) s

/-- RELEASE (R116, R240): later SIGNALs, remote COPYs and LACE operations wait for what was issued before it. -/
def releaseAct (d : Nat) (s : State) : State :=
  let pend := (lacePartners (dieOf s d)).filterMap fun p =>
    if (partnerOf s p).retransmit.isEmpty then none else some (p, (partnerOf s p).lseqTx - 1)
  updDie s d fun x => { x with barrier := x.actSeq, relLace := pend }

/-- HINT.PHASE (R118, R367). -/
def hintAct (d level horizon : Nat) (s : State) : State :=
  updDie (setLevel d level s) d fun x => { x with hintEnd := some (x.seq.step.toNat + horizon) }

/-- HINT_HORIZON_END (R367): a compute die's horizon counts logical steps, a processor die's ticks. -/
def hintEnds (site : Nat) (s : State) : State :=
  if site < 8 then
    match (dieOf s site).hintEnd with
    | some n => if n ≤ (dieOf s site).seq.nextStep then setLevel site 2 (updDie s site fun x => { x with hintEnd := none }) else s
    | none => s
  else
    match (railOf s site).horizonEnd with
    | some t => if t.toNat ≤ s.time.toNat then setLevel site 2 (updRail s site fun r => { r with horizonEnd := none }) else s
    | none => s

/-- FAULT (R119). The word index it posts is that of its bundle's header (log 114). -/
def faultAct (d : Nat) (code : Nat) (s : State) : State :=
  stopWith d (.program 0x0601 [code, (dieOf s d).seq.pos]) s

/-! ## Slot encodings (R113) -/

/-- The control slot's validity by itself (reason 0x03): bits not named for the opcode are zero. -/
def ctlValid (w : Nat) : Bool :=
  let z := fun lo n => bits w lo n = 0
  match bits w 56 8 with
  | 0x00 => z 0 56
  | 0x01 => z 24 32
  | 0x02 => z 27 29
  | 0x03 => z 32 16 && z 51 5
  | 0x04 => z 48 1 && z 24 8 && bits w 49 3 ≤ 5
  | 0x05 => z 32 20
  | 0x06 => z 32 20
  | 0x07 => z 24 10
  | 0x08 => z 24 10
  | 0x10 => z 45 11
  | 0x11 => z 49 7 && z 16 16 && bits w 0 16 ≠ 0
  | 0x12 => z 45 11
  | 0x18 => z 0 56
  | 0x19 => z 0 56
  | 0x1A => z 0 56
  | 0x1C => z 0 56
  | 0x1D => z 0 56
  | 0x20 => z 2 54
  | 0x28 => z 26 30
  | 0x30 => z 16 40
  | _ => false

/-- Where a control slot's branch goes, if it is taken. -/
def ctlTarget (w : Nat) (x : DieSt) : Option Nat :=
  let t := bits w 0 24
  match bits w 56 8 with
  | 0x01 => some t
  | 0x02 => if lcOf x (bits w 24 3) - 1 ≠ 0 then some t else none
  | 0x04 => if condHolds (bits w 49 3) (svOf x (bits w 52 4)) (simm 16 (bits w 32 16)) then some t else none
  | _ => none

/-- The control slot's action on a running die. -/
def ctlAct (d : Nat) (img : Image) (w endPos : Nat) (s : State) : Option State :=
  let imm := bits w 0 32
  let t := bits w 32 13
  let on := fun (f : DieSt → DieSt) => some (updDie s d f)
  if !running s d then some s
  else match bits w 56 8 with
    | 0x01 => on (branchTo (bits w 0 24) endPos)
    | 0x02 => on (loopAct (bits w 24 3) (bits w 0 24) endPos)
    | 0x03 => on (setLc (bits w 48 3) (BitVec.ofNat 32 imm))
    | 0x04 => on (brcAct (bits w 52 4) (bits w 49 3) (bits w 32 16) (bits w 0 24) endPos)
    | 0x05 => on (setsvAct (bits w 52 4) imm)
    | 0x06 => on (addsvAct (bits w 52 4) imm)
    | 0x07 => dieStep d (ldsAct img (jobWord s d) (scalarMem w)) s
    | 0x08 => dieStep d (stsAct img (jobWord s d) (scalarMem w)) s
    | 0x10 => on (waitAct t (BitVec.ofNat 32 imm) s.time)
    | 0x11 => signalAct d (bits w 45 4) t (BitVec.ofNat 16 (bits w 0 16)) s
    | 0x12 => lendAct d img t (BitVec.ofNat 32 imm) s
    | 0x18 => on fenceLAct
    | 0x19 => on fenceSAct
    | 0x1A => on fenceLsAct
    | 0x1C => acquireAct d img s
    | 0x1D => some (releaseAct d s)
    | 0x20 => (dieStep d (commitAct (bits w 0 1 = 1) (bits w 1 1 = 1)) s).map (tryDrainOn d)
    | 0x28 => some (hintAct d (bits w 24 2) (bits w 0 24) s)
    | 0x30 => some (faultAct d (bits w 0 16) s)
    | _ => some s

/-- A control row: the action on a running die whose job is loaded; one that cannot start has not happened (log 1). -/
def ctlRow (d : Nat) (act : Image → State → Option State) (s : State) : State :=
  match (dieOf s d).image with
  | some img => if running s d then (act img s).getD s else s
  | none => s

/-- A control row that acts on the die's own state alone. -/
def ctlLocal (d : Nat) (f : DieSt → DieSt) (s : State) : State := ctlRow d (fun _ s => some (updDie s d f)) s

/-- Whether a static scalar access lies in its token's region (R96). -/
def scalarFits (img : Image) (a : ScalarMem) : Bool :=
  let t := tokEnt img a.token.toNat
  a.token ≠ 0 && t.pan ≠ 0 && (a.idx || 8 * a.offset.toNat + 8 ≤ 64 * t.length)

/-! ## The rows -/

/-- NOP (R113). -/
def execNop (_d : Die) (s : State) : Host.Outcome State Fault Refusal := command (fun s => s) s
/-- BR (R114, R120). -/
def execBr (d : Die) (target : BitVec 24) (s : State) : Host.Outcome State Fault Refusal :=
  command (fun s => ctlLocal d (fun x => branchTo target.toNat x.seq.pos x) s) s
/-- LOOP (R114, R120). -/
def execLoopOp (d : Die) (lc : BitVec 3) (target : BitVec 24) (s : State) : Host.Outcome State Fault Refusal :=
  command (fun s => ctlLocal d (fun x => loopAct lc.toNat target.toNat x.seq.pos x) s) s
/-- SETLC (R114). -/
def execSetlc (d : Die) (lc : BitVec 3) (imm : BitVec 32) (s : State) : Host.Outcome State Fault Refusal :=
  command (ctlLocal d (setLc lc.toNat imm)) s
/-- BRC (R113, R114, R120). -/
def execBrc (d : Die) (sv : BitVec 4) (cond : BitVec 3) (imm : BitVec 16) (target : BitVec 24) (s : State) :
    Host.Outcome State Fault Refusal :=
  command (fun s => ctlLocal d (fun x => brcAct sv.toNat cond.toNat imm.toNat target.toNat x.seq.pos x) s) s
/-- SETSV (R114). -/
def execSetsv (d : Die) (sv : BitVec 4) (imm : BitVec 32) (s : State) : Host.Outcome State Fault Refusal :=
  command (ctlLocal d (setsvAct sv.toNat imm.toNat)) s
/-- ADDSV (R114). -/
def execAddsv (d : Die) (sv : BitVec 4) (imm : BitVec 32) (s : State) : Host.Outcome State Fault Refusal :=
  command (ctlLocal d (addsvAct sv.toNat imm.toNat)) s
/-- LDS (R96, R97, R114). -/
def execLds (d : Die) (a : ScalarMem) (s : State) : Host.Outcome State Fault Refusal :=
  command (ctlRow d (fun img s => if scalarFits img a then dieStep d (ldsAct img (jobWord s d) a) s else none)) s
/-- STS (R96, R97, R114). -/
def execSts (d : Die) (a : ScalarMem) (s : State) : Host.Outcome State Fault Refusal :=
  command (ctlRow d (fun img s => if scalarFits img a then dieStep d (stsAct img (jobWord s d) a) s else none)) s
/-- WAIT (R105). -/
def execWait (d : Die) (token : BitVec 13) (count : BitVec 32) (s : State) : Host.Outcome State Fault Refusal :=
  command (fun s => ctlLocal d (waitAct token.toNat count s.time) s) s
/-- WAIT_COMPLETE (R105, R107, R122, R123). -/
def execWaitComplete (d : Die) (s : State) : Host.Outcome State Fault Refusal := command (waitComplete d) s
/-- WAIT_TIMEOUT (R125). -/
def execWaitTimeout (d : Die) (s : State) : Host.Outcome State Fault Refusal := command (waitTimeout d) s
/-- SIGNAL (R104, R165). -/
def execSignal (d : Die) (rank : BitVec 4) (token : BitVec 13) (inc : BitVec 16) (s : State) : Host.Outcome State Fault Refusal :=
  command (ctlRow d (fun _ s => signalAct d rank.toNat token.toNat inc s)) s
/-- REMOTE_SIGNAL_RECEIVED (R103, R104). -/
def execRemoteSignalReceived (d : Die) (s : State) : Host.Outcome State Fault Refusal := command (signalReceived d) s
/-- LEND (R105, R106). -/
def execLend (d : Die) (token : BitVec 13) (limit : BitVec 32) (s : State) : Host.Outcome State Fault Refusal :=
  command (ctlRow d (fun img s => lendAct d img token.toNat limit s)) s
/-- REMOTE_COPY_RECEIVED (R106, R107, R181). -/
def execRemoteCopyReceived (d : Die) (s : State) : Host.Outcome State Fault Refusal := command (copyReceived d) s
/-- FENCE_L (R115). -/
def execFenceL (d : Die) (s : State) : Host.Outcome State Fault Refusal := command (ctlLocal d fenceLAct) s
/-- FENCE_S (R115, R236). -/
def execFenceS (d : Die) (s : State) : Host.Outcome State Fault Refusal := command (ctlLocal d fenceSAct) s
/-- FENCE_LS (R115). -/
def execFenceLs (d : Die) (s : State) : Host.Outcome State Fault Refusal :=
  command (ctlLocal d fenceLsAct) s
/-- ACQUIRE (R116, R238). -/
def execAcquire (d : Die) (s : State) : Host.Outcome State Fault Refusal := command (ctlRow d (acquireAct d)) s
/-- RELEASE (R116, R240). -/
def execRelease (d : Die) (s : State) : Host.Outcome State Fault Refusal :=
  command (ctlRow d (fun _ s => some (releaseAct d s))) s
/-- COMMIT (R56, R117, R181, R182). -/
def execCommit (d : Die) (last : Bool) (sb : Bool) (s : State) : Host.Outcome State Fault Refusal :=
  command (ctlRow d (fun _ s => (dieStep d (commitAct last sb) s).map (tryDrainOn d))) s
/-- HINT_PHASE (R118, R367). -/
def execHintPhase (d : Die) (level : BitVec 2) (horizon : BitVec 24) (s : State) : Host.Outcome State Fault Refusal :=
  command (ctlRow d (fun _ s => some (hintAct d level.toNat horizon.toNat s))) s
/-- HINT_HORIZON_END (R367). -/
def execHintHorizonEnd (site : Nat) (s : State) : Host.Outcome State Fault Refusal := command (hintEnds site) s
/-- FAULT (R119, R125). -/
def execFaultOp (d : Die) (code : BitVec 16) (s : State) : Host.Outcome State Fault Refusal :=
  command (ctlRow d (fun _ s => some (faultAct d code.toNat s))) s

end Sys2Proof.Machine
end

