-- ==== Sys2Proof/Machine/PowerRows.lean ====
section
/-! DEFINITION. The power manager's events (R352, R356 to R365, R368): estimates and caps, droop pauses, trips, thermal control. -/

namespace Sys2Proof.Machine

/-! ## The estimate and its charges (R357, R368) -/

/-- What the meters and counters give for one interval. -/
def noteMeter (m : PowerMeter) (s : State) : State :=
  let s := { s with power := { s.power with
    meter := BitVec.ofNat 32 m.meterMw, vin := BitVec.ofNat 16 m.vinMv,
    counts := m.counts.foldl (fun c (x : Nat × Nat × Nat) => SMap.set 0 c (32 * x.1 + x.2.1) x.2.2) [] } }
  each m.meas (fun (x : Nat × Nat) s => updRail s x.1 (fun r => { r with meas := BitVec.ofNat 12 x.2 })) s

/-- The package estimate without its trim. -/
def rawMw (s : State) : Nat := pkgMw { s with power := { s.power with trim := 10000 } } (measMv s)

/-- Charges an interval's energy, in nJ: each running die's estimate to its job, the rest shared in proportion (R368,
log 73). -/
def chargeJobs (p : Nat) (s : State) : State :=
  let own := fun (s : State) (d : Nat) => siteMw s d (measMv s d)
  let total := sumList ((runningDies s).map (own s))
  let s0 := s
  if total = 0 then s
  else each (runningDies s) (fun d s =>
    match (dieOf s d).job with
    | some k => updJob s k fun j => { j with energyNj := j.energyNj + 2 * p * own s0 d / total }
    | none => s) s

/-! ## Caps (R359, R364, R369) -/

/-- The site estimate scaled to what it would be without token throttling. -/
def openMw (s : State) (cleared : List Nat) (i : Nat) : Nat :=
  let t := (railOf s i).throttle.toNat
  if cleared.contains i then (dynMw s i (measMv s i) * 64 / (64 - t) + leakMw s i (measMv s i)) * s.power.trim / 10000
  else siteMw s i (measMv s i)

/-- Whether the model predicts no cap exceeded with some dies unthrottled. -/
def openWithin (s : State) (cleared : List Nat) : Bool :=
  (caps s).all fun c =>
    match c.1 with
    | none => sumList (railSites.map (openMw s cleared)) * 10000 / Config.efficiency (s.time.toNat / 200) ≤ c.2
    | some d => openMw s cleared d ≤ c.2

/-- Clears THROTTLE where the model predicts no cap exceeded without it. -/
def clearThrottles (s : State) : State :=
  let ds := (List.range 10).filter fun d => (railOf s d).throttle ≠ 0
  let cleared := ds.foldl (fun l d => if openWithin s (d :: l) then d :: l else l) []
  each cleared (fun d s => updRail s d (fun r => { r with throttle := 0 })) s

/-- The rail to lower next: a borrower first, then the highest setpoint (R364; the order among others: log 73). -/
def lowerNext (s : State) (ds : List Nat) : Option Nat :=
  let up := ds.filter fun d => 450 < setMv s d
  match up.find? fun d => (railOf s d).borrower with
  | some d => some d
  | none => up.foldl (fun b d => match b with | some x => if setMv s x < setMv s d then some d else b | none => some d) none

/-- Lowers the setpoints of the dies under a cap in 5 mV steps until the model predicts 97 % of it or less. -/
def lowerUntil (c : Option Nat × Nat) : Nat → State → State
  | 0, s => s
  | n + 1, s =>
    if 100 * capLoad s (atSetpoints s) c.1 ≤ 97 * c.2 then s
    else match lowerNext s (diesUnder s c.1) with
      | some d =>
        let s := updRail s d (fun r => { r with setpoint := BitVec.ofNat 12 (setMv s d - 5), slewing := true })
        lowerUntil c n (updRail s d (fun r => { r with borrower := r.borrower && 700 < r.setpoint.toNat }))
      | none => s

/-- Acts on one exceeded cap; in FALLBACK setpoints are frozen and the Cowbell only throttles (R369, R418). -/
def enforceCap (c : Option Nat × Nat) (s : State) : State :=
  let load := capLoad s (measMv s) c.1
  if load ≤ c.2 then s
  else
    let s := throttleFor c load s
    if s.power.fallback then s else lowerUntil c 1000 s

/-- A cap is first exceeded: APLIC source 3, 0x0104, CAPPED; it clears after 1 ms with none exceeded. -/
def noteCaps (excess : List (Option Nat × Nat)) (s : State) : State :=
  match excess with
  | c :: _ =>
    let first := !s.power.capped
    let load := capLoad s (measMv s) c.1
    let s := { s with power := { s.power with capped := true, lastExcess := some s.time } }
    if first then raiseSource 3 (post 0x0104 (match c.1 with | some d => d | none => noSite) [c.2, load] s) else s
  | [] =>
    if s.power.lastExcess.all fun t => 100000 ≤ since s t then { s with power := { s.power with capped := false } } else s

/-- Whether a 2 us interval has ended since the last estimate: intervals begin at multiples of 200 ticks (R357). -/
def intervalDue (s : State) : Bool := !s.power.off && s.power.intervals < s.time.toNat / 200

/-- ESTIMATOR_INTERVAL: the end of a 2 us interval, once for each (R7, R357, log 137). -/
def interval (m : PowerMeter) (s : State) : State :=
  if !intervalDue s then s
  else
    let s := noteMeter m { s with power := { s.power with intervals := s.time.toNat / 200 } }
    let p := pkgMw s (measMv s)
    let s := { s with power := { s.power with est := BitVec.ofNat 32 p, totalNj := s.power.totalNj + 2 * p,
                                              secondNj := s.power.secondNj + 2 * rawMw s } }
    let s := chargeJobs p s
    let live := if s.power.fallback then (caps s).take 1 else caps s
    let excess := live.filter fun c => c.2 < capLoad s (measMv s) c.1
    let s := noteCaps excess (each live enforceCap s)
    if excess.isEmpty && !(List.range 10).any (fun i => (railOf s i).slewing) then clearThrottles s else s

/-- Whether a second of the timebase has ended since the last comparison (R358, log 137). -/
def secondDue (s : State) : Bool := s.power.seconds < s.time.toNat / msTicks 1000

/-- TRIM_UPDATE: the ratio of the meter to the estimate over the last second, clamped to 0.90-1.10; once a second (R7, R358). -/
def trimUpdate (meterMj : Nat) (s : State) : State :=
  if !secondDue s then s else
  let sum := s.power.secondNj
  let s := { s with power := { s.power with secondNj := 0, seconds := s.time.toNat / msTicks 1000 } }
  if sum = 0 || !dairymanUp s then s
  else
    let ratio := meterMj * 1000000 * 10000 / sum
    let s := { s with power := { s.power with trim := max 9000 (min 11000 ratio) } }
    if (ratio < 9000 || 11000 < ratio) && s.power.lastDisagree.all (fun t => msTicks 60000 ≤ since s t) then
      post 0x0103 noSite [ratio] { s with power := { s.power with lastDisagree := some s.time } }
    else s

/-- SLEW_COMPLETE: the rail stands at its setpoint. -/
def slewDone (i : Nat) (s : State) : State :=
  if (railOf s i).slewing then updRail s i (fun r => { r with slewing := false }) else s

/-! ## Droop pauses (R362) -/

def updLine (r : Nat) (f : RailLine → RailLine) (s : State) : State :=
  { s with power := { s.power with lines := SMap.upd {} s.power.lines r f } }

/-- The site of a rail (R33), and its rail number in events: 0 logic, 1 memory, 2 stack (log 74). -/
def railSite : RailId → Nat
  | .logic i => i
  | .memory i => i
  | .stack k => 16 + k
def railNum : RailId → Nat
  | .logic _ => 0
  | .memory _ => 1
  | .stack _ => 2

/-- Whether a rail is one of R353 and on. -/
def railOn (s : State) (r : RailId) : Bool :=
  (match r with | .logic i => i < 10 | .memory i => i < 10 | .stack k => k < 16) && (railOf s (railSite r)).state == .on

def droopBegin (r : RailId) (s : State) : State :=
  if !railOn s r || paused s (railKey r) then s
  else updLine (railKey r) (fun l => { l with pausedAt := some s.time })
    { s with power := { s.power with droopPauses := bump s.power.droopPauses } }

/-- A pause ends: 0x0105 with its duration, at most once a second per site; what waited for a slot write has not been
waiting while paused (R47, R167). -/
def droopEnd (r : RailId) (s : State) : State :=
  match (lineOf s (railKey r)).pausedAt with
  | none => s
  | some t =>
    let site := railSite r
    let s := updLine (railKey r) (fun l => { l with pausedAt := none }) s
    let s :=
      if (railOf s site).lastDroop.all fun u => msTicks 1000 ≤ since s u then
        post 0x0105 site [site, railNum r, since s t] (updRail s site (fun x => { x with lastDroop := some s.time }))
      else s
    match r with
    | .logic d =>
      let late := fun (p : PassFlight) => if p.entry.isSome then { p with arrived := p.arrived + (s.time - t) } else p
      tryDrainOn d (updDie s d fun x => { x with passes := x.passes.map late })
    | _ => s

/-! ## Trips (R356) -/

/-- A tripped rail: a compute or processor site is lost with its agent's link; a stack is lost with its data. -/
def tripRail (r : RailId) (s : State) : State :=
  match r with
  | .stack k =>
    let s := updRail s (16 + k) (fun x => { x with state := .tripped, meas := 0 })
    let s := updUnit s k (fun x => { x with tripped := true })
    post 0x0109 (siteUnit k) [k] (setSite (siteUnit k) stFault 8 s)
  | _ =>
    let i := railSite r
    domainFault 0x0413 siteW i i (updRail s i (fun x => { x with state := .tripped, setpoint := 0, meas := 0, throttle := 0, slewing := false }))

def overcurrent (r : RailId) (s : State) : State := if railOn s r then tripRail r s else s

/-- A memory rail paused for 100 us is treated as tripped (R362). -/
def memoryTrip (r : RailId) (s : State) : State :=
  match r, (lineOf s (railKey r)).pausedAt with
  | .memory _, some t =>
    if railOn s r && 10000 ≤ since s t then tripRail r (updLine (railKey r) (fun l => { l with pausedAt := none }) s) else s
  | _, _ => s

/-! ## Thermal control (R365) -/

/-- A sensor is ignored when it reads out of range (log 74) or more than 15 degrees apart from every neighbour. -/
def sensorBad (l : List Nat) (i : Nat) : Bool :=
  let v := (l[i]?).getD 0
  let near := (if i = 0 then [] else (l[i - 1]?).toList) ++ (l[i + 1]?).toList
  200 < v || (!near.isEmpty && near.all fun n => v + 15 < n || n + 15 < v)

/-- The valid sensors, as (index, temperature). -/
def goodSensors (l : List Nat) : List (Nat × Nat) := (l.zipIdx.map fun x => (x.2, x.1)).filter fun x => !sensorBad l x.1

/-- The hottest valid sensor. -/
def hottest (l : List Nat) : Nat × Nat := (goodSensors l).foldl (fun b x => if b.2 < x.2 then x else b) (0, 0)

/-- Reads a site's sensors: TJ_MAX, and 0x0204 for each newly ignored one. -/
def readSensors (i : Nat) (l : List Nat) (s : State) : State :=
  let bad := (List.range l.length).filter (sensorBad l)
  let known := (railOf s i).sensors
  let s := updRail s i (fun r => { r with tjMax := BitVec.ofNat 8 (hottest l).2, sensors := bad })
  each (bad.filter fun b => !known.contains b) (fun b s => post 0x0204 i [i, b] s) s

/-- The site whose logic rail thermal control lowers for a site: a stack's compute die, or the site itself. -/
def coolSite (i : Nat) : Nat := if 16 ≤ i then (i - 16) / 2 else i

def lowerTen (i : Nat) (s : State) : State :=
  let d := coolSite i
  let s := updRail s i fun r => { r with lastCool := some s.time }
  if hasLogic d then setPoint d (max 450 (setMv s d - 10)) s else s

/-- Whether 1 ms has passed since a site was last lowered for its heat (R365). -/
def coolDue (i : Nat) (s : State) : Bool := (railOf s i).lastCool.all fun t => msTicks 1 ≤ since s t

def noteThermal (s : State) : State :=
  { s with power := { s.power with thermal := railSites.any fun i => (railOf s i).hot && hasLogic (coolSite i) } }

/-- TJ_LIMIT: a site's hottest sensor has reached the limit. -/
def tjLimitAct (i : Nat) (l : List Nat) (s : State) : State :=
  let s := readSensors i l s
  let h := hottest l
  if (railOf s i).hot || h.2 < thermalLimit s then s
  else noteThermal (lowerTen i (raiseSource 2 (post 0x0201 i [i, h.1, h.2] (updRail s i (fun r => { r with hot := true })))))

/-- THERMAL_STEP: every 1 ms, 10 mV lower until the sensor is 2 degrees below the limit (R365, log 137). -/
def thermalStepAct (i : Nat) (l : List Nat) (s : State) : State :=
  let s := readSensors i l s
  if !(railOf s i).hot then s
  else noteThermal (if (hottest l).2 + 2 ≤ thermalLimit s then updRail s i (fun r => { r with hot := false })
    else if coolDue i s then lowerTen i s else s)

/-! ## The input (R352) -/

def inputAct (mv : Nat) (s : State) : State :=
  if mv < 38000 then s
  else
    let out := mv < 40000 || 60000 < mv
    let was := s.power.excursion
    let s := { s with power := { s.power with vin := BitVec.ofNat 16 mv, excursion := out } }
    if out && !was then post 0x0106 noSite [mv] s else s

/-! ## The rows -/

/-- ESTIMATOR_INTERVAL (R357, R359, R360, R364, R367 to R369). -/
def execEstimatorInterval (m : PowerMeter) (s : State) : Host.Outcome State Fault Refusal := command (interval m) s
/-- TRIM_UPDATE (R358, R369). -/
def execTrimUpdate (meterMj : Nat) (s : State) : Host.Outcome State Fault Refusal := command (trimUpdate meterMj) s
/-- SLEW_COMPLETE (R360). -/
def execSlewComplete (rail : Nat) (s : State) : Host.Outcome State Fault Refusal := command (slewDone rail) s
/-- DROOP_PAUSE (R360 to R362). -/
def execDroopPause (r : RailId) (s : State) : Host.Outcome State Fault Refusal := command (droopBegin r) s
/-- DROOP_PAUSE_END (R47, R362). -/
def execDroopPauseEnd (r : RailId) (s : State) : Host.Outcome State Fault Refusal := command (droopEnd r) s
/-- MEMORY_DROOP_TRIP (R356, R362). -/
def execMemoryDroopTrip (r : RailId) (s : State) : Host.Outcome State Fault Refusal := command (memoryTrip r) s
/-- RAIL_OVERCURRENT_TRIP (R356). -/
def execRailOvercurrentTrip (r : RailId) (s : State) : Host.Outcome State Fault Refusal := command (overcurrent r) s
/-- TJ_LIMIT (R282, R365). -/
def execTjLimit (site : Nat) (sensors : List Nat) (s : State) : Host.Outcome State Fault Refusal := command (tjLimitAct site sensors) s
/-- THERMAL_STEP (R365). -/
def execThermalStep (site : Nat) (sensors : List Nat) (s : State) : Host.Outcome State Fault Refusal :=
  command (thermalStepAct site sensors) s
/-- INPUT_RANGE (R352). -/
def execInputRange (mv : Nat) (s : State) : Host.Outcome State Fault Refusal := command (inputAct mv) s

end Sys2Proof.Machine
end

