-- ==== Sys2Proof/Machine/LaceIn.lean ====
section
/-! DEFINITION. The receiving side of a lace (R302 to R305): inbound staging, its lease, and the commit at the partner. -/

namespace Sys2Proof.Machine

/-! ## Staging -/

/-- The key of a sender's command in the staging table. -/
def stageAt (p cmd : Nat) : Nat := 2 ^ 32 * p + cmd

def stagingOf (s : State) (p cmd : Nat) : Option Staging := SMap.find s.lacing.staging (stageAt p cmd)

def putStaging (p cmd : Nat) (x : Staging) (s : State) : State :=
  { s with lacing := { s.lacing with staging := SMap.put s.lacing.staging (stageAt p cmd) x } }

/-- Discards a command's staging and any COMMIT held for it. -/
def discardStaging (p cmd : Nat) (s : State) : State :=
  let n := match stagingOf s p cmd with | some x => x.bytes | none => 0
  let s := { s with lacing := { s.lacing with staging := SMap.del s.lacing.staging (stageAt p cmd) } }
  updPartner s p (fun e => { e with stagedBytes := e.stagedBytes - BitVec.ofNat 64 n,
                                    heldCommits := e.heldCommits.filter (·.toNat != cmd) })

/-- The commands of a sender that hold staging here. -/
def stagedCmds (s : State) (p : Nat) : List Nat :=
  (s.lacing.staging.filter fun (x : Nat × Staging) => x.1 / 2 ^ 32 == p).map fun x => x.1 % 2 ^ 32

def discardAllFrom (p : Nat) (s : State) : State := each (stagedCmds s p) (discardStaging p) s

/-- Bytes of the inbound staging region in use, and its size (R302, R317). -/
def stagedTotal (s : State) : Nat := sumList (s.lacing.staging.map fun (x : Nat × Staging) => x.2.bytes)
def stageCapacity (s : State) : Nat := s.lacing.memb.stageSize.toNat * granBytes

/-- LSTAGE_USED: granules of the region in use (R317). -/
def stageUsed (s : State) : Nat := (stagedTotal s + granBytes - 1) / granBytes

/-! ## The window (R298, R299, R302) -/

/-- The window offset and lines that OPER of a PUT, GET_REQ or REDUCE names. -/
def operOffset (oper : BitVec 64) : Nat := bits oper.toNat 0 48
def operLines (oper : BitVec 64) : Nat := bits oper.toNat 48 8 + 1

/-- Whether lines from an offset lie inside a partner's window and the unified range. -/
def inWindow (s : State) (p off n : Nat) : Bool :=
  let e := partnerOf s p
  64 * (off + n) ≤ e.winGranules.toNat * granBytes && inUnified s (e.winBase.toNat * granBytes + 64 * off) (64 * n)

/-- The line number of a window offset. -/
def windowLine (s : State) (p off : Nat) : Nat := ((partnerOf s p).winBase.toNat * granBytes) / 64 + off

/-- Stages a PUT, REDUCE or SIGNAL, or answers STAGE_REFUSED (R302, R303). -/
def stage (ty : Nat) (k : Packet) (s : State) : State :=
  let p := k.src.toNat
  let cmd := k.cmd.toNat
  let refuse := fun (why : Nat) => sendLace p ptRefused why 0 cmd 0 [] (discardStaging p cmd s)
  let n := if ty = ptSignal then 0 else k.data.length
  if ty ≠ ptSignal && !inWindow s p (operOffset k.oper) (operLines k.oper) then refuse reasonWindow
  else if stagedTotal s + n > stageCapacity s then refuse reasonFull
  else
    let x := (stagingOf s p cmd).getD {}
    let s := putStaging p cmd { x with entries := x.entries ++ [(BitVec.ofNat 8 ty, k)], lease := s.time, bytes := x.bytes + n } s
    updPartner s p (fun e => { e with stagedBytes := e.stagedBytes + BitVec.ofNat 64 n })

/-! ## The commit at the partner (R305) -/

/-- The job that a partner's inbound SIGNALs target, by its serial. -/
def targetJob (s : State) (p : Nat) : Option (Nat × Job) :=
  let e := partnerOf s p
  s.jobs.find? fun (x : Nat × Job) => x.2.jobId == e.rxJob && x.2.ctx == e.rxContext

/-- Whether a job's token counts exist: saved, or on its dies since the load-time check ended (log 70). -/
def hasTokens (s : State) (j : Job) : Bool :=
  !j.saves.isEmpty || (!j.dies.isEmpty && j.dies.all fun d => (dieOf s d).start.isSome)

def raiseToken (t : Nat) (n : BitVec 32) (m : SMap TokenSt) : SMap TokenSt :=
  SMap.upd {} m t fun x => { x with count := x.count + n }

/-- Adds a lace SIGNAL's increment to a job's count (R103, R108, R188, R305). -/
def applySignal (k rank t : Nat) (n : BitVec 32) (s : State) : State :=
  match jobOf s k with
  | none => s
  | some j =>
    if !j.saves.isEmpty then
      updJob s k fun j => { j with saves := j.saves.mapIdx fun i (r : CmdStart) =>
        if i = rank then { r with tokens := raiseToken t n r.tokens } else r }
    else match j.dies[rank]? with
      | some d => updDie s d fun x => { x with tokens := raiseToken t n x.tokens, laceInc := SMap.upd 0 x.laceInc t (· + n) }
      | none => s

/-- Fields of a staged SIGNAL (R298). -/
def sigRank (k : Packet) : Nat := bits k.oper.toNat 0 4
def sigToken (k : Packet) : Nat := bits k.oper.toNat 4 13
def sigInc (k : Packet) : BitVec 32 := BitVec.ofNat 32 (bits k.oper.toNat 32 16)

/-- The lines of a staged PUT or REDUCE: line number and data. -/
def stagedLines (s : State) (p : Nat) (k : Packet) : List (Nat × LineData) :=
  (List.range (operLines k.oper)).map fun i =>
    (windowLine s p (operOffset k.oper) + i, fit 64 ((k.data.drop (64 * i)).take 64))

/-- The staged entries of a TYPE, in log order. -/
def entriesOf (x : Staging) (ty : Nat) : List Packet := (x.entries.filter fun e => e.1.toNat == ty).map (·.2)

/-- Applies a command's staging: PUT lines by WriteLine, then REDUCEs at the home caches, then the SIGNALs (R305). -/
def applyStaging (p : Nat) (x : Staging) (s : State) : State :=
  let s := each (entriesOf x ptPut) (fun k s =>
    each (stagedLines s p k) (fun (l : Nat × LineData) s => cohStoreLine l.1 (BitVec.allOnes 64) l.2 s) s) s
  let s := each (entriesOf x ptReduce) (fun k s =>
    each (stagedLines s p k) (fun (l : Nat × LineData) s => reduceLine (bits k.aux.toNat 0 3) l.1 l.2 s) s) s
  each (entriesOf x ptSignal) (fun k s =>
    match targetJob s p with
    | some (serial, _) => applySignal serial (sigRank k) (sigToken k) (sigInc k) s
    | none => s) s

/-- Places every granule that a command's staging writes, charged to RX_CONTEXT (R299). -/
def touchStaging (p : Nat) (x : Staging) (s : State) : Except (NoRoom × Nat) State :=
  let ks := entriesOf x ptPut ++ entriesOf x ptReduce
  let gs := (ks.flatMap fun k => (stagedLines s p k).map fun l => granuleOf (64 * l.1)).eraseDups
  gs.foldl (fun r g =>
    match r with
    | .error e => .error e
    | .ok t => match touchGranule g (partnerOf s p).rxContext.toNat none t with
      | .error e => .error (e, granuleAddr g)
      | .ok t => .ok t) (.ok s)

/-- Answers COMMIT_NAK and discards what is staged. -/
def nakCommit (p cmd why : Nat) (s : State) : State :=
  sendLace p ptCommitNak why 0 cmd 0 [] (discardStaging p cmd s)

/-- Handles a COMMIT that is first in its sender's order: it is applied, refused, or held while RX_JOB has never been placed
(R305). -/
def handleCommit (p cmd count : Nat) (s : State) : State :=
  match stagingOf s p cmd with
  | none => nakCommit p cmd reasonNoStaging s
  | some x =>
    if x.entries.length ≠ count then nakCommit p cmd reasonNoStaging s
    else
      let sigs := entriesOf x ptSignal
      let apply := fun (s : State) =>
        match touchStaging p x s with
        | .error (e, a) => nakCommit p cmd reasonFull (postNoRoom e (partnerOf s p).rxContext.toNat a s)
        | .ok s =>
          let s := discardStaging p cmd (applyStaging p x s)
          let s := updPartner s p (fun e => { e with applied := e.applied ++ [BitVec.ofNat 32 cmd],
                                                     commitsApplied := bump e.commitsApplied })
          sendLace p ptCommitAck 0 0 cmd 0 [] s
      if sigs.isEmpty then apply s
      else match targetJob s p with
        | some (_, j) =>
          if sigs.any fun k => j.gang ≤ sigRank k then nakCommit p cmd reasonRank s
          else if hasTokens s j then apply s
          else s
        | none => s

/-- Handles the COMMITs held from a sender in order until one stays held (R250, R305). -/
def heldLoop (p : Nat) : Nat → State → State
  | 0, s => s
  | n + 1, s =>
    match (partnerOf s p).heldCommits with
    | [] => s
    | c :: _ =>
      let count := match (stagingOf s p c.toNat).bind (·.commit) with | some v => v.toNat | none => 0
      let s := handleCommit p c.toNat count s
      if (partnerOf s p).heldCommits.head? = some c then
        if (stagingOf s p c.toNat).isSome then s else heldLoop p n (discardStaging p c.toNat s)
      else heldLoop p n s

def retryHeld (p : Nat) (s : State) : State := heldLoop p (partnerOf s p).heldCommits.length s

/-- Looks again at every held COMMIT once a job has been placed. -/
def retryCommits (s : State) : State := each (s.lacing.partners.map (·.1)) retryHeld s

/-- A COMMIT packet (R303, R305): a command applied already is acknowledged again; one whose staging a new epoch discarded is
answered EPOCH (R312); the first COMMIT restarts the lease; one behind a held COMMIT waits its turn. -/
def commitPkt (k : Packet) (s : State) : State :=
  let p := k.src.toNat
  let cmd := k.cmd.toNat
  let count := bits k.oper.toNat 0 32
  if (partnerOf s p).applied.contains k.cmd then sendLace p ptCommitAck 0 0 cmd 0 [] s
  else if (partnerOf s p).heldCommits.contains k.cmd then s
  else match stagingOf s p cmd with
    | none => nakCommit p cmd (if (partnerOf s p).epochGone.contains k.cmd then reasonEpoch else reasonNoStaging) s
    | some x =>
      let s := putStaging p cmd { x with commit := some (BitVec.ofNat 32 count), lease := s.time } s
      retryHeld p (updPartner s p (fun e => { e with heldCommits := e.heldCommits ++ [k.cmd] }))

end Sys2Proof.Machine
end

