-- ==== Sys2Proof/Machine/Stream.lean ====
section
/-! DEFINITION. Bundles (R89, R90), their issue (R91 to R93), fetch-ahead (R120) and the load-time check (R121). -/

namespace Sys2Proof.Machine

/-! ## Bundles -/

/-- A bundle header (R89) at a word of the stream. -/
structure Bundle where
  pos : Nat
  vats : List Nat
  churns : List Nat
  movers : List Nat
  ctrl : Bool
  length : Nat
  skip : Nat
  sound : Bool
  deriving DecidableEq, Repr

def setBits (w lo n : Nat) : List Nat := (List.range n).filter fun k => bits w (lo + k) 1 = 1

/-- The header at a word; `sound` when it satisfies R89 and R90, padding included. -/
def bundleAt (img : Image) (pos : Nat) : Bundle :=
  let w := streamWord img pos
  let v := setBits w 0 16
  let c := setBits w 16 4
  let m := setBits w 20 4
  let k := bits w 24 1 = 1
  let len := 1 + (v.length + 1) / 2 + c.length + m.length + (if k then 1 else 0)
  let pad := v.length % 2 = 0 || bits (streamWord img (pos + (v.length + 1) / 2)) 32 32 = 0
  { pos, vats := v, churns := c, movers := m, ctrl := k, length := bits w 25 5, skip := bits w 32 16,
    sound := bits w 30 2 = 0 && bits w 48 4 = 1 && bits w 52 12 = 0 && bits w 25 5 = len && pad }

/-- A slot of a bundle: its unit's key (vats 0-15, Churn 16-19, movers 20-23, control 24), its word index and its bits. -/
structure SlotRef where
  unit : Nat
  word : Nat
  code : Nat
  deriving DecidableEq, Repr

/-- The present slots in slot order (R90). -/
def slotsOf (img : Image) (b : Bundle) : List SlotRef :=
  let vatWords := (b.vats.length + 1) / 2
  let vs := b.vats.zipIdx.map fun (k, i) =>
    { unit := k, word := b.pos + 1 + i / 2, code := bits (streamWord img (b.pos + 1 + i / 2)) (32 * (i % 2)) 32 : SlotRef }
  let rest := b.churns.map churnUnitKey ++ b.movers.map moverUnitKey ++ (if b.ctrl then [24] else [])
  vs ++ rest.zipIdx.map fun (u, i) =>
    { unit := u, word := b.pos + 1 + vatWords + i, code := streamWord img (b.pos + 1 + vatWords + i) : SlotRef }

/-! ## Slots -/

def vatOp (w : Nat) : Nat := bits w 28 4
def moverOp (w : Nat) : Nat := bits w 60 4
def churnOpcode (w : Nat) : Nat := bits w 56 8

/-- Whether a slot is its unit's HOLD. -/
def isHold (z : SlotRef) : Bool :=
  if z.unit < 16 then vatOp z.code = 0 else if z.unit < 20 then churnOpcode z.code = 0 else if z.unit < 24 then moverOp z.code = 0
  else false

/-- Steps a slot's action occupies its unit (R65, R92, R134). -/
def slotSteps (img : Image) (z : SlotRef) : Nat :=
  let w := z.code
  if z.unit < 16 then
    let p := passEntries (vatDesc (vatDescAt img (bits w 12 12)))
    let l := loadSteps (vatDesc (vatDescAt img (bits w 0 12))).wmode
    match vatOp w with | 1 => p | 2 => l | 3 => max p l | _ => 1
  else if z.unit < 20 then
    let op := churnOpcode w
    if op = 1 || op = 2 then memOcc (churnDesc img (churnMem w).desc.toNat) else if op = 0 then 1 else regOcc op (churnReg w)
  else if z.unit < 24 then
    if moverOp w = 0 then 1 else moverSteps (moverOp w) (movDesc img (moverArgs w).desc.toNat)
  else 1

/-! ## Actions of a bundle -/

/-- The action a slot of a vat, a Churn unit or a mover names; none for its HOLD (R62, R109, R110). -/
def slotUnitAct (z : SlotRef) : Option UnitAct :=
  let w := z.code
  if z.unit < 16 then
    match vatOp w with
    | 1 => some (.pass z.unit (bits w 26 2) (bits w 12 12))
    | 2 => some (.load z.unit (bits w 24 2) (bits w 0 12))
    | 3 => some (.passld z.unit (bits w 26 2) (bits w 12 12) (bits w 24 2) (bits w 0 12))
    | _ => none
  else if z.unit < 20 then
    let op := churnOpcode w
    if op = 0 then none
    else if op = 1 then some (.ldv (z.unit - 16) (churnMem w))
    else if op = 2 then some (.stv (z.unit - 16) (churnMem w))
    else some (.reg op (z.unit - 16) (churnReg w))
  else if moverOp w = 0 then none
  else some (.mover (moverOp w) (z.unit - 20) (moverArgs w))

/-- Starts an action of any unit; none while it cannot start. -/
def startAct (d : Nat) (img : Image) (a : UnitAct) (s : State) : Option State :=
  match a with
  | .pass _ _ _ => vatStart d img a s
  | .load _ _ _ => vatStart d img a s
  | .passld _ _ _ _ _ => vatStart d img a s
  | .ldv _ _ => memStart d img a s
  | .stv _ _ => memStart d img a s
  | .reg op u r =>
    match churnOp op with
    | some f => dieStep d (fun x => .ok (churnRegAct op f (jobWord s d) u r x)) s
    | none => some s
  | .mover _ _ _ => moverStart d img a s

/-- One slot of a unit: its action issues, and starts or waits (R98); once the command is stopped the later slots start nothing. -/
def slotAct (d : Nat) (img : Image) (z : SlotRef) (s : State) : State :=
  if !running s d then s
  else match slotUnitAct z with
    | some a => issueAct d (slotSteps img z) img a (startAct d img a) s
    | none => s

/-! ## Actions that wait (R98, R123) -/

/-- What a lace write that starts after a RELEASE adds to what the actions behind it wait for (R116). -/
def addRel (d id p : Nat) (s : State) : State :=
  let more := fun (barrier : Nat) (l : List (Nat × BitVec 32)) =>
    if id < barrier && !(partnerOf s p).retransmit.isEmpty then l ++ [(p, (partnerOf s p).lseqTx - 1)] else l
  let sig := fun (g : RemoteSignal) => if g.src = d then { g with lace := more g.barrier g.lace } else g
  updDie { s with sigNet := s.sigNet.map sig } d fun x =>
    { x with relLace := more x.barrier x.relLace, deferred := x.deferred.map fun e => { e with relLace := more e.barrier e.relLace } }

/-- Tries one waiting action of a die: it starts, or stays behind those that still wait. -/
def tryDeferred (d : Nat) (e : Deferred) (s : State) : State :=
  let x := dieOf s d
  match x.image, x.deferred.dropWhile (·.id ≠ e.id) with
  | some img, _ :: rest =>
    let before := x.deferred.takeWhile (·.id ≠ e.id)
    if before.any fun b => behindAct img e.act b.act then s
    else match startAct d img e.act (updDie s d (asIssued before e)) with
      | none => s
      | some t =>
        let t := updDie t d (asNow x rest)
        match isLaceWrite img e.act, actPartner img e.act with
        | true, some p => addRel d e.id p t
        | _, _ => t
  | _, _ => s

/-- Tries the waiting actions of a die, in the order in which they issued; a COMMIT that waited for them may then drain. -/
def runDeferred (d : Nat) (s : State) : State :=
  let l := (dieOf s d).deferred
  if l.isEmpty || !working s d then s else tryDrainOn d (each l (fun e s => if working s d then tryDeferred d e s else s) s)

/-! ## Issue (R91 to R93, R120) -/

/-- Translates the words a bundle still needs fetched: a fault holds issue and posts its request (R120, R224). -/
def fetchWords (d : Nat) (img : Image) (lo hi : Nat) (s : State) : Except MemStop Unit × State :=
  let base := (imageSect img).streamVa
  let pages := ((List.range (hi - lo)).map fun i => (base + 8 * (lo + i)) / 4096).eraseDups
  pages.foldl (fun (acc : Except MemStop Unit × State) p =>
    match acc with
    | (.error e, s) => (.error e, s)
    | (.ok _, s) =>
      match translate d (ctxOn s d) (4096 * p) false s with
      | (.ok _ _, s) => (.ok (), s)
      | (.fault, s) => (.error (.page (4096 * p) false), s)
      | (.noRoom e a, s) => (.error (.noRoom e a), s)
      | (.failed c, s) => (.error (.failed c (4096 * p) false), s)) (.ok (), s)

def jobLoadHeld (x : DieSt) : Bool := (heldActs x).any (· == .jobLoad)

/-- Ends the issue of a bundle: the position passes it, unless a branch was taken or the command stopped. -/
def passBundle (d next : Nat) (branch : Bool) (job : Option Nat) (s : State) : State :=
  if branch || (dieOf s d).seq.state == .killing || (dieOf s d).job != job then s
  else updDie s d fun x => { x with seq := { x.seq with pos := next, ctlHeld := false } }

/-- The control slot of the bundle at the sequencer's position acts, or holds issue while it cannot (R98, R114). -/
def issueControl (d : Nat) (img : Image) (b : Bundle) (s : State) : State :=
  let x := dieOf s d
  let next := b.pos + b.length
  match (slotsOf img b).find? (·.unit == 24) with
  | none => passBundle d next false x.job s
  | some z =>
    if !running s d then passBundle d next false x.job s
    else match ctlAct d img z.code next s with
      | some t => passBundle d next (ctlTarget z.code x).isSome x.job t
      | none => updDie s d fun x => { x with seq := { x.seq with ctlHeld := true } }

/-- Issues the bundle at the sequencer's position (R91 to R93): its units' slots in order, each action starting or waiting, then its
control slot. 0x0603 names the unit by its key: vats 0-15, Churn units 16-19, movers 20-23 (log 113). -/
def issueBundle (d : Nat) (img : Image) (s : State) : State :=
  let x := dieOf s d
  let b := bundleAt img x.seq.pos
  let next := x.seq.pos + b.length
  let step := x.seq.nextStep
  let slots := (slotsOf img b).filter (·.unit < 24)
  match slots.find? fun z => !isHold z && step < SMap.get 0 x.occ z.unit with
  | some z => stopWith d (.program 0x0603 [z.unit, x.seq.pos]) s
  | none =>
    issueControl d img b (each slots (slotAct d img) (updDie s d fun x =>
      { x with seq := { x.seq with step := BitVec.ofNat 64 step, bundles := bump x.seq.bundles, issued := true,
                                   nextStep := step + 1 + b.skip,
                                   fetchedWords := bump x.seq.fetchedWords (next - max x.seq.fetchedTo x.seq.pos),
                                   fetchedTo := max x.seq.fetchedTo next } }))

/-- BUNDLE_ISSUE: what waits is tried first (log 119); then the control slot that holds issue, or the next bundle. -/
def bundleIssue (d : Nat) (s : State) : State :=
  let s := runDeferred d s
  let x := dieOf s d
  match x.image with
  | none => s
  | some img =>
    if running s d && x.seq.pos < img.words && !jobLoadHeld x then
      if x.seq.ctlHeld then issueControl d img (bundleAt img x.seq.pos) s
      else match fetchWords d img (max x.seq.fetchedTo x.seq.pos) (x.seq.pos + (bundleAt img x.seq.pos).length) s with
        | (.ok _, t) => issueBundle d img t
        | (.error e, t) => memStop d (ctxOn t d) .jobLoad true e t
    else s

/-- Fetches words ahead: up to 131,072 beyond the bundle being issued, up to the first page that would fault; it posts
nothing (R120). -/
def fetchAhead (d n : Nat) (s : State) : State :=
  let x := dieOf s d
  match x.image with
  | none => s
  | some img =>
    if working s d then
      let lo := max x.seq.fetchedTo x.seq.pos
      let hi := min (lo + n) (min img.words (x.seq.pos + 131072))
      let (got, s) := (List.range (hi - lo)).foldl (fun (acc : Option Nat × State) i =>
        match acc with
        | (some w, s) =>
          match fetchWords d img (lo + i) (lo + i + 1) s with
          | (.ok _, s) => (some (w + 1), s)
          | (.error _, s) => (none, updDie s d fun x =>
              { x with seq := { x.seq with fetchedWords := bump x.seq.fetchedWords w, fetchedTo := lo + w } })
        | r => r) (some 0, s)
      match got with
      | some w => updDie s d fun x =>
          { x with seq := { x.seq with fetchedWords := bump x.seq.fetchedWords w, fetchedTo := lo + w } }
      | none => s
    else s

/-! ## The load-time check: slots -/

/-- R62 and R63 of a vat slot by itself, and the slot rules of R63 that its descriptors' weight modes decide. -/
def vatSlotOk (img : Image) (w : Nat) : Bool :=
  let pm := (vatDesc (vatDescAt img (bits w 12 12))).wmode
  let lm := (vatDesc (vatDescAt img (bits w 0 12))).wmode
  let slot := bits w 26 2
  let lslot := bits w 24 2
  match vatOp w with
  | 0 => bits w 0 28 = 0
  | 1 => bits w 24 2 = 0 && bits w 0 12 = 0 && pairSlot pm slot
  | 2 => bits w 26 2 = 0 && bits w 12 12 = 0 && pairSlot lm lslot
  | 3 => pairSlot pm slot && pairSlot lm lslot && !overlaps (slotSpan pm slot) (slotSpan lm lslot)
  | _ => false

def churnSlotOk (w : Nat) : Bool :=
  let op := churnOpcode w
  if op = 0 then bits w 0 56 = 0
  else if op = 1 || op = 2 then bits w 0 18 = 0 && bits w 56 8 = op && memSlotValid (churnMem w)
  else (churnOp op).isSome && bits w 16 5 = 0 && regSlotValid op (churnReg w)

/-- A mover slot by itself (R110). IDX and XSV of a COPY or LACE slot, which has no memory address, are accepted and ignored (log 117). -/
def moverSlotOk (w : Nat) : Bool :=
  if moverOp w = 0 then w = 0 else moverOp w ≤ 5 && bits w 0 42 = 0

/-- Reason 0x03 of one slot. -/
def slotEncoded (img : Image) (z : SlotRef) : Bool :=
  if z.unit < 16 then vatNamed img z.unit && vatSlotOk img z.code
  else if z.unit < 20 then unitNamed img (z.unit - 16) && churnSlotOk z.code
  else if z.unit < 24 then moverNamed img (z.unit - 20) && moverSlotOk z.code
  else ctlValid z.code

/-- Reason 0x04 of one slot: the descriptors it names. -/
def slotDescs (img : Image) (z : SlotRef) : Bool :=
  let w := z.code
  if z.unit < 16 then
    let pass := passValid (vatDesc (vatDescAt img (bits w 12 12)))
    let load := loadValid (vatDescAt img (bits w 0 12))
    match vatOp w with | 1 => pass | 2 => load | 3 => pass && load | _ => true
  else if z.unit < 20 then
    let op := churnOpcode w
    (op ≠ 1 && op ≠ 2) || churnDescValid (churnMem w).ty.toNat (churnDesc img (churnMem w).desc.toNat)
  else if z.unit < 24 then moverOp w = 0 || movDescValid (moverOp w) (movDesc img (moverArgs w).desc.toNat)
  else true

/-- Reason 0x06 of one slot: its static footprint. -/
def slotFootprint (img : Image) (z : SlotRef) : Bool :=
  let w := z.code
  if z.unit < 16 then
    let pass := passFootprint img (vatDesc (vatDescAt img (bits w 12 12)))
    let load := loadFootprint img (vatDesc (vatDescAt img (bits w 0 12)))
    match vatOp w with | 1 => pass | 2 => load | 3 => pass && load | _ => true
  else if z.unit < 20 then
    let op := churnOpcode w
    (op ≠ 1 && op ≠ 2) || churnMemValid img (churnMem w)
  else if z.unit < 24 then moverOp w = 0 || movFootprint img (moverOp w) (movDesc img (moverArgs w).desc.toNat)
  else if bits w 56 8 = 7 || bits w 56 8 = 8 then scalarFits img (scalarMem w) else true

/-- The TARGET a control slot names. -/
def slotTarget (z : SlotRef) : Option Nat :=
  if z.unit = 24 && [1, 2, 4].contains (bits z.code 56 8) then some (bits z.code 0 24) else none

/-- Reason 0x09 of one slot: its RANK. -/
def slotRank (img : Image) (z : SlotRef) : Bool :=
  if z.unit = 24 && bits z.code 56 8 = 0x11 then bits z.code 45 4 = 0xF || bits z.code 45 4 < (imageSect img).gang
  else if 20 ≤ z.unit && z.unit < 24 && moverOp z.code ≠ 0 then movRank img (moverOp z.code) (movDesc img (moverArgs z.code).desc.toNat)
  else true

/-! ## The load-time check: tables and lists -/

/-- The bundles of an image from a word on, or the word where they stop tiling it (reason 0x02). -/
def tile (img : Image) : Nat → Nat → Except Nat (List Bundle)
  | 0, pos => if pos = img.words then .ok [] else .error pos
  | n + 1, pos =>
    if pos = img.words then .ok []
    else
      let b := bundleAt img pos
      if !b.sound || img.words < pos + b.length then .error pos
      else (tile img n (pos + b.length)).map (b :: ·)

/-- No two of some intervals (first, length) share a point. -/
def disjoint (l : List (Nat × Nat)) : Bool :=
  decide (l.Pairwise fun a b => a.1 + a.2 ≤ b.1 ∨ b.1 + b.2 ≤ a.1)

def panLines : Nat := 96 * 2 ^ 20 / 64

def panTableOk (img : Image) : Bool :=
  let ents := (List.range 4096).map fun p => (p, panEnt img p)
  let used := ents.filter fun e => e.2.size ≠ 0
  ByteMap.num img.pans 0 16 = 0 && ((List.range 4096).all fun p => bits (ByteMap.num img.pans (16 * p) 16) 49 79 = 0) &&
    (used.all fun e => e.2.base + e.2.size ≤ panLines) && disjoint (used.map fun e => (e.2.base, e.2.size))

def tokenTableOk (img : Image) : Bool :=
  let ents := (List.range 8192).map (tokEnt img)
  let regions := ents.filter fun t => t.pan ≠ 0 && t.length ≠ 0
  ByteMap.num img.tokens 0 16 = 0 && ((List.range 8192).all fun t => bits (ByteMap.num img.tokens (16 * t) 16) 64 64 = 0) &&
    (ents.all fun t => t.source ≤ 7 || t.source = 0xF) &&
    (ents.all fun t => t.pan = 0 || t.offset + t.length ≤ (panEnt img t.pan).size) &&
    ((List.range 4096).all fun p => disjoint ((regions.filter (·.pan == p)).map fun t => (t.offset, t.length)))

/-- R164. -/
def roundListOk (img : Image) : Bool :=
  let h := roundHead img.round
  let ents := (List.range h.entries).map (roundEnt img.round)
  let sorted := fun (l : List Nat) => decide (l.Pairwise (· ≤ ·))
  h.format = 1 && !h.reserved && 1 ≤ h.entries && h.entries ≤ 16777216 && h.base + h.size ≤ panLines &&
    ((List.range 4096).all fun p => let e := panEnt img p; e.size = 0 || e.base + e.size ≤ h.base || h.base + h.size ≤ e.base) &&
    sorted (ents.map (·.layer)) &&
    (ents.all fun e =>
      !e.reserved && e.src % 64 = 0 && loadPair e.wmode e.wfmt && lineCount (rowBytes e.wmode e.wfmt) ≤ e.stride &&
        vatNamed img e.vat && pairSlot e.wmode e.slot && e.gateToken ≠ 0 && tileLines e.wmode e.wfmt ≤ h.size &&
        sorted ((ents.filter (·.gateToken == e.gateToken)).map (·.gateCount)))

/-- Reason 0x01. -/
def unitsServed (s : State) (d : Nat) (sec : Section87) : Bool :=
  let u := unitMapOf s d
  let within := fun (need have' n : Nat) => (List.range n).all fun k => bits need k 1 = 0 || bits have' k 1 = 1
  within sec.useVats u.vats.toNat 16 && within sec.useUnits (u.churn.toNat + 16 * u.movers.toNat) 8 && u.seq &&
    (sec.roundUsed ≠ 1 || u.round)

/-- The section's part of reason 0x02. -/
def sectionOk (sec : Section87) : Bool :=
  1 ≤ sec.words && sec.words ≤ 16777216 && sec.streamVa % 8 = 0 && sec.roundUsed ≤ 1 && sec.reserved = 0

/-- Reason 0x0B along the bundles of the image: the first word whose slot names an occupied unit within a run. -/
def runViolation (img : Image) (starts : List Nat) : List Bundle → Nat → SMap Nat → Option Nat
  | [], _, _ => none
  | b :: rest, step, occ =>
    let (step, occ) := if starts.contains b.pos then (0, []) else (step, occ)
    let acts := (slotsOf img b).filter fun z => !isHold z && z.unit < 24
    match acts.find? fun z => step < SMap.get 0 occ z.unit with
    | some z => some z.word
    | none =>
      runViolation img starts rest (step + 1 + b.skip)
        (acts.foldl (fun o z => SMap.set 0 o z.unit (step + slotSteps img z)) occ)

/-- The first reason of R121 that fails, with its word index; 0 for conditions of the section, the tables and the round list
(log 59). -/
def loadFailure (s : State) (d : Nat) (img : Image) : Option (Nat × Nat) :=
  let sec := imageSect img
  let bundles := tile img (img.words + 1) 0
  let bs := match bundles with | .ok l => l | .error _ => []
  let slots := bs.flatMap (slotsOf img)
  let firstBad := fun (ok : SlotRef → Bool) => (slots.find? fun z => !ok z).map (·.word)
  let check := fun (reason : Nat) (ok : Bool) => if ok then none else some (reason, 0)
  let heads := bs.map (·.pos)
  let targets := slots.filterMap slotTarget
  let jumps := bs.filter fun b => (slotsOf img b).any fun z => (slotTarget z).isSome
  let ends := match bs.getLast? with
    | some b => (slotsOf img b).any fun z =>
        z.unit = 24 && (bits z.code 56 8 = 1 || (bits z.code 56 8 = 0x20 && bits z.code 0 1 = 1))
    | none => false
  let r2 := match bundles with | .ok _ => none | .error w => some (0x02, w)
  check 0x01 (unitsServed s d sec)
    <|> check 0x02 (sectionOk sec) <|> r2
    <|> (firstBad (slotEncoded img)).map (0x03, ·)
    <|> (firstBad (slotDescs img)).map (0x04, ·)
    <|> check 0x04 (sec.roundUsed ≠ 1 || roundListOk img)
    <|> check 0x05 (panTableOk img && tokenTableOk img)
    <|> (firstBad (slotFootprint img)).map (0x06, ·)
    <|> (firstBad fun z => (slotTarget z).all heads.contains).map (0x07, ·)
    <|> (if ends then none else some (0x08, (bs.getLast?.map (·.pos)).getD 0))
    <|> (firstBad (slotRank img)).map (0x09, ·)
    <|> check 0x0A (sec.bl = s.map.effBl.toNat)
    <|> (runViolation img (0 :: targets ++ jumps.map fun b => b.pos + b.length) bs 0 []).map (0x0B, ·)

/-! ## Reading the image -/

/-- Reads a piece of the image as a byte map. -/
def readPiece (d c va n : Nat) (acc : Except MemStop (List ByteMap) × State) : Except MemStop (List ByteMap) × State :=
  match acc with
  | (.error e, s) => (.error e, s)
  | (.ok l, s) =>
    if n = 0 then (.ok (l ++ [[]]), s)
    else match readVirtual d c false va n s with
      | (.ok b, s) => (.ok (l ++ [ByteMap.cells 0 b]), s)
      | (.error e, s) => (.error e, s)

/-- The whole image (R87, R121): a section that breaks R87 is checked with no stream words read. -/
def readImage (d c : Nat) (desc : List Byte) (s : State) : Except MemStop Image × State :=
  let sva := fieldAt desc 8 8
  let rva := fieldAt desc 16 8
  match readVirtual d c false sva 64 s with
  | (.error e, s) => (.error e, s)
  | (.ok b, s) =>
    let sec := section87 b
    let words := if sectionOk sec then sec.words else 0
    let r := readPiece d c sec.streamVa (8 * words) (.ok [], s)
    let r := readPiece d c sec.panVa 65536 r
    let r := readPiece d c sec.tokenVa 131072 r
    let r := readPiece d c sec.vatVa 131072 r
    let r := readPiece d c sec.movVa 131072 r
    let r := readPiece d c sec.churnVa 65536 r
    let r := if sec.roundUsed = 1 then readPiece d c rva 64 r else readPiece d c 0 0 r
    match r with
    | (.ok [st, pans, toks, vat, mov, churn, head], s) =>
      let n := (roundHead head).entries
      let size := if sec.roundUsed = 1 && n ≤ 16777216 then 64 + 32 * n else 0
      match readPiece d c rva size (.ok [], s) with
      | (.ok [round], s) =>
        (.ok { sect := ByteMap.cells 0 b, stream := st, words, pans, tokens := toks, vatDesc := vat, movDesc := mov,
               churnDesc := churn, round }, s)
      | (.error e, s) => (.error e, s)
      | (_, s) => (.error (.page rva false), s)
    | (.error e, s) => (.error e, s)
    | (_, s) => (.error (.page sva false), s)

/-! ## The check's end -/

/-- The pan of a serving job's tables that is not as its partition needs it: STEP_PAN, or else RESULT_PAN (R206). -/
def badPan (s : State) (n : Nat) (img : Image) : Option Nat :=
  let p := partOf s n
  let sp := panEnt img p.stepPan.toNat
  let rp := panEnt img p.resultPan.toNat
  if p.stepPan = 0 || sp.persistent || sp.size < 1 + p.stepLimit.toNat then some p.stepPan.toNat
  else if p.resultPan = 0 || !rp.persistent || 64 * rp.size < 8 * p.stepLimit.toNat then some p.resultPan.toNat
  else none

/-- Every die has passed, but the tables of the serving job do not fit its partition: the job ends FAILED with 0x0523, which names the pan
(R206; log 130). -/
def panFail (n k pan : Nat) (s : State) : State := beginKill k (.failing 0x0523) (post 0x0523 n [n, pan] s)

/-- The image is taken by a die, and the round engine its leads (R162, R171). -/
def takeImage (s : State) (img : Image) (x : DieSt) : DieSt :=
  let h := roundHead img.round
  let near := if h.nearLead = 0 then objNat s 0x3100 2 2 else h.nearLead
  let hbm := if h.hbmLead = 0 then objNat s 0x3100 3 8 else h.hbmLead
  { x with image := some img, round := { x.round with nearLead := near, hbmLead := hbm } }

/-- Every die has passed: a saved job is restored, another starts its first command, to whose tokens the COMMITs held for it
then apply (R305). -/
def allChecked (k : Nat) (s : State) : State :=
  match jobOf s k with
  | none => s
  | some j =>
    if j.dies.all j.checked.contains then
      if j.saves.isEmpty then retryCommits (startCommand k (updJob s k fun j => { j with stage := .running }))
      else updJob s k fun j => { j with stage := .restoring }
    else s

def loadCheckDone (d : Nat) (s : State) : State :=
  match (jobOn s d).bind fun k => (jobOf s k).map fun j => (k, j) with
  | none => s
  | some (k, j) =>
    if j.stage == .checking && !j.checked.contains d && !jobLoadHeld (dieOf s d) && !paused s d then
      match readImage d j.ctx.toNat j.desc s with
      | (.error e, s) => memStop d j.ctx.toNat .jobLoad true e s
      | (.ok img, s) =>
        match loadFailure s d img with
        | some (reason, word) =>
          finishJob k stRefused 0x0602 true (postDie 0x0602 d [reason, word]
            (updDie s d fun x => { x with seq := { x.seq with pos := word } }))
        | none =>
          let s := updJob (updDie s d (takeImage s img)) k fun j => { j with checked := j.checked ++ [d] }
          match servedBy s k with
          | some n => match badPan s n img with | none => allChecked k s | some pan => panFail n k pan s
          | none => allChecked k s
    else s

/-! ## The rows -/

/-- BUNDLE_ISSUE (R65, R88 to R93, R98, R100, R105, R120, R132). -/
def execBundleIssue (d : Die) (s : State) : Host.Outcome State Fault Refusal := command (bundleIssue d) s
/-- STREAM_FETCH_AHEAD (R88, R120, R217, R219, R220, R224). -/
def execStreamFetchAhead (d : Die) (n : Nat) (s : State) : Host.Outcome State Fault Refusal := command (fetchAhead d n) s
/-- LOAD_TIME_CHECK_DONE (R35, R63, R64, R70, R72, R87 to R96, R102, R121, R129, R130, R162, R164). -/
def execLoadTimeCheckDone (d : Die) (s : State) : Host.Outcome State Fault Refusal := command (loadCheckDone d) s

end Sys2Proof.Machine
end

