-- ==== Sys2Proof/Machine/Jobs.lean ====
section
/-! DEFINITION. Contexts and the dispatcher (R172 to R179, R187 to R193, R283, R285), the end of a kill (R184, R186), saves and
restores (R188), and DIE_RESET (R420, R421). -/

namespace Sys2Proof.Machine

/-! ## Accesses held on page requests and walkers (R218, R222, R223) -/

/-- Does one held action again; what it meets next holds it as before. -/
def redoHeld (d : Nat) (h : HeldAct) (s : State) : State :=
  match h with
  | .jobLoad => s
  | .roundRead i => fetchEntry d i s
  | .mover id op di va =>
    ((dieOf s d).image.bind fun img => moverMem d img op.toNat di.toNat va.toNat id s).getD s

/-- One act of a die's walkers: the one that has held a fault longest takes a free page-request slot, and what waits for its page is held on
the request; otherwise the first access that waits for a walker walks (R218, R222). -/
def serveWait (d : Nat) (s : State) : State :=
  let x := dieOf s d
  let page := fun (w : WalkWait) => w.va.toNat / 4096
  let held := x.walkWait.filter (·.walked)
  match held.head?, freeSlot x with
  | some w, some i =>
    let mine := x.walkWait.filter fun v => page v == page w
    let s := updDie s d fun x => { x with walkWait := x.walkWait.filter fun v => page v != page w }
    postRequest d (ctxOn s d) w.va.toNat i w.write (if mine.any (·.now) then some s.time else none) (mine.map (·.act)) s
  | _, _ =>
    match if held.length < 32 then x.walkWait.find? (fun w => !(held.map page).contains (page w)) else none with
    | some w => redoHeld d w.act (updDie s d fun x => { x with walkWait := x.walkWait.erase w })
    | none => s

/-- Whether the engines of a die may go on with what they hold: no kill stops them and no power pause holds them. -/
def mayWalk (s : State) (d : Nat) : Bool := (dieOf s d).seq.state != .killing && !paused s d

/-- The walkers of a die serve what waits on them; a COMMIT that waited for it may then drain. -/
def serveWaits (d : Nat) (s : State) : State :=
  let n := 2 * (dieOf s d).walkWait.length
  if n = 0 then s else tryDrainOn d (each (List.range n) (fun _ s => if mayWalk s d then serveWait d s else s) s)

/-- The actions held on a slot walk again, in issue order, before what has waited for a walker since (R223 step 3a). -/
def resumeSlot (d i : Nat) (va : BitVec 64) (s : State) : State :=
  let mine := (dieOf s d).held.filter (·.1.toNat == i)
  let again := mine.map fun (h : BitVec 5 × HeldAct) => ({ va, write := false, now := true, walked := false, act := h.2 } : WalkWait)
  updDie s d fun x => { x with held := x.held.filter (·.1.toNat != i), walkWait := again ++ x.walkWait }

/-! ## Contexts (R173, R174, R285) -/

def ringLog2Ok (n : Nat) : Bool := 4 ≤ n && n ≤ 16

/-- Whether Shared mode permits ENABLE (R383). -/
def sharedPermits (s : State) (c : Nat) : Bool :=
  let q := quotaOf s c
  s.sec.mode ≠ 1 || c = 0 || ((SMap.find s.sec.memKeys c).isSome && q.hbmUse = 0 && q.farUse = 0)

/-- Whether a write of 1 to ENABLE makes a context ACTIVE. -/
def enableOk (s : State) (c : Nat) : Bool :=
  let x := ctxOf s c
  x.state == .free && ringLog2Ok x.sqLog2.toNat && ringLog2Ok x.cqLog2.toNat
    && inUnified s (x.sqBase.toNat * 4096) (64 * ringSize x.sqLog2.toNat)
    && inUnified s (x.cqBase.toNat * 4096) (64 * ringSize x.cqLog2.toNat) && sharedPermits s c

def enableContext (c : Nat) (s : State) : State :=
  guarded (enableOk s c) (updCtx · c (fun x => { x with state := .active })) s

/-- Descriptors waiting in a submission ring. -/
def waitingDescs (x : Context) : Nat :=
  let n := ringSize x.sqLog2.toNat
  (x.sqTail.toNat + n - x.sqHead.toNat % n) % n

/-- The serials of a context's jobs. -/
def jobsOf (s : State) (c : Nat) : List Nat :=
  (s.jobs.filter fun (p : Nat × Job) => p.2.ctx.toNat == c).map (·.1)

/-- A context reset reaches one job placed before: it is killed, or ends with its save area unused (R174). -/
def resetJob (k : Nat) (s : State) : State :=
  match jobOf s k with
  | some j => if placed j then beginKill k .contextReset s else finishJob k stKilled 0 false s
  | none => s

/-- A context reset frees the page-request slots of its requests (R222). -/
def freeSlots (c : Nat) (x : DieSt) : DieSt :=
  { x with pageSlots := x.pageSlots.filter fun (p : Nat × PageSlot) => p.2.did != c }

/-- A context reset (R174, R222, R285): its ring is read no more, its placed jobs end, and what follows their end is `settleReset`. -/
def resetContext (c : Nat) (s : State) : State :=
  let s := updCtx s c fun x => { x with state := .resetting, killed := bump x.killed (waitingDescs x), sqHead := x.sqTail }
  let s := each (jobsOf s c) resetJob s
  settleReset c (each (s.dies.map (·.1)) (fun d s => serveWaits d (updDie s d (freeSlots c))) s)

/-- Pre-empts the jobs named, where they are placed (R187). -/
def preempt (ks : List Nat) (s : State) : State := each ks (beginKill · .preempt) s

/-! ## Reading a descriptor (R175, R176) -/

/-- The address fields to which R175 gives an alignment, ALLOWED, and the reserved fields of a descriptor (R176). -/
def descSound (b : List Byte) : Bool :=
  fieldAt b 8 8 % 64 = 0 && fieldAt b 24 8 % 4096 = 0
    && fieldAt b 36 1 ≠ 0 && fieldAt b 37 1 ≤ 1 && (b.drop 38).all (· = 0)

/-- Job-persistent pans in pan-table order, as (first line, lines) (R188). -/
def persistentPans (img : Image) : List (Nat × Nat) :=
  ((List.range 4096).map (panEnt img)).filterMap fun p => if p.persistent && p.size ≠ 0 then some (p.base, p.size) else none

/-- Bytes of a save area (R188). -/
def saveSize (img : Image) : Nat := 0x63000 + 64 * sumList ((persistentPans img).map (·.2))

def emptyImage : Image := ⟨[], [], 0, [], [], [], [], [], []⟩

/-- What the dispatcher reads of a job before it places it (R176): GANG, 1 where its read faults, and the save area size of a
gang job; a pan table that cannot be read sets no size (log 60). The reads use the translation of the lowest allowed die. -/
def readGang (c : Nat) (b : List Byte) (s : State) : Nat × Nat × State :=
  let d := ((diesOf (fieldAt b 36 1)).head?).getD 0
  match readVirtual d c false (fieldAt b 8 8) 64 s with
  | (.error _, s) => (1, 0, s)
  | (.ok z, s) =>
    let g := (section87 z).gang
    if g ≤ 1 then (g, 0, s)
    else match readVirtual d c false (section87 z).panVa 65536 s with
      | (.ok t, s) => (g, saveSize { emptyImage with pans := ByteMap.cells 0 t }, s)
      | (.error _, s) => (g, 0, s)

/-- The allowed dies in service in counting order from the origin, and those free among them (R178, R179). -/
def countedDies (s : State) (allowed : Nat) : List Nat :=
  ((List.range 8).map fun i => (s.nv.origin.toNat + i) % 8).filter fun d => bits allowed d 1 = 1 && dieInService s d

def freeDies (s : State) (allowed : Nat) : List Nat := (countedDies s allowed).filter fun d => (dieOf s d).job.isNone

/-- Whether R176 lets a job be placed. -/
def placeable (s : State) (b : List Byte) (gang save : Nat) : Bool :=
  descSound b && 1 ≤ gang && gang ≤ 8 && gang ≤ (countedDies s (fieldAt b 36 1)).length
    && (gang = 1 || save ≤ fieldAt b 32 4)

/-! ## Placement (R178, R388 to R390) -/

/-- Whether the completion ring has an entry that no job placed before holds (R177; log 61). -/
def recordFree (s : State) (c : Nat) (k : Option Nat) : Bool :=
  let x := ctxOf s c
  let n := ringSize x.cqLog2.toNat
  let used := (x.cqTail.toNat + n - x.cqHead.toNat % n) % n
  used + ((jobsOf s c).filter (some · != k)).length + 1 < n

/-- A die takes a job: a new tag, registers and tokens zero, no slot of an earlier placement (R108, R127, R388 to R390). -/
def takeJob (k rank gang : Nat) (x : DieSt) : DieSt :=
  let ctr := x.placeCtr + 1
  let fresh := fun (p : Nat × ChurnUnit) => (p.1, { p.2 with v := [], m := [] })
  { idleDie x with
    job := some k, placeCtr := ctr, lineTag := if ctr = 0 then [] else x.lineTag, slots := if ctr = 0 then [] else x.slots,
    sv := [], lc := [], tokens := [], written := [], churn := (x.churn.map fresh).filter (fun (p : Nat × ChurnUnit) => p.2 != {}),
    seq := { x.seq with state := .checking, rank := BitVec.ofNat 4 rank, gang := BitVec.ofNat 4 (gang - 1), command := 0,
                        pos := 0, nextStep := 0, fetchedTo := 0, issued := false } }

/-- Places a job on dies: ranks follow their order. -/
def placeOn (k : Nat) (dies : List Nat) (s : State) : State :=
  let s := each dies.zipIdx (fun (p : Nat × Nat) s => levelPlaced p.1 (updDie s p.1 (takeJob k p.2 dies.length))) s
  updJob s k fun j =>
    { j with gang := dies.length, dies, stage := .checking, checked := [], causes := [], placedAt := s.time, awaiting := [],
             unmetered := j.unmetered || s.su.down,
             firstDie := if j.firstDie = 0xFF then BitVec.ofNat 8 (dies.headD 0xFF) else j.firstDie }

/-- A serving job that has never been placed starts with no step in hand. -/
def clearStep (k : Nat) (s : State) : State :=
  match servedBy s k with
  | some n => updPart s n fun p => { p with slots := none, stopReq := false, holding := false }
  | none => s

def newJob (c : Nat) (b : List Byte) (gang : Nat) : Job :=
  { ctx := BitVec.ofNat 12 c, desc := b, jobId := BitVec.ofNat 64 (fieldAt b 0 8), gang, dies := [], stage := .checking,
    checked := [], causes := [], faultKills := 0, rerunDue := false, reruns := 0, commands := 0, flagWord := 0, preemptions := 0,
    energyNj := 0, duration := 0, stall := 0, firstDie := 0xFF, placedAt := 0, unmetered := false, updates := 0, saves := [],
    awaiting := [] }

/-- The head job of a context: one placed before, by its serial, or the descriptor at SQ_HEAD. -/
inductive HeadJob where
  | again (k : Nat) (j : Job)
  | fresh (b : List Byte)
  deriving DecidableEq, Repr

def headJob (s : State) (c : Nat) : Option (HeadJob × State) :=
  let x := ctxOf s c
  match x.requeued with
  | k :: _ => (jobOf s k).map fun j => (.again k j, s)
  | [] =>
    if waitingDescs x = 0 then none
    else
      let a := x.sqBase.toNat * 4096 + 64 * (x.sqHead.toNat % ringSize x.sqLog2.toNat)
      if ioReady a 64 s then
        let s := touchIo a 64 s
        some (.fresh (cohRead s a 64), s)
      else none

/-- Moves SQ_HEAD past the descriptor read (R173). -/
def takeHead (c : Nat) (s : State) : State :=
  updCtx s c fun x =>
    { x with sqHead := BitVec.ofNat 16 ((x.sqHead.toNat % ringSize x.sqLog2.toNat + 1) % ringSize x.sqLog2.toNat),
             submitted := bump x.submitted }

/-- What the dispatcher does with the head of a context: it places it, ends it FAILED, or leaves it (none). -/
def tryContext (c : Nat) (s : State) : Option State :=
  match headJob s c with
  | none => none
  | some (.again k j, s) =>
    if !recordFree s c (some k) then none
    else
      let (gang, save, s) := if j.saves.isEmpty then readGang c j.desc s else (j.gang, 0, s)
      if !placeable s j.desc gang save then some (finishJob k stFailed 0 true s)
      else
        let free := freeDies s (allowedOf j)
        if free.length < gang then none
        else
          let s := updCtx s c fun x => { x with requeued := x.requeued.filter (· != k) }
          some { placeOn k (free.take gang) s with disp := { s.disp with last := some c } }
  | some (.fresh b, s) =>
    if !recordFree s c none then none
    else
      let (gang, save, s) := readGang c b s
      let k := s.disp.serial
      let taken := fun (s : State) =>
        let x := ctxOf s c
        let s := hostJobRead c (x.sqHead.toNat % ringSize x.sqLog2.toNat) k s
        let s := takeHead c { s with disp := { s.disp with serial := k + 1 } }
        { s with jobs := SMap.put s.jobs k (newJob c b gang) }
      if !placeable s b gang save then some (finishJob k stFailed 0 true (taken s))
      else
        let free := freeDies s (fieldAt b 36 1)
        if free.length < gang then none
        else
          let s := clearStep k (placeOn k (free.take gang) (taken s))
          some { s with disp := { s.disp with last := some c } }

/-- ACTIVE contexts by priority, round-robin from the context after the one placed last (R178). -/
def contextOrder (s : State) : List Nat :=
  let active := (s.ctxs.filter fun (p : Nat × Context) => p.2.state == .active).map (·.1)
  let start := match s.disp.last with | some c => c + 1 | none => 0
  let turn := active.filter (start ≤ ·) ++ active.filter (· < start)
  [3, 2, 1, 0].flatMap fun p => turn.filter fun c => (ctxOf s c).priority.toNat = p

/-- One act of the dispatcher. -/
def dispatch (s : State) : State :=
  if s.dom.halted || s.su.phase ≠ .running || heldStops s then s else ((contextOrder s).findSome? (tryContext · s)).getD s

/-! ## The end of a kill (R184 step 5, R186, R193) -/

/-- The JOB slots a kill leaves to the round engine: those whose contents are no longer what the record names (R53, R168). -/
def refillsAfter (x : DieSt) (r : CmdStart) : List (Nat × Nat) :=
  r.slots.filterMap fun (p : Nat × Slot) =>
    let same := match SMap.find x.slots p.1 with
      | some z => z.kind == .job && z.tag == p.2.tag && z.entry == p.2.entry && z.pair == p.2.pair && !z.loading
      | none => false
    if same && !(x.round.refills.map (·.1)).contains p.1 then none else p.2.entry.map fun e => (p.1, e)

/-- Slots after a kill: COMMAND slots and slots EMPTY at command start are EMPTY (R53). -/
def slotsAfter (x : DieSt) (r : CmdStart) (refills : List (Nat × Nat)) : SMap Slot :=
  x.slots.filter fun (p : Nat × Slot) =>
    p.2.kind == .job && (p.2.tag != some x.placeCtr || ((SMap.find r.slots p.1).isSome && !(refills.map (·.1)).contains p.1))

/-- Token counts after a kill: as recorded, plus lace SIGNALs applied since (R108). -/
def tokensAfter (x : DieSt) (r : CmdStart) : SMap TokenSt :=
  x.laceInc.foldl (fun m (p : Nat × BitVec 32) => SMap.upd {} m p.1 fun t => { t with count := t.count + p.2 }) r.tokens

/-- Churn registers from a shadow copy (R127). -/
def churnFrom (x : DieSt) (v : SMap ByteMap) (m : SMap (SMap (BitVec 2048))) : SMap ChurnUnit :=
  (List.range 4).foldl (fun c u =>
    SMap.upd {} c u fun z => { z with v := SMap.get [] v u, m := SMap.get [] m u }) x.churn

/-- Step 5 of R184 on a die. -/
def restoreStart (x : DieSt) : DieSt :=
  match x.start with
  | none => { x with written := [] }
  | some r =>
    let refills := refillsAfter x r
    { x with
      sv := r.sv, lc := r.lc, tokens := tokensAfter x r, churn := churnFrom x r.churnV r.churnM, written := [], occ := r.occ,
      sent := r.sent, slots := slotsAfter x r refills,
      round := { x.round with opened := r.opened, loaded := r.loaded, refills },
      seq := { x.seq with pos := r.pos, nextStep := r.nextStep, fetchedTo := r.pos } }

/-- The ending a kill's causes give the job, by the order of R193; none when it runs on. -/
def endingOf (j : Job) (kills : Nat) : Option (Nat × Nat × Bool) :=
  let failing := j.causes.findSome? fun c => match c with | .failing e => some e.toNat | _ => none
  let program := j.causes.findSome? fun c => match c with | .program e => some e.toNat | _ => none
  let faults := j.causes.filterMap fun c => match c with | .fault e => some e.toNat | _ => none
  if j.causes.contains .contextReset then some (stKilled, 0, false)
  else if j.causes.contains .dieReset then some (stFailed, 0x0A09, true)
  else match failing, program with
    | some e, _ => some (stFailed, e, true)
    | none, some e => some (stFaulted, e, true)
    | none, none => if 3 ≤ kills then some (stRerunExhausted, (faults.getLast?).getD 0, true) else none

def isFaultCause (c : KillCause) : Bool := match c with | .fault _ => true | _ => false

/-- Starts a command again; one that had issued a bundle counts as a re-run (R186). -/
def rerun (k : Nat) (s : State) : State :=
  match jobOf s k with
  | none => s
  | some j =>
    let s := if j.rerunDue then
        updCtx (updJob s k fun j => { j with rerunDue := false, reruns := j.reruns + 1 }) j.ctx.toNat
          fun c => { c with rerun := bump c.rerun }
      else s
    startCommand k (updJob s k fun j => { j with stage := .running })

/-- A job leaves its dies and goes to the head of its ring, or waits for the operating system (R187, R193, R223). A pre-emption counts at once, an
expired budget when its request has been answered and the job returns to its ring. -/
def requeue (k : Nat) (s : State) : State :=
  match jobOf s k with
  | none => s
  | some j =>
    let s := releaseDies k s
    let s := updJob s k fun j =>
      let counts := j.causes.contains .preempt || (j.awaiting.isEmpty && j.causes.contains .budget)
      { j with preemptions := if counts then j.preemptions + 1 else j.preemptions }
    if j.awaiting.isEmpty then
      updCtx (updJob s k fun j => { j with stage := .saved, causes := [] }) j.ctx.toNat fun c => { c with requeued := k :: c.requeued }
    else updJob s k fun j => { j with stage := .waitingOs }

/-- What follows step 5 (R183, R186, R193). A job killed before its first command, or before its restore ended, has nothing to
save. -/
def afterKill (k : Nat) (s : State) : State :=
  match jobOf s k with
  | none => s
  | some j =>
    let issued := j.dies.any fun d => (dieOf s d).seq.issued
    let fault := j.causes.any isFaultCause
    let kills := if fault && issued then j.faultKills + 1 else j.faultKills
    match endingOf j kills with
    | some (st, ev, msi) => finishJob k st ev msi s
    | none =>
      let s := updJob s k fun j => { j with faultKills := kills, rerunDue := j.rerunDue || issued }
      let leaves := j.causes.any fun c => c == .preempt || c == .budget
      let started := j.dies.all fun d => (dieOf s d).start.isSome
      let setAll := fun (st : SeqState) (s : State) =>
        each j.dies (fun d s => updDie s d fun x => { x with seq := { x.seq with state := st, issued := false } }) s
      if leaves then
        if started && j.saves.isEmpty then updJob s k fun j => { j with stage := .saving } else requeue k s
      else
        let s := updJob s k fun j => { j with causes := [], awaiting := [] }
        if !j.saves.isEmpty && j.checked.length = j.dies.length then
          setAll .checking (updJob s k fun j => { j with stage := .restoring })
        else if started then rerun k s
        else setAll .checking (updJob s k fun j => { j with stage := .checking, checked := [] })

def killComplete (d : Nat) (s : State) : State :=
  match (jobOn s d).bind fun k => (jobOf s k).map fun j => (k, j) with
  | some (k, j) => if j.stage == .killing then afterKill k (each j.dies (fun d s => updDie s d restoreStart) s) else s
  | none => s

/-! ## Saves and restores (R188, R189) -/

/-- n free bytes from a counter on. -/
def freeBytes (i n : Nat) : List Byte := (List.range n).map fun k => Config.freeByte (i + k)

/-- The Churn part of a save area: per unit its vector registers, then its mask registers. -/
def churnArea (r : CmdStart) : List Byte :=
  (List.range 4).flatMap fun u =>
    ByteMap.read (SMap.get [] r.churnV u) 0 65536 ++ (List.range 8).flatMap fun m => leBytes 256 (SMap.get 0 (SMap.get [] r.churnM u) m).toNat

/-- The pan part of a save area. -/
def panArea (img : Image) (x : DieSt) : List Byte :=
  (persistentPans img).flatMap fun p => (List.range p.2).flatMap fun l => sramLine x (p.1 + l)

/-- A slot table by logical vat, and back. -/
def logicalSlots (u : UnitMap) (m : SMap Slot) : SMap Slot :=
  m.foldl (fun a (p : Nat × Slot) => SMap.put a (slotKey (if p.1 / 4 = 16 then u.spareFor.toNat else p.1 / 4) (p.1 % 4)) p.2) []
def physicalSlots (u : UnitMap) (m : SMap Slot) : SMap Slot :=
  m.foldl (fun a (p : Nat × Slot) => SMap.put a (slotKey (physVat u (p.1 / 4)) (p.1 % 4)) p.2) []

def saveVa (j : Job) (rank : Nat) : Nat := fieldAt j.desc 24 8 + rank * fieldAt j.desc 32 4

/-- A save or restore that cannot reach its area: 0x0362, and the job ends FAILED (R188, R224). -/
def areaFault (d k cause : Nat) (s : State) : State :=
  finishJob k stFailed 0x0362 true (postDie 0x0362 d [ctxOn s d, cause] s)

/-- A granule of a save area that no tier takes is a fault (R153): a save counts it toward the limit of its command and is tried again, a
restore, before whose end no command has issued, is tried again (R186; log 129). -/
def areaRefused (k code : Nat) (write : Bool) (s : State) : State :=
  match jobOf s k with
  | none => s
  | some j =>
    let kills := if write && j.rerunDue then j.faultKills + 1 else j.faultKills
    if 3 ≤ kills then finishJob k stRerunExhausted code true s else updJob s k fun j => { j with faultKills := kills }

/-- What an access to a save area at an address did to the job when it did not succeed: a page fault is no page request (R188, R224), a
directory error is recorded in the fault queue (R220), poison and a refused placement are as for any engine's access (R153, R266). -/
def areaStop (d k : Nat) (write : Bool) (at_ : Nat) (r : VRead) (s : State) : State :=
  let c := ctxOn s d
  match r with
  | .ok _ => s
  | .fault _ => areaFault d k (if write then 15 else 13) s
  | .failed e => areaFault d k e (postFault c e at_ write s)
  | .noRoom e a => areaRefused k (match e with | .quota => 0x0340 | .storage => 0x0341) write (postNoRoom e c a s)
  | .poison a => finishJob k stFailed 0x0402 true (postDie 0x0402 d [d, c, a] s)

/-- Saves each rank in turn; the first that faults ends the job. -/
def saveRanks (k : Nat) (j : Job) : List (Nat × Nat) → State → State
  | [], s => requeue k s
  | (d, rank) :: rest, s =>
    let x := dieOf s d
    match x.start, x.image with
    | some r, some img =>
      let head := freeBytes s.free (0x21000)
      let s := { s with free := s.free + 0x21000 }
      match vwrite d j.ctx.toNat (saveVa j rank) (head ++ churnArea r ++ panArea img x) s with
      | (.ok _, s) =>
        let r := { r with slots := logicalSlots (unitMapOf s d) r.slots, tokens := x.tokens }
        saveRanks k j rest (updJob s k fun j => { j with saves := j.saves ++ [r] })
      | (stop, s) => areaStop d k true (saveVa j rank) stop (updJob s k fun j => { j with saves := [] })
    | _, _ => saveRanks k j rest s

def saveComplete (d : Nat) (s : State) : State :=
  match (jobOn s d).bind fun k => (jobOf s k).map fun j => (k, j) with
  | some (k, j) => if j.stage == .saving then saveRanks k j j.dies.zipIdx s else s
  | none => s

/-- Writes the saved pans back, in order. -/
def putPans : List (Nat × Nat) → List Byte → DieSt → DieSt
  | [], _, x => x
  | (base, n) :: rest, b, x =>
    let x := (List.range n).foldl (fun x l => putSramLine (base + l) (BitVec.allOnes 64) ((b.drop (64 * l)).take 64) x) x
    putPans rest (b.drop (64 * n)) x

/-- A rank's state from its save area: registers of its Churn and its pans from memory, the rest as recorded (R188). -/
def restoreRank (r : CmdStart) (u : UnitMap) (img : Image) (b : List Byte) (x : DieSt) : DieSt :=
  let unit := fun (i : Nat) => (b.drop (67584 * i)).take 67584
  let churnV := (List.range 4).foldl (fun m i => SMap.set [] m i (ByteMap.cells 0 ((unit i).take 65536))) ([] : SMap ByteMap)
  let masks := fun (i : Nat) => (List.range 8).foldl (fun m k =>
    SMap.set 0 m k (BitVec.ofNat 2048 (leNat (((unit i).drop (65536 + 256 * k)).take 256)))) ([] : SMap (BitVec 2048))
  let churnM := (List.range 4).foldl (fun m i => SMap.set [] m i (masks i)) ([] : SMap (SMap (BitVec 2048)))
  let slots := physicalSlots u r.slots
  let x := putPans (persistentPans img) (b.drop 270336) x
  { x with
    sv := r.sv, lc := r.lc, tokens := r.tokens, sent := r.sent, occ := r.occ, churn := churnFrom x churnV churnM,
    actSeq := max x.actSeq (slots.foldl (fun m (p : Nat × Slot) => max m (p.2.pair.getD 0)) 0 + 1), start := some { r with slots },
    round := { x.round with opened := r.opened, loaded := r.loaded,
                            refills := slots.filterMap fun (p : Nat × Slot) => p.2.entry.map fun e => (p.1, e) },
    seq := { x.seq with pos := r.pos, nextStep := r.nextStep, fetchedTo := r.pos } }

def restoreRanks (k : Nat) (j : Job) : List ((Nat × Nat) × CmdStart) → State → State
  | [], s => rerun k (updJob s k fun j => { j with saves := [] })
  | ((d, rank), r) :: rest, s =>
    match (dieOf s d).image with
    | none => s
    | some img =>
      match vread d j.ctx.toNat false (saveVa j rank) (saveSize img) s with
      | (.ok b, s) => restoreRanks k j rest (updDie s d (restoreRank r (unitMapOf s d) img (b.drop 0x21000)))
      | (stop, s) => areaStop d k false (saveVa j rank) stop s

def restoreComplete (d : Nat) (s : State) : State :=
  match (jobOn s d).bind fun k => (jobOf s k).map fun j => (k, j) with
  | some (k, j) => if j.stage == .restoring then restoreRanks k j (j.dies.zipIdx.zip j.saves) s else s
  | none => s

/-! ## DIE_RESET (R420, R421) -/

/-- What a die reset takes from the engines: slots EMPTY, every tag null (R67, R390); queued invalidations are applied (R252). -/
def resetEngines (x : DieSt) : DieSt := applyInvals { x with slots := [], lineTag := [] }

def dieReset (mask key : Nat) (s : State) : State :=
  if key ≠ 0xA5 then s
  else each (diesOf mask) (fun d s =>
    let n := if (jobOn s d).isSome then 1 else 0
    updDie (killOn d .dieReset (post 0x0A09 d [d, n] s)) d resetEngines) s

/-! ## MSIs (R177, R283) -/

/-- The file an interrupt target names: 1 the supervisor file, 1 + g a guest file (R283). -/
def targetKey (c : Context) : Nat := fileKey c.hart.toNat (1 + c.file.toNat)

/-- The dispatcher sends the MSI that has waited longest to the target its context names now, or drops it where the target names an absent
hart or has EIID 0 (R283). -/
def sendMsi (s : State) : State :=
  match s.disp.msis with
  | [] => s
  | c :: rest =>
    let x := ctxOf s c.toNat
    let s := { s with disp := { s.disp with msis := rest } }
    if x.eiid = 0 || !hartPresent s x.hart.toNat then
      updCtx s c.toNat fun x => { x with droppedMsis := x.droppedMsis + 1 }
    else { s with disp := { s.disp with sent := s.disp.sent ++ [(targetKey x, x.eiid)] } }

/-- The dispatcher's write of an MSI completes at the target it was sent to: of the oldest one sent, else of the one that waits longest,
which is sent with it (R283, R292; log 133). -/
def deliverMsi (s : State) : State :=
  let s := if s.disp.sent.isEmpty then sendMsi s else s
  match s.disp.sent with
  | [] => s
  | (k, n) :: rest => setPendingId k n.toNat { s with disp := { s.disp with sent := rest } }

/-! ## The rows -/

/-- CONTEXT_ENABLE (R172, R173, R383). -/
def execContextEnable (c : CtxId) (s : State) : Host.Outcome State Fault Refusal := command (enableContext c.toNat) s
/-- CONTEXT_RESET (R173, R174, R285). -/
def execContextReset (c : CtxId) (s : State) : Host.Outcome State Fault Refusal := command (resetContext c.toNat) s
/-- PREEMPT (R173, R183, R187). -/
def execPreempt (c : CtxId) (s : State) : Host.Outcome State Fault Refusal :=
  command (fun s => preempt (jobsOf s c.toNat) s) s
/-- SQ_TAIL (R173, R175, R177). -/
def execSqTail (c : CtxId) (v : BitVec 16) (s : State) : Host.Outcome State Fault Refusal :=
  command (updCtx · c.toNat (fun x => { x with sqTail := v })) s
/-- CQ_HEAD (R173, R177). -/
def execCqHead (c : CtxId) (v : BitVec 16) (s : State) : Host.Outcome State Fault Refusal :=
  command (updCtx · c.toNat (fun x => { x with cqHead := v })) s
/-- PREEMPT_DIES (R187, R191). -/
def execPreemptDies (mask : BitVec 8) (s : State) : Host.Outcome State Fault Refusal :=
  command (fun s => preempt ((diesOf mask.toNat).filterMap (jobOn s)).eraseDups s) s
/-- DISPATCH_PLACE (R52, R59, R121, R173, R176 to R179, R187, R388 to R390). -/
def execDispatchPlace (s : State) : Host.Outcome State Fault Refusal := command dispatch s
/-- KILL_COMPLETE (R14, R53, R108, R127, R168, R174, R183 to R187, R190, R193, R285). -/
def execKillComplete (d : Die) (s : State) : Host.Outcome State Fault Refusal := command (fun s => settleFences (killComplete d s)) s
/-- SAVE_COMPLETE (R187 to R190, R193, R223). -/
def execSaveComplete (d : Die) (s : State) : Host.Outcome State Fault Refusal := command (saveComplete d) s
/-- RESTORE_COMPLETE (R127, R168, R187, R188, R389). -/
def execRestoreComplete (d : Die) (s : State) : Host.Outcome State Fault Refusal := command (restoreComplete d) s
/-- DIE_RESET (R67, R183, R193, R390, R420, R421). -/
def execDieReset (mask : BitVec 8) (key : BitVec 8) (s : State) : Host.Outcome State Fault Refusal :=
  command (dieReset mask.toNat key.toNat) s
/-- MSI_DELIVERED (R177, R283, R284). -/
def execMsiDelivered (s : State) : Host.Outcome State Fault Refusal := command deliverMsi s

end Sys2Proof.Machine
end

