-- ==== Sys2Proof/Machine/Lacing.lean ====
section
/-! DEFINITION. Eyelets and light inlets (R17 to R19, R294 to R297), lace packets arriving (R298 to R309) and the lace's timers
(R303 to R308). -/

namespace Sys2Proof.Machine

/-! ## Laces and their eyelets -/

/-- LSTATE follows the eyelets: UP while any is UP; the time without one is noted otherwise (R308). -/
def settleLace (p : Nat) (s : State) : State :=
  let e := partnerOf s p
  if !e.valid then s
  else if (upEyes s e).isEmpty then updPartner s p (fun e => { e with downSince := some (e.downSince.getD s.time) })
  else updPartner s p (fun e => { e with lstate := 1, downSince := none })

def settleLaces (s : State) : State := each (s.lacing.partners.map (·.1)) settleLace s

/-- Sends again the unacknowledged packets of a lace that a test picks, the same bytes over the eyelets still UP (R307). -/
def resend (p : Nat) (old : SentPacket → Bool) (s : State) : State :=
  let ks := (partnerOf s p).retransmit.filter old
  let again := fun (k : SentPacket) => if old k then { k with sentAt := s.time, eye := laceEye s p k.pkt.lseq.toNat } else k
  let s := updPartner s p (fun e => { e with retransmit := e.retransmit.map again })
  each ks (fun k s => transmit p k.pkt.lseq.toNat k.wire s) s

/-- An eyelet goes DOWN (R295, R307, R18): what its link layer held goes, its laces re-route. -/
def eyeDown (e reason : Nat) (s : State) : State :=
  let s := updEye s e fun x =>
    { x with state := .down, txSeq := 0, acked := 0xFFF, rxSeq := 0, replay := [], txq := [], downAt := some s.time }
  let s := settleLaces (countChange (setSite (siteEye e) stFault reason s))
  each ((s.lacing.partners.filter fun (p : Nat × Partner) => p.2.valid && (laceEyes p.2).contains e).map (·.1))
    (fun p s => resend p (fun _ => true) s) s

/-- Whether all lanes of both directions are in lock. -/
def allBack (x : Eyelet) : Bool := x.tx.lost = 0 && x.rx.lost = 0

/-- Lanes that carry data, the lane whose place the spare is taking included. -/
def lanesOf (x : EyeDir) : Nat := x.active.toNat + if x.substituting then 1 else 0

/-- An eyelet is UP when each direction has at least 4 lanes (R294). -/
def wideEnough (x : Eyelet) : Bool := 4 ≤ lanesOf x.tx && 4 ≤ lanesOf x.rx

/-- Whether both inlets of an eyelet's half are dark (R18). -/
def darkHalf (s : State) (h : Nat) : Bool := !siteUp s (siteInlet (2 * h)) && !siteUp s (siteInlet (2 * h + 1))

/-- An eyelet that was DOWN is UP once both directions are wide enough and its half has light (R294, R308); it reads DEGRADED
while narrowed below eight lanes (R34). -/
def eyeReturn (e : Nat) (s : State) : State :=
  let x := eyeOf s e
  if x.state == .down && wideEnough x && !darkHalf s (e / 16) then
    let s := updEye s e fun x => { x with state := .up, downAt := none }
    settleLaces (countChange (setSite (siteEye e) (if lanesOf x.tx < 8 || lanesOf x.rx < 8 then stDegraded else stPresent) 0 s))
  else s

/-- What follows once lanes have come back: PRESENT and 0x0705 when all are (R295, R36). -/
def eyeRestored (e : Nat) (s : State) : State :=
  if allBack (eyeOf s e) && (eyeOf s e).state == .up then
    let s := if (siteOf s (siteEye e)).state = 1 then s else countChange (setSite (siteEye e) stPresent 0 s)
    post 0x0705 (siteEye e) [e] s
  else s

/-- Trains an eyelet: nine lanes locked each way, eight carrying data (R294). One whose half is dark does not train and reads FAULT
with REASON 0x06 (R18, R293); one whose training fails posts 0x0704 and reads FAULT with REASON 0x05 (R33, R319). -/
def eyeTrain (e : Nat) (s : State) : State :=
  let down := fun (reason : Nat) (s : State) =>
    countChange (setSite (siteEye e) stFault reason (updEye s e fun x => { x with state := .down, downAt := some s.time }))
  if darkHalf s (e / 16) then down 6 s
  else if s.su.board.trainFail.contains (32 + e) then post 0x0704 (siteEye e) [e] (down 5 s)
  else updEye s e fun x => { x with state := .up, tx := { active := 8 }, rx := { active := 8 }, downAt := none }

/-- Light returns to an eyelet that was dark (R19): one that has trained is UP again, one that never has trains now. -/
def eyeRelit (e : Nat) (s : State) : State :=
  let x := eyeOf s e
  if (siteOf s (siteEye e)).reason ≠ 6 then s
  else if x.tx = {} && x.rx = {} then
    let s := eyeTrain e s
    if (eyeOf s e).state == .up then settleLaces (countChange (setSite (siteEye e) stPresent 0 s)) else s
  else eyeRestored e (eyeReturn e s)

/-! ## Lanes (R295, R316) -/

def dirOfEye (x : Eyelet) (tx : Bool) : EyeDir := if tx then x.tx else x.rx
def setEyeDir (tx : Bool) (y : EyeDir) (x : Eyelet) : Eyelet := if tx then { x with tx := y } else { x with rx := y }

/-- A direction that loses a lane, and whether it narrows. -/
def loseLane (w : Nat) (y : EyeDir) : EyeDir × Bool :=
  let y' : EyeDir := { y with lost := y.lost ||| BitVec.ofNat 9 (2 ^ w) }
  if w = 8 && !y.spareUsed then ({ y' with substituting := false }, y.substituting)
  else if w < 8 && !y.spareUsed && !y.substituting && !y.lost.getLsbD 8 then
    ({ y' with active := y.active - 1, substituting := true }, false)
  else ({ y' with active := y.active - 1 }, true)

/-- LANE_LOST: 0x0701; the spare takes the lane's place, or the eyelet narrows, or it goes DOWN. -/
def laneLost (e : Nat) (tx : Bool) (w : Nat) (s : State) : State :=
  let x := eyeOf s e
  let y := dirOfEye x tx
  if x.state == .absent || 9 ≤ w || y.lost.getLsbD w then s
  else
    let (y', narrowed) := loseLane w y
    let s := post 0x0701 (siteEye e) [e, if tx then 0 else 1, w] (updEye s e (setEyeDir tx y'))
    if x.state ≠ .up || !narrowed then s
    else if !wideEnough (eyeOf s e) then post 0x0704 (siteEye e) [e] (eyeDown e 0 s)
    else
      let s := if (siteOf s (siteEye e)).state = 5 then s else countChange (setSite (siteEye e) stDegraded 0 s)
      post 0x0703 (siteEye e) [e, lanesOf y'] s

/-- A direction that a lane rejoins: the spare is idle again once W0-W7 are all in lock, and a spare that returns while one of them
is lost takes its place (R295). -/
def rejoinLane (w : Nat) (y : EyeDir) : EyeDir :=
  let lost := y.lost &&& ~~~(BitVec.ofNat 9 (2 ^ w))
  let carries := w < 8 || y.spareUsed
  let y' : EyeDir := { y with lost, active := if carries && y.active.toNat < 8 then y.active + 1 else y.active }
  if lost.toNat % 256 = 0 then { y' with active := 8, spareUsed := false, substituting := false }
  else if w = 8 && !y.spareUsed then { y' with substituting := true }
  else y'

def laneRejoined (e : Nat) (tx : Bool) (w : Nat) (s : State) : State :=
  let x := eyeOf s e
  let y := dirOfEye x tx
  if x.state == .absent || 9 ≤ w || !y.lost.getLsbD w then s
  else eyeRestored e (eyeReturn e (updEye s e (setEyeDir tx (rejoinLane w y))))

def spareComplete (e : Nat) (tx : Bool) (s : State) : State :=
  let y := dirOfEye (eyeOf s e) tx
  if !y.substituting then s
  else post 0x0702 (siteEye e) [e, if tx then 0 else 1]
    (updEye s e (setEyeDir tx { y with substituting := false, spareUsed := true, active := y.active + 1 }))

/-! ## Flits (R296, R297) -/

/-- Frees the flits that an ACK covers. -/
def freeAck (ack : BitVec 12) (x : Eyelet) : Eyelet :=
  let n := (ack - x.acked).toNat
  if n ≤ x.replay.length then { x with replay := x.replay.drop n, acked := ack } else x

/-- An ACK frees flits, and new ones may go. -/
def takeAck (ack : BitVec 12) (x : Eyelet) : Eyelet := pumped (freeAck ack x)

/-- Resends from the flit after ACK, in order, before any new flit goes. -/
def replayFrom (ack : BitVec 12) (x : Eyelet) : Eyelet :=
  let x := freeAck ack x
  pumped { x with sent := x.sent ++ x.replay, replays := bump x.replays x.replay.length }

/-- The link layer of an eyelet meets a flit: discarded with a NAK when its CRC fails or it is out of sequence, otherwise
delivered; idle and training flits carry no SEQ of their own (log 52). -/
def flitIn (f : List Byte) (x : Eyelet) : Eyelet :=
  let ctl := fieldAt f 2 2
  let kind := bits ctl 13 3
  let ack := BitVec.ofNat 12 (bits ctl 0 12)
  let nakSent := { x with sent := x.sent ++ [flitOf x.txSeq.toNat (lastIn x) 1 true []] }
  let acked := fun (x : Eyelet) => if bits ctl 12 1 = 1 then replayFrom ack x else takeAck ack x
  if f.length ≠ 256 || (crc32c (f.take 252)).toNat ≠ fieldAt f 252 4 then nakSent
  else if kind = 0 then
    if bits (fieldAt f 0 2) 0 12 ≠ x.rxSeq.toNat then nakSent
    else acked { x with rxSeq := x.rxSeq + 1, stream := x.stream ++ (f.drop 4).take 248 }
  else if kind = 1 then acked x
  else x

def flitReceived (e : Nat) (f : List Byte) (s : State) : State :=
  if (eyeOf s e).state == .up then updEye s e (flitIn f) else s

def flitNak (e : Nat) (ack : BitVec 12) (s : State) : State :=
  if (eyeOf s e).state == .up then updEye s e (replayFrom ack) else s

/-! ## Light inlets (R17 to R19) -/

def halfEyes (h : Nat) : List Nat := (List.range 16).map (16 * h + ·)

def setRelayed (h : Nat) (b : Bool) (s : State) : State :=
  let m := BitVec.ofNat 2 (2 ^ h)
  { s with lacing := { s.lacing with relayed := if b then s.lacing.relayed ||| m else s.lacing.relayed &&& ~~~m } }

def inletLost (i : Nat) (s : State) : State :=
  if !siteUp s (siteInlet i) then s
  else
    let s := post 0x0706 (siteInlet i) [i] (countChange (setSite (siteInlet i) stFault 6 s))
    if darkHalf s (i / 2) then
      each (halfEyes (i / 2)) (fun e s => if (eyeOf s e).state == .up || (eyeOf s e).state == .training then eyeDown e 6 s else s)
        (setRelayed (i / 2) true s)
    else s

def inletRestored (i : Nat) (s : State) : State :=
  let x := siteOf s (siteInlet i)
  if x.state ≠ 2 || x.reason ≠ 6 then s
  else
    let s := post 0x0707 (siteInlet i) [i] (countChange (setSite (siteInlet i) stPresent 0 s))
    each (halfEyes (i / 2)) eyeRelit
      (setRelayed (i / 2) false s)

/-! ## What packets do (R302 to R306) -/

/-- GET_REQ (R304): a coherent read of committed memory in the window; no copy is kept. A line that cannot be placed is
returned as poison (log 71). -/
def serveGet (k : Packet) (s : State) : State :=
  let p := k.src.toNat
  let off := operOffset k.oper
  let n := operLines k.oper
  let reply := fun (aux : Nat) (d : List Byte) (s : State) => sendLace p ptGetRsp aux k.tag.toNat k.cmd.toNat k.oper.toNat d s
  if !inWindow s p off n then reply reasonWindow [] s
  else
    let c := (partnerOf s p).rxContext.toNat
    let first := windowLine s p off
    match touchRange (64 * first) (64 * n) c none s with
    | .error (e, a) => reply 8 (zeros (64 * n)) (postNoRoom e c a s)
    | .ok s =>
      let ls := (List.range n).map (first + ·)
      let s := each ls settleLine s
      reply (if ls.any (poisoned s) then 8 else 0) (ls.flatMap (heldLine s)) s

def lateDrop (p : Nat) (s : State) : State := updPartner s p (fun e => { e with lateDropped := e.lateDropped + 1 })

/-- Replaces a GET tag, or removes it. -/
def setTag (d p tag : Nat) (t : Option GetTag) (s : State) : State :=
  let f := fun (l : List GetTag) => l.filterMap fun x => if x.tag.toNat = tag then t else some x
  { s with lacing := { s.lacing with tags := SMap.upd [] s.lacing.tags (tagKey d p) f } }

/-- GET_RSP (R304): written into the pan when its lace, epoch and tag match; WINDOW and poison end the job. -/
def takeRsp (k : Packet) (s : State) : State :=
  let p := k.src.toNat
  let d := k.tag.toNat / 8192
  match (SMap.get [] s.lacing.tags (tagKey d p)).find? (fun t => t.tag == k.tag && t.retired.isNone && t.epoch == k.epoch) with
  | none => lateDrop p s
  | some t =>
    if k.aux.getLsbD 3 then stopWith d (.failing 0x0402 [d, ctxOn s d, 64 * operOffset k.oper]) s
    else if bits k.aux.toNat 0 3 = reasonWindow then stopWith d (.failing 0x0715 [p, reasonWindow]) s
    else match (dieOf s d).image with
      | none => lateDrop p s
      | some img =>
        let n := min (operLines k.oper) (t.lines - t.got)
        let s := dieWrite d (panEnt img t.pan) (64 * (t.line + t.got)) (fit (64 * n) k.data) s
        if t.got + n < t.lines then setTag d p t.tag.toNat (some { t with got := t.got + n }) s
        else
          tryDrainOn d (updDie (setTag d p t.tag.toNat none s) d fun x => { x with getTokens := x.getTokens.eraseP (·.1 == t.token) })
where
  /-- Writes bytes of a pan that a GET reserved. -/
  dieWrite (d : Nat) (pan : PanEnt) (off : Nat) (b : List Byte) (s : State) : State :=
    match writePan pan off b (dieOf s d) with
    | .ok x => setDie s d x
    | .error e => stopWith d e s

/-- A partner answers a COMMIT, or is recorded undelivered, which stops the COMMITs and sends one ABORT (R305, R306). -/
def endCommit (p : Nat) (cmd : BitVec 32) (undelivered : Bool) (s : State) : State :=
  match (partnerOf s p).cmds.find? (fun c => c.cmd == cmd && c.committed.isSome) with
  | none => s
  | some c =>
    let s := updDie s c.die fun x => { x with drain := x.drain.map fun r =>
      { r with awaiting := r.awaiting.filter (·.1 != p), undelivered := r.undelivered || undelivered } }
    let s := updPartner s p (fun e => { e with cmds := e.cmds.filter (·.cmd != cmd) })
    if undelivered then sendLace p ptAbort 0 0 cmd.toNat 0 [] s else s

/-- STAGE_REFUSED at the sender (R302, R316). -/
def stagingRefused (k : Packet) (s : State) : State :=
  let p := k.src.toNat
  match (partnerOf s p).cmds.find? (·.cmd == k.cmd) with
  | none => s
  | some c =>
    let why := k.aux.toNat
    let s := post 0x0714 noSite [p, why] s
    if c.committed.isSome then s
    else killOn c.die (if why = reasonWindow then .failing 0x0714 else .fault 0x0714) s

/-- ABORT (R303): ignored for a command applied or without staging. -/
def abortPkt (k : Packet) (s : State) : State :=
  let p := k.src.toNat
  if (stagingOf s p k.cmd.toNat).isSome then retryHeld p (discardStaging p k.cmd.toNat s) else s

/-- RENEW (R303): the lease restarts unless a COMMIT is held. -/
def renewPkt (k : Packet) (s : State) : State :=
  match stagingOf s k.src.toNat k.cmd.toNat with
  | some x => if x.commit.isNone then putStaging k.src.toNat k.cmd.toNat { x with lease := s.time } s else s
  | none => s

/-- What a packet does once its turn has come. -/
def actPacket (ty : Nat) (k : Packet) (s : State) : State :=
  if ty = ptPut || ty = ptReduce || ty = ptSignal then stage ty k s
  else if ty = ptGetReq then serveGet k s
  else if ty = ptGetRsp then takeRsp k s
  else if ty = ptCommit then commitPkt k s
  else if ty = ptCommitAck then endCommit k.src.toNat k.cmd false s
  else if ty = ptCommitNak then endCommit k.src.toNat k.cmd true s
  else if ty = ptAbort then abortPkt k s
  else if ty = ptRenew then renewPkt k s
  else if ty = ptRefused then stagingRefused k s
  else s

/-! ## Arrival (R307, R309, R312, R385) -/

/-- A packet that fails its tag check: dropped and counted, 0x0711 at most once a second per partner (R309). -/
def authFail (p : Nat) (s : State) : State :=
  let s := updPartner s p (fun e => { e with authFailed := e.authFailed + 1 })
  let e := partnerOf s p
  if e.lastAuth.any fun t => since s t < msTicks 1000 then s
  else post 0x0711 noSite [p, e.authFailed.toNat] (updPartner s p (fun e => { e with lastAuth := some s.time }))

/-- Acts on the packets held ahead once their numbers come up. -/
def reorderLoop (p : Nat) : Nat → State → State
  | 0, s => s
  | n + 1, s =>
    let e := partnerOf s p
    match SMap.find e.reorder e.lseqRx.toNat with
    | none => s
    | some (ty, k) =>
      let s := updPartner s p (fun e => { e with reorder := SMap.del e.reorder e.lseqRx.toNat, lseqRx := e.lseqRx + 1 })
      reorderLoop p n (actPacket ty.toNat k s)

/-- Acts on a packet in LSEQ order, or holds it when at most 8,192 ahead; duplicates and others are dropped (R307). -/
def inOrder (ty : Nat) (k : Packet) (s : State) : State :=
  let p := k.src.toNat
  let s := updPartner s p (fun e => { e with ackDue := some (e.ackDue.getD (s.time + 400)) })
  let e := partnerOf s p
  let ahead := (k.lseq - e.lseqRx).toNat
  if ahead = 0 then
    let s := actPacket ty k (updPartner s p (fun e => { e with lseqRx := e.lseqRx + 1 }))
    reorderLoop p (partnerOf s p).reorder.length s
  else if ahead ≤ 8192 && (SMap.find e.reorder k.lseq.toNat).isNone then
    updPartner s p (fun e => { e with reorder := SMap.put e.reorder k.lseq.toNat (BitVec.ofNat 8 ty, k) })
  else s

/-- E2E_ACK frees every packet up to its cumulative LSEQ (R307). -/
def takeE2eAck (k : Packet) (s : State) : State :=
  let n := BitVec.ofNat 32 (bits k.oper.toNat 0 32)
  updPartner s k.src.toNat (fun e =>
    { e with ackedTo := n, retransmit := e.retransmit.filter fun r => (n - r.pkt.lseq).toNat ≥ 2 ^ 31 })

/-- A lace packet arrives, never at a Skim package (R3): for this package, from a lace in service, under its key, of this epoch, in order. -/
def arrive (ty : Nat) (k : Packet) (s : State) : State :=
  let p := k.src.toNat
  if s.variant = .skim || k.dst ≠ s.lacing.memb.pkgId || !(partnerOf s p).valid then s
  else match laceKeyOf s p with
    | none => post 0x0904 noSite [p, (partnerOf s p).rxContext.toNat] s
    | some key =>
      if k.memb || Config.packetMac key.key (packetBytes ty k) ≠ k.mac then authFail p s
      else if k.epoch ≠ s.lacing.memb.epoch then (if ty = ptGetRsp then lateDrop p s else s)
      else if ty = ptAck then takeE2eAck k s
      else inOrder ty k s

/-! ## Timers (R303 to R308) -/

/-- RENEW for every command with staging and no COMMIT, a quarter lease after the last. -/
def renewDue (p : Nat) (s : State) : State :=
  let due := fun (c : LaceCmd) => c.committed.isNone && c.packets ≠ 0 && leaseTicks s ≤ 4 * since s c.renewAt
  let cs := (partnerOf s p).cmds.filter due
  let s := updPartner s p (fun e => { e with cmds := e.cmds.map fun c => if due c then { c with renewAt := s.time } else c })
  each cs (fun c s => sendLace p ptRenew 0 0 c.cmd.toNat 0 [] s) s

def leaseExpired (p cmd : Nat) (s : State) : State :=
  match stagingOf s p cmd with
  | none => s
  | some x =>
    if since s x.lease < leaseTicks s then s
    else retryHeld p (post 0x0713 noSite [p, cmd] (discardStaging p cmd s))

/-- COMMIT again, 10 ms after the last; one of an older epoch is not repeated, since its packets bear an EPOCH that every member drops
(R312). -/
def commitRepeat (p : Nat) (s : State) : State :=
  let due := fun (c : LaceCmd) => c.committed.isSome && c.epoch == s.lacing.memb.epoch && msTicks 10 ≤ since s c.repeatAt
  let cs := (partnerOf s p).cmds.filter due
  let s := updPartner s p (fun e => { e with cmds := e.cmds.map fun c => if due c then { c with repeatAt := s.time } else c })
  each cs (fun c s => sendLace p ptCommit 0 0 c.cmd.toNat c.packets [] s) s

def partnerUndelivered (p : Nat) (s : State) : State :=
  let late := (partnerOf s p).cmds.filter fun c => c.committed.any fun t => leaseTicks s ≤ since s t
  each late (fun c s => endCommit p c.cmd true s) s

/-- E2E_ACK with the last LSEQ acted on (R307). -/
def ackDue (p : Nat) (s : State) : State :=
  let e := partnerOf s p
  if e.ackDue.isNone then s
  else sendLace p ptAck 0 0 0 (e.lseqRx - 1).toNat [] (updPartner s p (fun e => { e with ackDue := none }))

def retransmitDue (p : Nat) (s : State) : State := resend p (fun k => 20000 ≤ since s k.sentAt) s

/-- LACE_DOWN (R308): 0x0710, and the commands with staging at the partner or GETs outstanding to it are killed as faults. -/
def laceDownAct (p : Nat) (s : State) : State :=
  let e := partnerOf s p
  let gone := e.downSince.any fun t => msTicks (objNat s 0x5000 6 10) ≤ since s t
  if !e.valid || e.lstate = 2 || !gone || !(upEyes s e).isEmpty then s
  else
    let s := post 0x0710 noSite [p] (updPartner s p (fun e => { e with lstate := 2 }))
    let hit := (List.range 8).filter fun d => (laceCmdOf s d p).isSome || getOutstanding s d (some p)
    each hit (fun d s => killOn d (.fault 0x0710) s) s

def tagFree (d p : Nat) (tag : BitVec 16) (s : State) : State :=
  match (SMap.get [] s.lacing.tags (tagKey d p)).find? (·.tag == tag) with
  | some t => if t.retired.any fun r => msTicks 10 ≤ since s r then setTag d p tag.toNat none s else s
  | none => s

/-- Clearing VALID (R299): inbound staging from the partner goes, its outstanding GETs end as a kill would end them. -/
def validClear (p : Nat) (s : State) : State :=
  if !(partnerOf s p).valid then s
  else
    let s := discardAllFrom p (updPartner s p (fun e => { e with valid := false, lstate := 0, downSince := none }))
    each (List.range 8) (fun d s =>
      let live := (SMap.get [] s.lacing.tags (tagKey d p)).filter (·.retired.isNone)
      if live.isEmpty then s
      else
        let s := each live (fun t s => setTag d p t.tag.toNat (some { t with retired := some s.time }) s) s
        tryDrainOn d (updDie s d fun x => { x with getTokens := live.foldl (fun l t => l.eraseP (·.1 == t.token)) x.getTokens })) s

/-! ## The rows -/

/-- LANE_LOST (R294, R295, R307, R316, R319). -/
def execLaneLost (e : EyeId) (tx : Bool) (w : Nat) (s : State) : Host.Outcome State Fault Refusal :=
  command (laneLost e.toNat tx w) s
/-- LANE_REJOINED (R295, R308, R319). -/
def execLaneRejoined (e : EyeId) (tx : Bool) (w : Nat) (s : State) : Host.Outcome State Fault Refusal :=
  command (laneRejoined e.toNat tx w) s
/-- SPARE_SUBSTITUTION_COMPLETE (R295, R316). -/
def execSpareSubstitutionComplete (e : EyeId) (tx : Bool) (s : State) : Host.Outcome State Fault Refusal :=
  command (spareComplete e.toNat tx) s
/-- FLIT_RECEIVED (R296, R297). -/
def execFlitReceived (e : EyeId) (f : List Byte) (s : State) : Host.Outcome State Fault Refusal := command (flitReceived e.toNat f) s
/-- FLIT_NAK (R295, R297, R316). -/
def execFlitNak (e : EyeId) (ack : BitVec 12) (s : State) : Host.Outcome State Fault Refusal := command (flitNak e.toNat ack) s
/-- INLET_LOST (R17, R18, R316). -/
def execInletLost (i : BitVec 2) (s : State) : Host.Outcome State Fault Refusal := command (inletLost i.toNat) s
/-- INLET_RESTORED (R18, R19). -/
def execInletRestored (i : BitVec 2) (s : State) : Host.Outcome State Fault Refusal := command (inletRestored i.toNat) s
/-- PUT_PACKET (R298, R302, R303, R307, R309, R385). -/
def execPutPacket (p : Packet) (s : State) : Host.Outcome State Fault Refusal := command (arrive ptPut p) s
/-- REDUCE_PACKET (R298, R302, R303). -/
def execReducePacket (p : Packet) (s : State) : Host.Outcome State Fault Refusal := command (arrive ptReduce p) s
/-- SIGNAL_PACKET (R298, R303, R305). -/
def execSignalPacket (p : Packet) (s : State) : Host.Outcome State Fault Refusal := command (arrive ptSignal p) s
/-- GET_REQ (R298, R304). -/
def execGetReq (p : Packet) (s : State) : Host.Outcome State Fault Refusal := command (arrive ptGetReq p) s
/-- GET_RSP (R266, R298, R304, R316). -/
def execGetRsp (p : Packet) (s : State) : Host.Outcome State Fault Refusal := command (arrive ptGetRsp p) s
/-- COMMIT_PACKET (R250, R298, R303, R305, R316). -/
def execCommitPacket (p : Packet) (s : State) : Host.Outcome State Fault Refusal := command (arrive ptCommit p) s
/-- COMMIT_ACK (R298, R305). -/
def execCommitAck (p : Packet) (s : State) : Host.Outcome State Fault Refusal := command (arrive ptCommitAck p) s
/-- COMMIT_NAK (R298, R306). -/
def execCommitNak (p : Packet) (s : State) : Host.Outcome State Fault Refusal := command (arrive ptCommitNak p) s
/-- ABORT (R298, R303). -/
def execAbort (p : Packet) (s : State) : Host.Outcome State Fault Refusal := command (arrive ptAbort p) s
/-- RENEW (R298, R303). -/
def execRenew (p : Packet) (s : State) : Host.Outcome State Fault Refusal := command (arrive ptRenew p) s
/-- STAGE_REFUSED (R298, R302, R316). -/
def execStageRefused (p : Packet) (s : State) : Host.Outcome State Fault Refusal := command (arrive ptRefused p) s
/-- E2E_ACK (R298, R307). -/
def execE2eAck (p : Packet) (s : State) : Host.Outcome State Fault Refusal := command (arrive ptAck p) s
/-- RENEW_DUE (R303). -/
def execRenewDue (p : PkgId) (s : State) : Host.Outcome State Fault Refusal := command (renewDue p.toNat) s
/-- STAGING_LEASE_EXPIRED (R303). -/
def execStagingLeaseExpired (p : PkgId) (cmd : BitVec 32) (s : State) : Host.Outcome State Fault Refusal :=
  command (leaseExpired p.toNat cmd.toNat) s
/-- COMMIT_REPEAT (R305). -/
def execCommitRepeat (p : PkgId) (s : State) : Host.Outcome State Fault Refusal := command (commitRepeat p.toNat) s
/-- PARTNER_UNDELIVERED (R306). -/
def execPartnerUndelivered (p : PkgId) (s : State) : Host.Outcome State Fault Refusal := command (partnerUndelivered p.toNat) s
/-- E2E_ACK_DUE (R307). -/
def execE2eAckDue (p : PkgId) (s : State) : Host.Outcome State Fault Refusal := command (ackDue p.toNat) s
/-- RETRANSMIT_TIMEOUT (R307). -/
def execRetransmitTimeout (p : PkgId) (s : State) : Host.Outcome State Fault Refusal := command (retransmitDue p.toNat) s
/-- LACE_DOWN (R308). -/
def execLaceDown (p : PkgId) (s : State) : Host.Outcome State Fault Refusal := command (laceDownAct p.toNat) s
/-- TAG_QUARANTINE_END (R304). -/
def execTagQuarantineEnd (d : Die) (p : PkgId) (tag : BitVec 16) (s : State) : Host.Outcome State Fault Refusal :=
  command (tagFree d.val p.toNat tag) s
/-- PARTNER_VALID_CLEAR (R299). -/
def execPartnerValidClear (p : PkgId) (s : State) : Host.Outcome State Fault Refusal := command (validClear p.toNat) s

end Sys2Proof.Machine
end

