-- ==== Sys2Proof/Machine/Membership.lean ====
section
/-! DEFINITION. Membership (R310 to R314): HELLO, views and their quorum, epochs, Held. -/

namespace Sys2Proof.Machine

def ownId (s : State) : Nat := s.lacing.memb.pkgId.toNat

def setMemb (f : Membership → Membership) (s : State) : State := { s with lacing := { s.lacing with memb := f s.lacing.memb } }

/-- Whether the membership engine acts: membership on, and not a Skim package (R3, R310, R314). -/
def membershipActs (s : State) : Bool := membershipOn s && s.lacing.memb.mstate ≠ .absent

/-- A package is reachable while its last HELLO is at most 5 ms old (R310). -/
def reachable (s : State) (p : Nat) : Bool := (partnerOf s p).helloAt.any fun t => since s t ≤ msTicks 5

def votersReached (s : State) : List Nat := s.lacing.memb.voters.filter fun v => v == ownId s || reachable s v

/-- The voters whose reach lasted until `age` ticks ago or longer: their last HELLO was then at most 5 ms old. -/
def votersSince (s : State) (age : Nat) : List Nat :=
  s.lacing.memb.voters.filter fun v => v == ownId s || (partnerOf s v).helloAt.any fun t => since s t ≤ msTicks 5 + age

/-- Whether a set of voters is a quorum (R310). -/
def isQuorum (v q : List Nat) : Bool :=
  let n := (q.filter v.contains).eraseDups.length
  let low := v.foldl min (v.headD 0)
  v.length < 2 * n || (2 * n = v.length && q.contains low && v.contains low)

/-- The packages reachable, this one included, in rising order. -/
def reachSet (s : State) : List Nat :=
  let ps := (s.lacing.partners.map (·.1)).filter fun p => p ≠ ownId s && reachable s p
  ps.filter (· < ownId s) ++ ownId s :: ps.filter (ownId s < ·)

/-- A view's 1,024-byte member bitmap, and the members a bitmap names (R310). -/
def viewBitmap (v : List Nat) : List Byte :=
  (List.range 1024).map fun i => BitVec.ofNat 8 (((v.filter fun p => p / 8 == i).map fun p => 2 ^ (p % 8)).foldl (· + ·) 0)
def viewMembers (b : List Byte) : List Nat :=
  ((b.take 1024).zipIdx).flatMap fun (x : Byte × Nat) => ((List.range 8).filter x.1.getLsbD).map (8 * x.2 + ·)

/-- How long ago a quorum of voters was last reached, as the HELLOs on record show: it can lapse only 5 ms after one of them, and no
earlier than the newest, before which the record was brought up to date. -/
def quorumAge (s : State) : Option Nat :=
  let ages := (s.lacing.memb.voters.filter (· ≠ ownId s)).filterMap fun v => (partnerOf s v).helloAt.map (since s)
  let newest := ages.foldl min (ages.headD 0)
  let lapses := (ages.map (· - msTicks 5)).filter (· ≤ newest)
  (0 :: lapses).foldl (fun b a => if isQuorum s.lacing.memb.voters (votersSince s a) then
    (match b with | some x => some (min x a) | none => some a) else b) none

/-- Brings the instant of the last quorum up to date (R313). -/
def noteQuorum (s : State) : State :=
  match quorumAge s with
  | some a => if s.lacing.memb.lastQuorum.all fun t => a < since s t then
      setMemb (fun m => { m with lastQuorum := some (s.time - BitVec.ofNat 64 a) }) s else s
  | none => s

/-! ## Held and new epochs (R312, R313) -/

/-- With 0x5000:04 at 0 a Held package's placed jobs are pre-empted (R313). -/
def stopHeldJobs (s : State) : State :=
  if heldStops s then preempt ((s.jobs.filter fun (p : Nat × Job) => placed p.2).map (·.1)) s else s

/-- Enters Held: 0x0721; with 0x5000:04 at 0 every placed job is pre-empted. -/
def enterHeld (s : State) : State :=
  if s.lacing.memb.mstate == .held then s
  else
    stopHeldJobs (post 0x0721 noSite [s.lacing.memb.epoch.toNat, (votersReached s).length] (setMemb (fun m => { m with mstate := .held }) s))

/-- Whether a die's running command holds lace staging or outstanding GETs, its drain not begun. -/
def holdsLace (s : State) (d : Nat) : Bool :=
  (dieOf s d).drain.isNone &&
    ((s.lacing.partners.any fun (p : Nat × Partner) => (laceCmdOf s d p.1).isSome) || getOutstanding s d none)

/-- A lace at a new epoch (R307, R312); `gone` lists the partner's commands whose staging it discards. -/
def newEpochLace (gone : List Nat) (e : Partner) : Partner :=
  { e with stagedBytes := 0, heldCommits := [], epochGone := gone.map (BitVec.ofNat 32), lseqTx := 0, lseqRx := 0, reorder := [], retransmit := [], ackDue := none }

/-- Adopts a view whose epoch is above the package's own (R312, R313). -/
def adoptView (epoch : BitVec 32) (view : List Nat) (s : State) : State :=
  let m := s.lacing.memb
  if epoch.toNat ≤ m.epoch.toNat then s
  else
    let s := each ((List.range 8).filter (holdsLace s)) (fun d s => killOn d .preempt s) s
    let f := fun (p : Nat × Partner) => (p.1, newEpochLace (stagedCmds s p.1) p.2)
    let s := { s with lacing := { s.lacing with staging := [], partners := s.lacing.partners.map f } }
    let s := setMemb (fun m => { m with epoch, view, highSeen := if m.highSeen.toNat < epoch.toNat then epoch else m.highSeen }) s
    let s := raiseSource 4 (post 0x0720 noSite [m.epoch.toNat, epoch.toNat] s)
    if view.contains (ownId s) then
      let s := setMemb (fun m => { m with mstate := .member, joined := true, lastQuorum := some s.time }) s
      if m.mstate == .held then post 0x0722 noSite [epoch.toNat] s else s
    else enterHeld s

/-! ## Proposals (R311) -/

/-- Sends VIEW to every member of the proposed view once those that accepted are a quorum. -/
def tryView (s : State) : State :=
  let m := s.lacing.memb
  match m.proposal with
  | none => s
  | some (e, v) =>
    if isQuorum m.voters m.accepts then
      let s := each (v.filter (· ≠ ownId s)) (fun p s => sendMemb p ptView e.toNat (viewBitmap v) s) s
      adoptView e v (setMemb (fun m => { m with proposal := none }) s)
    else s

/-- The leader proposes the set of packages it reaches when that differs from the view; a proposal overtaken by a higher
epoch is made again, higher (R311, R316). -/
def leadMemb (s : State) : State :=
  let m := s.lacing.memb
  let set := reachSet s
  let standing := m.proposal.any fun x => x.2 == set && m.highSeen.toNat ≤ x.1.toNat
  if !m.voters.contains (ownId s) || m.voters.any (fun v => v < ownId s && reachable s v) || set == m.view || standing then s
  else
    let e := (if m.highSeen.toNat < m.epoch.toNat then m.epoch else m.highSeen) + 1
    let s := setMemb (fun m => { m with highSeen := e, highAccepted := e, proposal := some (e, set), accepts := [ownId s] }) s
    tryView (each (m.voters.filter (· ≠ ownId s)) (fun v s => sendMemb v ptPropose e.toNat (viewBitmap set) s) s)

/-! ## Packets (R310, R311) -/

/-- The epoch that a PROPOSE, an ACCEPT or a VIEW names, and the sender's epoch that a HELLO carries (log 53). -/
def membEpoch (k : Packet) : BitVec 32 := BitVec.ofNat 32 (bits k.oper.toNat 0 32)
def helloEpoch (k : Packet) : BitVec 32 := BitVec.ofNat 32 (fieldAt k.data 0 4)

def seeEpoch (e : BitVec 32) (s : State) : State :=
  setMemb (fun m => { m with highSeen := if m.highSeen.toNat < e.toNat then e else m.highSeen }) s

/-- A membership packet arrives: for this package, under the membership key (R309). -/
def arriveMemb (ty : Nat) (k : Packet) (f : State → State) (s : State) : State :=
  if !membershipActs s || k.dst ≠ s.lacing.memb.pkgId then s
  else match s.sec.membKey with
    | none => s
    | some key =>
      if !k.memb || Config.packetMac key (packetBytes ty k) ≠ k.mac then authFail k.src.toNat s
      else f (seeEpoch (if ty = ptHello then helloEpoch k else membEpoch k) s)

/-- MSTATE as R317 numbers it. -/
def mstateNum : MState → Nat
  | .absent => 0 | .joining => 1 | .member => 2 | .held => 3

/-- HELLO to each partner in service and each voter, every 1 ms; a leader looks at what it reaches, so that one that hears no other
package proposes too (R311). -/
def helloDue (s : State) : State :=
  let m := s.lacing.memb
  if !membershipActs s || m.helloSent.any (fun t => since s t < msTicks 1) then s
  else
    let map := (m.voters.zipIdx.filter fun (x : Nat × Nat) => x.1 == ownId s || reachable s x.1).foldl (fun n x => n + 2 ^ x.2) 0
    let body := leBytes 4 m.epoch.toNat ++ leBytes 1 (mstateNum m.mstate) ++ leBytes 2 map
    let ps := (s.lacing.partners.filter fun (p : Nat × Partner) => p.2.valid).map (·.1)
    let dests := (ps ++ m.voters).eraseDups.filter (· ≠ ownId s)
    leadMemb (each dests (fun p s => sendMemb p ptHello 0 body s) (setMemb (fun m => { m with helloSent := some s.time }) s))

def helloIn (k : Packet) (s : State) : State :=
  leadMemb (noteQuorum (updPartner (noteQuorum s) k.src.toNat (fun e =>
    { e with helloAt := some s.time, reach := BitVec.ofNat 15 (fieldAt k.data 5 2) })))

/-- A package whose last HELLO is 5 ms old is reached no longer. -/
def reachLost (p : Nat) (s : State) : State :=
  if !membershipActs s || !(partnerOf s p).helloAt.any (fun t => msTicks 5 ≤ since s t) then s
  else leadMemb (updPartner (noteQuorum s) p (fun e => { e with helloAt := none }))

/-- A voter accepts the first proposal of each epoch above the highest it has accepted. -/
def proposeIn (k : Packet) (s : State) : State :=
  let e := membEpoch k
  let m := s.lacing.memb
  if m.voters.contains (ownId s) && m.highAccepted.toNat < e.toNat then
    sendMemb k.src.toNat ptAccept e.toNat [] (setMemb (fun m => { m with highAccepted := e }) s)
  else s

def acceptIn (k : Packet) (s : State) : State :=
  let m := s.lacing.memb
  if (m.proposal.any fun x => x.1 == membEpoch k) && m.voters.contains k.src.toNat && !m.accepts.contains k.src.toNat then
    tryView (setMemb (fun m => { m with accepts := m.accepts ++ [k.src.toNat] }) s)
  else s

def viewIn (k : Packet) (s : State) : State := adoptView (membEpoch k) (viewMembers k.data) s

/-- Held when no quorum of voters has been reached for the member timeout (R313). -/
def memberTimeout (s : State) : State :=
  let s := noteQuorum s
  let m := s.lacing.memb
  let late := m.lastQuorum.all fun t => msTicks (objNat s 0x5000 5 20) ≤ since s t
  if membershipActs s && m.mstate == .member && late && !isQuorum m.voters (votersReached s) then enterHeld s else s

/-! ## The rows -/

/-- HELLO_DUE (R310). -/
def execHelloDue (s : State) : Host.Outcome State Fault Refusal := command helloDue s
/-- HELLO (R309 to R311). -/
def execHello (p : Packet) (s : State) : Host.Outcome State Fault Refusal := command (arriveMemb ptHello p (helloIn p)) s
/-- REACHABILITY_LOST (R310, R311). -/
def execReachabilityLost (p : PkgId) (s : State) : Host.Outcome State Fault Refusal := command (reachLost p.toNat) s
/-- PROPOSE (R311, R316). -/
def execPropose (p : Packet) (s : State) : Host.Outcome State Fault Refusal := command (arriveMemb ptPropose p (proposeIn p)) s
/-- ACCEPT (R311). -/
def execAccept (p : Packet) (s : State) : Host.Outcome State Fault Refusal := command (arriveMemb ptAccept p (acceptIn p)) s
/-- VIEW (R311 to R314, R316). -/
def execViewPkt (p : Packet) (s : State) : Host.Outcome State Fault Refusal := command (arriveMemb ptView p (viewIn p)) s
/-- MEMBER_TIMEOUT (R313). -/
def execMemberTimeout (s : State) : Host.Outcome State Fault Refusal := command memberTimeout s

end Sys2Proof.Machine
end

