-- ==== Sys2Proof/Machine/Sha2.lean ====
section
/-! DEFINITION. The SHA-2 digests that the spec names: SHA-256 under HMAC (R405, R406) and SHA-384 (R377, R382, R414), as
FIPS 180-4 and RFC 2104 define them (log 7). -/

namespace Sys2Proof.Machine

/-- A member of the SHA-2 family: bytes of a word, rotation amounts, round constants and initial state. -/
structure Sha where
  bytes : Nat
  sums : List Nat
  k : List Nat
  h : List Nat
  out : Nat

def shaK512 : List Nat :=
   [0x428a2f98d728ae22, 0x7137449123ef65cd, 0xb5c0fbcfec4d3b2f, 0xe9b5dba58189dbbc,
    0x3956c25bf348b538, 0x59f111f1b605d019, 0x923f82a4af194f9b, 0xab1c5ed5da6d8118,
    0xd807aa98a3030242, 0x12835b0145706fbe, 0x243185be4ee4b28c, 0x550c7dc3d5ffb4e2,
    0x72be5d74f27b896f, 0x80deb1fe3b1696b1, 0x9bdc06a725c71235, 0xc19bf174cf692694] ++
   [0xe49b69c19ef14ad2, 0xefbe4786384f25e3, 0x0fc19dc68b8cd5b5, 0x240ca1cc77ac9c65,
    0x2de92c6f592b0275, 0x4a7484aa6ea6e483, 0x5cb0a9dcbd41fbd4, 0x76f988da831153b5,
    0x983e5152ee66dfab, 0xa831c66d2db43210, 0xb00327c898fb213f, 0xbf597fc7beef0ee4,
    0xc6e00bf33da88fc2, 0xd5a79147930aa725, 0x06ca6351e003826f, 0x142929670a0e6e70] ++
   [0x27b70a8546d22ffc, 0x2e1b21385c26c926, 0x4d2c6dfc5ac42aed, 0x53380d139d95b3df,
    0x650a73548baf63de, 0x766a0abb3c77b2a8, 0x81c2c92e47edaee6, 0x92722c851482353b,
    0xa2bfe8a14cf10364, 0xa81a664bbc423001, 0xc24b8b70d0f89791, 0xc76c51a30654be30,
    0xd192e819d6ef5218, 0xd69906245565a910, 0xf40e35855771202a, 0x106aa07032bbd1b8] ++
   [0x19a4c116b8d2d0c8, 0x1e376c085141ab53, 0x2748774cdf8eeb99, 0x34b0bcb5e19b48a8,
    0x391c0cb3c5c95a63, 0x4ed8aa4ae3418acb, 0x5b9cca4f7763e373, 0x682e6ff3d6b2b8a3,
    0x748f82ee5defb2fc, 0x78a5636f43172f60, 0x84c87814a1f0ab72, 0x8cc702081a6439ec,
    0x90befffa23631e28, 0xa4506cebde82bde9, 0xbef9a3f7b2c67915, 0xc67178f2e372532b] ++
   [0xca273eceea26619c, 0xd186b8c721c0c207, 0xeada7dd6cde0eb1e, 0xf57d4f7fee6ed178,
    0x06f067aa72176fba, 0x0a637dc5a2c898a6, 0x113f9804bef90dae, 0x1b710b35131c471b,
    0x28db77f523047d84, 0x32caab7b40c72493, 0x3c9ebe0a15c9bebc, 0x431d67c49c100d4c,
    0x4cc5d4becb3e42b6, 0x597f299cfc657e2a, 0x5fcb6fab3ad6faec, 0x6c44198c4a475817]

def sha256P : Sha :=
  { bytes := 4, sums := [2, 13, 22, 6, 11, 25, 7, 18, 3, 17, 19, 10], k := (shaK512.take 64).map (· / 2 ^ 32),
    h := [0x6a09e667, 0xbb67ae85, 0x3c6ef372, 0xa54ff53a, 0x510e527f, 0x9b05688c, 0x1f83d9ab, 0x5be0cd19], out := 32 }

def sha384P : Sha :=
  { bytes := 8, sums := [28, 34, 39, 14, 18, 41, 1, 8, 7, 19, 61, 6], k := shaK512,
    h := [0xcbbb9d5dc1059ed8, 0x629a292a367cd507, 0x9159015a3070dd17, 0x152fecd8f70e5939,
    0x67332667ffc00b31, 0x8eb44a8768581511, 0xdb0c2e0d64f98fa7, 0x47b5481dbefa4fa4], out := 48 }

namespace ShaFn

variable (p : Sha)

def bitsOf : Nat := 8 * p.bytes
def word (x : Nat) : Nat := x % 2 ^ bitsOf p
def rotr (x n : Nat) : Nat := word p ((x >>> n) ||| (x <<< (bitsOf p - n)))
def amount (i : Nat) : Nat := (p.sums[i]?).getD 0

/-- The functions of FIPS 180-4 that rotate by three amounts, or rotate by two and shift by the third. -/
def bigSum (i x : Nat) : Nat := rotr p x (amount p i) ^^^ rotr p x (amount p (i + 1)) ^^^ rotr p x (amount p (i + 2))
def smallSum (i x : Nat) : Nat := rotr p x (amount p i) ^^^ rotr p x (amount p (i + 1)) ^^^ (x >>> amount p (i + 2))

/-- A number of big-endian bytes, and its bytes. -/
def beNat (l : List Byte) : Nat := l.foldl (fun a b => 256 * a + b.toNat) 0
def beBytes : Nat → Nat → List Byte
  | 0, _ => []
  | n + 1, v => beBytes n (v / 256) ++ [BitVec.ofNat 8 v]

/-- The message schedule, newest word first: n more words. -/
def schedule : Nat → List Nat → List Nat
  | 0, w => w
  | n + 1, w =>
    let g := fun i => (w[i]?).getD 0
    schedule n (word p (smallSum p 9 (g 1) + g 6 + smallSum p 6 (g 14) + g 15) :: w)

/-- One round on the working variables a .. h. -/
def round (s : List Nat) (kw : Nat) : List Nat :=
  match s with
  | [a, b, c, d, e, f, g, h] =>
    let t1 := h + bigSum p 3 e + ((e &&& f) ^^^ ((word p (2 ^ bitsOf p - 1 - e)) &&& g)) + kw
    let t2 := bigSum p 0 a + ((a &&& b) ^^^ (a &&& c) ^^^ (b &&& c))
    [word p (t1 + t2), a, b, c, word p (d + t1), e, f, g]
  | _ => s

/-- Compresses one block into the state. -/
def block (h : List Nat) (l : List Byte) : List Nat :=
  let w := (List.range 16).map fun i => beNat ((l.drop (p.bytes * i)).take p.bytes)
  let ws := (schedule p (p.k.length - 16) w.reverse).reverse
  let out := ((p.k.zip ws).map fun x => x.1 + x.2).foldl (round p) h
  (h.zip out).map fun x => word p (x.1 + x.2)

/-- The padded message. -/
def pad (l : List Byte) : List Byte :=
  let blk := 16 * p.bytes
  let tail := 1 + 2 * p.bytes
  l ++ [0x80#8] ++ List.replicate ((2 * blk - (l.length + tail) % blk) % blk) 0#8 ++ beBytes (2 * p.bytes) (8 * l.length)

def blocks : Nat → List Byte → List Nat → List Nat
  | 0, _, h => h
  | n + 1, l, h => blocks n (l.drop (16 * p.bytes)) (block p h (l.take (16 * p.bytes)))

def digest (l : List Byte) : List Byte :=
  let m := pad p l
  ((blocks p (m.length / (16 * p.bytes)) m p.h).flatMap (beBytes p.bytes)).take p.out

end ShaFn

def sha256 (l : List Byte) : List Byte := ShaFn.digest sha256P l
def sha384 (l : List Byte) : List Byte := ShaFn.digest sha384P l

/-- HMAC-SHA-256 of a message under a key (R405). -/
def hmac (key msg : List Byte) : List Byte :=
  let k := if 64 < key.length then sha256 key else key
  let k := (k ++ List.replicate 64 0#8).take 64
  sha256 (k.map (· ^^^ 0x5C#8) ++ sha256 (k.map (· ^^^ 0x36#8) ++ msg))

end Sys2Proof.Machine
end

