-- ==== Sys2Proof/Machine/Objects.lean ====
section
/-! DEFINITION. The objects of the dictionary: their types, access kinds, levels, defaults and ranges (R395, R396, R399 to R402
and the object tables of the chapters), what each reads as, and the words of the capability map that some mirror (R33, R34). -/

namespace Sys2Proof.Machine

/-! ## The tables -/

/-- The Access column (R396). -/
inductive ObjAccess where
  | ro | rw | rwp | wo
  deriving DecidableEq, Repr

/-- A row of an object table: index, first and last sub-index, type code (R395), access, level (0 Observer, 1 Operator, 2 Owner,
3 Service) and numeric default. -/
structure ObjRow where
  index : Nat
  lo : Nat
  hi : Nat
  ty : Nat
  acc : ObjAccess
  level : Nat
  dflt : Nat
  deriving DecidableEq, Repr

/-- R400, R415, R401 and 0x1010. -/
def objRows0 : List ObjRow := [
  ⟨0x1000, 1, 1, 2, .ro, 0, 0⟩,
  ⟨0x1000, 2, 2, 2, .ro, 0, 0⟩,
  ⟨0x1000, 3, 3, 7, .ro, 0, 0⟩,
  ⟨0x1000, 4, 4, 4, .ro, 0, 0⟩,
  ⟨0x1000, 5, 5, 3, .ro, 0, 0⟩,
  ⟨0x1000, 6, 6, 3, .ro, 0, 0⟩,
  ⟨0x1000, 7, 7, 1, .ro, 0, 0⟩,
  ⟨0x1001, 1, 1, 2, .ro, 0, 0⟩,
  ⟨0x1001, 2, 2, 1, .ro, 0, 0⟩,
  ⟨0x1020, 1, 1, 1, .rwp, 2, 0⟩,
  ⟨0x1020, 2, 2, 1, .ro, 0, 0⟩,
  ⟨0x1020, 3, 3, 2, .ro, 0, 0⟩,
  ⟨0x1030, 1, 1, 1, .rwp, 2, 1⟩,
  ⟨0x1030, 2, 2, 1, .rwp, 2, 8⟩,
  ⟨0x1030, 3, 3, 8, .ro, 0, 0⟩,
  ⟨0x1030, 4, 4, 3, .ro, 0, 0⟩,
  ⟨0x1031, 1, 3, 8, .wo, 2, 0⟩,
  ⟨0x1031, 4, 4, 8, .wo, 3, 0⟩,
  ⟨0x1010, 1, 1, 1, .rwp, 2, 0⟩,
  ⟨0x1010, 2, 2, 3, .rwp, 1, 250⟩,
  ⟨0x1010, 3, 3, 1, .rwp, 2, 0⟩,
  ⟨0x1040, 1, 1, 1, .rw, 2, 0⟩,
  ⟨0x1040, 2, 2, 8, .wo, 2, 0⟩,
  ⟨0x1040, 3, 3, 1, .wo, 2, 0⟩,
  ⟨0x1040, 4, 4, 1, .ro, 0, 0⟩,
  ⟨0x1040, 5, 5, 4, .ro, 0, 0⟩,
  ⟨0x1100, 1, 1, 4, .ro, 0, 0⟩,
  ⟨0x1101, 1, 96, 4, .ro, 0, 0⟩,
  ⟨0x1102, 1, 8, 4, .ro, 0, 0⟩,
  ⟨0x1103, 1, 2, 8, .ro, 0, 0⟩]

/-- The objects of power, tiers, translation, memory and dispatch. -/
def objRows1 : List ObjRow := [
  ⟨0x2000, 1, 1, 3, .rwp, 2, 0⟩,
  ⟨0x2000, 2, 2, 1, .rwp, 1, 0⟩,
  ⟨0x2000, 3, 3, 2, .rwp, 1, 700⟩,
  ⟨0x2000, 4, 4, 1, .rwp, 2, 95⟩,
  ⟨0x2000, 5, 5, 2, .rwp, 1, 500⟩,
  ⟨0x2001, 1, 8, 3, .rwp, 2, 0⟩,
  ⟨0x2002, 1, 1, 6, .ro, 0, 0⟩,
  ⟨0x2002, 2, 2, 6, .ro, 0, 0⟩,
  ⟨0x2002, 3, 3, 4, .ro, 0, 0⟩,
  ⟨0x2002, 4, 4, 6, .ro, 0, 0⟩,
  ⟨0x2002, 5, 5, 3, .ro, 0, 0⟩,
  ⟨0x2003, 1, 1, 5, .ro, 0, 0⟩,
  ⟨0x3100, 1, 1, 3, .rwp, 1, 4096⟩,
  ⟨0x3100, 2, 2, 1, .rwp, 1, 2⟩,
  ⟨0x3100, 3, 3, 1, .rwp, 1, 8⟩,
  ⟨0x3100, 4, 6, 4, .ro, 0, 0⟩,
  ⟨0x3200, 1, 1, 3, .rwp, 1, 2000⟩,
  ⟨0x3200, 2, 2, 4, .ro, 0, 0⟩,
  ⟨0x3300, 1, 1, 2, .rwp, 1, 24⟩,
  ⟨0x3300, 2, 2, 2, .rwp, 1, 16⟩,
  ⟨0x3300, 3, 4, 3, .ro, 0, 0⟩,
  ⟨0x3301, 1, 16, 2, .ro, 0, 0⟩,
  ⟨0x3302, 1, 16, 2, .ro, 0, 0⟩,
  ⟨0x3303, 1, 1, 1, .wo, 3, 0⟩,
  ⟨0x4000, 1, 8, 1, .ro, 0, 0⟩,
  ⟨0x4001, 1, 8, 3, .ro, 0, 0⟩,
  ⟨0x4002, 1, 1, 1, .wo, 3, 0⟩,
  ⟨0x4002, 2, 2, 2, .wo, 3, 0⟩,
  ⟨0x4100, 1, 1, 1, .ro, 0, 0⟩]

/-- The objects of membership, security, the clock, the event log and the repair tunnel. -/
def objRows2 : List ObjRow := [
  ⟨0x5000, 1, 1, 2, .rwp, 2, 0⟩,
  ⟨0x5000, 3, 3, 3, .rwp, 1, 100⟩,
  ⟨0x5000, 4, 4, 1, .rwp, 2, 0⟩,
  ⟨0x5000, 5, 5, 2, .rwp, 2, 20⟩,
  ⟨0x5000, 6, 6, 2, .rwp, 1, 10⟩,
  ⟨0x5000, 7, 7, 3, .ro, 0, 0⟩,
  ⟨0x5000, 8, 8, 1, .ro, 0, 0⟩,
  ⟨0x5001, 1, 15, 2, .rwp, 2, 65535⟩,
  ⟨0x6000, 1, 1, 1, .rwp, 2, 0⟩,
  ⟨0x6000, 2, 2, 8, .rwp, 2, 0⟩,
  ⟨0x6000, 3, 3, 1, .wo, 2, 0⟩,
  ⟨0x6000, 4, 4, 1, .ro, 0, 0⟩,
  ⟨0x6000, 5, 5, 1, .wo, 3, 0⟩,
  ⟨0x6000, 6, 6, 1, .ro, 0, 0⟩,
  ⟨0x6000, 7, 8, 2, .ro, 0, 0⟩,
  ⟨0x6000, 9, 9, 8, .ro, 0, 0⟩,
  ⟨0x6000, 10, 10, 3, .ro, 0, 0⟩,
  ⟨0x6000, 11, 11, 8, .rwp, 2, 0⟩,
  ⟨0x7000, 1, 1, 9, .rw, 1, 0⟩,
  ⟨0x7000, 2, 2, 1, .rwp, 1, 0⟩,
  ⟨0x7000, 3, 3, 5, .rwp, 3, 0⟩,
  ⟨0x7000, 4, 4, 2, .ro, 0, 0⟩,
  ⟨0x7001, 1, 1, 1, .ro, 0, 0⟩,
  ⟨0x8000, 1, 1, 4, .ro, 0, 0⟩,
  ⟨0x8000, 2, 2, 8, .ro, 0, 0⟩,
  ⟨0x8000, 3, 3, 4, .rw, 0, 0⟩,
  ⟨0x8000, 4, 4, 8, .ro, 0, 0⟩,
  ⟨0xF020, 1, 1, 8, .ro, 3, 0⟩,
  ⟨0xF030, 1, 1, 1, .rw, 3, 0⟩,
  ⟨0xF030, 2, 2, 1, .wo, 3, 0⟩,
  ⟨0xF030, 3, 3, 3, .rw, 3, 0⟩,
  ⟨0xF030, 4, 4, 1, .ro, 3, 0⟩,
  ⟨0xF030, 5, 5, 8, .ro, 3, 0⟩]

def objRows : List ObjRow := objRows0 ++ objRows1 ++ objRows2

/-- The row of an object; none when it does not exist (R399). -/
def objRow (index sub : Nat) : Option ObjRow := objRows.find? fun r => r.index = index && r.lo ≤ sub && sub ≤ r.hi

/-- Bytes of a value of a type; none where the length varies (R395). -/
def typeSize (ty : Nat) : Option Nat :=
  match ty with
  | 1 => some 1 | 2 => some 2 | 3 => some 4 | 4 => some 8 | 5 => some 4 | 6 => some 4 | 9 => some 8 | _ => none

/-- Longest value of a type (R395). -/
def typeMax (ty : Nat) : Nat := if ty = 7 then 255 else if ty = 8 then 4096 else (typeSize ty).getD 0

/-! ## Values -/

/-- The default of a writable object; some come from the fuses or from manufacture (R400, R402). -/
def objDefault (s : State) (r : ObjRow) (index sub : Nat) : List Byte :=
  if index = 0x2000 && sub = 1 then leBytes 4 (ratedW s)
  else if index = 0x7000 && sub = 3 then fit 4 (Config.manufacture 20)
  else if index = 0x1031 && sub = 4 then fit 32 (Config.manufacture 21)
  else match typeSize r.ty with
    | some n => leBytes n r.dflt
    | none => []

/-- The value kept for a writable object. -/
def objStored (s : State) (r : ObjRow) (index sub : Nat) : List Byte :=
  (SMap.find s.dict.values (objKey index sub)).getD (objDefault s r index sub)

/-- binary32 code of n / d, rounded to nearest even. -/
def f32Of (n d : Nat) : Nat :=
  (roundFp 0 .nearest false false (2 * (n * 2 ^ 64 / d) + (if n * 2 ^ 64 % d = 0 then 0 else 1)) (-65)).1

/-- An event record's 64 bytes (R427). -/
def eventBytes (e : Event) : List Byte :=
  leBytes 2 e.code.toNat ++ [e.site, e.flags, 0, 0, 0, 0] ++ leBytes 8 e.number.toNat ++ leBytes 8 e.time.toNat
    ++ leBytes 8 e.tick.toNat ++ fit 32 (Config.payloadBytes e.code.toNat e.payload)

/-! ### The capability map's words (R33, R34) -/

def mapHeader (s : State) : Nat :=
  1 + 2 ^ 8 * variantCode s.variant + 2 ^ 16 * s.map.linkVer.toNat + 2 ^ 24 * s.map.effBl.toNat + 2 ^ 32 * s.map.changeCount.toNat

def siteWord (s : State) (i : Nat) : Nat :=
  let x := siteOf s i
  x.state.toNat + 2 ^ 8 * x.dieType.toNat + 2 ^ 16 * x.generation.toNat + 2 ^ 24 * x.reason.toNat

def boolNat (b : Bool) : Nat := if b then 1 else 0

def unitWord (s : State) (d : Nat) : Nat :=
  let x := unitMapOf s d
  x.vats.toNat + 2 ^ 16 * boolNat x.spareFree + 2 ^ 20 * x.churn.toNat + 2 ^ 24 * x.movers.toNat + 2 ^ 28 * boolNat x.seq
    + 2 ^ 29 * boolNat x.round + 2 ^ 32 * x.spareFor.toNat

def coreBytes (s : State) (m : Nat) : List Byte := leBytes 9 (SMap.get 0 s.map.cores m).toNat

/-! ### What read-only objects read -/

/-- Device ID by variant (R400). -/
def deviceId (s : State) : Nat := match s.variant with | .whole => 0x8100 | .half => 0x8060 | .skim => 0x8030

/-- BL_MASK of the I/O die's identity frame (R23). -/
def ioBlMask (s : State) : Nat := match SMap.find s.disc.frames siteIO with | some f => f.blMask.toNat | none => 0

/-- The hottest sensor of the package (0x2003:01). -/
def hottestOfAll (s : State) : Nat := (railSites.map fun i => (railOf s i).tjMax.toNat).foldl max 0

/-- MSTATE as its register reads it (R317, R318). -/
def mstateCode (m : MState) : Nat := match m with | .absent => 0 | .joining => 1 | .member => 2 | .held => 3

/-- Whether an image is accepted (R414, R415). -/
def dairyAccepted (s : State) (i : FwImage) : Bool := i.signed && s.su.fusedMin.toNat ≤ i.version.toNat
def coreAccepted (s : State) (i : FwImage) : Bool := i.mark && i.signed && s.nv.coreMin.toNat ≤ i.version.toNat

/-- A version as 0x1040:05 shows it. -/
def versionShown (ok : Bool) (i : FwImage) : Nat := if ok then i.version.toNat else 0xFFFF

def versionsWord (s : State) : Nat :=
  versionShown (dairyAccepted s s.nv.dairyA) s.nv.dairyA + 2 ^ 16 * versionShown (dairyAccepted s s.nv.dairyB) s.nv.dairyB
    + 2 ^ 32 * versionShown (coreAccepted s s.nv.coreA) s.nv.coreA + 2 ^ 48 * versionShown (coreAccepted s s.nv.coreB) s.nv.coreB

/-- The records from a read position, at most 64 (0x8000:04). -/
def eventsFrom (s : State) (n : Nat) : List Byte :=
  ((s.nv.log.filter fun e => n ≤ e.number.toNat).take 64).flatMap eventBytes

/-- The sum of a counter over the compute dies. -/
def overDies (s : State) (f : DieSt → Nat) : Nat := sumList ((List.range 8).map fun d => f (dieOf s d))

/-- A read-only identity, supervisor, firmware or map object. -/
def readIdentity (s : State) (index sub : Nat) : List Byte :=
  match index, sub with
  | 0x1000, 1 => fit 2 (Config.manufacture 1)
  | 0x1000, 2 => leBytes 2 (deviceId s)
  | 0x1000, 3 => (Config.manufacture 3).take 255
  | 0x1000, 4 => fit 8 (Config.manufacture 4)
  | 0x1000, 5 => leBytes 4 (Config.firmwareNumber s.su.dairyDigest).toNat
  | 0x1000, 6 => leBytes 4 (Config.firmwareNumber s.su.coreDigest).toNat
  | 0x1000, _ => [s.weltGen]
  | 0x1001, 1 => leBytes 2 s.su.cowbellCode.toNat
  | 0x1001, _ => [s.su.supervisor]
  | 0x1020, 2 => [s.map.effBl]
  | 0x1020, _ => leBytes 2 (ioBlMask s)
  | 0x1030, 3 => (Config.manufacture 5).take 6
  | 0x1030, _ => leBytes 4 s.dict.dropCount.toNat
  | 0x1040, 4 => [s.upd.status]
  | 0x1040, _ => leBytes 8 (versionsWord s)
  | 0x1100, _ => leBytes 8 (mapHeader s)
  | 0x1101, n => leBytes 8 (siteWord s (n - 1))
  | 0x1102, n => leBytes 8 (unitWord s (n - 1))
  | _, n => coreBytes s (n - 1)

/-- A read-only object of power, tiers, translation, memory or dispatch. -/
def readUnits (s : State) (index sub : Nat) : List Byte :=
  match index, sub with
  | 0x2002, 1 => leBytes 4 (f32Of s.power.meter.toNat 1000)
  | 0x2002, 2 => leBytes 4 (f32Of s.power.vin.toNat 1000)
  | 0x2002, 3 => leBytes 8 (s.power.totalNj / 1000000)
  | 0x2002, 4 => leBytes 4 (f32Of s.power.trim 10000)
  | 0x2002, _ => leBytes 4 (ratedW s / 2)
  | 0x2003, _ => leBytes 4 (hottestOfAll s)
  | 0x3100, 4 => leBytes 8 s.sep.placementFaults.toNat
  | 0x3100, 5 => leBytes 8 s.sep.inPlace.toNat
  | 0x3100, _ => leBytes 8 s.sep.migrations.toNat
  | 0x3200, _ => leBytes 8 (overDies s fun x => x.tr.pageRequests.toNat)
  | 0x3300, 3 => leBytes 4 (hbmGranules s * granBytes / gib)
  | 0x3300, _ => leBytes 4 (farGranules s * granBytes / gib)
  | 0x3301, n => leBytes 2 (SMap.get [] s.nv.lists (n - 1)).length
  | 0x3302, n => leBytes 2 (SMap.get [] s.nv.lists (n + 15)).length
  | 0x4000, n => leBytes 1 (boolNat (s.nv.failedDies.getLsbD (n - 1)))
  | 0x4001, n => leBytes 4 (SMap.get 0 s.nv.retiredVats (n - 1)).toNat
  | _, _ => leBytes 1 s.nv.origin.toNat

/-- A read-only object of membership, security, the clock, the log or the tunnel; a session reads 0x8000:04 from its own
position. -/
def readServices (s : State) (pos index sub : Nat) : List Byte :=
  match index, sub with
  | 0x5000, 7 => leBytes 4 s.lacing.memb.epoch.toNat
  | 0x5000, _ => leBytes 1 (mstateCode s.lacing.memb.mstate)
  | 0x6000, 4 => [s.sec.tenancy]
  | 0x6000, 6 => leBytes 1 (boolNat s.sec.debug)
  | 0x6000, 7 => leBytes 2 s.sec.memKeys.length
  | 0x6000, 8 => leBytes 2 s.sec.laceKeys.length
  | 0x6000, 9 => (Config.manufacture 6).take 4096
  | 0x6000, _ => leBytes 4 s.sec.lastScrub.toNat
  | 0x7000, 4 => leBytes 2 s.cal.vbat.toNat
  | 0x7001, _ => leBytes 1 (boolNat (s.nv.device0Bad || s.nv.device1Bad))
  | 0x8000, 1 => leBytes 8 s.ev.number.toNat
  | 0x8000, 2 => s.ev.tail.flatMap eventBytes
  | 0x8000, _ => eventsFrom s pos
  | 0xF020, _ => (Config.manufacture 7).take 4096
  | 0xF030, 4 => [s.tunnel.status]
  | _, _ => s.tunnel.fuses

/-- Whether an object belongs to the membership of a Skim package, which reads ABSENT and takes no write (R3, R314; log 110). -/
def membAbsent (s : State) (index : Nat) : Bool := s.variant = .skim && (index = 0x5000 || index = 0x5001)

/-- What an object that can be read holds; `pos` is the reading session's position in the event log. -/
def objValue (s : State) (pos : Nat) (r : ObjRow) (index sub : Nat) : List Byte :=
  if membAbsent s index then zeros ((typeSize r.ty).getD 0)
  else if index = 0x7000 && sub = 1 then leBytes 8 s.cal.time.toNat
  else if index = 0x8000 && sub = 3 then leBytes 8 pos
  else match r.acc with
    | .ro =>
      if index < 0x2000 then readIdentity s index sub
      else if index < 0x5000 then readUnits s index sub
      else readServices s pos index sub
    | _ => objStored s r index sub

/-! ## Ranges -/

/-- Bytes of a slot before its valid mark (R415, R422). -/
def slotBytes : Nat := 16 * 2 ^ 20 - 16

def chunkFits (s : State) (n : Nat) : Bool := s.upd.bytes.length + n ≤ slotBytes

/-- Whether a value of the right type lies in an object's range (R396; the object tables and R330, R382, R415, R430, R442). A write of
0x4002:02 with a bit set that names neither die nor vat, bits 7:3 and 15:13, is out of range (DESIGN CHOICE, log 109). -/
def objInRange (s : State) (index sub : Nat) (v : List Byte) : Bool :=
  let n := leNat v
  match index, sub with
  | 0x1020, _ => n = 0 || (n ≤ 16 && (ioBlMask s).testBit (n - 1))
  | 0x1030, 1 => n ≤ 7
  | 0x1030, _ => 2 ≤ n && n ≤ 8
  | 0x1031, _ => v.length = 0 || v.length = 32
  | 0x1010, 1 => n ≤ 1
  | 0x1010, 3 => n ≤ 2
  | 0x1040, 1 => n = 1 || n = 2
  | 0x1040, 2 => 1 ≤ v.length && v.length ≤ 1024 && chunkFits s v.length
  | 0x1040, 3 => 1 ≤ n && n ≤ 3
  | 0x2000, 2 => n ≤ 1
  | 0x2000, 3 => 450 ≤ n && n ≤ 900
  | 0x2000, 4 => 70 ≤ n && n ≤ 95
  | 0x2000, 5 => 450 ≤ n && n ≤ 900
  | 0x3303, _ => n ≤ 31
  | 0x4002, 1 => n ≤ 7 && s.nv.failedDies.getLsbD n
  | 0x4002, _ => n % 2 ^ 3 + 2 ^ 8 * (n / 2 ^ 8 % 2 ^ 5) = n && (SMap.get 0 s.nv.retiredVats (n % 8)).getLsbD (n / 256)
  | 0x5000, 1 => n ≤ 8191
  | 0x5000, 4 => n ≤ 1
  | 0x5001, _ => n ≤ 8191 || n = 0xFFFF
  | 0x6000, 1 => n ≤ 1
  | 0x6000, 3 => n = 1
  | 0x6000, 5 => n ≤ 1
  | 0x6000, _ => v.length = 0 || v.length = 48
  | 0x7000, 2 => n ≤ 1
  | 0x7000, 3 => -200000 ≤ signed 32 n && signed 32 n ≤ 200000
  | 0xF030, 1 => n ≤ 15
  | 0xF030, 2 => 1 ≤ n && n ≤ 3
  | _, _ => true

/-- Whether an object's own rule refuses a write with ACCESS (R3, R359, R374, R402, R386, R415; commands out of turn: log 79). -/
def objForbids (s : State) (index sub : Nat) (v : List Byte) : Bool :=
  membAbsent s index || match index, sub with
  | 0x2000, 1 => ratedW s < leNat v
  | 0x6000, 1 => s.sec.tenancy = 1
  | 0x6000, 3 => s.sec.mode ≠ 0 || s.sec.tenancy ≠ 1
  | 0x7000, 1 => objNat s 0x7000 2 0 = 1
  | 0x1040, 2 => s.upd.status ≠ 2 && s.upd.status ≠ 3
  | 0x1040, 3 =>
    match leNat v with
    | 1 => objNat s 0x1040 1 0 = 0 || s.upd.status = 1
    | 2 => s.upd.status ≠ 2 && s.upd.status ≠ 3
    | _ => false
  | _, _ => false

/-! ## Status codes (R405) -/

def dOk : Nat := 0
def dNoObject : Nat := 1
def dAccess : Nat := 2
def dLevel : Nat := 3
def dType : Nat := 4
def dRange : Nat := 5
def dBusy : Nat := 6
def dNoSession : Nat := 7
def dTooLarge : Nat := 8
def dUnavailable : Nat := 9
def dMalformed : Nat := 10

/-- What reading an object answers at a level: a status, or the type and value (R396). -/
def readObject (s : State) (level pos index sub : Nat) : Nat × Nat × List Byte :=
  match objRow index sub with
  | none => (dNoObject, 0, [])
  | some r =>
    let need := if r.acc = .ro || r.level = 3 then r.level else 0
    if r.acc = .wo then (dAccess, 0, [])
    else if level < need then (dLevel, 0, [])
    else (dOk, r.ty, objValue s pos r index sub)

/-- The checks a write passes before its effect, in the order of R396. -/
def checkWrite (s : State) (level index sub ty : Nat) (v : List Byte) : Nat :=
  match objRow index sub with
  | none => dNoObject
  | some r =>
    if r.acc = .ro then dAccess
    else if level < r.level then dLevel
    else if ty ≠ r.ty || (typeSize r.ty).any (· ≠ v.length) || typeMax r.ty < v.length then dType
    else if !objInRange s index sub v then dRange
    else if objForbids s index sub v then dAccess
    else dOk

/-- Whether a write is kept in the NV store before OK (R396, R400, R391). -/
def objPersists (r : ObjRow) : Bool := r.acc = .rwp || r.index = 0x1031

/-- Keeps a written value. -/
def storeObject (r : ObjRow) (index sub : Nat) (v : List Byte) (s : State) : State :=
  let k := objKey index sub
  let vs := if v = objDefault s r index sub then SMap.del s.dict.values k else SMap.put s.dict.values k v
  { s with dict := { s.dict with values := vs } }

end Sys2Proof.Machine
end

