-- ==== Sys2Proof/Machine/Discovery.lean ====
section
/-! DEFINITION. Discovery (R23 to R31, R446): identity and config frames, the classification of sites, and the capability map it
writes (R33, R34, R447). -/

namespace Sys2Proof.Machine

/-! ## What a variant fits (R1, R2, R16) -/

def fittedDies (v : Variant) : List Nat :=
  match v with | .whole => List.range 11 | _ => [0, 1, 2, 3, 8, 10]
def fittedUnits (v : Variant) : List Nat :=
  match v with | .whole => List.range 32 | _ => List.range 8 ++ (List.range 8).map (· + 16)
def fittedEyes (v : Variant) : List Nat := match v with | .whole => List.range 32 | .half => List.range 16 | .skim => []
def fittedInlets (v : Variant) : List Nat := match v with | .whole => List.range 4 | .half => List.range 2 | .skim => []

/-! ## Frames (R23) -/

def frameIdentity : Nat := 1
def frameConfig : Nat := 2
def frameAck : Nat := 3

/-- Whether a frame is 64 bytes of a type with a good CRC. -/
def frameGood (ty : Nat) (b : List Byte) : Bool :=
  b.length = 64 && fieldAt b 0 1 = ty && (crc32c (b.take 60)).toNat = fieldAt b 60 4

/-- The fields of an identity frame. -/
def parseIdentity (b : List Byte) : IdFrame :=
  { dieType := BitVec.ofNat 8 (fieldAt b 1 1), generation := BitVec.ofNat 8 (fieldAt b 2 1),
    linkMin := BitVec.ofNat 8 (fieldAt b 3 1), linkMax := BitVec.ofNat 8 (fieldAt b 4 1),
    blMask := BitVec.ofNat 16 (fieldAt b 6 2), caps := BitVec.ofNat 64 (fieldAt b 8 8),
    repair := BitVec.ofNat 256 (fieldAt b 16 32), serial := BitVec.ofNat 64 (fieldAt b 48 8) }

/-- The config frame the Dairyman sends to a die (step 7 of discovery). -/
def configFrameFor (s : State) (p : Nat) : List Byte :=
  let b : List Byte := [2, 0, 0, s.map.linkVer, 0, BitVec.ofNat 8 p] ++ leBytes 2 s.map.effBl.toNat ++ leBytes 8 s.map.caps.toNat
  let b := fit 60 b
  b ++ leBytes 4 (crc32c b).toNat

/-! ## Start-up stops (R416) -/

/-- What stopped start-up, as 0x0A05 names it (log 77). -/
def stopIoFrame : Nat := 1
def stopNoLevel : Nat := 2
def stopPinLacking : Nat := 3
def stopBaseShort : Nat := 4
def stopFirmware : Nat := 5
def stopNoChannel : Nat := 6
def stopD0Empty : Nat := 7
def stopOverrun : Nat := 8

/-- Turns every rail of the sites above the base rails off. -/
def railsOff (s : State) : State :=
  { s with power := { s.power with rails := s.power.rails.filter fun (p : Nat × Rail) => p.1 = 10 || p.1 = 11, lines := [] } }

/-- Start-up stops: the rails go off, 0x0A05 is recorded and 0x1001:02 reads FAULT. -/
def stopStart (step cause : Nat) (s : State) : State :=
  setSupervisor 4 (postCowbell 0x0A05 [step, cause] { railsOff s with su := { s.su with phase := .stopped } })

/-! ## Classification (R25, R27 to R31, R446) -/

/-- The dies other than IO that delivered a frame and have no failed-die record. -/
def levelParts (s : State) : List Nat :=
  (fittedDies s.variant).filter fun p => p != siteIO && (SMap.find s.disc.frames p).isSome && !(p < 8 && s.nv.failedDies.getLsbD p)

def frameOf (s : State) (p : Nat) : IdFrame := SMap.get ⟨0, 0, 0, 0, 0, 0, 0, 0⟩ s.disc.frames p

def pinNow (s : State) : Nat := objNat s 0x1020 1 0

/-- The effective behaviour level (R29). -/
def levelFixed (s : State) : Nat :=
  let io := ioBlMask s
  let common := (levelParts s).foldl (fun m p => m &&& (frameOf s p).blMask.toNat) io
  if pinNow s ≠ 0 then pinNow s else Nat.log2 (if common = 0 then io else common) + 1

def lacksLevel (s : State) (p : Nat) : Bool := !(frameOf s p).blMask.toNat.testBit (levelFixed s - 1)

/-- The dies counted for the link version, and those of them that share a version with the I/O die at all (R27). -/
def levelDies (s : State) : List Nat := (levelParts s).filter fun p => !lacksLevel s p
def sharesLink (s : State) (p : Nat) : Bool :=
  let io := frameOf s siteIO
  !((frameOf s p).linkMax < io.linkMin || io.linkMax < (frameOf s p).linkMin)

/-- The negotiated link version (R27). -/
def linkFixed (s : State) : Nat :=
  ((levelDies s).filter (sharesLink s)).foldl (fun v p => min v (frameOf s p).linkMax.toNat) (frameOf s siteIO).linkMax.toNat

/-- The dies that are neither EXCLUDED nor INCOMPATIBLE. -/
def sharedDies (s : State) : List Nat :=
  (levelDies s).filter fun p => sharesLink s p && (frameOf s p).linkMin.toNat ≤ linkFixed s

def capsFixed (s : State) : BitVec 64 := (sharedDies s).foldl (fun c p => c &&& (frameOf s p).caps) (frameOf s siteIO).caps

/-- Usable physical vats: those of the repair map less the recorded ones (R31). -/
def usableVats (s : State) (d : Nat) : Nat :=
  bits (frameOf s d).repair.toNat 0 17 &&& (2 ^ 17 - 1 - (SMap.get 0 s.nv.retiredVats d).toNat)

/-- The lowest physical vat 0-15 that is not usable. -/
def missingVat (usable : Nat) : Option Nat := (List.range 16).find? fun k => !usable.testBit k

/-- A compute die's unit map (R31, R32, R34): the spare is bound for the lowest-numbered missing vat. -/
def unitMapFor (s : State) (d : Nat) : UnitMap :=
  let u := usableVats s d
  let r := (frameOf s d).repair.toNat
  let spare := u.testBit 16
  let base := u % 2 ^ 16
  let bound := if spare then missingVat u else none
  { vats := BitVec.ofNat 16 (match bound with | some k => base + 2 ^ k | none => base),
    spareFree := spare && bound.isNone, churn := BitVec.ofNat 4 (bits r 24 4), movers := BitVec.ofNat 4 (bits r 28 4),
    seq := r.testBit 32, round := r.testBit 33, spareFor := match bound with | some k => BitVec.ofNat 8 k | none => 0xFF }

/-- Whether a die in service reads DEGRADED: its spare bound or vats missing, or cores removed (R32, R34). -/
def dieDegraded (s : State) (p : Nat) : Bool :=
  if p < 8 then (missingVat (usableVats s p)).isSome
  else if p < 10 then bits (frameOf s p).repair.toNat 0 72 ≠ 2 ^ 72 - 1
  else false

/-- STATE and REASON of a die's site (R25, R31, R446). A failed-die record comes first: a recorded die that also gives no frame, or an
invalid one, reads EXCLUDED (DESIGN CHOICE, log 109). -/
def dieState (s : State) (p : Nat) : Nat × Nat :=
  if p < 8 && s.nv.failedDies.getLsbD p then (stExcluded, 0)
  else if (SMap.find s.disc.frames p).isNone then (stFault, if s.disc.bad.contains p then 2 else 1)
  else if p ≠ siteIO && !(sharedDies s).contains p then (stIncompatible, 0)
  else if dieDegraded s p then (stDegraded, 0) else (stPresent, 0)

def writeDieSite (p : Nat) (s : State) : State :=
  let (st, reason) := dieState s p
  let f := frameOf s p
  let x : SiteState := { state := BitVec.ofNat 3 st, dieType := f.dieType, generation := f.generation, reason := BitVec.ofNat 8 reason }
  { s with map := { s.map with sites := SMap.set {} s.map.sites p x } }

/-- STATE and REASON of a memory unit: those of its die, NOT_FITTED for a channel with no module (R323, R447). -/
def unitSite (s : State) (u : Nat) : Nat × Nat :=
  if 16 ≤ u && (s.su.board.modules.find? fun m => m.1 == u - 16).isNone then (0, 0)
  else
    let p := if u < 16 then u / 2 else 8 + (u - 16) / 8
    if siteUp s p then (stPresent, 0) else ((siteOf s p).state.toNat, (siteOf s p).reason.toNat)

/-- Marks the vats that are not usable as retired in their registers (R66). -/
def markVats (d : Nat) (s : State) : State :=
  let u := usableVats s d
  updDie s d fun x => { x with pvats := ((List.range 17).filter fun k => !u.testBit k).map fun k => (k, ({ retired := true } : PVat)) }

/-- Step 6: the capability map is written (R33, R34, R446). Eyelets, inlets and PCIe ports read PRESENT from here on, before they train
and whatever the light, and fault only once training or a loss shows it (DESIGN CHOICE, log 109); an eyelet that is not fitted reads
ABSENT in its own register (R1, R317). -/
def writeMap (s : State) : State :=
  let s := each (fittedDies s.variant) writeDieSite s
  let s := each (fittedUnits s.variant) (fun u s => let (st, r) := unitSite s u; setSite (siteUnit u) st r s) s
  let s := setSite siteW stPresent 0 s
  let s := each (fittedEyes s.variant) (fun e s => setSite (siteEye e) stPresent 0 s) s
  let s := each ((List.range 32).filter fun e => !(fittedEyes s.variant).contains e) (fun e s => updEye s e fun x => { x with state := .absent }) s
  let s := each (fittedInlets s.variant) (fun i s => setSite (siteInlet i) stPresent 0 s) s
  let s := each [84, 85] (fun i s => setSite i stPresent 0 s) s
  let live := (List.range 8).filter (siteUp s)
  let s := each live markVats s
  { s with map := { s.map with
      linkVer := BitVec.ofNat 8 (linkFixed s), effBl := BitVec.ofNat 8 (levelFixed s), changeCount := 1, caps := capsFixed s,
      units := live.foldl (fun m d => SMap.set {} m d (unitMapFor s d)) [],
      cores := ([0, 1].filter fun m => siteUp s (8 + m)).foldl
        (fun c m => SMap.set 0 c m (BitVec.ofNat 72 (bits (frameOf s (8 + m)).repair.toNat 0 72))) [] } }

/-- The dies in service other than the Dairyman's own, which get a config frame. -/
def configured (s : State) : List Nat := (fittedDies s.variant).filter fun p => p != siteIO && siteUp s p

/-- Step 7: a config frame goes to each present die. -/
def sendConfigs (s : State) : State :=
  { s with su := { s.su with phase := .config },
           disc := { s.disc with sentAt := (configured s).map fun p => (p, s.time),
                                 sent := (configured s).map fun p => (p, configFrameFor s p) } }

/-- Steps 6 and 7, or a stop (R26, R29). -/
def classify (s : State) : State :=
  if (SMap.find s.disc.frames siteIO).isNone then stopStart 4 stopIoFrame s
  else if ioBlMask s = 0 then stopStart 4 stopNoLevel s
  else if pinNow s ≠ 0 && !(ioBlMask s).testBit (pinNow s - 1) then stopStart 4 stopPinLacking s
  else sendConfigs (writeMap s)

/-! ## Discovery's happenings -/

def isFitted (s : State) (p : Nat) : Bool := (fittedDies s.variant).contains p

/-- Whether every fitted port has delivered a valid frame. -/
def allFrames (s : State) : Bool := (fittedDies s.variant).all fun p => (SMap.find s.disc.frames p).isSome

/-- IDENTITY_FRAME: checked and recorded against its stamped port; the window ends when every fitted port has delivered. A later
valid frame with another payload takes the place of the one recorded (DESIGN CHOICE, log 109). -/
def takeFrame (p : Nat) (b : List Byte) (s : State) : State :=
  if s.su.phase ≠ .discovery || !dairymanUp s || !isFitted s p then s
  else if frameGood frameIdentity b then
    let s := { s with disc := { s.disc with frames := SMap.put s.disc.frames p (parseIdentity b) } }
    if allFrames s then classify s else s
  else { s with disc := { s.disc with bad := if s.disc.bad.contains p then s.disc.bad else p :: s.disc.bad } }

/-- IDENTITY_FRAME_REPEAT: a port island sends its frame again every 1 ms until a config frame arrives. -/
def repeatFrame (p : Nat) (s : State) : State :=
  guarded ((s.su.phase = .discovery || s.su.phase = .config) && isFitted s p && (SMap.find s.disc.config p).isNone)
    (fun s => { s with disc := { s.disc with repeats := SMap.upd 0 s.disc.repeats p (· + 1) } }) s

/-- DISCOVERY_TIMEOUT: the 40 ms window ends. -/
def windowEnd (s : State) : State :=
  guarded (s.su.phase = .discovery && dairymanUp s && s.disc.opened.any fun t => msTicks 40 ≤ since s t) classify s

/-- CONFIG_FRAME at a die: it applies the configuration (step 8, R30). -/
def applyConfig (p : Nat) (b : List Byte) (s : State) : State :=
  let c : DieConfig := { site := BitVec.ofNat 8 (fieldAt b 5 1), link := BitVec.ofNat 8 (fieldAt b 3 1),
                         bl := BitVec.ofNat 8 (fieldAt b 6 1), caps := BitVec.ofNat 64 (fieldAt b 8 8) }
  guarded (s.su.phase = .config && (SMap.find s.disc.sentAt p).isSome && frameGood frameConfig b)
    (fun s => { s with disc := { s.disc with config := SMap.put s.disc.config p c } }) s

end Sys2Proof.Machine
end

