-- ==== Sys2Proof/Machine/Retire.lean ====
section
/-! DEFINITION. Page retirement: the withdrawn storage and its list records (R330, R331). -/

namespace Sys2Proof.Machine

/-- Step 2: a storage granule leaves the free pool, and the granules in service (R334). -/
def withdraw (u g : Nat) (s : State) : State :=
  if retiredGran s u g then s
  else updUnit { s with sep := { s.sep with withdrawn := (u, g) :: s.sep.withdrawn } } u fun x => { x with granules := x.granules - 1 }

def listFull (s : State) (u : Nat) : Bool := 4096 ≤ (SMap.get [] s.nv.lists u).length

/-- A retirement list entry (R331): GRANULE, CAUSE, the low 32 bits of the calendar's seconds. -/
def retireEntry (s : State) (g cause : Nat) : BitVec 64 :=
  BitVec.ofNat 64 (g % 2 ^ 24 + cause % 256 * 2 ^ 24 + s.cal.time.toNat / 2 ^ 24 % 2 ^ 32 * 2 ^ 32)

/-- Step 4: the record, 0x0304 and the answer; a full list gives 0x0305 and SBI_ERR_FAILED. -/
def retireRecord (u g cause : Nat) (s : State) : State :=
  if listFull s u then answer (.sbi sbiFailed 0) (post 0x0305 (siteUnit u) [u] s)
  else
    let e := retireEntry s g cause
    let s := storeRecord areaLists 16 { s with nv := { s.nv with lists := SMap.upd [] s.nv.lists u (· ++ [e]) } }
    answer (.sbi sbiSuccess 0) (post 0x0304 (siteUnit u) [u, g, cause] s)

/-- Writes the list records that are due. -/
def writeRetired (s : State) : State :=
  each s.sep.owed (fun (e : Nat × Nat × Nat) s => retireRecord e.1 e.2.1 e.2.2 s) { s with sep := { s.sep with owed := [] } }

/-- Step 4 after a retirement's move, and the call's answer; while the Dairyman is down the record waits and the call returns 0 at step 3. -/
def endRetire (s : State) : State :=
  if s.sep.owed.isEmpty then s else if dairymanUp s then writeRetired s else answer (.sbi sbiSuccess 0) s

/-- The records due, written when the Dairyman returns, or after a move that ended within an engine's access (log 128). -/
def payOwed (s : State) : State := { writeRetired s with resp := s.resp }

end Sys2Proof.Machine
end

