-- ==== Sys2Proof/Machine/Separator.lean ====
section
/-! DEFINITION. The Separator (R150 to R161, R169, R384): accesses to granules that must first be placed or moved, the command
ring, quotas and the demotion scan. -/

namespace Sys2Proof.Machine

/-! ## Accesses to the unified range (R151, R153, R154) -/

/-- The context an access is charged to, and its die (R153). -/
def accessCtx (s : State) (a : Access) : Nat × Option Nat :=
  match a.who with
  | .engine d => ((dieCtx s d).toNat, some d)
  | _ => (0, none)

/-- Load and store access-fault causes (R153). -/
def accessFault (k : AccessKind) : Nat := match k with | .load _ => 5 | _ => 7

/-- Kills the commands of the engines whose accesses have consumed poison (R266). -/
def runStops (s : State) : State :=
  each s.dom.stops (fun p s => stopWith p.1 (.failing 0x0402 [p.1, ctxOn s p.1, p.2]) s) { s with dom := { s.dom with stops := [] } }

/-- An access whose granule no tier takes: an engine's command is killed as a fault, a core takes an access fault (R153). -/
def refuseAccess (a : Access) (e : NoRoom) (c : Nat) (s : State) : State :=
  let s := postNoRoom e c a.addr.toNat s
  match a.who with
  | .engine d => answer .none (killOn d (.fault (match e with | .quota => 0x0340 | .storage => 0x0341)) s)
  | _ => answer (.trap (accessFault a.kind)) s

/-- An access reaches its granule: it is held while the granule is placed, filled or moved (R151, R153, R154). One that finds an
uncorrectable error in the line's directory entry, or in the tag or state of an owned copy, is domain-fatal (R264). -/
def arriveAccess (a : Access) (s : State) : State :=
  let g := granuleOf a.addr.toNat
  let (c, die) := accessCtx s a
  if a.ecc = .directory then
    let h := homeOf s a.addr.toNat
    domainFault 0x0412 h (a.addr.toNat / 64 * 64) h s
  else match arriveAt g c die (.access a) s with
    | .goes s => runStops (performAccess a s)
    | .held s => answer .none s
    | .refused e s => refuseAccess a e c s

/-- GRANULE_ZERO_FILLED: what was held proceeds in arrival order. -/
def granuleFilled (g : Nat) (s : State) : State :=
  match SMap.find s.filling g with
  | none => s
  | some q => runStops (serveAll q { s with filling := SMap.del s.filling g })

/-! ## The command ring (R159) -/

structure SepDesc where
  pos : Nat
  op : Nat
  ctx : Nat
  tier : Nat
  addr : Nat
  count : Nat
  reserved : Bool
  deriving DecidableEq, Repr

def sepSize (s : State) : Nat := 2 ^ s.sep.logEntries.toNat

/-- Whether the ring is processed: LOG2_ENTRIES 4-16. -/
def sepOn (s : State) : Bool := 4 ≤ s.sep.logEntries.toNat && s.sep.logEntries.toNat ≤ 16

/-- The descriptor at SEP_CQ_HEAD, if the ring holds one. -/
def sepHead (s : State) : Option SepDesc :=
  let h := s.sep.head.toNat % sepSize s
  if !sepOn s || h = s.sep.tail.toNat % sepSize s then none
  else
    let pos := s.sep.cqBase.toNat * 4096 + 32 * h
    if !inUnified s pos 32 then none
    else
      let v := cohNum s pos 32
      some { pos, op := bits v 0 8, ctx := bits v 16 12, tier := bits v 28 2, addr := bits v 64 64, count := bits v 128 32,
             reserved := bits v 30 34 ≠ 0 || bits v 160 64 ≠ 0 }

/-- STATUS codes of R159. -/
def sepDone : Nat := 1
def sepPinned : Nat := 2
def sepQuota : Nat := 3
def sepStorage : Nat := 4
def sepBadArg : Nat := 5

/-- Fixes STATUS and DONE and advances SEP_CQ_HEAD. -/
def finishDesc (z : SepDesc) (status done : Nat) (s : State) : State :=
  let s := ioPut (z.pos + 28) 4 done (ioPut (z.pos + 1) 1 status s)
  { s with sep := { s.sep with head := BitVec.ofNat 16 ((s.sep.head.toNat + 1) % sepSize s), prog := 0 } }

/-- Whether a descriptor's arguments are sound; all are checked before any granule is touched (log 66). -/
def sepArgsOk (s : State) (z : SepDesc) : Bool :=
  1 ≤ z.op && z.op ≤ 8 && !z.reserved && z.tier ≤ 1 && 1 ≤ z.count && z.count ≤ 16777216 && z.addr % granBytes = 0
    && inUnified s z.addr (z.count * granBytes)

/-- What one granule of a command came to: done; refused with a STATUS; a move begun; or wait for the move under way. -/
inductive SepStep where
  | done (s : State)
  | refuse (status : Nat)
  | moving (s : State)
  | wait
  deriving DecidableEq, Repr

def roomStatus (e : NoRoom) : Nat := match e with | .quota => sepQuota | .storage => sepStorage

def placeOne (c : Nat) (hbm : Bool) (g : Nat) (s : State) : SepStep :=
  if (granOf s g).state ≠ .unplaced then .done s
  else match moveRoom s c hbm true with
    | .ok loc => .done (putIn g c hbm loc s)
    | .error e => .refuse (roomStatus e)

/-- RELEASE of one granule (R159); what a fill still holds proceeds before it. -/
def releaseOne (g : Nat) (s : State) : SepStep :=
  let x := granOf s g
  let free := fun (hbm : Bool) =>
    let s := match SMap.find s.filling g with | some _ => settleGranule g s | none => s
    SepStep.done { uncharge x.owner.toNat hbm (freeLoc (recallGranule g s) hbm x.location.toNat) with grans := SMap.del s.grans g }
  if isPinned s g then .refuse sepPinned
  else match x.state with
    | .moving => .wait
    | .unplaced => .done s
    | .hbm => free true
    | .far => free false

def migrateOne (hbm : Bool) (g : Nat) (s : State) : SepStep :=
  let x := granOf s g
  let want := if hbm then GranState.hbm else .far
  if isPinned s g then .refuse sepPinned
  else match x.state with
    | .moving => .wait
    | .unplaced => .done s
    | st =>
      if st = want then .done s
      else match moveRoom s x.owner.toNat hbm true with
        | .ok loc => .moving (startMove g .migrate hbm loc [] s)
        | .error e => .refuse (roomStatus e)

/-- CHOWN of one granule: contexts whose memory slots differ re-encrypt it in a move within its tier (R384). -/
def chownOne (c : Nat) (g : Nat) (s : State) : SepStep :=
  let x := granOf s g
  let old := x.owner.toNat
  match x.state with
  | .moving => .wait
  | .unplaced => .done s
  | st =>
    let hbm := st == .hbm
    let keyed := fun (k : Nat) => (SMap.find s.sec.memKeys k).map (·.key)
    if old = c then .done s
    else if atQuota s c hbm then .refuse sepQuota
    else if keyed old = keyed c then
      .done (charge c hbm (uncharge old hbm (updGran s g (fun x => { x with owner := BitVec.ofNat 12 c }))))
    else match pickFree s hbm none with
      | some loc => .moving (startMove g (.chown (BitVec.ofNat 12 c)) hbm loc [] s)
      | none => .refuse sepStorage

/-- One granule of a command. -/
def sepOne (z : SepDesc) (g : Nat) (s : State) : SepStep :=
  let set := fun (f : Granule → Granule) => SepStep.done (updGran s g f)
  match z.op with
  | 1 => placeOne z.ctx (z.tier = 0) g s
  | 2 => releaseOne g s
  | 3 => set fun x => { x with pin := true }
  | 4 => set fun x => { x with pin := false }
  | 5 => set fun x => { x with pull := true }
  | 6 => set fun x => { x with pull := false }
  | 7 => migrateOne (z.tier = 0) g s
  | _ => chownOne z.ctx g s

/-- Processes the granules left, in ascending order, until one refuses or must be moved; `prog` remembers how far. -/
def sepLoop (z : SepDesc) : Nat → Nat → State → State
  | 0, _, s => finishDesc z sepDone z.count s
  | n + 1, i, s =>
    match sepOne z (granuleOf z.addr + i) s with
    | .done s => sepLoop z n (i + 1) s
    | .refuse st => finishDesc z st i s
    | .moving s => { s with sep := { s.sep with prog := i + 1 } }
    | .wait => { s with sep := { s.sep with prog := i } }

/-- Runs the command at the head, from where it stands; a move it began must have ended first. -/
def sepRun (z : SepDesc) (s : State) : State :=
  if !sepArgsOk s z then finishDesc z sepBadArg 0 s
  else
    let i := s.sep.prog
    if 0 < i && (granOf s (granuleOf z.addr + i - 1)).state == .moving then s
    else sepLoop z (z.count - i) i s

/-- Passes over reserved operations at the head (BAD_ARG). -/
def skipReserved : Nat → State → State
  | 0, s => s
  | n + 1, s =>
    match sepHead s with
    | some z => if z.op = 0 || 8 < z.op then skipReserved n (finishDesc z sepBadArg 0 s) else s
    | none => s

def sepSkip (s : State) : State := skipReserved (sepSize s) s

/-- A command row: it runs when the descriptor at the head has its OP. -/
def sepRow (op : Nat) (s : State) : State :=
  match sepHead s with
  | some z =>
    if z.op ≠ op then s
    else if ioReady z.pos 32 s then sepSkip (sepRun z (touchIo z.pos 32 s)) else touchIo z.pos 32 s
  | none => s

/-- A MIGRATE or CHOWN goes on once the granule it moved has settled. -/
def sepContinue (s : State) : State :=
  match sepHead s with
  | some z => if 0 < s.sep.prog then sepSkip (sepRun z s) else s
  | none => s

/-! ## Moves (R154, R155) -/

/-- Steps 4 and 5 of R154; a copy that ends after the limit finds the move abandoned (R155). The command ring then goes on, and a
retirement's record is written (R330). -/
def copyDone (g : Nat) (s : State) : State :=
  match SMap.find s.moves g with
  | none => sepContinue s
  | some m =>
    let t := runStops (sepContinue (finishMove g m s))
    match m.kind with
    | .retire _ => endRetire t
    | _ => t

/-- The move took longer than 1 ms and is abandoned (R155). -/
def moveTimeout (g : Nat) (s : State) : State :=
  match SMap.find s.moves g with
  | none => s
  | some m => if (s.time - m.start).toNat ≤ moveLimit then s else runStops (sepContinue (abandonMove g m s))

/-! ## Quotas (R156 to R158) -/

/-- The over-quota bits after a quota is written; one that clears posts 0x0343. -/
def settleOver (c : Nat) (hbm : Bool) (s : State) : State :=
  let above := overQuota s c hbm
  let was := if hbm then (quotaOf s c).overHbm else (quotaOf s c).overFar
  let s := updQuota s c fun q => if hbm then { q with overHbm := above } else { q with overFar := above }
  if was && !above then post 0x0343 noSite [c, if hbm then 0 else 1] s else s

def writeQuota (c : Nat) (v : BitVec 64) (s : State) : State :=
  let s := updQuota s c fun q => { q with hbmQuota := v.setWidth 32, farQuota := (v >>> 32).setWidth 32 }
  settleOver c false (settleOver c true s)

/-- Bytes per 1 ms window at the demotion rate of 0x3100:01. -/
def windowLimit (s : State) : Nat := objNat s 0x3100 1 4096 * 2 ^ 20 / 1000

/-- Ticks after the last demotion before a new window opens: 1 ms, or longer where one granule takes longer. -/
def windowTicks (s : State) : Nat :=
  let rate := objNat s 0x3100 1 4096 * 2 ^ 20
  max 100000 (if rate = 0 then 0 else (granBytes * 100000000 + rate - 1) / rate)

/-- Whether the rate lets a context demote another granule now, and the bytes counted so far. -/
def windowOpen (s : State) (q : Quota) : Bool × Nat :=
  let used := if windowTicks s ≤ (s.time - q.windowStart).toNat then 0 else q.windowBytes
  (objNat s 0x3100 1 4096 ≠ 0 && (used = 0 || used + granBytes ≤ windowLimit s), used)

/-- A context's HBM granules in unified address order from the clock hand, wrapping. -/
def scanOrder (s : State) (c : Nat) : List Nat :=
  let mine := (s.grans.filter fun (p : Nat × Granule) => p.2.owner.toNat == c && p.2.state == .hbm).map (·.1)
  let hand := (quotaOf s c).hand.toNat
  mine.filter (fun g => hand ≤ granuleAddr g) ++ mine.filter (fun g => granuleAddr g < hand)

/-- Visits granules until one is demoted: pinned ones are skipped, a set REF is cleared, a granule the far tier cannot take
stays (R158). -/
def scanFrom (c : Nat) : List Nat → State → State
  | [], s => s
  | g :: gs, s =>
    let x := granOf s g
    let s := updQuota s c fun q => { q with hand := BitVec.ofNat 64 (granuleAddr (g + 1)) }
    if isPinned s g then scanFrom c gs s
    else if x.ref then scanFrom c gs (updGran s g (fun x => { x with ref := false }))
    else match moveRoom s c false true with
      | .error _ => scanFrom c gs s
      | .ok loc =>
        let (_, used) := windowOpen s (quotaOf s c)
        updQuota (startMove g .demote false loc [] s) c fun q =>
          { q with windowStart := s.time, windowBytes := used + granBytes }

def demotionScan (c : Nat) (s : State) : State :=
  let q := quotaOf s c
  if q.overHbm && (windowOpen s q).1 then
    let s := scanFrom c (scanOrder s c) s
    updQuota s c fun q => if unifiedBase + unifiedLen s ≤ q.hand.toNat then { q with hand := BitVec.ofNat 64 unifiedBase } else q
  else s

/-! ## The rows -/

/-- SEP_CQ_TAIL (R159, R160). -/
def execSepCqTail (v : BitVec 16) (s : State) : Host.Outcome State Fault Refusal :=
  command (fun s => sepSkip { s with sep := { s.sep with tail := v } }) s
/-- PLACE (R153, R159). -/
def execPlace (s : State) : Host.Outcome State Fault Refusal := command (sepRow 1) s
/-- RELEASE (R157, R159, R169). -/
def execSepRelease (s : State) : Host.Outcome State Fault Refusal := command (sepRow 2) s
/-- PIN (R150, R159). -/
def execPinOp (s : State) : Host.Outcome State Fault Refusal := command (sepRow 3) s
/-- UNPIN (R150, R159). -/
def execUnpin (s : State) : Host.Outcome State Fault Refusal := command (sepRow 4) s
/-- SET_PULL (R150, R159). -/
def execSetPull (s : State) : Host.Outcome State Fault Refusal := command (sepRow 5) s
/-- CLR_PULL (R150, R159). -/
def execClrPull (s : State) : Host.Outcome State Fault Refusal := command (sepRow 6) s
/-- MIGRATE (R154, R155, R157, R159, R169). -/
def execMigrate (s : State) : Host.Outcome State Fault Refusal := command (sepRow 7) s
/-- CHOWN (R154, R159, R384). -/
def execChown (s : State) : Host.Outcome State Fault Refusal := command (sepRow 8) s
/-- QUOTA_WRITE (R156, R157, R160). -/
def execQuotaWrite (c : CtxId) (v : BitVec 64) (s : State) : Host.Outcome State Fault Refusal :=
  command (writeQuota c.toNat v) s
/-- MIGRATION_COPY_DONE (R154, R155, R158, R384). -/
def execMigrationCopyDone (g : Nat) (s : State) : Host.Outcome State Fault Refusal := command (copyDone g) s
/-- MIGRATION_TIMEOUT (R155). -/
def execMigrationTimeout (g : Nat) (s : State) : Host.Outcome State Fault Refusal := command (moveTimeout g) s
/-- DEMOTION_SCAN (R157, R158). -/
def execDemotionScan (c : CtxId) (s : State) : Host.Outcome State Fault Refusal := command (demotionScan c.toNat) s
/-- GRANULE_ZERO_FILLED (R151, R153). -/
def execGranuleZeroFilled (g : Nat) (s : State) : Host.Outcome State Fault Refusal := command (granuleFilled g) s

end Sys2Proof.Machine
end

