-- ==== Sys2Proof/Machine/ExtMem.lean ====
section
/-! DEFINITION. External memory: patrol scrub (R327, R328) and the calls that retire pages (R330, R331, R337). -/

namespace Sys2Proof.Machine

/-! ## Storage and unified granules -/

/-- The unified granule whose data a storage granule holds; a moving granule is still at its source (R154). -/
def granuleAt (s : State) (u g : Nat) : Option Nat :=
  let here := fun (p : Nat × Granule) =>
    match storageOf s p.1, SMap.find s.moves p.1 with
    | some (hbm, loc), _ => unitAt hbm loc == (u, g)
    | none, some m => unitAt m.fromHbm m.source.toNat == (u, g)
    | none, none => false
  (s.grans.find? here).map (·.1)

/-! ## Scrub (R327, R328) -/

/-- The first line at or after one that lies in no retired granule; the unit's end when there is none. -/
def scrubFrom (s : State) (u : Nat) : Nat → Nat → Nat
  | 0, l => l
  | n + 1, l => if retiredGran s u (l / 1024) then scrubFrom s u n ((l / 1024 + 1) * 1024) else l

/-- The line a controller scrubs next. -/
def scrubLineOf (s : State) (u : Nat) : Nat := scrubFrom s u (s.sep.withdrawn.length + 1) (unitOf s u).scrubLine

/-- PATROL_SCRUB: the next line of the unit is read in class 3; the pass ends at the unit's last line. -/
def scrub (u : Nat) (r : ScrubResult) (s : State) : State :=
  if unitCap s u = 0 then s
  else
    let l := scrubLineOf s u
    if unitCap s u * 1024 ≤ l then updUnit s u (fun x => { x with scrubLine := 0, scrubPasses := bump x.scrubPasses })
    else
      let uni := granuleAt s u (l / 1024)
      let s := updUnit s u (fun x => { x with xfer3 := bump x.xfer3, scrubLine := l + 1 })
      let s := match r with
        | .clean => s
        | .corrected => corrected u (l / 1024) uni s
        | .uncorrectable => uncorrectable u (l % 1024) uni s
      if unitCap s u * 1024 ≤ scrubLineOf s u then
        updUnit s u (fun x => { x with scrubLine := 0, scrubPasses := bump x.scrubPasses })
      else s

/-! ## Page retirement (R330, R331) -/

/-- Steps 2 and 3 for a placed granule: its storage is withdrawn and the move begins; without a free granule of the tier it waits. -/
def retireNow (g cause : Nat) (hbm : Bool) (loc : Nat) (s : State) : State :=
  let (u, i) := unitAt hbm loc
  let s := withdraw u i s
  match pickFree s hbm none with
  | some t => answer .none (startMove g (.retire cause) hbm t [] s)
  | none => answer .none (retireLater g cause s)

/-- Whether a granule's retirement is under way: it waits, or its move has begun. -/
def retireBegun (s : State) (g : Nat) : Bool :=
  s.sep.retiring.any (·.1 == g) || (SMap.find s.moves g).any fun m => match m.kind with | .retire _ => true | _ => false

/-- QK_PAGE_RETIRE (R291, R330, R337): a granule in a migration waits for it; an UNPLACED granule has no storage. The call returns when
its list record is written. -/
def pageRetire (addr cause : Nat) (s : State) : State :=
  let g := granuleOf addr
  if !inUnified s (addr / granBytes * granBytes) granBytes then answer (.sbi sbiInvalidAddress 0) s
  else if cause < 1 || 3 < cause then answer (.sbi sbiInvalidParam 0) s
  else if retireBegun s g then answer (.sbi sbiSuccess 0) s
  else match storageOf s g with
    | some (hbm, loc) => retireNow g cause hbm loc s
    | none =>
      if (granOf s g).state == .moving then answer .none (retireLater g cause s)
      else answer (.sbi sbiSuccess 0) s

/-- The retirement of a storage granule that waits, as (unified granule, cause). -/
def waitingRetire (s : State) (u i : Nat) : Option (Nat × Nat) :=
  s.sep.retiring.find? fun r => (storageOf s r.1).any fun x => unitAt x.1 x.2 == (u, i)

/-- RETIREMENT_MOVE_DONE: a retirement that waited moves its granule, which stands still, within the tier once it has room, and its record
is written. -/
def retireDone (u i : Nat) (s : State) : State :=
  match waitingRetire s u i with
  | none => s
  | some (g, cause) =>
    match storageOf s g with
    | some (hbm, loc) =>
      let s := retireNow g cause hbm loc { s with sep := { s.sep with retiring := s.sep.retiring.filter (·.1 != g) } }
      if (SMap.find s.moves g).isSome then copyDone g s else s
    | none => s

/-! ## The rows -/

/-- PATROL_SCRUB (R265, R327 to R329, R332). -/
def execPatrolScrub (unit : Nat) (r : ScrubResult) (s : State) : Host.Outcome State Fault Refusal := command (scrub unit r) s
/-- QK_PAGE_RETIRE (R291, R330, R331, R337). -/
def execQkPageRetire (addr : BitVec 64) (cause : BitVec 64) (s : State) : Host.Outcome State Fault Refusal :=
  command (pageRetire addr.toNat cause.toNat) s
/-- RETIREMENT_MOVE_DONE (R330, R331, R337). -/
def execRetirementMoveDone (unit : Nat) (g : Nat) (s : State) : Host.Outcome State Fault Refusal := command (retireDone unit g) s

end Sys2Proof.Machine
end

