-- ==== Sys2Proof/Machine/StoreLog.lean ====
section
/-! DEFINITION. The event log and the energy ledger (R426), and the calendar clock's own events (R430, R431). -/

namespace Sys2Proof.Machine

/-! ## The event log -/

/-- Sizes of the log area and of an erase block (R422, R426). -/
def logArea : Nat := 96 * 2 ^ 20
def eraseBlock : Nat := 64 * 2 ^ 10

/-- The ring without its oldest erase block: every batch that begins in it is lost, and 0x0B05 tells how many records. -/
def eraseOldest (s : State) : State :=
  let start := s.nv.logStart + eraseBlock
  let gone := (s.nv.logBatches.filter fun b => b.1 < start).foldl (fun n b => n + b.2) 0
  post 0x0B05 noSite [gone] { s with nv := { s.nv with
    logStart := start, log := s.nv.log.drop gone, logBatches := s.nv.logBatches.filter fun b => start ≤ b.1 } }

/-- Erases blocks, at most n, until a record of a size fits. -/
def makeRoom (need : Nat) : Nat → State → State
  | 0, s => s
  | n + 1, s => if s.nv.logEnd + need ≤ s.nv.logStart + logArea then s else makeRoom need n (eraseOldest s)

/-- Appends one batch of up to 63 pending records and raises APLIC source 1 (R282, R426). -/
def appendBatch (s : State) : State :=
  if s.ev.pendingRecs.isEmpty || !storeUp s || !dairymanUp s then s
  else
    let recs := s.ev.pendingRecs.take 63
    let rest := s.ev.pendingRecs.drop 63
    let size := recordBytes (64 * recs.length)
    let s := { s with ev := { s.ev with pendingRecs := rest, oldest := if rest.isEmpty then none else some s.time } }
    let s := makeRoom size (size / eraseBlock + 1) s
    raiseSource 1 { s with nv := { s.nv with
      log := s.nv.log ++ recs, logBatches := s.nv.logBatches ++ [(s.nv.logEnd, recs.length)], logEnd := s.nv.logEnd + size,
      seq := bump s.nv.seq } }

/-- Whether a batch is due: 63 records pend, or 10 ms have passed since the oldest was posted. -/
def batchDue (s : State) : Bool :=
  63 ≤ s.ev.pendingRecs.length || s.ev.oldest.any fun t => msTicks 10 ≤ since s t

/-- Appends everything that pends, as the shutdown of a package reset does. -/
def appendAll : Nat → State → State
  | 0, s => s
  | n + 1, s => appendAll n (appendBatch s)

def flushLog (s : State) : State := appendAll (s.ev.pendingRecs.length / 63 + 2) s

/-! ## The ledger -/

/-- Records the ledger area holds, and those of an erase block (R422, R423, R426). -/
def ledgerMax : Nat := 32 * 2 ^ 20 / recordBytes 17
def ledgerBlock : Nat := eraseBlock / recordBytes 17

/-- One ledger record: energy in mJ, the timebase, and whether FALLBACK is in force. -/
def appendLedger (s : State) : State :=
  let r := (BitVec.ofNat 64 (s.power.totalNj / 1000000), s.time, s.power.fallback)
  let old := if ledgerMax ≤ s.nv.ledger.length then s.nv.ledger.drop ledgerBlock else s.nv.ledger
  { s with nv := { s.nv with ledger := old ++ [r], ledgerTime := s.cal.time, seq := bump s.nv.seq } }

/-- LEDGER_RECORD_DUE: a whole second of the timebase whose record is not yet written; no record is written once no device is left. -/
def ledgerDue (s : State) : State :=
  let fresh := match s.nv.ledger.getLast? with
    | some r => r.2.1 ≠ s.time
    | none => true
  guarded (dairymanUp s && storeUp s && s.time.toNat % msTicks 1000 = 0 && fresh) (programWith s.su.board.progFail fun s => if storeUp s then appendLedger s else s) s

/-! ## The calendar clock -/

/-- A set of the clock: 0x0A11 with the old and the new time; the time is valid from then on (R430, R431). -/
def setClock (t : BitVec 64) (s : State) : State :=
  let old := s.cal.time
  post 0x0A11 noSite [old.toNat, t.toNat] { s with cal := { s.cal with time := t, invalid := false, slewing := 0 } }

/-- 0x0A12 for a VBAT reading below 2.7 V (R431). -/
def checkVbat (s : State) : State := if s.cal.vbat.toNat < 2700 then post 0x0A12 noSite [s.cal.vbat.toNat] s else s

/-- CALENDAR_MIDNIGHT: VBAT is read when the calendar's seconds reach a multiple of a day. -/
def midnight (mv : Nat) (s : State) : State :=
  guarded (dairymanUp s && s.cal.time.toNat / 2 ^ 24 % 86400 = 0)
    (fun s => checkVbat { s with cal := { s.cal with vbat := BitVec.ofNat 16 mv } }) s

/-- PTP_SYNC: an offset to the master above 1 ms is stepped, a smaller one slewed, while PTP is on (R404, R430). -/
def ptpAct (offset : Int) (s : State) : State :=
  guarded (dairymanUp s && objNat s 0x7000 2 0 = 1)
    (fun s =>
      if 16777 < offset.natAbs then setClock (BitVec.ofInt 64 (s.cal.time.toNat + offset)) s
      else { s with cal := { s.cal with slewing := offset } }) s

/-! ## The rows -/

/-- EVENT_BATCH_DUE (R282, R423, R424, R426). -/
def execEventBatchDue (s : State) : Host.Outcome State Fault Refusal :=
  command (fun s => guarded (batchDue s && storeUp s && dairymanUp s) (programWith s.su.board.progFail appendBatch) s) s
/-- LEDGER_RECORD_DUE (R424, R426). -/
def execLedgerRecordDue (s : State) : Host.Outcome State Fault Refusal := command ledgerDue s
/-- CALENDAR_MIDNIGHT (R431). -/
def execCalendarMidnight (vbatMv : Nat) (s : State) : Host.Outcome State Fault Refusal := command (midnight vbatMv) s
/-- PTP_SYNC (R404, R430). -/
def execPtpSync (offset : Int) (s : State) : Host.Outcome State Fault Refusal := command (ptpAct offset) s

end Sys2Proof.Machine
end

