-- ==== Sys2Proof/Machine/Startup.lean ====
section
/-! DEFINITION. Start-up from step 3 to readiness (R413 to R416), what each reset keeps (R420, R421), package resets and cold
starts. -/

namespace Sys2Proof.Machine

/-! ## What a loss of power or a package reset leaves (R420, R429) -/

/-- The dictionary values that the NV store holds (R396, R400). -/
def keptValues (s : State) : SMap (List Byte) :=
  s.dict.values.filter fun (p : Nat × List Byte) => (objRow (p.1 / 256) (p.1 % 256)).any objPersists

/-- A context's granules of a tier. -/
def useOf (s : State) (st : GranState) (c : Nat) : Nat :=
  (s.grans.filter fun (p : Nat × Granule) => p.2.state == st && p.2.owner.toNat == c).length

/-- The quota blocks after a reset that keeps the map: at their reset values but for what each context holds. -/
def freshQuotas (s : State) : SMap Quota :=
  let cs := (s.grans.map fun (p : Nat × Granule) => p.2.owner.toNat).eraseDups
  cs.foldl (fun m c => SMap.set {} m c { hbmUse := BitVec.ofNat 32 (useOf s .hbm c), farUse := BitVec.ofNat 32 (useOf s .far c) }) []

/-- The energy that the ledger's last record gives, in nJ (R429). -/
def ledgerNj (s : State) : Nat := match s.nv.ledger.getLast? with | some r => r.1.toNat * 1000000 | none => 0

/-- The event records after a loss of power: those in the log; after a reset, the Cowbell's and the pending ones too. -/
def keptEvents (cold : Bool) (s : State) : EventBuf :=
  if cold then
    { number := match s.nv.log.getLast? with | some e => e.number + 1 | none => 0,
      tail := s.nv.log.drop (s.nv.log.length - 32) }
  else s.ev

/-- Moves are undone and round-engine pins gone, so that every entry names storage that holds its data (R169, R326). -/
def settledMap (s : State) : State :=
  let s := each s.moves (fun (p : Nat × Move) s => undoMove p.1 p.2 s) s
  each (s.grans.map (·.1)) (fun g s => updGran s g (fun x => { x with rpin := 0 })) s

/-- Everything volatile at its reset value. A cold start loses the memory too; a package reset keeps what lies in HBM and DRAM
with the map that names it. -/
def afterLoss (cold : Bool) (s : State) : State :=
  let s := settledMap s
  { pending := s.pending, free := s.free, resp := s.resp, variant := s.variant, weltGen := s.weltGen,
    mem := if cold then [] else s.mem,
    grans := if cold then [] else s.grans,
    quotas := if cold then [] else freshQuotas s,
    sep := if cold then {} else { usedHbm := s.sep.usedHbm, usedFar := s.sep.usedFar },
    dom := if cold then {} else { poison := s.dom.poison, resets := s.dom.resets, lastCause := s.dom.lastCause },
    sec := { tenancy := s.sec.tenancy, membKey := s.sec.membKey, debug := s.sec.debug, debugReq := s.sec.debugReq,
             lastScrub := s.sec.lastScrub, boots := s.sec.boots,
             granKey := if cold then [] else s.sec.granKey, lineKey := if cold then [] else s.sec.lineKey },
    dict := { values := keptValues s },
    lacing := { memb := { membNonce := s.lacing.memb.membNonce } },
    tunnel := { hard := s.tunnel.hard, soft := if cold then [] else s.tunnel.soft },
    power := { totalNj := if cold then ledgerNj s else s.power.totalNj },
    su := { cowbellCode := s.su.cowbellCode, lastCause := s.su.lastCause, pkgResets := s.su.pkgResets,
            pkgResetLow := s.su.pkgResetLow, pwrgood := s.su.pwrgood, pinsDriven := true, board := s.su.board,
            fusedMin := s.su.fusedMin },
    nv := s.nv, ev := keptEvents cold s, cal := s.cal }

/-! ## Steps 9 and 10 (R413 to R416) -/

/-- The image that boots: of the accepted ones the higher version, A when they are equal (R414, R415). -/
def chooseImage (a b : FwImage) (okA okB : Bool) : Option FwImage :=
  if okA && (!okB || b.version.toNat ≤ a.version.toNat) then some a else if okB then some b else none

/-- Why an image is refused, as 0x0A04 names it: 1 no valid mark, 2 signature, 3 version (log 77). -/
def imageCause (core : Bool) (i : FwImage) : Nat := if core && !i.mark then 1 else if !i.signed then 2 else 3

/-- 0x0A04 for both images of a target: 0 and 1 Dairyman A and B, 2 and 3 core A and B (log 77). -/
def postInvalid (core : Bool) (a b : FwImage) (s : State) : State :=
  let k := if core then 2 else 0
  post 0x0A04 noSite [k + 1, imageCause core b] (post 0x0A04 noSite [k, imageCause core a] s)

/-- Voters as 0x5001 lists them at this start (R310, R318). -/
def votersNow (s : State) : List Nat :=
  ((List.range 15).map fun i => objNat s 0x5001 (i + 1) 0xFFFF).filter (· ≠ 0xFFFF)

/-- Ticks and cause of readiness; the supervisor reads RUNNING (R416, R421). -/
def ready (s : State) : State :=
  let s := setSupervisor 1 { s with su := { s.su with phase := .running, readyTick := s.time } }
  post 0x0A07 noSite [s.time.toNat, s.su.lastCause.toNat] s

/-- A step of 6 to 10, unless it overruns its bound by more than 1 s: start-up then stops (R413, R416). -/
def slowAt (step : Nat) (s : State) (act : State → State) : State :=
  if s.su.board.slowStep = step then stopStart step stopOverrun s else act s

/-- Step 10: eyelets train and membership starts JOINING; a Skim package reads ABSENT (R3, R314). -/
def joinNetwork (s : State) : State :=
  slowAt 10 s fun s =>
  let s := each (fittedEyes s.variant) eyeTrain s
  let m : Membership := { pkgId := BitVec.ofNat 13 (objNat s 0x5000 1 0), voters := votersNow s, membNonce := s.lacing.memb.membNonce,
                          mstate := if s.variant = .skim then .absent else .joining }
  ready { s with lacing := { s.lacing with memb := m } }

/-- Step 9: a core firmware image is chosen and every hart in service starts (R415). -/
def startCores (s : State) : State :=
  slowAt 9 s fun s =>
  match chooseImage s.nv.coreA s.nv.coreB (coreAccepted s s.nv.coreA) (coreAccepted s s.nv.coreB) with
  | none => stopStart 9 stopFirmware (postInvalid true s.nv.coreA s.nv.coreB s)
  | some i =>
    let s := if s.nv.coreMin.toNat < i.version.toNat then
        storeRecord areaState 2 { s with nv := { s.nv with coreMin := i.version } }
      else s
    joinNetwork (restartHarts { s with su := { s.su with coreDigest := i.digest } })

/-! ## Step 8 -/

/-- The units in service with their capacities in granules (R326). -/
def unitsNow (s : State) : List (Nat × Nat) :=
  ((List.range 32).filter fun u => (unitOf s u).mtype ≠ 0).map fun u => (u, unitCap s u)

/-- The storage granules that the retirement lists name, of units in service (R331). -/
def listedGranules (s : State) : List (Nat × Nat) :=
  (unitsNow s).flatMap fun u => (SMap.get [] s.nv.lists u.1).map fun e => (u.1, e.toNat % 2 ^ 24)

/-- Sets every placement map entry to UNPLACED. -/
def resetMap (s : State) : State :=
  { s with grans := [], quotas := [], sep := { s.sep with usedHbm := [], usedFar := [] } }

/-- A package reset that finds other units than the start before resets the map and posts 0x0307 (R326). -/
def compareUnits (s : State) : State :=
  let was := s.nv.lastUnits.getD []
  let now := unitsNow s
  let s := { s with nv := { s.nv with lastUnits := some now } }
  if s.su.lastCause = 0 || was = now then s
  else post 0x0307 noSite [sumList (was.map (·.2)), sumList (now.map (·.2))] (resetMap s)

/-- Step 8: the domain forms, retired granules leave the free pool, the dispatch origin advances (R179, R331). -/
def formDomain (s : State) : State :=
  slowAt 8 s fun s =>
  let s := compareUnits s
  let s := { s with sep := { s.sep with withdrawn := listedGranules s } }
  let s := each (unitsNow s) (fun u s => updUnit s u.1 (fun x =>
    { x with granules := BitVec.ofNat 24 (u.2 - (SMap.get [] s.nv.lists u.1).length) })) s
  startCores (storeRecord areaState 1 { s with nv := { s.nv with origin := s.nv.origin + 1 } })

/-! ## Steps 6 and 7: training (R321 to R324) -/

/-- A memory unit that training leaves out: its event, FAULT with REASON 0x05. -/
def leaveOut (u code : Nat) (payload : List Nat) (s : State) : State :=
  post code (siteUnit u) payload (setSite (siteUnit u) stFault 5 s)

/-- A free value, as a number, for what an event reports and the spec leaves open (log 2). -/
def freeNat (s : State) : Nat := (Config.freeWord s.free).toNat

/-- Trains a stack (R321): each pseudo-channel has 2 spare data lanes and 1 spare command/address lane, which take the place of its failing
lanes; a stack with more failing lanes than spares in one of them, or that does not train in time, is left out. -/
def trainStack (k : Nat) (s : State) : State :=
  let bad := s.su.board.badLanes.filter fun x => x.stack == k && 0 < x.dataLanes + x.caLanes
  if !siteUp s (siteUnit k) then s
  else match bad.find? fun x => 2 < x.dataLanes || 1 < x.caLanes with
    | some x => leaveOut k 0x0301 [k, x.pseudo] s
    | none =>
      if s.su.board.trainFail.contains k then leaveOut k 0x0301 [k, freeNat s] (drew s)
      else
        let used := sumList (bad.map fun x => x.dataLanes + x.caLanes)
        let s := updUnit s k (fun x => { x with mtype := 1, rate := 10000, spares := BitVec.ofNat 8 used })
        each bad (fun x s => post 0x0302 (siteUnit k) [k, x.pseudo, x.dataLanes + x.caLanes] s) s

def moduleIn (s : State) (ch : Nat) : Option Module := (s.su.board.modules.find? fun m => m.1 == ch).map (·.2)

/-- TYPE of a channel's module (R334). -/
def moduleType (k : ModuleKind) : Nat := match k with | .mrdimm => 2 | .rdimm => 3 | _ => 0

/-- The data rates that a kind of module may run at (R322). -/
def kindRates (k : ModuleKind) : List Nat :=
  match k with
  | .mrdimm => [8800, 8000]
  | .rdimm => [6400, 5600, 4800]
  | _ => []

/-- Whether a module breaks none of R322's rules. -/
def supported (m : Module) : Bool :=
  m.dimms = 1 && m.ecc && m.x4
    && (match m.kind with | .mrdimm => m.ranks = 2 | .rdimm => m.ranks = 1 || m.ranks = 2 | _ => false)
    && [16, 32, 64, 96, 128, 256].contains m.gib && [16, 24, 32, 64].contains m.densityGb
    && (kindRates m.kind).any m.rates.contains

/-- The populated channels of a processor die in service, lowest first. -/
def channelsOf (s : State) (m : Nat) : List Nat :=
  ((List.range 8).map (8 * m + ·)).filter fun ch => siteUp s (siteUnit (16 + ch)) && (moduleIn s ch).isSome

/-- The module kind of a processor die: that of its lowest-numbered populated channel (R323). -/
def dieModule (s : State) (m : Nat) : Option ModuleKind := ((channelsOf s m).head?.bind (moduleIn s)).map (·.kind)

/-- The rule of R322 or R323 that a channel's module breaks, as 0x0306 names it: 2 unsupported, 3 another type (log 77). -/
def ruleBroken (s : State) (m ch : Nat) : Option Nat :=
  match moduleIn s ch with
  | some x => if !supported x then some 2 else if some x.kind ≠ dieModule s m then some 3 else none
  | none => none

/-- The highest data rate of its kind that every module of a die supports (R322, R323); 0 when there is none. -/
def dieRate (s : State) (m : Nat) : Nat :=
  let ms := ((channelsOf s m).filter fun ch => (ruleBroken s m ch).isNone).filterMap (moduleIn s)
  match ms with
  | [] => 0
  | x :: rest => ((kindRates x.kind).filter fun r => (x :: rest).all fun y => y.rates.contains r).foldl max 0

/-- Trains the channels of a processor die (R323, R324). -/
def trainDie (m : Nat) (s : State) : State :=
  let rate := dieRate s m
  let s0 := s
  each (channelsOf s m) (fun ch s =>
    let u := 16 + ch
    match ruleBroken s0 m ch with
    | some r => leaveOut u 0x0306 [ch, r] s
    | none =>
      if rate = 0 then leaveOut u 0x0306 [ch, 4] s
      else if s.su.board.trainFail.contains u then leaveOut u 0x0301 [u, freeNat s] (drew s)
      else updUnit s u (fun x => { x with mtype := BitVec.ofNat 4 (((dieModule s0 m).map moduleType).getD 0), rate := BitVec.ofNat 16 rate })) s

/-- Whether a DRAM channel is in service. -/
def anyChannel (s : State) : Bool := farUnits.any fun u => (unitOf s u).mtype ≠ 0

/-- Steps 6 and 7; a tenancy that ends is scrubbed before the domain forms (R386). -/
def train (s : State) : State :=
  let s := setSupervisor 0 { s with su := { s.su with stepStart := s.time } }
  slowAt 6 s fun s =>
  let s := each (List.range 16) trainStack s
  slowAt 7 s fun s =>
  if (moduleIn s 0).isNone then stopStart 7 stopD0Empty (post 0x0306 (siteUnit 16) [0, 1] s)
  else
    let s := trainDie 1 (trainDie 0 s)
    if !anyChannel s then stopStart 7 stopNoChannel s
    else if s.sec.tenancy = 2 then
      { s with su := { s.su with phase := .zeroFill }, sec := { s.sec with fillStart := some s.time } }
    else formDomain s

/-! ## The hold before step 6 (R413, R421) -/

/-- Start-up holds for PWRGOOD_IN low or for a hold record, which the hold consumes; else training begins. -/
def holdOrTrain (s : State) : State :=
  let rec' := s.nv.holdRecord
  if s.su.pwrgood && !rec' then train s
  else
    let s := setSupervisor 3 { s with su := { s.su with phase := .held, heldByRecord := rec' } }
    let s := if s.su.pwrgood then s else post 0x0A06 noSite [0] s
    if rec' then storeRecord areaState 1 (post 0x0A06 noSite [1] { s with nv := { s.nv with holdRecord := false } }) else s

/-- PWRGOOD_IN rises. -/
def powerGood (s : State) : State :=
  let s := { s with su := { s.su with pwrgood := true } }
  if s.su.phase = .held && !s.su.heldByRecord && dairymanUp s then train s else s

/-! ## Step 5: soft starts (R353, R354) -/

/-- The dies whose rails the Dairyman raises, in its order. -/
def softOrder : List Nat := [8, 9, 0, 1, 2, 3, 4, 5, 6, 7]

/-- The rails of a site in the order they come up. -/
def railsOf (i : Nat) : List RailId :=
  if i < 8 then [.memory i, .logic i, .stack (2 * i), .stack (2 * i + 1)] else [.memory i, .logic i]

/-- Whether a rail is to come up: its site, and for a stack the stack, is in service. -/
def railWanted (s : State) (r : RailId) : Bool :=
  match r with
  | .logic i => i < 10 && siteUp s i
  | .memory i => i < 10 && siteUp s i
  | .stack k => k < 16 && siteUp s (k / 2) && siteUp s (siteUnit k)

def railGood (s : State) (r : RailId) : Bool := (lineOf s (railKey r)).good

/-- The rails of a site that precede one. -/
def railBefore (r : RailId) : List RailId :=
  match r with
  | .memory _ => []
  | .logic i => [.memory i]
  | .stack k => [.memory (k / 2), .logic (k / 2)]

/-- A site is fenced with its dependants (R354, R447). -/
def fenceSite (i : Nat) (r : RailId) (s : State) : State :=
  let off := fun (x : Rail) => { x with state := .fenced, setpoint := 0, meas := 0 }
  let s := each (i :: (unitsOf i).filterMap fun u => if u < 16 then some (16 + u) else none) (fun k s => updRail s k off) s
  let s := setMemorySites i stFault 4 (setSite i stFault 4 s)
  let s := if i < 8 then clearUnitMap i s else { s with map := { s.map with cores := SMap.del s.map.cores (i - 8) } }
  post 0x0102 i [i, railNum r] (countChange s)

/-- A shorted stack rail fences the stack alone. -/
def fenceStack (k : Nat) (s : State) : State :=
  let s := updRail s (16 + k) (fun x => { x with state := .fenced, meas := 0 })
  post 0x0102 (siteUnit k) [siteUnit k, 2] (countChange (setSite (siteUnit k) stFault 4 s))

/-- Step 5 ends once every wanted rail is good (R149, R354). -/
def settleRails (s : State) : State :=
  if !softOrder.all (fun i => !siteUp s i || (railsOf i).all fun r => !railWanted s r || railGood s r) then s
  else if !farUnits.any (fun u => siteUp s (siteUnit u)) then stopStart 5 stopNoChannel s
  else holdOrTrain s

/-- A good ramp: the site's rail is on once its logic rail is, at the idle setpoint. -/
def railUp (r : RailId) (s : State) : State :=
  let s := updLine (railKey r) (fun l => { l with good := true }) s
  match r with
  | .memory _ => s
  | .logic i => updRail s i (fun x => { x with state := .on, setpoint := BitVec.ofNat 12 (idleMv s),
                                               meas := BitVec.ofNat 12 (idleMv s), target := BitVec.ofNat 12 (idleMv s) })
  | .stack k => updRail s (16 + k) (fun x => { x with state := .on })

/-- A short: 0x0101; after the third the site, or the stack, is fenced. -/
def railShort (r : RailId) (s : State) : State :=
  let n := (lineOf s (railKey r)).attempts + 1
  let s := post 0x0101 (railSite r) [railSite r, railNum r, n] s
  if n < 3 then
    updLine (railKey r) (fun l => { l with attempts := n, retryAt := some (s.time + BitVec.ofNat 64 (msTicks 100)) }) s
  else match r with
    | .stack k => fenceStack k s
    | _ => fenceSite (railSite r) r s

/-- SOFT_START_RAMP_END. -/
def rampEnd (r : RailId) (ok : Bool) (s : State) : State :=
  if s.su.phase ≠ .softStart || !dairymanUp s || !railWanted s r || railGood s r || (lineOf s (railKey r)).retryAt.isSome
      || !(railBefore r).all (railGood s) then s
  else settleRails (if ok then railUp r s else railShort r s)

/-- SOFT_START_RETRY: the ramps of a site that wait and whose 100 ms have passed start again. -/
def retryRails (site : Nat) (s : State) : State :=
  let rs := if 16 ≤ site then [RailId.stack (site - 16)] else railsOf site
  let again := fun (r : RailId) (s : State) =>
    if (lineOf s (railKey r)).retryAt.any fun t => t.toNat ≤ s.time.toNat then updLine (railKey r) (fun l => { l with retryAt := none }) s else s
  guarded (s.su.phase = .softStart && dairymanUp s) (each rs again) s

/-- The rails of every site in service begin to ramp. -/
def beginSoft (s : State) : State :=
  let s := { s with su := { s.su with phase := .softStart, stepStart := s.time } }
  let soft := fun (k : Nat) (s : State) => updRail s k (fun x => { x with state := .softStart })
  let s := each (softOrder.filter (siteUp s)) soft s
  settleRails (each ((List.range 16).filter fun k => siteUp s (siteUnit k)) (fun k s => soft (16 + k) s) s)

/-! ## The end of discovery: acknowledgements (R25, R30) -/

/-- Discovery ends once every die that got a config frame has acknowledged or reads FAULT. -/
def settleConfig (s : State) : State :=
  if s.disc.sentAt.all fun (p : Nat × BitVec 64) => s.disc.acked.contains p.1 || !siteUp s p.1 then beginSoft s else s

/-- CONFIG_ACK. -/
def configAck (p : Nat) (b : List Byte) (s : State) : State :=
  if s.su.phase ≠ .config || !dairymanUp s || (SMap.find s.disc.config p).isNone || s.disc.acked.contains p || !siteUp s p
      || !frameGood frameAck b then s
  else settleConfig { s with disc := { s.disc with acked := p :: s.disc.acked } }

/-- CONFIG_ACK_TIMEOUT: 5 ms without an acknowledgement (R25, R447). -/
def ackLate (p : Nat) (s : State) : State :=
  let late := (SMap.find s.disc.sentAt p).any fun t => msTicks 5 ≤ since s t
  if s.su.phase ≠ .config || !dairymanUp s || s.disc.acked.contains p || !siteUp s p || !late then s
  else
    let s := setMemorySites p stFault 3 (setSite p stFault 3 s)
    let s := if p < 8 then clearUnitMap p s else { s with map := { s.map with cores := SMap.del s.map.cores (p - 8) } }
    settleConfig s

/-- When no die but IO is present, discovery ends with its config frames. -/
def afterClassify (s : State) : State := if s.su.phase = .config && s.disc.sentAt.isEmpty then beginSoft s else s

/-! ## Step 3: the Dairyman boots (R414, R424) -/

/-- The Dairyman appends what the Cowbell buffered (R417, R418). -/
def appendCowbell (s : State) : State :=
  if s.ev.cowbell.isEmpty then s
  else { s with ev := { s.ev with pendingRecs := s.ev.pendingRecs ++ s.ev.cowbell, cowbell := [],
                                  oldest := some (s.ev.oldest.getD s.time) } }

/-- The records that the scan finds torn (R424): where each lies is the store's (log 2). -/
def postTorn : Nat → State → State
  | 0, s => s
  | n + 1, s =>
    let p := [freeNat s, freeNat (drew s), freeNat (drew (drew s))]
    postTorn n (post 0x0B01 noSite p (drew (drew (drew s))))

/-- The scan of the store at step 3 (R424): the devices that fail to read leave it, the others are in use, and the records of an area that
one device alone holds are copied to the other. -/
def scanStore (s : State) : State :=
  let b := s.su.board
  let s := { s with nv := { s.nv with device0Bad := b.norFail.contains 0, device1Bad := b.norFail.contains 1 } }
  let s := each b.norFail.eraseDups (fun d s => post 0x0B02 noSite [d] s) s
  if b.norFail.isEmpty && s.su.lastCause = 0 then each b.oneSided (fun p s => post 0x0B03 noSite [p.1, p.2] s) s else s

/-- The base rails stand (R353, R371). -/
def baseRails (s : State) : State :=
  let s := updRail s 10 (fun x => { x with state := .on, meas := 750 })
  let s := updRail s 11 (fun x => { x with state := .on, meas := 800 })
  { s with power := { s.power with off := false } }

/-- What a start posts of the time before it: torn records, a lost clock after a cold start, VBAT, an end without a
package reset (R424, R428, R431). -/
def reportPast (s : State) : State :=
  let cold := s.su.lastCause = 0
  let s := postTorn s.su.board.tornRecords s
  let s := scanStore s
  let s := if cold && s.su.board.clockLost then post 0x0A10 noSite [] s else s
  let s := checkVbat s
  let s := if s.nv.cleanEnd then s else post 0x0A0A noSite [s.nv.ledgerTime.toNat] s
  { s with nv := { s.nv with cleanEnd := false } }

/-- Step 3, then the discovery window opens. -/
def bootFrom3 (s : State) : State :=
  let s := baseRails s
  match chooseImage s.nv.dairyA s.nv.dairyB (dairyAccepted s s.nv.dairyA) (dairyAccepted s s.nv.dairyB) with
  | none => stopStart 3 stopFirmware (postInvalid false s.nv.dairyA s.nv.dairyB s)
  | some i =>
    let s := { s with su := { s.su with dairyman := true, dairyDigest := i.digest, heartbeat := s.time, stepStart := s.time } }
    let s := reportPast (appendCowbell s)
    { s with su := { s.su with phase := .discovery },
             sec := { s.sec with mode := BitVec.ofNat 8 (objNat s 0x6000 1 0), boots := s.sec.boots + 1 },
             host := { s.host with portA := { s.host.portA with root := objNat s 0x1010 1 0 = 1 } },
             disc := { opened := some s.time } }

/-- Start-up does not pass step 2 while PKG_RESET# is low (R413). -/
def passStep2 (s : State) : State := if s.su.pkgResetLow then { s with su := { s.su with phase := .step2 } } else bootFrom3 s

/-! ## Cold start (R413, R355, R431) -/

def coldStart (b : Board) (s : State) : State :=
  let s := afterLoss true s
  let s := { s with
    su := { s.su with board := b, pwrgood := b.pwrgood, lastCause := 0, pkgResets := 0, cowbellCode := 0 },
    cal := { s.cal with vbat := BitVec.ofNat 16 b.vbatMv, time := if b.clockLost then 0 else s.cal.time,
                        invalid := s.cal.invalid || b.clockLost } }
  if b.baseShort then stopStart 2 stopBaseShort (postCowbell 0x0107 [freeNat s] (drew s)) else passStep2 s

/-! ## Package reset (R420, R421) -/

/-- Causes of LAST_CAUSE (R421). -/
def causePin : Nat := 1
def causeRegister : Nat := 2
def causeTenancy : Nat := 3

/-- A tenancy begins to end: SCRUBBING is in the store, the Sole tenant identity is cleared, 0x0902 is posted (R386). -/
def beginScrub (cause : Nat) (s : State) : State :=
  let s := storeRecord areaState 1 { s with sec := { s.sec with tenancy := 2 } }
  let s := post 0x0902 noSite [cause] s
  { s with dict := { s.dict with values := SMap.del s.dict.values (objKey 0x6000 2) } }

/-- A debug request takes effect (R391); a Sole tenancy that is OCCUPIED is scrubbed (cause 2: log 78). -/
def applyDebug (s : State) : State :=
  match s.sec.debugReq with
  | none => s
  | some v =>
    let s := if s.sec.mode = 0 && s.sec.tenancy = 1 then beginScrub 2 s else s
    let was := s.sec.debug
    let s := storeRecord areaState 1 { s with sec := { s.sec with debug := v, debugReq := none } }
    if was = v then s else post 0x0906 noSite [boolNat v] s

/-- The whole of a package reset: 0x0A08, a hold record when asked, the loss of everything volatile, and start-up from step 3.
The timebase restarts at 0. -/
def packageReset (cause : Nat) (hold : Bool) (s : State) : State :=
  let s := post 0x0A08 noSite [cause] s
  let s := if hold then storeRecord areaState 1 { s with nv := { s.nv with holdRecord := true } } else s
  let s := flushLog (applyDebug s)
  let s := afterLoss false { s with nv := { s.nv with cleanEnd := true } }
  passStep2 { s with su := { s.su with lastCause := BitVec.ofNat 4 cause, pkgResets := s.su.pkgResets + 1 } }

/-- Whether a register, an SBI call or a tenancy end can reset the package: it is up, and neither stopped, held by the
Cowbell nor tripped (R365, R416, R419). -/
def resettable (s : State) : Bool :=
  match s.su.phase with
  | .dark | .shed | .step2 | .stopped | .domainHeld | .tripped => false
  | _ => true

def registerReset (key : BitVec 8) (hold : Bool) (s : State) : State :=
  guarded (key = 0xA5 && resettable s) (packageReset causeRegister hold) s

/-- PKG_RESET# falls. Without input power, or after a hard trip, nothing runs that it could reset (R365, R428). -/
def resetPin (s : State) : State :=
  let was := s.su.pkgResetLow
  let s := { s with su := { s.su with pkgResetLow := true } }
  match s.su.phase with
  | .dark | .shed | .tripped => s
  | _ => if was then s else packageReset causePin false s

/-- PKG_RESET# rises. -/
def releasePin (s : State) : State :=
  let s := { s with su := { s.su with pkgResetLow := false } }
  if s.su.phase = .step2 then bootFrom3 s else s

/-- ZERO_FILL_DONE: memory and the map read zero; VACANT, the duration in ms, 0x0903; the domain forms (R386). -/
def zeroFilled (s : State) : State :=
  match s.su.phase, s.sec.fillStart with
  | .zeroFill, some t =>
    let ms := since s t / msTicks 1
    let sec := { s.sec with granKey := [], lineKey := [], tenancy := 0, fillStart := none, lastScrub := BitVec.ofNat 32 ms }
    let s := resetMap { s with mem := [], dom := { s.dom with poison := [] }, sec := sec }
    formDomain (post 0x0903 noSite [ms] (storeRecord areaState 1 s))
  | _, _ => s

end Sys2Proof.Machine
end

