-- ==== Sys2Proof/Machine/StartRows.lean ====
section
/-! DEFINITION. The rows of discovery, start-up, resets, the two supervisors and power loss (R23 to R30, R354, R365, R413 to R421,
R428), and the firmware update (R415). -/

namespace Sys2Proof.Machine

/-! ## A step that overruns (R413, R416) -/

/-- Bound of the step in progress in ticks, with its number: discovery, then the soft starts. -/
def stepBound (p : SuPhase) : Option (Nat × Nat) :=
  match p with
  | .discovery => some (4, msTicks 50)
  | .config => some (4, msTicks 50)
  | .softStart => some (5, msTicks 250)
  | _ => none

/-- STARTUP_STEP_OVERRUN: more than 1 s beyond the bound. -/
def overrun (s : State) : State :=
  match stepBound s.su.phase with
  | some (step, bound) => if bound + msTicks 1000 < since s s.su.stepStart then stopStart step stopOverrun s else s
  | none => s

/-! ## The Cowbell and the Dairyman (R417, R418) -/

/-- Whether the Cowbell watches a Dairyman that runs. -/
def watched (s : State) : Bool := dairymanUp s && s.su.phase ≠ .dark && s.su.phase ≠ .shed

/-- DAIRYMAN_HEARTBEAT. -/
def beat (s : State) : State := guarded (watched s) (fun s => { s with su := { s.su with heartbeat := s.time } }) s

/-- Freezes every setpoint: each logic rail above 0.55 V slews down to it (R418 step 2). -/
def fallbackRails (s : State) : State :=
  each (List.range 10) (fun i s => if 550 < setMv s i then setPoint i 550 s else s) s

/-- Jobs placed while the Dairyman is down are UNMETERED (R369). -/
def markUnmetered (s : State) : State :=
  each ((s.jobs.filter fun (p : Nat × Job) => placed p.2).map (·.1)) (fun k s => updJob s k (fun j => { j with unmetered := true })) s

/-- Whether 0x1001:02 already reads FAULT. -/
def inFault (s : State) : Bool := s.su.supervisor = 4

/-- Steps 1 to 3 of R418: FALLBACK, then a restart unless two have been made since the last package reset. -/
def failDairyman (selfReport : Bool) (s : State) : State :=
  let n := s.su.restarts.toNat
  let s := { s with su := { s.su with down := true, failedAt := s.time } }
  let s := postCowbell 0x0A01 [boolNat selfReport, n] s
  let s := if inFault s then s else setSupervisor 2 s
  let s := markUnmetered (fallbackRails { s with power := { s.power with fallback := true } })
  let s := postCowbell 0x0108 [1] s
  if n < 2 then { s with su := { s.su with restarting := true, restarts := s.su.restarts + 1 } }
  else postCowbell 0x0A03 [n] s

/-- DAIRYMAN_FAILED: by its own report, or after three heartbeat periods of 10 ms without a heartbeat. -/
def dairyFails (selfReport : Bool) (s : State) : State :=
  guarded (watched s && (selfReport || msTicks 30 ≤ since s s.su.heartbeat)) (failDairyman selfReport) s

/-- What 0x1001:02 reads in a phase once FALLBACK clears. -/
def phaseState (p : SuPhase) : Nat :=
  match p with
  | .running => 1
  | .held => 3
  | .stopped | .domainHeld | .tripped => 4
  | _ => 0

/-- Step 4 of R418: sessions of both kinds and values that are not persistent go, buffered records are appended, FALLBACK clears; retirement
records that were owed are written (R330); a hold that PWRGOOD_IN ended meanwhile is over, and start-up resumes where it failed (R432). -/
def resumeDairyman (i : FwImage) (s : State) : State :=
  let took := since s s.su.failedAt
  let s := { s with
    su := { s.su with down := false, restarting := false, heartbeat := s.time, dairyDigest := i.digest },
    power := { s.power with fallback := false }, upd := {}, dict := { values := keptValues s },
    sec := { s.sec with spdm := [] } }
  let s := post 0x0108 noSite [0] (appendCowbell s)
  let s := setSupervisor (phaseState s.su.phase) (payOwed (post 0x0A02 noSite [took] s))
  if s.su.phase = .held && s.su.pwrgood && !s.su.heldByRecord then train s else s

/-- Step 5: the Cowbell stays in FALLBACK. -/
def stayDown (s : State) : State :=
  postCowbell 0x0A03 [s.su.restarts.toNat] { s with su := { s.su with restarting := false } }

/-- Whether step 4 of R418 has overrun its 400 ms from step 3, which acts in the instant of the failure (log 137). -/
def restartLate (s : State) : Bool := msTicks 400 < since s s.su.failedAt

/-- DAIRYMAN_RESTARTED: the restarted Dairyman comes up (`ok`) under R414, or has not yet; past 400 ms either is an overrun. -/
def dairyReturns (ok : Bool) (s : State) : State :=
  if !s.su.down || !s.su.restarting then s
  else if restartLate s then stayDown s
  else if !ok then s
  else match chooseImage s.nv.dairyA s.nv.dairyB (dairyAccepted s s.nv.dairyA) (dairyAccepted s s.nv.dairyB) with
    | some i => resumeDairyman i s
    | none => stayDown (postInvalid false s.nv.dairyA s.nv.dairyB s)

/-! ## Power loss and the hard trip (R365, R428, R438) -/

/-- POWER_LOST: the rails shed and everything volatile goes, the pending event batch with it; the heel feeds the store. -/
def powerLost (s : State) : State :=
  match s.su.phase with
  | .dark | .shed => s
  | _ =>
    let t := afterLoss true s
    { t with time := s.time, su := { t.su with phase := .shed, supervisor := s.su.supervisor, faultLow := s.su.faultLow,
                                               thermtrip := s.su.thermtrip, pinsDriven := s.su.pinsDriven } }

/-- HEEL_EXHAUSTED: the package is dark and drives no pin. -/
def heelOut (s : State) : State :=
  guarded (s.su.phase = .shed) (fun s => { s with su := { s.su with phase := .dark, pinsDriven := false, faultLow := false, thermtrip := false } }) s

/-- HARD_TRIP: once a sensor that is not ignored reads 115 degrees, all but the base rails go off until the next cold start; the
Dairyman, the map and the store stand on VIO. -/
def hardTrip (site : Nat) (sensors : List Nat) (s : State) : State :=
  match s.su.phase with
  | .dark | .shed | .tripped => s
  | _ =>
    let s := readSensors site sensors s
    if (hottest sensors).2 < 115 then s else
    let t := afterLoss true s
    let t := { t with time := s.time, map := s.map, disc := s.disc, dict := s.dict, ev := s.ev, host := s.host, tunnel := s.tunnel,
                      power := { t.power with totalNj := s.power.totalNj },
                      su := { s.su with phase := .tripped, thermtrip := true } }
    setSupervisor 4 (postCowbell 0x0203 [site, (hottest sensors).1] (railsOff { t with power := { t.power with rails := s.power.rails } }))

/-! ## Firmware update (R415): the objects' own actions, after the checks of R396 -/

def updIdle : Nat := 0
def updErasing : Nat := 1
def updReady : Nat := 2
def updWriting : Nat := 3
def updDone : Nat := 5
def updRejected : Nat := 6
def updFailed : Nat := 7

def setUpdStatus (n : Nat) (s : State) : State := { s with upd := { s.upd with status := BitVec.ofNat 8 n } }

/-- The slot of a target that would not boot at the next start: the one not chosen, B when neither is accepted. -/
def inactiveB (s : State) (target : Nat) : Bool :=
  let n := s.nv
  let pick := fun (a b : FwImage) (ok : FwImage → Bool) => !ok b || (ok a && b.version.toNat ≤ a.version.toNat)
  if target = 1 then pick n.dairyA n.dairyB (dairyAccepted s) else pick n.coreA n.coreB (coreAccepted s)

/-- Puts an image in the slot that the update writes. -/
def putImage (i : FwImage) (s : State) : State :=
  match s.upd.target.toNat, s.upd.slotB with
  | 1, false => { s with nv := { s.nv with dairyA := i } }
  | 1, true => { s with nv := { s.nv with dairyB := i } }
  | _, false => { s with nv := { s.nv with coreA := i } }
  | _, true => { s with nv := { s.nv with coreB := i } }

/-- A slot with no valid mark. -/
def noImage : FwImage := ⟨false, 0, false, []⟩

/-- BEGIN: the inactive slot is erased on both devices; it cannot begin again while it erases. -/
def beginUpdate (s : State) : State :=
  let t := objNat s 0x1040 1 0
  if t = 0 || s.upd.status = 1 then s
  else if !storeUp s then setUpdStatus updFailed s
  else setUpdStatus updErasing (putImage noImage { s with upd := { target := BitVec.ofNat 8 t, slotB := inactiveB s t } })

/-- UPDATE_ERASE_DONE. -/
def eraseDone (s : State) : State :=
  guarded (s.upd.status = 1 && dairymanUp s) (fun s => setUpdStatus (if storeUp s then updReady else updFailed) s) s

/-- A chunk is programmed at the next offset. -/
def addChunk (data : List Byte) (s : State) : State :=
  if !storeUp s then setUpdStatus updFailed s
  else setUpdStatus updWriting { s with upd := { s.upd with bytes := s.upd.bytes ++ data } }

/-- COMMIT: verified as at boot; only then the valid mark is programmed. -/
def commitUpdate (s : State) : State :=
  if s.upd.status ≠ 2 && s.upd.status ≠ 3 then s
  else
    let i : FwImage := ⟨Config.imageSigned s.upd.bytes, Config.imageVersion s.upd.bytes, true, sha384 s.upd.bytes⟩
    let ok := if s.upd.target = 1 then dairyAccepted s i else coreAccepted s i
    if !storeUp s then setUpdStatus updFailed s
    else if ok then setUpdStatus updDone (putImage i s) else setUpdStatus updRejected s

/-- CANCEL: the slot stays without a valid mark. -/
def cancelUpdate (s : State) : State :=
  if s.upd.status = 1 || s.upd.status = 2 || s.upd.status = 3 then { s with upd := {} } else s

/-- SRST (R290): harts run only while the package does. -/
def srst (hold : Bool) (s : State) : State := guarded (s.su.phase = .running) (packageReset causeRegister hold) s

/-! ## The rows -/

/-- IDENTITY_FRAME_REPEAT (R23). -/
def execIdentityFrameRepeat (port : Nat) (s : State) : Host.Outcome State Fault Refusal := command (repeatFrame port) s
/-- IDENTITY_FRAME (R23, R25 to R31, R446, R447). -/
def execIdentityFrame (port : Nat) (f : List Byte) (s : State) : Host.Outcome State Fault Refusal :=
  command (fun s => afterClassify (takeFrame port f s)) s
/-- DISCOVERY_TIMEOUT (R25, R26). -/
def execDiscoveryTimeout (s : State) : Host.Outcome State Fault Refusal := command (fun s => afterClassify (windowEnd s)) s
/-- CONFIG_FRAME (R30). -/
def execConfigFrame (port : Nat) (f : List Byte) (s : State) : Host.Outcome State Fault Refusal := command (applyConfig port f) s
/-- CONFIG_ACK (R25). -/
def execConfigAck (port : Nat) (f : List Byte) (s : State) : Host.Outcome State Fault Refusal := command (configAck port f) s
/-- CONFIG_ACK_TIMEOUT (R25, R447). -/
def execConfigAckTimeout (port : Nat) (s : State) : Host.Outcome State Fault Refusal := command (ackLate port) s
/-- SOFT_START_RAMP_END (R353 to R355, R447). -/
def execSoftStartRampEnd (r : RailId) (ok : Bool) (s : State) : Host.Outcome State Fault Refusal := command (rampEnd r ok) s
/-- SOFT_START_RETRY (R354). -/
def execSoftStartRetry (site : Nat) (s : State) : Host.Outcome State Fault Refusal := command (retryRails site) s
/-- COLD_START (R413, R414, R424, R428, R431). -/
def execColdStart (b : Board) (s : State) : Host.Outcome State Fault Refusal := command (coldStart b) s
/-- PKG_RESET_PIN (R413, R420, R421). -/
def execPkgResetPin (s : State) : Host.Outcome State Fault Refusal := command resetPin s
/-- PKG_RESET_RELEASE (R413, R421). -/
def execPkgResetRelease (s : State) : Host.Outcome State Fault Refusal := command releasePin s
/-- PWRGOOD_IN (R413). -/
def execPwrgoodIn (s : State) : Host.Outcome State Fault Refusal := command powerGood s
/-- STARTUP_STEP_OVERRUN (R413, R416). -/
def execStartupStepOverrun (s : State) : Host.Outcome State Fault Refusal := command overrun s
/-- PKG_RESET (R420, R421). -/
def execPkgReset (key : BitVec 8) (s : State) : Host.Outcome State Fault Refusal := command (registerReset key false) s
/-- HOLD_NEXT (R421): PKG_RESET and HOLD_NEXT written together. -/
def execHoldNext (key : BitVec 8) (s : State) : Host.Outcome State Fault Refusal := command (registerReset key true) s
/-- SRST_SHUTDOWN (R290, R421). -/
def execSrstShutdown (s : State) : Host.Outcome State Fault Refusal := command (srst true) s
/-- SRST_COLD_REBOOT (R290, R421). -/
def execSrstColdReboot (s : State) : Host.Outcome State Fault Refusal := command (srst false) s
/-- DAIRYMAN_HEARTBEAT (R417). -/
def execDairymanHeartbeat (s : State) : Host.Outcome State Fault Refusal := command beat s
/-- DAIRYMAN_FAILED (R369, R417, R418). -/
def execDairymanFailed (selfReport : Bool) (s : State) : Host.Outcome State Fault Refusal := command (dairyFails selfReport) s
/-- DAIRYMAN_RESTARTED (R330, R407, R417, R418). -/
def execDairymanRestarted (ok : Bool) (s : State) : Host.Outcome State Fault Refusal := command (dairyReturns ok) s
/-- POWER_LOST (R428, R429). -/
def execPowerLost (s : State) : Host.Outcome State Fault Refusal := command powerLost s
/-- HEEL_EXHAUSTED (R428, R438). -/
def execHeelExhausted (s : State) : Host.Outcome State Fault Refusal := command heelOut s
/-- HARD_TRIP (R365, R438). -/
def execHardTrip (site : Nat) (sensors : List Nat) (s : State) : Host.Outcome State Fault Refusal := command (hardTrip site sensors) s
/-- ZERO_FILL_DONE (R386). -/
def execZeroFillDone (s : State) : Host.Outcome State Fault Refusal := command zeroFilled s
/-- UPDATE_ERASE_DONE (R415). -/
def execUpdateEraseDone (s : State) : Host.Outcome State Fault Refusal := command eraseDone s

end Sys2Proof.Machine
end

