-- ==== Sys2Proof/Machine/Tenancy.lean ====
section
/-! DEFINITION. Attestation (R376 to R378), key delivery and the end of a tenancy (R379 to R382, R386), the test port (R391). -/

namespace Sys2Proof.Machine

/-! ## SPDM (R377) -/

def responder (r : SpdmPort) : Nat := match r with | .doe => 0 | .field => 1

/-- Whether a responder answers: the Dairyman runs, and Port A is an endpoint for the DOE. -/
def responderUp (s : State) (r : SpdmPort) : Bool :=
  dairymanUp s && (match r with | .doe => !s.host.portA.root | .field => true)

def spdmKey (r : SpdmPort) (n : Nat) : Nat := 4 * responder r + n

/-- A session of a responder; numbers 0-3 (log 75). -/
def spdmOf (s : State) (r : SpdmPort) (n : Nat) : Option SpdmSession :=
  if n < 4 && responderUp s r then SMap.find s.sec.spdm (spdmKey r n) else none

def spdmError (s : State) : State := answer (.spdm false []) s

/-- The certificate chain of a responder as this boot issued it (R376). -/
def chainOf (r : SpdmPort) (s : State) : List Byte := Config.certChain (responder r) s.su.dairyDigest s.su.coreDigest s.sec.boots

/-- The signature of the responders' key, which follows the firmware measured (R376). -/
def signature (s : State) (m : List Byte) : List Byte := Config.sign s.su.dairyDigest s.su.coreDigest m

/-- The certificate chain's digest. -/
def digests (r : SpdmPort) (s : State) : State :=
  if responderUp s r then answer (.spdm true (sha384 (chainOf r s))) s else spdmError s

/-- A portion of slot 0's chain: its length, what remains after it, its bytes. -/
def certificate (r : SpdmPort) (slot off len : Nat) (s : State) : State :=
  let chain := chainOf r s
  if !responderUp s r || slot ≠ 0 || chain.length < off then spdmError s
  else
    let part := (chain.drop off).take len
    answer (.spdm true (leBytes 2 part.length ++ leBytes 2 (chain.length - off - part.length) ++ part)) s

/-- Signs what an answer says, with a fresh nonce of the responder's. -/
def signed' (request body : List Byte) (s : State) : State :=
  let body := body ++ fit 32 (Config.nonce s.free)
  drew (answer (.spdm true (body ++ signature s (request ++ body))) s)

def challenge (r : SpdmPort) (slot : Nat) (nonce : List Byte) (s : State) : State :=
  if !responderUp s r || slot ≠ 0 then spdmError s
  else signed' nonce (sha384 (chainOf r s)) s

/-- What a measurement block holds (R378); the layouts inside blocks 4 to 7: log 75. -/
def measurement (s : State) (i : Nat) : List Byte :=
  match i with
  | 1 => fit 48 (Config.manufacture 8)
  | 2 => s.su.dairyDigest
  | 3 => s.su.coreDigest
  | 4 => [BitVec.ofNat 8 (variantCode s.variant), s.weltGen]
  | 5 => leBytes 8 (mapHeader s) ++ (List.range 96).flatMap fun k => leBytes 8 (siteWord s k)
  | 6 => (s.disc.frames.filter fun (p : Nat × IdFrame) => siteUp s p.1).flatMap fun (p : Nat × IdFrame) => [p.2.dieType, p.2.generation] ++ leBytes 8 p.2.serial.toNat
  | _ => [s.sec.mode, s.sec.tenancy, BitVec.ofNat 8 (boolNat s.sec.debug), BitVec.ofNat 8 (pinNow s)]

def measurementBlock (s : State) (i : Nat) : List Byte :=
  let c := measurement s i
  BitVec.ofNat 8 i :: leBytes 2 c.length ++ c

/-- GET_MEASUREMENTS: index 0 asks for the number of blocks, 0xFF for all of them. -/
def measurements (r : SpdmPort) (idx : Nat) (nonce : List Byte) (s : State) : State :=
  if !responderUp s r then spdmError s
  else if idx = 0 then signed' nonce [7] s
  else if idx = 0xFF then signed' nonce (((List.range 7).map (· + 1)).flatMap (measurementBlock s)) s
  else if idx ≤ 7 then signed' nonce (measurementBlock s idx) s
  else spdmError s

/-- KEY_EXCHANGE: opens one of the responder's four sessions. -/
def keyExchange (r : SpdmPort) (slot : Nat) (exch : List Byte) (s : State) : State :=
  match (List.range 4).find? fun n => (SMap.find s.sec.spdm (spdmKey r n)).isNone with
  | none => spdmError s
  | some n =>
    if !responderUp s r || slot ≠ 0 then spdmError s
    else
      let x : SpdmSession := { finished := false, tenant := none, updates := 0 }
      signed' exch (BitVec.ofNat 8 n :: Config.dheResponse (responder r) exch)
        { s with sec := { s.sec with spdm := SMap.put s.sec.spdm (spdmKey r n) x } }

def putSpdm (r : SpdmPort) (n : Nat) (x : SpdmSession) (s : State) : State :=
  answer (.spdm true []) { s with sec := { s.sec with spdm := SMap.put s.sec.spdm (spdmKey r n) x } }

/-- FINISH: with mutual authentication the session is known by the digest of the requester's leaf certificate (R382). -/
def finishSession (r : SpdmPort) (n : Nat) (cert : Option (List Byte)) (s : State) : State :=
  match spdmOf s r n with
  | some x => if x.finished then spdmError s else putSpdm r n { x with finished := true, tenant := cert.map sha384 } s
  | none => spdmError s

/-- Does something in a secured session. -/
def inSession (r : SpdmPort) (n : Nat) (f : SpdmSession → State → State) (s : State) : State :=
  match spdmOf s r n with
  | some x => if x.finished then f x s else spdmError s
  | none => spdmError s

def keepAlive (r : SpdmPort) (n : Nat) (s : State) : State := inSession r n (fun _ s => answer (.spdm true []) s) s
def updateKeys (r : SpdmPort) (n : Nat) (s : State) : State :=
  inSession r n (fun x s => putSpdm r n { x with updates := x.updates + 1 } s) s

/-- END_SESSION: the keys delivered in it stay (R392). -/
def endSpdm (r : SpdmPort) (n : Nat) (s : State) : State :=
  inSession r n (fun _ s => answer (.spdm true []) { s with sec := { s.sec with spdm := SMap.del s.sec.spdm (spdmKey r n) } }) s

/-! ## Key delivery (R381, R382) -/

def kOk : Nat := 0
def kNotTenant : Nat := 1
def kBusy : Nat := 2
def kMalformed : Nat := 3
def kMode : Nat := 4
def kLocked : Nat := 5

/-- The key operations by OP. -/
inductive KeyOp where
  | memSet | memDestroy | laceSet | laceDestroy | endTenancy | membSet
  deriving DecidableEq, Repr

def keyOpCode (o : KeyOp) : Nat :=
  match o with | .memSet => 1 | .memDestroy => 2 | .laceSet => 3 | .laceDestroy => 4 | .endTenancy => 5 | .membSet => 6

def isSet (o : KeyOp) : Bool := o = .memSet || o = .laceSet || o = .membSet

/-- Whether the fields have the form R381 gives the operation. -/
def keyForm (o : KeyOp) (k : KeyReq) : Bool :=
  let slotOk := match o with
    | .memSet | .memDestroy | .laceSet | .laceDestroy => 1 ≤ k.slot.toNat && k.slot.toNat ≤ 4095
    | _ => k.slot = 0
  let ctxOk := if o = .laceSet then k.ctx.toNat ≤ 4095 else k.ctx = 0
  let keyOk := match o with
    | .memSet => true
    | .laceSet | .membSet => k.key.drop 32 = zeros 32
    | _ => k.key = zeros 64
  !k.reserved && slotOk && ctxOk && k.key.length = 64 && keyOk

/-- The Sole tenant identity and the Owner's credential digest (R382, R393). -/
def soleTenant (s : State) : List Byte := SMap.get [] s.dict.values (objKey 0x6000 2)
def ownerDigest (s : State) : List Byte := SMap.get [] s.dict.values (objKey 0x6000 11)

/-- Whether a requester may operate on a slot in Shared mode: it is empty or its own. -/
def sharedTenant (s : State) (o : KeyOp) (slot : Nat) (t : List Byte) : Bool :=
  match o with
  | .memSet | .memDestroy => (SMap.find s.sec.memKeys slot).all fun k => k.tenant == t
  | _ => (SMap.find s.sec.laceKeys slot).all fun k => k.tenant == t

/-- Whether the requester is the tenant the operation asks for. -/
def rightTenant (s : State) (o : KeyOp) (slot : Nat) (t : List Byte) : Bool :=
  if o = .membSet then !(ownerDigest s).isEmpty && t == ownerDigest s
  else if s.sec.mode = 0 then t == soleTenant s || (o = .memSet && (soleTenant s).isEmpty)
  else sharedTenant s o slot t

/-- The status of a key operation (R381, R382; the order of the checks: log 81). -/
def keyCheck (o : KeyOp) (k : KeyReq) (x : SpdmSession) (s : State) : Nat :=
  if !keyForm o k then kMalformed
  else match x.tenant with
    | none => kNotTenant
    | some t =>
      if isSet o && s.sec.debug then kLocked
      else if o = .endTenancy && s.sec.mode ≠ 0 then kMode
      else if !rightTenant s o k.slot.toNat t then kNotTenant
      else if o = .memSet && (ctxOf s k.slot.toNat).state ≠ .free then kBusy
      else kOk

/-- The first accepted MEM_KEY_SET of a Sole tenancy binds its identity (R382). -/
def bindSole (r : SpdmPort) (t : List Byte) (s : State) : State :=
  if s.sec.mode = 0 && (soleTenant s).isEmpty then
    let s := storeRecord areaParams 52 { s with dict := { s.dict with values := SMap.put s.dict.values (objKey 0x6000 2) t } }
    let s := storeRecord areaState 1 { s with sec := { s.sec with tenancy := 1 } }
    post 0x0901 noSite [responder r] s
  else s

/-- A Sole tenancy ends, for the tenant (cause 0) or the Owner (cause 1): SCRUBBING, then a package reset where one can run (R386,
R416). -/
def leaveTenancy (cause : Nat) (s : State) : State :=
  let s := beginScrub cause s
  if resettable s then packageReset causeTenancy false s else s

/-- What an accepted operation does. -/
def keyEffect (o : KeyOp) (k : KeyReq) (t : List Byte) (s : State) : State :=
  let c := k.slot.toNat
  match o with
  | .memSet =>
    let s := bindSole k.port t s
    { s with sec := { s.sec with memKeys := SMap.put s.sec.memKeys c { key := k.key, tenant := t },
                                 noKeyPosted := s.sec.noKeyPosted.filter (· != c) } }
  | .memDestroy => { s with sec := { s.sec with memKeys := SMap.del s.sec.memKeys c } }
  | .laceSet =>
    let x : LaceKey := { key := k.key.take 32, tenant := t, ctx := BitVec.ofNat 12 k.ctx.toNat }
    { s with sec := { s.sec with laceKeys := SMap.put s.sec.laceKeys c x } }
  | .laceDestroy => { s with sec := { s.sec with laceKeys := SMap.del s.sec.laceKeys c } }
  | .membSet =>
    storeRecord areaState 32 { s with
      sec := { s.sec with membKey := some (k.key.take 32) },
      lacing := { s.lacing with memb := { s.lacing.memb with membNonce := 0 } } }
  | .endTenancy => leaveTenancy 0 s

/-- A key operation inside a secured session; a refusal posts 0x0905. -/
def keyAct (o : KeyOp) (k : KeyReq) (s : State) : State :=
  inSession k.port k.sess (fun x s =>
    let st := keyCheck o k x s
    if st = kOk then answer (.keyStatus st) (keyEffect o k (x.tenant.getD []) s)
    else answer (.keyStatus st) (post 0x0905 noSite [keyOpCode o, k.slot.toNat, st] s)) s

/-! ## The test port (R391) -/

/-- Whether an access is available. -/
def testAllowed (s : State) (t : TestInstr) : Bool :=
  match t with
  | .bypass | .idcode => true
  | .samplePreload | .extest | .clamp | .highz => s.sec.debug || s.su.pkgResetLow
  | .riscvDebug | .privateInstr => s.sec.debug

def testAct (t : TestInstr) (s : State) : State := answer (.test (s.su.phase ≠ .dark && testAllowed s t)) s

/-! ## The rows -/

/-- GET_DIGESTS (R376, R377). -/
def execGetDigests (r : SpdmPort) (s : State) : Host.Outcome State Fault Refusal := command (digests r) s
/-- GET_CERTIFICATE (R376, R377). -/
def execGetCertificate (r : SpdmPort) (slot : BitVec 4) (off : BitVec 16) (len : BitVec 16) (s : State) :
    Host.Outcome State Fault Refusal := command (certificate r slot.toNat off.toNat len.toNat) s
/-- CHALLENGE (R377). -/
def execChallenge (r : SpdmPort) (slot : BitVec 4) (nonce : List Byte) (s : State) : Host.Outcome State Fault Refusal :=
  command (challenge r slot.toNat nonce) s
/-- GET_MEASUREMENTS (R377, R378). -/
def execGetMeasurements (r : SpdmPort) (idx : BitVec 8) (nonce : List Byte) (s : State) : Host.Outcome State Fault Refusal :=
  command (measurements r idx.toNat nonce) s
/-- KEY_EXCHANGE (R377). -/
def execKeyExchange (r : SpdmPort) (slot : BitVec 4) (exch : List Byte) (s : State) : Host.Outcome State Fault Refusal :=
  command (keyExchange r slot.toNat exch) s
/-- FINISH (R377, R382). -/
def execFinish (r : SpdmPort) (sess : Nat) (mutAuth : Option (List Byte)) (s : State) : Host.Outcome State Fault Refusal :=
  command (finishSession r sess mutAuth) s
/-- HEARTBEAT (R377). -/
def execHeartbeat (r : SpdmPort) (sess : Nat) (s : State) : Host.Outcome State Fault Refusal := command (keepAlive r sess) s
/-- KEY_UPDATE (R377). -/
def execKeyUpdate (r : SpdmPort) (sess : Nat) (s : State) : Host.Outcome State Fault Refusal := command (updateKeys r sess) s
/-- END_SESSION (R377, R392). -/
def execEndSession (r : SpdmPort) (sess : Nat) (s : State) : Host.Outcome State Fault Refusal := command (endSpdm r sess) s
/-- MEM_KEY_SET (R380 to R382, R384). -/
def execMemKeySet (k : KeyReq) (s : State) : Host.Outcome State Fault Refusal := command (keyAct .memSet k) s
/-- MEM_KEY_DESTROY (R381, R382). -/
def execMemKeyDestroy (k : KeyReq) (s : State) : Host.Outcome State Fault Refusal := command (keyAct .memDestroy k) s
/-- LACE_KEY_SET (R381, R382, R385). -/
def execLaceKeySet (k : KeyReq) (s : State) : Host.Outcome State Fault Refusal := command (keyAct .laceSet k) s
/-- LACE_KEY_DESTROY (R381, R382). -/
def execLaceKeyDestroy (k : KeyReq) (s : State) : Host.Outcome State Fault Refusal := command (keyAct .laceDestroy k) s
/-- END_TENANCY (R374, R386). -/
def execEndTenancy (k : KeyReq) (s : State) : Host.Outcome State Fault Refusal := command (keyAct .endTenancy k) s
/-- MEMB_KEY_SET (R380, R382). -/
def execMembKeySet (k : KeyReq) (s : State) : Host.Outcome State Fault Refusal := command (keyAct .membSet k) s
/-- TEST_PORT_INSTRUCTION (R391). -/
def execTestPortInstruction (t : TestInstr) (s : State) : Host.Outcome State Fault Refusal := command (testAct t) s

end Sys2Proof.Machine
end

