-- ==== Sys2Proof/Machine/Dictionary.lean ====
section
/-! DEFINITION. The Dictionary Access Protocol (R403 to R409): sessions, frames, subscriptions, mailboxes; what a write to each
object does (R32, R333, R335, R386, R391, R396, R408, R415, R430); the Cowbell's responder. -/

namespace Sys2Proof.Machine

/-! ## Paths and sessions -/

/-- Path numbers of a session: 0 field port, 1 BAR0 mailbox, 2 mirror mailbox. -/
def pathNum (p : DictPath) : Nat := match p with | .field _ => 0 | .bar0 => 1 | .mirror => 2
def pathSrc (p : DictPath) : Nat := match p with | .field a => a | _ => 0

/-- The key of a source in the drop and lockout tables (R406). -/
def srcKey (p : DictPath) : Nat := 3 * pathSrc p + pathNum p

/-- An open session of a path and source. -/
def sessionOf (s : State) (p : DictPath) (n : Nat) : Option Session :=
  match SMap.find s.dict.sessions n with
  | some x => if x.path = pathNum p && x.src = pathSrc p then some x else none
  | none => none

def updSession (n : Nat) (f : Session → Session) (s : State) : State :=
  match SMap.find s.dict.sessions n with
  | some x => { s with dict := { s.dict with sessions := SMap.put s.dict.sessions n (f x) } }
  | none => s

def closeSession (n : Nat) (s : State) : State := { s with dict := { s.dict with sessions := SMap.del s.dict.sessions n } }

/-- Whether the Cowbell answers in the Dairyman's place (R403, R416, R419). -/
def cowbellServes (s : State) : Bool := !dairymanUp s || s.su.phase = .stopped || s.su.phase = .domainHeld

/-- Whether anything answers at all: the base rails stand. -/
def anyoneServes (s : State) : Bool := s.su.phase ≠ .dark && s.su.phase ≠ .shed

/-! ## What a write does -/

/-- Who writes: path, session number and level. -/
structure Writer where
  path : Nat
  sess : Nat
  level : Nat
  deriving DecidableEq, Repr

/-- 0x0A31 for a committed write (R32, R408). -/
def postWrite (w : Writer) (index sub : Nat) (s : State) : State := post 0x0A31 noSite [256 * index + sub, w.level, w.path] s

/-- Setpoints follow a change of the governor mode, of the fixed or of the idle setpoint (R367, R396). -/
def reapplySetpoints (s : State) : State :=
  each (List.range 8) (fun d s =>
    if (dieOf s d).job.isNone then setPoint d (min (idleMv s) (ceilingMv s d)) s
    else if govMode s = 0 then setLevel d (railOf s d).level.toNat s
    else coverSlews (setPoint d (min (fixedMv s) (ceilingMv s d)) s)) s

/-- What follows at once from a kept value. -/
def afterStore (index sub : Nat) (s : State) : State :=
  if index = 0x2000 && (sub = 2 || sub = 3 || sub = 5) then reapplySetpoints s
  else if index = 0x5000 && sub = 4 then stopHeldJobs s
  else if index = 0x7000 && sub = 2 then { s with cal := { s.cal with slewing := 0 } }
  else s

/-- Clears a die's failed-die record, effective at the next reset (R32). -/
def clearFailed (d : Nat) (s : State) : State :=
  storeRecord areaState 1 { s with nv := { s.nv with failedDies := s.nv.failedDies &&& ~~~(BitVec.ofNat 8 (2 ^ d)) } }

/-- Clears one vat retirement record, effective at the next reset (R32). -/
def clearVat (d k : Nat) (s : State) : State :=
  storeRecord areaState 8 { s with nv := { s.nv with retiredVats := SMap.upd 0 s.nv.retiredVats d (· &&& ~~~(BitVec.ofNat 17 (2 ^ k))) } }

/-- A list-clear record: the unit's retirement list is empty (R335, R425). -/
def clearList (u : Nat) (s : State) : State :=
  storeRecord areaLists 0 { s with nv := { s.nv with lists := SMap.del s.nv.lists u } }

/-! ### The repair tunnel (R333) -/

def tunRefused : Nat := 3

def setTunnel (n : Nat) (s : State) : State := { s with tunnel := { s.tunnel with status := BitVec.ofNat 8 n } }

/-- The tunnel takes commands only while start-up is held. -/
def tunnelOpen (s : State) : Bool := s.su.phase = .held

/-- Ends a repair: done with 0x0308, or failed, or no spare row left; which is the stack's own (log 83). -/
def endRepair (k row : Nat) (hard : Bool) (s : State) : State :=
  let outcome := if Config.freeBit s.free then 2 else if Config.freeBit (s.free + 1) then 4 else 5
  let s := setTunnel outcome (drew (drew s))
  if outcome ≠ 2 then s
  else
    let e := (k, BitVec.ofNat 32 row)
    let t := if hard then { s.tunnel with hard := s.tunnel.hard ++ [e] } else { s.tunnel with soft := s.tunnel.soft ++ [e] }
    post 0x0308 (siteUnit k) [k, row, boolNat hard] { s with tunnel := t }

/-- The bytes of a stack's fuse map, at most 256: the stack's own (log 83). -/
def fuseBytes (s : State) : List Byte := (List.range 256).map fun i => Config.freeByte (256 * s.free + i)

/-- Tunnel command: 1 fuse read, 2 soft repair, 3 hard repair of the selected stack and row. -/
def tunnelAct (c : Nat) (s : State) : State :=
  let k := objNat s 0xF030 1 0
  let row := objNat s 0xF030 3 0
  if !tunnelOpen s then setTunnel tunRefused s
  else match c with
    | 1 => setTunnel 2 (drew { s with tunnel := { s.tunnel with fuses := fuseBytes s } })
    | 2 => endRepair k row false s
    | _ => endRepair k row true s

/-! ### The effect of an accepted write -/

/-- Objects whose write is an action of its own. -/
def actionObject (w : Writer) (index sub : Nat) (v : List Byte) : Option (State → State) :=
  let n := leNat v
  match index, sub with
  | 0x1040, 2 => some (addChunk v)
  | 0x1040, 3 => some (match n with | 1 => beginUpdate | 2 => commitUpdate | _ => cancelUpdate)
  | 0x3303, _ => some (clearList n)
  | 0x4002, 1 => some fun s => postWrite w index sub (clearFailed n s)
  | 0x4002, _ => some fun s => postWrite w index sub (clearVat (n % 8) (n / 256) s)
  | 0x6000, 3 => some (leaveTenancy 1)
  | 0x6000, 5 => some fun s => storeRecord areaState 1 { s with sec := { s.sec with debugReq := some (n = 1) } }
  | 0x7000, 1 => some (setClock (BitVec.ofNat 64 n))
  | 0x8000, 3 => some (updSession w.sess fun x => { x with readPos := BitVec.ofNat 64 n })
  | 0xF030, 2 => some (tunnelAct n)
  | _, _ => none

/-- Keeps a value, in the NV store when it persists; a committed RWP write posts 0x0A31. -/
def keepValue (w : Writer) (r : ObjRow) (index sub : Nat) (v : List Byte) (s : State) : State :=
  let s := storeObject r index sub v s
  let s := if objPersists r then storeRecord areaParams (4 + v.length) s else s
  let s := if r.acc = .rwp then postWrite w index sub s else s
  afterStore index sub s

/-- Whether a write waits for the NV store (R396, R432). -/
def needsStore (r : ObjRow) : Bool :=
  objPersists r || r.index = 0x4002 || r.index = 0x3303 || (r.index = 0x6000 && (r.lo = 3 || r.lo = 5))

/-- A write to an object: its status and its effect (R396). -/
def writeObject (w : Writer) (index sub ty : Nat) (v : List Byte) (s : State) : Nat × State :=
  let st := checkWrite s w.level index sub ty v
  match objRow index sub with
  | none => (st, s)
  | some r =>
    if st ≠ dOk then (st, s)
    else if needsStore r && !storeUp s then (dBusy, s)
    else match actionObject w index sub v with
      | some f => (dOk, f s)
      | none => (dOk, keepValue w r index sub v s)

/-! ## Drops and lockouts (R406) -/

def minute : Nat := msTicks 60000

/-- A frame is dropped and counted; the 16th drop of a source within 60 s locks it out of SESSION_OPEN for 60 s. -/
def dropFrame (p : DictPath) (s : State) : State :=
  let k := srcKey p
  let recent := ((SMap.get [] s.dict.drops k).filter fun t => since s t < minute) ++ [s.time]
  let full := 16 ≤ recent.length
  let d := { s.dict with dropCount := s.dict.dropCount + 1, drops := SMap.set [] s.dict.drops k (if full then [] else recent) }
  let d := if full then { d with lockout := SMap.put d.lockout k (s.time + BitVec.ofNat 64 minute) } else d
  let s := answer .dropped { s with dict := d }
  if full then post 0x0A30 noSite [pathNum p, pathSrc p] s else s

def lockedOut (s : State) (p : DictPath) : Bool := (SMap.find s.dict.lockout (srcKey p)).any fun t => s.time.toNat < t.toNat

/-! ## Frames (R405) -/

def opRead : Nat := 1
def opWrite : Nat := 2
def opReadMulti : Nat := 3
def opSubscribe : Nat := 4
def opSessionOpen : Nat := 5
def opSessionClose : Nat := 6

/-- A frame without its MAC. -/
def frameBody (op flags status sess seq : Nat) (payload : List Byte) : List Byte :=
  [1, BitVec.ofNat 8 op, BitVec.ofNat 8 flags, BitVec.ofNat 8 status] ++ leBytes 4 sess ++ leBytes 4 seq
    ++ leBytes 2 payload.length ++ [0, 0] ++ payload

/-- The MAC of a frame under a key. -/
def frameMac (key body : List Byte) : List Byte := (hmac key body).take 16

/-- Closes a frame: under a key, or with an all-zero MAC. -/
def sealFrame (key : Option (List Byte)) (body : List Byte) : List Byte :=
  body ++ (match key with | some k => frameMac k body | none => zeros 16)

/-- The parts of a request: what precedes the MAC, the MAC, and the payload. -/
def reqBody (f : List Byte) : List Byte := f.take (f.length - 16)
def reqMac (f : List Byte) : List Byte := f.drop (f.length - 16)
def reqPayload (f : List Byte) : List Byte := (reqBody f).drop 16
def reqOp (f : List Byte) : Nat := fieldAt f 1 1
def reqSess (f : List Byte) : Nat := fieldAt f 4 4
def reqSeq (f : List Byte) : Nat := fieldAt f 8 4

/-- Whether a request has the fixed fields of R405. -/
def reqForm (f : List Byte) : Bool :=
  32 ≤ f.length && fieldAt f 0 1 = 1 && fieldAt f 2 2 = 0 && fieldAt f 12 2 + 32 = f.length && fieldAt f 12 2 ≤ 1400 && fieldAt f 14 2 = 0

/-! ### Payloads -/

/-- An object's entry in a READ_MULTI response or a push: status, type, length, padded value. -/
def multiEntry (status ty : Nat) (v : List Byte) : List Byte :=
  [BitVec.ofNat 8 status, BitVec.ofNat 8 ty] ++ leBytes 2 v.length ++ fit ((v.length + 3) / 4 * 4) v

/-- The entries for a list of reads; one that leaves no room for the entries after it carries TOO_LARGE (log 82). -/
def multiEntries (room : Nat) : List (Nat × Nat × List Byte) → List Byte
  | [] => []
  | x :: rest =>
    let e := multiEntry x.1 x.2.1 x.2.2
    if e.length + 4 * rest.length ≤ room then e ++ multiEntries (room - e.length) rest
    else multiEntry dTooLarge x.2.1 [] ++ multiEntries (room - 4) rest

/-- The objects that the entries of a payload name: index, sub. -/
def namedObjects (n : Nat) (l : List Byte) : List (Nat × Nat) :=
  (List.range n).map fun i => (fieldAt l (4 * i) 2, fieldAt l (4 * i + 2) 1)

/-- Response payload of a READ, or its status. -/
def readAnswer (rd : Nat → Nat → Nat × Nat × List Byte) (p : List Byte) : Nat × List Byte :=
  if p.length ≠ 8 || fieldAt p 3 1 ≠ 0 || fieldAt p 6 2 ≠ 0 then (dMalformed, [])
  else
    let (st, ty, v) := rd (fieldAt p 0 2) (fieldAt p 2 1)
    let off := fieldAt p 4 2
    if st ≠ dOk then (st, [])
    else if v.length < off then (dRange, [])
    else
      let chunk := (v.drop off).take 1392
      (dOk, [BitVec.ofNat 8 ty, 0] ++ leBytes 2 v.length ++ leBytes 2 off ++ leBytes 2 chunk.length ++ chunk)

/-- Response payload of a READ_MULTI, or its status. -/
def multiAnswer (rd : Nat → Nat → Nat × Nat × List Byte) (p : List Byte) : Nat × List Byte :=
  let n := fieldAt p 0 1
  if n < 1 || 64 < n || fieldAt p 1 3 ≠ 0 || p.length ≠ 4 + 4 * n then (dMalformed, [])
  else (dOk, [BitVec.ofNat 8 n, 0, 0, 0] ++ multiEntries 1396 ((namedObjects n (p.drop 4)).map fun o => rd o.1 o.2))

/-! ## Answers -/

def setMbox (p : DictPath) (f : Mailbox → Mailbox) (s : State) : State :=
  match p with
  | .field _ => s
  | .bar0 => { s with dict := { s.dict with mbox0 := f s.dict.mbox0 } }
  | .mirror => { s with dict := { s.dict with mbox1 := f s.dict.mbox1 } }

/-- A response leaves by its path: a mailbox holds it with STATE DONE (R409). -/
def respond (p : DictPath) (frame : List Byte) (s : State) : State :=
  answer (.frame frame) (setMbox p (fun m =>
    { m with state := 2, respLen := BitVec.ofNat 16 frame.length, response := ByteMap.write [] 0 frame }) s)

/-- A dropped frame: STATE DROPPED (R406, R409). -/
def drop (p : DictPath) (s : State) : State := dropFrame p (setMbox p (fun m => { m with state := 3, respLen := 0 }) s)

/-! ## The Cowbell's responder (R403) -/

/-- The twelve objects it reads. -/
def cowbellObjects : List (Nat × Nat) :=
  [(0x1000, 1), (0x1000, 2), (0x1000, 3), (0x1000, 4), (0x1001, 1), (0x1001, 2), (0x2002, 1), (0x2002, 2), (0x2003, 1), (0x7000, 1),
   (0x8000, 1), (0x8000, 2)]

def cowbellRead (s : State) (index sub : Nat) : Nat × Nat × List Byte :=
  if cowbellObjects.contains (index, sub) then readObject s 0 0 index sub else (dUnavailable, 0, [])

/-- It answers with SESSION 0, FLAGS bit 2 and an all-zero MAC; READ and READ_MULTI on the field port alone. -/
def cowbellAnswer (p : DictPath) (f : List Byte) (s : State) : State :=
  let field := pathNum p = 0
  let (st, body) :=
    if !field then (dUnavailable, [])
    else if reqOp f = opRead then readAnswer (cowbellRead s) (reqPayload f)
    else if reqOp f = opReadMulti then multiAnswer (cowbellRead s) (reqPayload f)
    else (dUnavailable, [])
  respond p (sealFrame none (frameBody (reqOp f) 5 st 0 (reqSeq f) body)) s

/-! ## Requests in a session -/

/-- What a session reads of an object. -/
def sessionRead (s : State) (x : Session) (index sub : Nat) : Nat × Nat × List Byte :=
  readObject s x.level.toNat x.readPos.toNat index sub

/-- WRITE: the status and the effect. -/
def writeRequest (w : Writer) (p : List Byte) (s : State) : Nat × State :=
  if p.length < 8 || fieldAt p 4 2 + 8 ≠ p.length || fieldAt p 6 2 ≠ 0 then (dMalformed, s)
  else writeObject w (fieldAt p 0 2) (fieldAt p 2 1) (fieldAt p 3 1) (p.drop 8) s

/-- SUBSCRIBE (R407): SUB_ID, or a status; period 0 cancels (its refusals: log 82). -/
def subscribeRequest (path n : Nat) (x : Session) (p : List Byte) (s : State) : Nat × List Byte × State :=
  let period := fieldAt p 0 4
  let id := fieldAt p 4 1
  let count := fieldAt p 5 1
  let known := x.subs.any fun y => y.id.toNat = id
  let others := if id = 0 then x.subs else x.subs.filter fun y => y.id.toNat ≠ id
  if path ≠ 0 then (dAccess, [], s)
  else if p.length < 8 || fieldAt p 6 2 ≠ 0 || p.length ≠ 8 + 4 * count then (dMalformed, [], s)
  else if id ≠ 0 && !known then (dRange, [], s)
  else if period = 0 then
    if id = 0 then (dRange, [], s) else (dOk, [BitVec.ofNat 8 id], updSession n (fun x => { x with subs := others }) s)
  else if period < 10 || 3600000 < period || count < 1 || 32 < count then (dRange, [], s)
  else if id = 0 && 4 ≤ x.subs.length then (dBusy, [], s)
  else
    let fresh := ((List.range 255).map (· + 1)).find? fun i => !(x.subs.any fun y => y.id.toNat = i)
    let id := if id = 0 then fresh.getD 1 else id
    let ticks := msTicks period
    let y : Subscription := { id := BitVec.ofNat 8 id, period := ticks, nextAt := s.time + BitVec.ofNat 64 ticks,
                              items := (namedObjects count (p.drop 8)).map fun o => objKey o.1 o.2 }
    (dOk, [BitVec.ofNat 8 id], updSession n (fun x => { x with subs := others ++ [y] }) s)

/-- Carries out a request of a session and answers under its key; a write that resets the package resets the mailbox too. -/
def serve (p : DictPath) (n : Nat) (x : Session) (f : List Byte) (s : State) : State :=
  let body := reqPayload f
  let w : Writer := { path := pathNum p, sess := n, level := x.level.toNat }
  let was := s.su.pkgResets
  let (st, out, s) :=
    if !reqForm f then (dMalformed, [], s)
    else if reqOp f = opRead then let r := readAnswer (sessionRead s x) body; (r.1, r.2, s)
    else if reqOp f = opWrite then let r := writeRequest w body s; (r.1, [], r.2)
    else if reqOp f = opReadMulti then let r := multiAnswer (sessionRead s x) body; (r.1, r.2, s)
    else if reqOp f = opSubscribe then subscribeRequest (pathNum p) n x body s
    else if reqOp f = opSessionClose then if body.isEmpty then (dOk, [], closeSession n s) else (dMalformed, [], s)
    else (dMalformed, [], s)
  let frame := sealFrame (some x.key) (frameBody (reqOp f) 1 st n (reqSeq f) out)
  if s.su.pkgResets = was then respond p frame s else answer (.frame frame) s

/-! ## SESSION_OPEN (R406, R408) -/

/-- The credential of a level on a path; empty disables the level. -/
def credentialOf (s : State) (p : DictPath) (level : Nat) : List Byte :=
  let c := match objRow 0x1031 (level + 1) with | some r => objStored s r 0x1031 (level + 1) | none => []
  if level = 2 && c.isEmpty && pathNum p = 2 then zeros 32 else c

/-- Sessions a path holds at most (R407). -/
def sessionLimit (p : DictPath) : Nat := if pathNum p = 0 then 8 else 2

def sessionsOn (s : State) (p : DictPath) : Nat := (s.dict.sessions.filter fun (x : Nat × Session) => x.2.path = pathNum p).length

/-- The bytes "QDAP". -/
def qdap : List Byte := [0x51, 0x44, 0x41, 0x50]

def sessionKeyFor (cred : List Byte) (level : Nat) (nc ns : List Byte) : List Byte :=
  hmac cred (qdap ++ [BitVec.ofNat 8 level] ++ nc ++ ns)

/-- A refused SESSION_OPEN carries an all-zero MAC (log 82). -/
def refuseOpen (p : DictPath) (st : Nat) (f : List Byte) (s : State) : State :=
  respond p (sealFrame none (frameBody opSessionOpen 1 st 0 (reqSeq f) [])) s

/-- Steps 2 and 3: a session number, a nonce, the key, the answer under it. -/
def openSession (p : DictPath) (level : Nat) (f : List Byte) (s : State) : State :=
  let nc := (reqPayload f).drop 4
  let ns := fit 16 (Config.nonce s.free)
  let key := sessionKeyFor (credentialOf s p level) level nc ns
  let n := s.dict.nextSess
  let x : Session := { path := pathNum p, src := pathSrc p, level := BitVec.ofNat 2 level, key, seq := 0, pushes := 0, validAt := s.time,
                       readPos := 0, subs := [] }
  let s := drew { s with dict := { s.dict with sessions := SMap.put s.dict.sessions n x, nextSess := n + 1 } }
  respond p (sealFrame (some key) (frameBody opSessionOpen 1 dOk n (reqSeq f) ns)) s

def openRequest (p : DictPath) (f : List Byte) (s : State) : State :=
  let body := reqPayload f
  let level := fieldAt body 0 1
  if f.length < 32 || reqMac f ≠ zeros 16 then drop p s
  else if !reqForm f || reqSess f ≠ 0 || body.length ≠ 20 || fieldAt body 1 3 ≠ 0 || 3 < level then refuseOpen p dMalformed f s
  else if lockedOut s p then refuseOpen p dBusy f s
  else if (credentialOf s p level).isEmpty then refuseOpen p dLevel f s
  else if sessionLimit p ≤ sessionsOn s p then refuseOpen p dBusy f s
  else openSession p level f s

/-! ## A request frame arrives -/

/-- Whether a frame passes its MAC and SEQ in a session (R406). -/
def passes (x : Session) (f : List Byte) : Bool :=
  32 ≤ f.length && reqMac f = frameMac x.key (reqBody f) && x.seq.toNat < reqSeq f

/-- A request frame on a path. -/
def request (p : DictPath) (f : List Byte) (s : State) : State :=
  if !anyoneServes s then s
  else if cowbellServes s then cowbellAnswer p f s
  else if reqOp f = opSessionOpen then openRequest p f s
  else
    let n := reqSess f
    match sessionOf s p n with
    | none => drop p s
    | some x =>
      if !passes x f then drop p s
      else
        let x := { x with seq := BitVec.ofNat 32 (reqSeq f), validAt := s.time }
        serve p n x f (updSession n (fun _ => x) s)

/-- A row's frame: the row names the frame's OP (log 1). -/
def requestOp (op : Nat) (p : DictPath) (f : List Byte) (s : State) : State := guarded (reqOp f = op) (request p f) s

/-- MAILBOX_GO: the frame in the request buffer is submitted; ignored while BUSY (R409). -/
def mailboxGo (m : MailboxId) (s : State) : State :=
  let (p, b) := match m with | .bar0 => (DictPath.bar0, s.dict.mbox0) | .mirror => (DictPath.mirror, s.dict.mbox1)
  if b.state = 1 || (m = .bar0 && s.host.portA.root) || !anyoneServes s then s
  else
    let n := min 2048 (32 + ByteMap.num b.request 12 2)
    request p (ByteMap.read b.request 0 n) (setMbox p (fun m => { m with state := 1 }) s)

/-! ## Time (R406, R407) -/

/-- SESSION_IDLE_TIMEOUT: 60 s without a valid request. -/
def idleSession (p : DictPath) (n : Nat) (s : State) : State :=
  match sessionOf s p n with
  | some x => if minute ≤ since s x.validAt then closeSession n s else s
  | none => s

/-- LOCKOUT_END. -/
def endLockout (p : DictPath) (s : State) : State :=
  if lockedOut s p then s else { s with dict := { s.dict with lockout := SMap.del s.dict.lockout (srcKey p) } }

/-- The push frame of a subscription. -/
def pushFrame (s : State) (n : Nat) (x : Session) (y : Subscription) : List Byte :=
  let vals := y.items.map fun k => sessionRead s x (k / 256) (k % 256)
  let body := [y.id, BitVec.ofNat 8 y.items.length, 0, 0] ++ multiEntries 1396 vals
  sealFrame (some x.key) (frameBody opSubscribe 3 0 n (x.pushes.toNat + 1) body)

/-- SUBSCRIPTION_PUSH: one push each period; none is sent while the Dairyman is down. -/
def push (n id : Nat) (s : State) : State :=
  match SMap.find s.dict.sessions n with
  | none => s
  | some x =>
    match x.subs.find? fun y => y.id.toNat = id with
    | none => s
    | some y =>
      if s.time.toNat < y.nextAt.toNat then s
      else
        let later := fun (z : Subscription) => if z.id.toNat = id then { z with nextAt := z.nextAt + BitVec.ofNat 64 z.period } else z
        let s' := updSession n (fun x => { x with subs := x.subs.map later }) s
        if cowbellServes s then s'
        else
          let s' := updSession n (fun x => { x with pushes := x.pushes + 1 }) s'
          { s' with dict := { s'.dict with pushed := s'.dict.pushed ++ [pushFrame s n x y] } }

/-! ## Rows that write one object -/

/-- A write that a session makes to an object; a session that does not exist drops the request (R406). -/
def objectRow (r : ObjReq) (index sub ty : Nat) (v : List Byte) (s : State) : State :=
  if !anyoneServes s then s
  else if cowbellServes s then answer (.status dUnavailable) s
  else match sessionOf s r.path r.sess.toNat with
    | none => dropFrame r.path s
    | some x =>
      let s := updSession r.sess.toNat (fun x => { x with validAt := s.time }) s
      let (st, s) := writeObject { path := pathNum r.path, sess := r.sess.toNat, level := x.level.toNat } index sub ty v s
      answer (.status st) s

/-! ## The rows -/

/-- MAILBOX_GO (R409). -/
def execMailboxGo (m : MailboxId) (s : State) : Host.Outcome State Fault Refusal := command (mailboxGo m) s
/-- READ (R396, R403, R405, R406). -/
def execReadOp (path : DictPath) (f : List Byte) (s : State) : Host.Outcome State Fault Refusal := command (requestOp opRead path f) s
/-- WRITE (R396, R405, R406, R408). -/
def execWriteOp (path : DictPath) (f : List Byte) (s : State) : Host.Outcome State Fault Refusal := command (requestOp opWrite path f) s
/-- READ_MULTI (R397, R403, R405). -/
def execReadMulti (path : DictPath) (f : List Byte) (s : State) : Host.Outcome State Fault Refusal :=
  command (requestOp opReadMulti path f) s
/-- SUBSCRIBE (R405, R407). -/
def execSubscribe (path : DictPath) (f : List Byte) (s : State) : Host.Outcome State Fault Refusal :=
  command (requestOp opSubscribe path f) s
/-- SESSION_OPEN (R406, R408). -/
def execSessionOpen (path : DictPath) (f : List Byte) (s : State) : Host.Outcome State Fault Refusal :=
  command (requestOp opSessionOpen path f) s
/-- SESSION_CLOSE (R407). -/
def execSessionClose (path : DictPath) (f : List Byte) (s : State) : Host.Outcome State Fault Refusal :=
  command (requestOp opSessionClose path f) s
/-- SESSION_IDLE_TIMEOUT (R407). -/
def execSessionIdleTimeout (path : DictPath) (sess : BitVec 32) (s : State) : Host.Outcome State Fault Refusal :=
  command (idleSession path sess.toNat) s
/-- SUBSCRIPTION_PUSH (R405, R407). -/
def execSubscriptionPush (sess : BitVec 32) (sub : BitVec 8) (s : State) : Host.Outcome State Fault Refusal :=
  command (push sess.toNat sub.toNat) s
/-- LOCKOUT_END (R406). -/
def execLockoutEnd (path : DictPath) (src : Nat) (s : State) : Host.Outcome State Fault Refusal :=
  command (endLockout (match path with | .field _ => .field src | q => q)) s
/-- CLEAR_FAILED_DIE_RECORD (R32). -/
def execClearFailedDieRecord (r : ObjReq) (v : BitVec 8) (s : State) : Host.Outcome State Fault Refusal :=
  command (objectRow r 0x4002 1 1 [v]) s
/-- CLEAR_VAT_RETIREMENT_RECORD (R32). -/
def execClearVatRetirementRecord (r : ObjReq) (v : BitVec 16) (s : State) : Host.Outcome State Fault Refusal :=
  command (objectRow r 0x4002 2 2 (leBytes 2 v.toNat)) s
/-- CLEAR_RETIREMENT_LIST (R335, R425). -/
def execClearRetirementList (r : ObjReq) (v : BitVec 8) (s : State) : Host.Outcome State Fault Refusal :=
  command (objectRow r 0x3303 1 1 [v]) s
/-- BEHAVIOUR_LEVEL_PIN (R442). -/
def execBehaviourLevelPin (r : ObjReq) (v : BitVec 8) (s : State) : Host.Outcome State Fault Refusal :=
  command (objectRow r 0x1020 1 1 [v]) s
/-- CALENDAR_TIME_WRITE (R402, R430). -/
def execCalendarTimeWrite (r : ObjReq) (v : BitVec 64) (s : State) : Host.Outcome State Fault Refusal :=
  command (objectRow r 0x7000 1 9 (leBytes 8 v.toNat)) s
/-- OWNER_END_TENANCY (R386). -/
def execOwnerEndTenancy (r : ObjReq) (v : BitVec 8) (s : State) : Host.Outcome State Fault Refusal :=
  command (objectRow r 0x6000 3 1 [v]) s
/-- DEBUG_REQUEST (R391). -/
def execDebugRequest (r : ObjReq) (v : BitVec 8) (s : State) : Host.Outcome State Fault Refusal :=
  command (objectRow r 0x6000 5 1 [v]) s
/-- TUNNEL_FUSE_READ (R333). -/
def execTunnelFuseRead (r : ObjReq) (s : State) : Host.Outcome State Fault Refusal := command (objectRow r 0xF030 2 1 [1]) s
/-- TUNNEL_SOFT_REPAIR (R333). -/
def execTunnelSoftRepair (r : ObjReq) (s : State) : Host.Outcome State Fault Refusal := command (objectRow r 0xF030 2 1 [2]) s
/-- TUNNEL_HARD_REPAIR (R333). -/
def execTunnelHardRepair (r : ObjReq) (s : State) : Host.Outcome State Fault Refusal := command (objectRow r 0xF030 2 1 [3]) s
/-- UPDATE_BEGIN (R415). -/
def execUpdateBegin (r : ObjReq) (s : State) : Host.Outcome State Fault Refusal := command (objectRow r 0x1040 3 1 [1]) s
/-- IMAGE_CHUNK (R415). -/
def execImageChunk (r : ObjReq) (data : List Byte) (s : State) : Host.Outcome State Fault Refusal :=
  command (objectRow r 0x1040 2 8 data) s
/-- UPDATE_COMMIT (R415). -/
def execUpdateCommit (r : ObjReq) (s : State) : Host.Outcome State Fault Refusal := command (objectRow r 0x1040 3 1 [2]) s
/-- UPDATE_CANCEL (R415). -/
def execUpdateCancel (r : ObjReq) (s : State) : Host.Outcome State Fault Refusal := command (objectRow r 0x1040 3 1 [3]) s

end Sys2Proof.Machine
end

