-- ==== Sys2Proof/Machine/Harts.lean ====
section
/-! DEFINITION. The registers of a hart (R273, R274, R276 to R281, R284, R288): its control and status registers with the fields the spec
fixes, the interrupt-file registers, the general registers, and what its counters count as time passes. Register numbers and fields of
the RISC-V privileged architecture, the AIA and the extensions that R273 names (log 132). -/

namespace Sys2Proof.Machine

/-! ## Interrupt lines (R277, R281, R284) -/

def fileOf (s : State) (k : Nat) : IntFile := SMap.get {} s.cluster.files k
def updFile (k : Nat) (f : IntFile → IntFile) (s : State) : State :=
  { s with cluster := { s.cluster with files := SMap.upd {} s.cluster.files k f } }

/-- The key of an interrupt-file register reached through a selector: file 0 machine, 1 supervisor, 1 + g guest. -/
def selKey (file sel : Nat) : Nat := 8192 + 256 * file + sel

/-- The identity of highest priority that is pending and enabled in a file, below its threshold where that is not zero; 0 for none. -/
def topId (s : State) (h file : Nat) : Nat :=
  let f := fileOf s (fileKey h file)
  let live := f.pending &&& f.enabled
  let limit := (SMap.get 0 (hartOf s h).csrs (selKey file 0x72)).toNat
  if live = 0 then 0
  else ((List.range 2048).find? fun i => i ≠ 0 && live.getLsbD i && (limit = 0 || i < limit)).getD 0

/-- hgeip (R284): a bit for each guest file 1-7 with an identity that is pending and enabled. -/
def hgeip (s : State) (h : Nat) : Nat :=
  sumList (((List.range 8).filter fun g => g ≠ 0 &&
    (let f := fileOf s (fileKey h (1 + g)); f.pending &&& f.enabled ≠ 0)).map (2 ^ ·))

def csrOf (s : State) (h n : Nat) : Nat := (SMap.get 0 (hartOf s h).csrs n).toNat
def putCsr (h n v : Nat) (s : State) : State :=
  updHart s h fun x => { x with csrs := SMap.set 0 x.csrs n (BitVec.ofNat 64 v) }

/-- The guest file that hstatus selects. -/
def guestFile (s : State) (h : Nat) : Nat := bits (csrOf s h 0x600) 12 6

/-- mip: the pending bits that software sets, the timers, and the external interrupts of the files that deliver. -/
def mipOf (s : State) (h : Nat) : Nat :=
  let x := hartOf s h
  let delivers := fun (file : Nat) => csrOf s h (selKey file 0x70) = 1 && topId s h file ≠ 0
  let g := guestFile s h
  let ext := (if delivers 0 then 2 ^ 11 else 0) + (if delivers 1 then 2 ^ 9 else 0)
    + (if g ≠ 0 && delivers (1 + g) then 2 ^ 10 else 0) + (if hgeip s h &&& csrOf s h 0x607 ≠ 0 then 2 ^ 12 else 0)
  (csrOf s h 0x344 &&& 0x2006) + ext
    + (if x.mtip then 2 ^ 7 else 0) + (if x.stip then 2 ^ 5 else 0) + (if x.vstip then 2 ^ 6 else 0)

/-- The interrupt of highest default priority among those pending and enabled, as the top-interrupt registers show it. -/
def topInt (live : Nat) : Nat :=
  match [11, 3, 7, 9, 1, 5, 12, 10, 2, 6, 13].find? fun i => bits live i 1 = 1 with
  | some i => 2 ^ 16 * i + 1
  | none => 0

/-! ## Which registers there are -/

def all64 : Nat := 2 ^ 64 - 1

/-- Registers that show a field of another: number, the register, its lowest bit and a mask. sstatus, sie, sip, hie and hip are parts of the
machine's, and the counters of the lower levels mirror the machine's. -/
def csrViews : List (Nat × Nat × Nat × Nat) :=
  [(0x001, 0x003, 0, 0x1F), (0x002, 0x003, 5, 7), (0x009, 0x00F, 0, 1), (0x00A, 0x00F, 1, 3),
   (0x100, 0x300, 0, 0x80000003000DE762), (0x104, 0x304, 0, 0x2222), (0x144, 0x344, 0, 0x2222),
   (0x604, 0x304, 0, 0x1444), (0x644, 0x344, 0, 0x1444)]
  ++ ((List.range 32).filter (· ≠ 1)).map fun k => (0xC00 + k, 0xB00 + k, 0, all64)

/-- Registers that hold what is written under a mask: the first of a run, how many, and the mask. -/
def csrStored : List (Nat × Nat × Nat) :=
  [(0x003, 1, 0xFF), (0x008, 1, 0x1FF), (0x00F, 1, 7), (0x105, 1, all64), (0x106, 1, 2 ^ 32 - 1), (0x10A, 1, all64), (0x10C, 4, all64),
   (0x140, 4, all64), (0x150, 1, 0xFFF), (0x180, 1, all64), (0x181, 1, 0x0FFF0FFF), (0x200, 1, all64), (0x204, 1, 0x2222), (0x205, 1, all64),
   (0x240, 5, all64), (0x250, 1, 0xFFF), (0x280, 1, all64), (0x300, 1, all64), (0x302, 2, all64), (0x304, 1, 0x3EEE), (0x305, 1, all64),
   (0x306, 1, 2 ^ 32 - 1), (0x308, 3, all64), (0x30C, 4, all64), (0x320, 1, 2 ^ 32 - 3), (0x323, 29, all64), (0x340, 4, all64), (0x344, 1, 0x2006),
   (0x34A, 2, all64), (0x350, 1, 0xFFF), (0x600, 1, all64), (0x602, 2, all64), (0x605, 1, all64), (0x606, 1, 2 ^ 32 - 1), (0x607, 1, 0xFE),
   (0x608, 3, all64), (0x60C, 4, all64), (0x643, 1, all64), (0x645, 3, all64), (0x64A, 1, all64), (0x680, 1, all64), (0xB00, 1, all64),
   (0xB02, 30, all64)]

def storedMask (n : Nat) : Option Nat := (csrStored.find? fun r => r.1 ≤ n && n < r.1 + r.2.1).map (·.2.2)

/-- misa: RV64 with A, B, C, D, F, H, I, M, S, U and V; the Q extension is not supported (R273, R274). -/
def misa : Nat := 2 ^ 63 + sumList ([0, 1, 2, 3, 5, 7, 8, 12, 18, 20, 21].map (2 ^ ·))

/-- A translation mode of satp, vsatp and hgatp: bare, or 39, 48 or 57 bits (R273). -/
def modeOk (v : Nat) : Bool := [0, 8, 9, 10].contains (bits v 60 4)

/-- What a stored register takes when it is written: fields that the spec fixes keep their value, and a mode that is not supported changes nothing
(R273, R274). -/
def csrLegal (n old v : Nat) : Nat :=
  let fixed := fun (mask val : Nat) => v - (v &&& mask) + val
  if n = 0x300 then fixed (0xF * 2 ^ 32 + 2 ^ 6 + 3 * 2 ^ 36) (0xA * 2 ^ 32)
  else if n = 0x200 then fixed (3 * 2 ^ 32 + 2 ^ 6) (2 * 2 ^ 32)
  else if n = 0x600 then
    let w := fixed (3 * 2 ^ 32 + 2 ^ 5) (2 * 2 ^ 32)
    if bits w 12 6 ≤ 7 then w else w - 2 ^ 12 * bits w 12 6 + 2 ^ 12 * bits old 12 6
  else if n = 0x180 || n = 0x280 || n = 0x680 then if modeOk v then (if n = 0x680 then fixed 3 0 else v) else old
  else v

/-- What a stored register reads: the fields the spec fixes read so before anything is written. -/
def csrStoredRead (n v : Nat) : Nat := if n = 0x300 || n = 0x200 || n = 0x600 then csrLegal n v v else v

/-! ## Reading and writing -/

/-- The interrupt file whose selector and window are a register's: those of the machine, the supervisor and the selected guest file. -/
def selFile (s : State) (h n : Nat) : Option (Nat × Nat) :=
  if n = 0x351 || n = 0x35C then some (0, 0x350)
  else if n = 0x151 || n = 0x15C then some (1, 0x150)
  else if n = 0x251 || n = 0x25C then if guestFile s h = 0 then none else some (1 + guestFile s h, 0x250)
  else none

/-- A 64-bit part of an interrupt file's pending or enabled bits. -/
def filePart (b : BitVec 2048) (k : Nat) : Nat := bits b.toNat (64 * k) 64

/-- An interrupt-file register by its selector: delivery, threshold, pending and enabled bits; the parts are at even selectors (R281). -/
def selRead (s : State) (h file sel : Nat) : Option Nat :=
  let f := fileOf s (fileKey h file)
  if sel = 0x70 || sel = 0x72 || (0x30 ≤ sel && sel < 0x40 && sel % 2 = 0) then some (csrOf s h (selKey file sel))
  else if 0x80 ≤ sel && sel < 0xC0 && sel % 2 = 0 then some (filePart f.pending ((sel - 0x80) / 2))
  else if 0xC0 ≤ sel && sel < 0x100 && sel % 2 = 0 then some (filePart f.enabled ((sel - 0xC0) / 2))
  else none

/-- A part of a set of identities replaced; identity 0 is none (R281). -/
def putPart (b : BitVec 2048) (k v : Nat) : BitVec 2048 :=
  BitVec.ofNat 2048 ((b.toNat - 2 ^ (64 * k) * filePart b k + 2 ^ (64 * k) * (v % 2 ^ 64)) / 2 * 2)

def selWrite (h file sel v : Nat) (s : State) : State :=
  let k := fileKey h file
  if sel = 0x70 then putCsr h (selKey file sel) (bits v 0 1) s
  else if sel = 0x72 then putCsr h (selKey file sel) (bits v 0 11) s
  else if sel < 0x40 then putCsr h (selKey file sel) v s
  else if sel < 0xC0 then updFile k (fun f => { f with pending := putPart f.pending ((sel - 0x80) / 2) v }) s
  else updFile k (fun f => { f with enabled := putPart f.enabled ((sel - 0xC0) / 2) v }) s

/-- The overflow bits of the counters (Sscofpmf). -/
def countOverflow (s : State) (h : Nat) : Nat :=
  sumList (((List.range 32).filter fun k => 3 ≤ k && bits (csrOf s h (0x320 + k)) 63 1 = 1).map (2 ^ ·))

/-- The key of a trigger register: tselect names one of four triggers (R273). -/
def triggerKey (s : State) (h n : Nat) : Nat := 4096 + 4 * csrOf s h 0x7A0 + (n - 0x7A1)

/-- What a control and status register reads; none where the hart has no such register. -/
def csrRead (s : State) (h n : Nat) : Option Nat :=
  match csrViews.find? (·.1 == n) with
  | some (_, b, lo, m) =>
    some (((if b = 0x344 then mipOf s h else csrStoredRead b (csrOf s h b)) >>> lo) &&& m)
  | none =>
    if n = 0x344 then some (mipOf s h)
    else if n = 0x680 then some (csrOf s h n - 2 ^ 44 * bits (csrOf s h n) 44 14 + 2 ^ 44 * (hartOf s h).vmid.toNat)
    else if (storedMask n).isSome then some (csrStoredRead n (csrOf s h n))
    else if n = 0x301 then some misa
    else if n = 0xF11 || n = 0xF12 || n = 0xF13 then some (leNat (fit 8 (Config.manufacture (n - 0xF11 + 30))))
    else if n = 0xF14 then some h
    else if n = 0xF15 then some 0
    else if n = 0xC01 then some s.time.toNat
    else if n = 0x14D then some (hartOf s h).stimecmp.toNat
    else if n = 0x24D then some (hartOf s h).vstimecmp.toNat
    else if n = 0xC20 then some (SMap.get 0 (hartOf s h).regs 320).toNat
    else if n = 0xC21 then some (SMap.get 0 (hartOf s h).regs 321).toNat
    else if n = 0xC22 then some 64
    else if n = 0xE12 then some (hgeip s h)
    else if n = 0xDA0 then some (countOverflow s h)
    else if n = 0xFB0 then some (topInt (mipOf s h &&& csrOf s h 0x304 - (mipOf s h &&& csrOf s h 0x304 &&& csrOf s h 0x303)))
    else if n = 0xDB0 then some (topInt (mipOf s h &&& csrOf s h 0x304 &&& 0x2222))
    else if n = 0xEB0 then some (topInt (mipOf s h &&& csrOf s h 0x304 &&& 0x444))
    else if n = 0x7A0 then some (csrOf s h n)
    else if 0x7A1 ≤ n && n ≤ 0x7A3 then some (csrOf s h (triggerKey s h n))
    else match selFile s h n with
      | some (file, sel) =>
        if n % 16 = 1 then selRead s h file (csrOf s h sel) else some (topId s h file * 0x10001)
      | none => none

/-- A compare register of a hart: a value that time has reached makes its interrupt pending, a later one takes it away (R277). -/
def writeCompare (h : Nat) (k : TimerKind) (v : BitVec 64) (s : State) : State :=
  timerCompare h k (updHart s h fun x => match k with
    | .machine => { x with mtimecmp := v, mtip := false }
    | .supervisor => { x with stimecmp := v, stip := false }
    | .virtual => { x with vstimecmp := v, vstip := false })

/-- A write to a control and status register that the hart has. -/
def csrWrite (h n v : Nat) (s : State) : State :=
  let stored := fun (b v : Nat) (s : State) =>
    let old := csrOf s h b
    let m := (storedMask b).getD 0
    let s := putCsr h b (csrLegal b old (v &&& m)) s
    if b = 0x680 && modeOk v then updHart s h (withVmid (BitVec.ofNat 14 (bits v 44 14))) else s
  match csrViews.find? (·.1 == n) with
  | some (_, b, lo, m) =>
    let old := csrOf s h b
    stored b (old - (old &&& m <<< lo) + ((v &&& m) <<< lo)) s
  | none =>
    if (storedMask n).isSome then stored n v s
    else if n = 0x14D then writeCompare h .supervisor (BitVec.ofNat 64 v) s
    else if n = 0x24D then writeCompare h .virtual (BitVec.ofNat 64 v) s
    else if n = 0x7A0 then if v < 4 then putCsr h n v s else s
    else if 0x7A1 ≤ n && n ≤ 0x7A3 then putCsr h (triggerKey s h n) v s
    else match selFile s h n with
      | some (file, sel) =>
        if n % 16 = 1 then selWrite h file (csrOf s h sel) v s
        else
          let i := topId s h file
          if i = 0 then s else updFile (fileKey h file) (fun f => { f with pending := f.pending &&& ~~~(BitVec.ofNat 2048 (2 ^ i)) }) s
      | none => s

/-! ## Access by a hart's instruction -/

/-- The register that a number names at a level: in VS-mode the supervisor's numbers name the guest's registers. -/
def csrNamed (p : Priv) (n : Nat) : Nat :=
  if p == .vs && ([0x100, 0x104, 0x105, 0x140, 0x141, 0x142, 0x143, 0x144, 0x14D, 0x150, 0x151, 0x15C, 0x180, 0xDB0].contains n)
  then n + 0x100 else n

/-- The exception of an access that a level may not make: 2 illegal instruction, 22 virtual instruction. -/
def csrTrap (s : State) (h : Nat) (p : Priv) (n : Nat) (op : CsrOp) : Option Nat :=
  let level := bits n 8 2
  let guest := guestLevel p
  let counter := 0xC00 ≤ n && n < 0xC20
  let open_ := fun (c : Nat) => bits (csrOf s h c) (n - 0xC00) 1 = 1
  if bits n 10 2 = 3 && op != .read then some 2
  else if level = 3 && p != .m then some 2
  else if level = 2 && p != .m && p != .hs then some (if guest then 22 else 2)
  else if level = 1 && p == .u then some 2
  else if level = 1 && p == .vu then some 22
  else if n = 0x181 && guest then some 22
  else if n = 0x181 && p == .hs && bits (csrOf s h 0x30C) 55 1 = 0 then some 2
  else if counter && p != .m && !open_ 0x306 then some 2
  else if counter && guest && !open_ 0x606 then some 22
  else if counter && (p == .u || p == .vu) && !open_ 0x106 then some (if guest then 22 else 2)
  else none

/-- A hart's instruction accesses a control and status register: it answers the old value, or takes an exception where the level may not or the hart
has no such register (R274). -/
def csrAccess (h : Nat) (p : Priv) (n : Nat) (op : CsrOp) (v : Nat) (s : State) : State :=
  match csrTrap s h p n op, csrRead s h (csrNamed p n) with
  | some e, _ => answer (.trap e) s
  | none, none => answer (.trap 2) s
  | none, some old =>
    let new := match op with | .read => old | .write => v | .set => old ||| v | .clear => old - (old &&& v)
    answer (.value (BitVec.ofNat 64 old)) (if op == .read then s else csrWrite h (csrNamed p n) new s)

/-- A hart's general register: x0 takes no value. -/
def putReg (h k : Nat) (v : BitVec 64) (s : State) : State :=
  if k = 0 then s else updHart s h fun x => { x with regs := SMap.set 0 x.regs k v }

/-! ## Time (R276, R277, R280) -/

/-- Whether an interrupt that is pending wakes a suspended hart (log 67). -/
def wakes (s : State) (h : Nat) : Bool := mipOf s h ≠ 0

/-- A counter that counts on by n, unless mcountinhibit stops it; a programmable one that passes its end sets its overflow bit and the interrupt
(Sscofpmf). -/
def countOn (k n : Nat) (x : Hart) : Hart :=
  let get := fun (i : Nat) => (SMap.get 0 x.csrs i).toNat
  if bits (get 0x320) k 1 = 1 then x
  else
    let now := get (0xB00 + k) + n
    let csrs := SMap.set 0 x.csrs (0xB00 + k) (BitVec.ofNat 64 now)
    let ev := get (0x320 + k)
    if k < 3 || now < 2 ^ 64 || bits ev 63 1 = 1 then { x with csrs }
    else
      { x with csrs := SMap.set 0 (SMap.set 0 csrs (0x320 + k) (BitVec.ofNat 64 (ev + 2 ^ 63)))
                                  0x344 (BitVec.ofNat 64 (get 0x344 ||| 0x2000)) }

/-- hpmevent codes of what was issued and what was squashed (R280). -/
def evSpecIssued : Nat := 0x80
def evSpecSquashed : Nat := 0x81

/-- What an event of a counter has counted, of r instructions retired and q squashed; the other events, listed in firmware's table, and a counter
that some levels do not count, count an amount the spec leaves open (R280; log 132). -/
def eventCount (ev r q free : Nat) : Nat :=
  let code := bits ev 0 56
  if bits ev 58 5 ≠ 0 then free
  else if code = 0 then 0
  else if code = evSpecIssued then r + q
  else if code = evSpecSquashed then q
  else free

/-- What a hart that runs counts in a tick: handshakes of its issue stage, instructions retired, and its events; how many the spec leaves open
(R276, R280). -/
def countHart (base : Nat) (x : Hart) : Hart :=
  let w := fun (i : Nat) => (Config.freeWord (base + i)).toNat
  let r := w 0
  let q := w 1
  let x := countOn 2 r (countOn 0 (w 2) x)
  (List.range 29).foldl (fun x i =>
    let k := 3 + i
    countOn k (eventCount (SMap.get 0 x.csrs (0x320 + k)).toNat r q (w k)) x) x

/-- A tick of a hart: one that a pause holds or that waits counts nothing; a suspended one takes a pending interrupt once no pause holds it
(R276, R277, R292). -/
def hartTick (s : State) (h : Nat) (x : Hart) : Hart :=
  if hartPaused s h then x
  else if x.state == .suspended && wakes s h then wakeHart x
  else if x.state == .started then countHart (s.free + 32 * h) x
  else x

def hartsTick (s : State) : State :=
  if s.cluster.harts.isEmpty then s
  else { s with free := s.free + 32 * 144,
                cluster := { s.cluster with harts := s.cluster.harts.map fun (p : Nat × Hart) => (p.1, hartTick s p.1 p.2) } }

end Sys2Proof.Machine
end

