-- ==== Sys2Proof/Machine/Pail.lean ====
section
/-! DEFINITION. The host port: links and resets (R338, R348, R351), the Pail's ingest queues, their records (R341 to R346), and
what the package writes to the host (R347). -/

namespace Sys2Proof.Machine

/-! ## Links (R33, R36, R351) -/

def sitePort (p : PcieId) : Nat := match p with | .portA => 84 | .portB => 85
def portNum (p : PcieId) : Nat := match p with | .portA => 0 | .portB => 1
def portOf (s : State) (p : PcieId) : PciePort := match p with | .portA => s.host.portA | .portB => s.host.portB
def setPort (p : PcieId) (x : PciePort) (s : State) : State :=
  match p with
  | .portA => { s with host := { s.host with portA := x } }
  | .portB => { s with host := { s.host with portB := x } }

/-- Moves a port's site to a state, counting the change when it is one. -/
def movePort (p : PcieId) (state : Nat) (s : State) : State :=
  if (siteOf s (sitePort p)).state.toNat = state then s else countChange (setSite (sitePort p) state 0 s)

/-- A port trains: LINK_UP, or LINK_DEGRADED below x16 or 64 GT/s (R351). -/
def linkUp (p : PcieId) (rate width : Nat) (s : State) : State :=
  let full := rate = 64 && width = 16
  let s := setPort p { portOf s p with up := true, rate, width } s
  let s := movePort p (if full then stPresent else stDegraded) s
  post (if full then 0x0801 else 0x0803) (sitePort p) [portNum p, rate, width] s

/-- Every queue in RUN enters DISCARD for a happening at Port A (R348). -/
def discardAll (code : Nat) (s : State) : State := each (queueIds s) (fun q s => discardQueue q code s) s

/-- Whether Port A is an endpoint, so that the Pail stands behind it (R338). -/
def endpointA (s : State) : Bool := !s.host.portA.root

def linkDown (p : PcieId) (s : State) : State :=
  if !(portOf s p).up then s
  else
    let s := movePort p stFault (setPort p { portOf s p with up := false, rate := 0, width := 0 } s)
    let s := post 0x0802 (sitePort p) [portNum p] s
    if p == .portA && endpointA s then discardAll 0x0802 s else s

/-- FLR (kind 0) or hot reset (kind 1) of Port A (R348, log 72). -/
def portAReset (kind : Nat) (s : State) : State :=
  if endpointA s then discardAll 0x0820 (post 0x0820 (sitePort .portA) [kind] s) else s

def aerLogged (p : PcieId) (rid status : Nat) (s : State) : State :=
  if (portOf s p).root then post 0x0821 (sitePort p) [portNum p, rid, status] s else s

/-- A level of INTA-INTD drives APLIC sources 6-9 (R282). -/
def portBInt (n : Nat) (level : Bool) (s : State) : State :=
  let src := 6 + n
  let bit := BitVec.ofNat 64 (2 ^ src)
  let was := s.cluster.wires.getLsbD src
  if level then
    let s := { s with cluster := { s.cluster with wires := s.cluster.wires ||| bit } }
    if was then s else raiseSource src s
  else
    let pend := if sourceMode s src = 6 then s.cluster.pend &&& ~~~bit else s.cluster.pend
    { s with cluster := { s.cluster with wires := s.cluster.wires &&& ~~~bit, pend } }

/-! ## The ingest ring (R343, R345) -/

def ringLen : Nat := 0x40000

/-- Why a queue's stream is malformed (log 72). -/
def badEnables : Nat := 1
def badBytes : Nat := 2
def badHeader : Nat := 3
def badRange : Nat := 4
def badJob : Nat := 5
def badReturn : Nat := 6

/-- A queue enters DISCARD with 0x0812 (R348). -/
def malformed (q reason : Nat) (s : State) : State :=
  post 0x0812 noSite [q, (queueOf s q).consumed.toNat, reason] (discardQueue q 0x0812 s)

/-- Whether bytes from a running count on have landed. -/
def hasLanded (x : IngestQueue) (n len : Nat) : Bool :=
  (List.range (len / 4)).all fun i => x.landed.contains ((n + 4 * i) % ringLen / 4)

/-- Whether a stretch of the stream from CONSUMED is counted by the doorbell and landed (R345). -/
def arrived (x : IngestQueue) (len : Nat) : Bool := x.consumed.toNat + len ≤ x.bytes.toNat && hasLanded x x.consumed.toNat len

/-- Bytes of the ring from a running count on. -/
def ringRead (s : State) (q n len : Nat) : List Byte :=
  let x := queueOf s q
  let base := x.ringBase.toNat * 2 ^ 18
  let off := n % ringLen
  let head := min len (ringLen - off)
  cohRead s (base + off) head ++ cohRead s base (len - head)

/-- A record's header (R344). -/
structure PailHead where
  ty : Nat
  flags : Nat
  zero : Bool
  len : Nat
  arg : Nat
  deriving DecidableEq, Repr

def headOf (s : State) (q : Nat) : PailHead :=
  let b := ringRead s q (queueOf s q).consumed.toNat 16
  { ty := fieldAt b 0 1, flags := fieldAt b 1 1, zero := fieldAt b 2 2 = 0, len := fieldAt b 4 4, arg := fieldAt b 8 8 }

/-- Bytes of a whole record: header and padded body. -/
def recordLen (h : PailHead) : Nat := 16 + (h.len + 15) / 16 * 16

/-- Length of a queue's window in bytes. -/
def windowLen (x : IngestQueue) : Nat := x.winGranules.toNat * granBytes

/-- Why a header is malformed (R344, R348). -/
def headFault (x : IngestQueue) (h : PailHead) : Option Nat :=
  if h.ty = 0 || 4 < h.ty || !h.zero || 1 < h.flags || (h.flags = 1 && h.ty ≠ 4) then some badHeader
  else if h.ty ≠ 1 && !(h.ty = 4 && h.flags = 1) && h.arg ≠ 0 then some badHeader
  else match h.ty with
    | 1 =>
      if h.len < 16 || 65536 < h.len || h.arg % 16 ≠ 0 then some badHeader
      else if windowLen x < h.arg + h.len then some badRange else none
    | 2 => if h.len ≠ 64 then some badHeader else if !x.jobEn then some badJob else none
    | 3 => if h.len ≠ 0 then some badHeader else none
    | _ => if h.len ≠ 32 then some badHeader else none

/-- Examines the header at CONSUMED as soon as it has arrived. -/
def checkHead (q : Nat) (s : State) : State :=
  let x := queueOf s q
  if x.state == .run && x.waiting.isNone && arrived x 16 then
    match headFault x (headOf s q) with
    | some r => malformed q r s
    | none => s
  else s

/-- Moves CONSUMED past a record; its landed bits clear (R345). -/
def consume (q len : Nat) (s : State) : State :=
  let s := updQueue s q fun x =>
    { x with consumed := x.consumed + BitVec.ofNat 40 len,
             landed := x.landed.filter fun d => !((4 * d + ringLen - x.consumed.toNat % ringLen) % ringLen < len) }
  checkHead q s

/-! ## Writes and doorbells -/

/-- One dword lands, or is an overrun, or is dropped (R343, R345). -/
def landDword (addr : Nat) (b : List Byte) (s : State) : State :=
  let q := addr / 0x100000
  let x := queueOf s q
  if x.state ≠ .run || x.curSeq.toNat % 4 ≠ addr / 0x40000 % 4 then
    updQueue s q fun x => { x with lateDropped := x.lateDropped + 1 }
  else
    let d := addr % ringLen / 4
    if x.landed.contains d then
      post 0x0811 noSite [q, x.consumed.toNat] (discardQueue q 0x0811 s)
    else
      let a := x.ringBase.toNat * 2 ^ 18 + 4 * d
      let s := noteBytes {} true a b.length (ioWrite a b s)
      updQueue s q fun x => { x with landed := d :: x.landed, lastLand := s.time }

/-- PAIL_WRITE: a write with partial byte enables in the current sequence is malformed (R343, R348). -/
def pailWriteAct (addr : Nat) (data : List Byte) (full : Bool) (s : State) : State :=
  let q := addr / 0x100000
  let x := queueOf s q
  if !endpointA s then s
  else if (!full || addr % 4 ≠ 0 || data.length % 4 ≠ 0) && x.state == .run && x.curSeq.toNat % 4 = addr / 0x40000 % 4 then
    malformed q badEnables s
  else
    checkHead q (each (List.range ((data.length + 3) / 4)) (fun i s =>
      landDword ((addr / 4 * 4 + 4 * i) % 2 ^ 28) ((data.drop (4 * i)).take 4) s) s)

/-- Whether landed bytes lie beyond the last doorbell. -/
def beyondBell (x : IngestQueue) : Bool :=
  x.landed.any fun d => x.bytes.toNat ≤ x.consumed.toNat + (4 * d + ringLen - x.consumed.toNat % ringLen) % ringLen

/-- Whether a doorbell's bytes have not all landed, or bytes beyond it lie landed (R348). -/
def incomplete (x : IngestQueue) : Bool := !hasLanded x x.consumed.toNat (x.bytes.toNat - x.consumed.toNat) || beyondBell x

/-- PAIL_DOORBELL: the idle time of a stream that was complete until then runs from here (log 140). -/
def doorbell (q bytes seq : Nat) (s : State) : State :=
  let x := queueOf s q
  if x.state ≠ .run || seq ≠ x.curSeq.toNat then s
  else if bytes % 16 ≠ 0 then malformed q badBytes s
  else if bytes < x.bytes.toNat then s
  else checkHead q (updQueue s q fun x =>
    { x with bytes := BitVec.ofNat 40 bytes, lastLand := if incomplete x then x.lastLand else s.time })

/-- RESYNC (R342, R348): the stream starts again under the next sequence. -/
def resync (q : Nat) (v : BitVec 16) (s : State) : State :=
  let x := queueOf s q
  if x.state == .disabled || v ≠ x.curSeq + 1 then s
  else post 0x0813 noSite [q, v.toNat] (updQueue s q fun x =>
    { x with curSeq := v, consumed := 0, bytes := 0, landed := [], waiting := none, state := .run })

/-- ENABLE (R341): DISABLED ends the stream; RUN starts an empty one. -/
def enableQueue (q : Nat) (v : Bool) (s : State) : State :=
  let x := queueOf s q
  if x.enable = v then s
  else updQueue s q fun x =>
    { x with enable := v, state := if v then .run else .disabled, consumed := 0, bytes := 0, landed := [], waiting := none }

/-! ## JOB records (R344, R346) -/

/-- Whether a context's submission ring takes another descriptor: ACTIVE and not full. -/
def ringOpen (c : Context) : Bool :=
  let n := ringSize c.sqLog2.toNat
  c.state == .active && (c.sqTail.toNat + 1) % n ≠ c.sqHead.toNat % n

/-- Whether the record at CONSUMED is whole and of a type, and may act. -/
def atRecord (s : State) (q ty : Nat) : Bool :=
  let x := queueOf s q
  x.state == .run && x.waiting.isNone && arrived x 16 &&
    (let h := headOf s q
     h.ty = ty && (headFault x h).isNone && arrived x (recordLen h))

/-- Whether the queue waits at a full submission ring, a full host ring or on an AFTER_JOB job (R348). -/
def queueWaits (s : State) (q : Nat) : Bool :=
  (queueOf s q).waiting.isSome || (atRecord s q 2 && !ringOpen (ctxOf s (queueOf s q).context.toNat))

/-- DATA: the body goes into the window, charged to context 0. -/
def dataAct (q : Nat) (s : State) : State :=
  if !atRecord s q 1 then s
  else
    let x := queueOf s q
    let h := headOf s q
    let b := ringRead s q (x.consumed.toNat + 16) h.len
    let a := x.winBase.toNat * granBytes + h.arg
    consume q (recordLen h) (noteBytes {} true a b.length (ioWrite a b s))

/-- JOB: the descriptor enters CONTEXT's ring at SQ_TAIL. -/
def jobAct (q : Nat) (s : State) : State :=
  let x := queueOf s q
  let c := ctxOf s x.context.toNat
  if !atRecord s q 2 || !ringOpen c then s
  else
    let b := ringRead s q (x.consumed.toNat + 16) 64
    let n := ringSize c.sqLog2.toNat
    let slot := c.sqTail.toNat % n
    let a := c.sqBase.toNat * 4096 + 64 * slot
    let s := noteBytes (ctxTag s x.context.toNat) true a 64 (ioWrite a b s)
    let s := updCtx s x.context.toNat fun c => { c with sqTail := BitVec.ofNat 16 ((slot + 1) % n) }
    let s := updQueue s q fun x =>
      { x with jobs := (BitVec.ofNat 64 (fieldAt b 0 8), 2 ^ 16 * x.context.toNat + slot, none) :: x.jobs }
    consume q 80 s

/-- FENCE: every write of an earlier record is visible at once, so it only passes. -/
def fenceAct (q : Nat) (s : State) : State := if atRecord s q 3 then consume q 16 s else s

/-! ## RETURN records (R346, R347) -/

/-- The status of the latest JOB record of a queue with a JOB_ID; none when there is no such record. -/
def hostJob (x : IngestQueue) (id : BitVec 64) : Option (Option (BitVec 8)) := (x.jobs.find? (·.1 == id)).map (·.2.2)

def hcqSize (x : IngestQueue) : Nat := 2 ^ x.hcqLog2.toNat
def hcqFull (x : IngestQueue) : Bool := (x.hcqTail.toNat + 1) % hcqSize x = x.hcqHead.toNat % hcqSize x

/-- The 32-byte host record. -/
def hostRecord (s : State) (x : IngestQueue) (r : WaitRet) : List Byte :=
  leBytes 8 r.tag.toNat ++ leBytes 1 (match r.status with | some v => v.toNat | none => 0xFF)
    ++ leBytes 1 (if x.hcqPhase then 128 else 0) ++ [0, 0] ++ leBytes 4 r.count.toNat
    ++ leBytes 8 ((r.afterJob.getD 0).toNat) ++ leBytes 8 s.time.toNat

/-- Copies the window to the host and writes the host record; MSI-X follows when VEC_EN is set. -/
def performReturn (q : Nat) (r : WaitRet) (s : State) : State :=
  let x := queueOf s q
  let src := x.winBase.toNat * granBytes + r.srcOff.toNat
  let s := if r.count = 0 then s else noteBytes {} false src r.count.toNat (touchIo src r.count.toNat s)
  let data : HostWrite := { addr := r.hostAddr, bytes := cohRead s src r.count.toNat, relaxed := Config.relaxedOn s.time }
  let rec' : HostWrite :=
    { addr := BitVec.ofNat 64 (64 * x.hcqBase.toNat + 32 * x.hcqTail.toNat), bytes := hostRecord s x r, relaxed := false }
  let s := { s with host := { s.host with out := s.host.out ++ (if r.count = 0 then [rec'] else [data, rec']) } }
  let s := updQueue s q fun x =>
    let n := (x.hcqTail.toNat + 1) % hcqSize x
    { x with waiting := none, hcqTail := BitVec.ofNat 32 n, hcqPhase := if n = 0 then !x.hcqPhase else x.hcqPhase }
  consume q 48 (if x.vecEn then raiseVector x.vector.toNat s else s)

/-- A waiting RETURN acts once its job has ended and the host ring has room. -/
def tryReturn (q : Nat) (s : State) : State :=
  let x := queueOf s q
  match x.waiting with
  | none => s
  | some r =>
    if x.state ≠ .run || hcqFull x then s
    else match r.afterJob with
      | none => performReturn q r s
      | some id =>
        match hostJob x id with
        | some (some st) => performReturn q { r with status := some st } s
        | _ => s

/-- RETURN: checked, then it acts or waits. -/
def returnAct (q : Nat) (s : State) : State :=
  if !atRecord s q 4 then s
  else
    let x := queueOf s q
    let h := headOf s q
    let b := ringRead s q (x.consumed.toNat + 16) 32
    let off := fieldAt b 8 8
    let n := fieldAt b 16 4
    let id := BitVec.ofNat 64 h.arg
    if fieldAt b 0 8 % 64 ≠ 0 || off % 64 ≠ 0 || n % 64 ≠ 0 || 2 ^ 24 < n || fieldAt b 20 4 ≠ 0 then malformed q badReturn s
    else if windowLen x < off + n then malformed q badRange s
    else if h.flags = 1 && (hostJob x id).isNone then malformed q badReturn s
    else
      let r : WaitRet := { hostAddr := BitVec.ofNat 64 (fieldAt b 0 8), srcOff := BitVec.ofNat 64 off, count := BitVec.ofNat 32 n,
                           tag := BitVec.ofNat 64 (fieldAt b 24 8), afterJob := if h.flags = 1 then some id else none, status := none }
      tryReturn q (updQueue s q fun x => { x with waiting := some r })

def writeHcqHead (q : Nat) (v : BitVec 16) (s : State) : State := tryReturn q (updQueue s q fun x => { x with hcqHead := v })

/-! ## Idle (R348) -/

def idleDue (s : State) (q : Nat) : Bool :=
  let x := queueOf s q
  x.state == .run && incomplete x && msTicks (objNat s 0x1010 2 250) ≤ since s x.lastLand && !queueWaits s q

def idleDiscardAct (q : Nat) (s : State) : State := if idleDue s q then idleDiscard q s else s

/-! ## The rows -/

/-- PCIE_LINK_UP (R36, R351). -/
def execPcieLinkUp (port : PcieId) (rate width : Nat) (s : State) : Host.Outcome State Fault Refusal := command (linkUp port rate width) s
/-- PCIE_LINK_DOWN (R36, R348, R351). -/
def execPcieLinkDown (port : PcieId) (s : State) : Host.Outcome State Fault Refusal := command (linkDown port) s
/-- FLR (R348, R349, R351). -/
def execFlr (s : State) : Host.Outcome State Fault Refusal := command (portAReset 0) s
/-- HOT_RESET (R348, R351). -/
def execHotReset (s : State) : Host.Outcome State Fault Refusal := command (portAReset 1) s
/-- AER_UNCORRECTABLE (R351). -/
def execAerUncorrectable (port : PcieId) (rid : BitVec 16) (status : BitVec 32) (s : State) : Host.Outcome State Fault Refusal :=
  command (aerLogged port rid.toNat status.toNat) s
/-- PORT_B_INTX (R282). -/
def execPortBIntx (n : BitVec 2) (level : Bool) (s : State) : Host.Outcome State Fault Refusal := command (portBInt n.toNat level) s
/-- PAIL_WRITE (R248, R340, R343, R345, R348). -/
def execPailWrite (addr : BitVec 28) (data : List Byte) (full : Bool) (s : State) : Host.Outcome State Fault Refusal :=
  command (pailWriteAct addr.toNat data full) s
/-- PAIL_DOORBELL (R248, R342, R345, R348). -/
def execPailDoorbell (q : QueueId) (bytes : BitVec 40) (seq : BitVec 16) (s : State) : Host.Outcome State Fault Refusal :=
  command (doorbell q.toNat bytes.toNat seq.toNat) s
/-- PAIL_RESYNC (R342, R348). -/
def execPailResync (q : QueueId) (v : BitVec 16) (s : State) : Host.Outcome State Fault Refusal := command (resync q.toNat v) s
/-- PAIL_IDLE_DISCARD (R348, R349). -/
def execPailIdleDiscard (q : QueueId) (s : State) : Host.Outcome State Fault Refusal := command (idleDiscardAct q.toNat) s
/-- INGEST_QUEUE_ENABLE (R341). -/
def execIngestQueueEnable (q : QueueId) (v : Bool) (s : State) : Host.Outcome State Fault Refusal := command (enableQueue q.toNat v) s
/-- DATA_RECORD (R344, R345). -/
def execDataRecord (q : QueueId) (s : State) : Host.Outcome State Fault Refusal := command (dataAct q.toNat) s
/-- JOB_RECORD (R344 to R346). -/
def execJobRecord (q : QueueId) (s : State) : Host.Outcome State Fault Refusal := command (jobAct q.toNat) s
/-- FENCE_RECORD (R344, R349). -/
def execFenceRecord (q : QueueId) (s : State) : Host.Outcome State Fault Refusal := command (fenceAct q.toNat) s
/-- RETURN_RECORD (R249, R344, R346, R347). -/
def execReturnRecord (q : QueueId) (s : State) : Host.Outcome State Fault Refusal := command (returnAct q.toNat) s
/-- RETURN_AFTER_JOB_READY (R346, R347). -/
def execReturnAfterJobReady (q : QueueId) (s : State) : Host.Outcome State Fault Refusal := command (tryReturn q.toNat) s
/-- HCQ_HEAD (R342, R347). -/
def execHcqHead (q : QueueId) (v : BitVec 16) (s : State) : Host.Outcome State Fault Refusal := command (writeHcqHead q.toNat v) s

end Sys2Proof.Machine
end

