-- ==== Sys2Proof/Machine/RegRead.lean ====
section
/-! DEFINITION. What the registers of the package's address map read (R9): each 64-bit register at an address, block by block. A
register that can only be written, and an address that no chapter defines, read zero. -/

namespace Sys2Proof.Machine

/-! ## The package control region -/

/-- The capability map (R33, R34), also mirrored in BAR0 (R340). -/
def capMapRead (s : State) (off : Nat) : Nat :=
  if off = 0 then mapHeader s
  else if off < 0x100 then 0
  else if off < 0x400 then siteWord s ((off - 0x100) / 8)
  else if off < 0x480 then if off % 16 = 0 then unitWord s ((off - 0x400) / 16) else 0
  else if off < 0x4A0 then fieldAt (coreBytes s ((off - 0x480) / 16)) (off % 16) 8
  else 0

/-- The dispatcher's registers (R191). -/
def dispatcherRead (s : State) (off : Nat) : Nat :=
  if off = 0 then s.nv.origin.toNat
  else if 0x10 ≤ off && off < 0x50 then
    let d := (off - 0x10) / 8
    match jobOn s d with
    | some k => ((jobOf s k).map (·.ctx.toNat)).getD 0 + 2 ^ 12 + 2 ^ 13 * (dieOf s d).seq.rank.toNat
    | none => 0
  else if 0x50 ≤ off && off < 0x90 then jobIdOn s ((off - 0x50) / 8)
  else 0

/-- The code of RAIL_STATE (R371). -/
def railCode (r : RailState) : Nat := match r with | .off => 0 | .softStart => 1 | .on => 2 | .fenced => 3 | .tripped => 4

/-- The power registers (R371). -/
def powerRead (s : State) (off : Nat) : Nat :=
  let p := s.power
  if off = 0x00 then p.est.toNat + 2 ^ 32 * p.meter.toNat
  else if off = 0x08 then
    p.vin.toNat + 2 ^ 16 * boolNat p.capped + 2 ^ 17 * boolNat p.fallback + 2 ^ 18 * boolNat p.thermal
  else if off = 0x10 then p.droopPauses.toNat
  else if 0x100 ≤ off && off < 0x300 && off % 16 = 0 then
    let i := (off - 0x100) / 16
    let r := railOf s i
    if !railSites.contains i then 0
    else r.setpoint.toNat + 2 ^ 12 * r.meas.toNat + 2 ^ 24 * r.throttle.toNat + 2 ^ 30 * r.level.toNat
      + 2 ^ 32 * r.tjMax.toNat + 2 ^ 40 * railCode r.state
  else 0

/-- The reset registers (R421). -/
def resetRead (s : State) (off : Nat) : Nat :=
  if off = 0x08 then s.su.lastCause.toNat + 2 ^ 16 * s.su.restarts.toNat + 2 ^ 32 * s.su.pkgResets.toNat
  else if off = 0x10 then s.su.readyTick.toNat
  else 0

/-- The Separator's registers (R160). -/
def separatorRead (s : State) (off : Nat) : Nat :=
  if off = 0x00 then freeCount s true + 2 ^ 32 * freeCount s false
  else if off = 0x08 then s.sep.logEntries.toNat + 2 ^ 12 * s.sep.cqBase.toNat
  else if off = 0x10 then s.sep.tail.toNat
  else if off = 0x18 then s.sep.head.toNat
  else if off = 0x20 then s.sep.placementFaults.toNat
  else if off = 0x28 then s.sep.migrations.toNat
  else if off = 0x30 then s.sep.inPlace.toNat
  else if off = 0x38 then s.sep.demoted.toNat
  else 0

/-- A context's quota block (R160). -/
def quotaRead (s : State) (c off : Nat) : Nat :=
  let q := quotaOf s c
  if off = 0x00 then q.hbmQuota.toNat + 2 ^ 32 * q.farQuota.toNat
  else if off = 0x08 then q.hbmUse.toNat + 2 ^ 32 * q.farUse.toNat
  else if off = 0x10 then
    boolNat q.overHbm + 2 * boolNat q.overFar + 4 * boolNat q.firstTier + 8 * boolNat q.pullDefault + 2 ^ 32 * hbmPinned s c
  else q.hand.toNat

/-- The interrupt target of a context: one register at two addresses (R173, R283). -/
def targetRead (x : Context) : Nat :=
  x.hart.toNat + 2 ^ 8 * x.file.toNat + 2 ^ 11 * boolNat x.msiEn + 2 ^ 32 * x.eiid.toNat

/-- The code of STATE of CTX_CFG (R173). -/
def ctxCode (z : CtxState) : Nat := match z with | .free => 0 | .active => 1 | .resetting => 2

/-- A context's register block (R173). -/
def contextRead (s : State) (c off : Nat) : Nat :=
  let x := ctxOf s c
  if off = 0x00 then
    ctxCode x.state + 4 * boolNat (x.state = .active) + 2 ^ 3 * x.priority.toNat + 2 ^ 8 * x.vmid.toNat
      + 2 ^ 22 * x.pasid.toNat + 2 ^ 42 * x.rcid.toNat
  else if off = 0x08 then targetRead x
  else if off = 0x10 then x.sqLog2.toNat + 2 ^ 12 * x.sqBase.toNat
  else if off = 0x18 then x.cqLog2.toNat + 2 ^ 12 * x.cqBase.toNat
  else if off = 0x20 then x.sqTail.toNat + 2 ^ 32 * x.sqHead.toNat
  else if off = 0x28 then x.cqTail.toNat + 2 ^ 32 * x.cqHead.toNat
  else if off = 0x30 then x.submitted.toNat
  else if off = 0x38 then x.completed.toNat
  else if off = 0x40 then x.failed.toNat
  else if off = 0x48 then x.killed.toNat
  else if off = 0x50 then x.rerun.toNat
  else 0

/-- A context's key status register (R385). -/
def keyStatusRead (s : State) (c : Nat) : Nat :=
  boolNat (SMap.find s.sec.memKeys c).isSome
    + 2 ^ 16 * (s.sec.laceKeys.filter fun (p : Nat × LaceKey) => p.2.ctx.toNat == c).length

/-- The capabilities register of the translation agent (R215; layout of the RISC-V IOMMU specification, log 20). -/
def agentCaps : Nat :=
  0x10 + 2 ^ 10 + 2 ^ 11 + 2 ^ 15 + 2 ^ 18 + 2 ^ 19 + 2 ^ 22 + 2 ^ 24 + 2 ^ 30 + 2 ^ 32 * 44 + 2 ^ 38 + 2 ^ 39 + 2 ^ 40

/-- The translation agent's register file (R215). -/
def agentRead (s : State) (off : Nat) : Nat := if off = 0 then agentCaps else iommuReg s off 8

/-- The package control region (R9). -/
def controlRead (s : State) (a : Nat) : Nat :=
  if 0x1000 ≤ a && a < 0x2000 then agentRead s (a - 0x1000)
  else if 0x8000 ≤ a && a < 0x8500 then capMapRead s (a - 0x8000)
  else if 0xC000 ≤ a && a < 0xC090 then dispatcherRead s (a - 0xC000)
  else if a = 0xD000 then s.dom.resets.toNat + 2 ^ 32 * s.dom.lastCause.toNat
  else if 0xE000 ≤ a && a < 0xE300 then powerRead s (a - 0xE000)
  else if 0xF000 ≤ a && a < 0xF018 then resetRead s (a - 0xF000)
  else if 0x10000 ≤ a && a < 0x10040 then separatorRead s (a - 0x10000)
  else if 0x20000 ≤ a && a < 0x40000 then quotaRead s ((a - 0x20000) / 0x20) (a % 0x20)
  else if 0x100000 ≤ a && a < 0x180000 then contextRead s ((a - 0x100000) / 0x80) (a % 0x80)
  else if 0x200000 ≤ a && a < 0x208000 then keyStatusRead s ((a - 0x200000) / 8)
  else 0

/-! ## Interrupt controllers (R281, R283) -/

/-- A source register of an APLIC domain: each domain shows the sources that are its own (log 31). -/
def ownSources (s : State) (dom : Nat) : List Nat := (List.range 64).filter fun i => 1 ≤ i && sourceDomain s i = dom

/-- A bit per source of a word, where a test holds. -/
def sourceBits (s : State) (dom k : Nat) (f : Nat → Bool) : Nat :=
  sumList (((ownSources s dom).filter fun i => i / 32 = k && f i).map fun i => 2 ^ (i % 32))

/-- A 32-bit register of an APLIC domain (layout of the RISC-V AIA, log 31). DELIVERY MODE reads MSI. -/
def aplicRead (s : State) (dom off : Nat) : Nat :=
  let k := off % 0x80 / 4
  if off = 0 then 0x80000004 + 2 ^ 8 * bits (aplicReg s dom 0) 8 1
  else if off < 0x100 then
    if dom = 0 || sourceDomain s (off / 4) = 1 then aplicReg s dom off else 0
  else if 0x1BC0 ≤ off && off < 0x1BD0 then if dom = 0 then aplicReg s 0 off else 0
  else if 0x1C00 ≤ off && off < 0x1C08 then sourceBits s dom k fun i => s.cluster.pend.getLsbD i
  else if 0x1D00 ≤ off && off < 0x1D08 then sourceBits s dom k fun i => s.cluster.wires.getLsbD i
  else if 0x1E00 ≤ off && off < 0x1E08 then aplicReg s dom off
  else if 0x3000 ≤ off && off < 0x3100 then
    if off = 0x3000 || sourceDomain s ((off - 0x3000) / 4) = dom then aplicReg s dom off else 0
  else 0

/-- The interrupt controllers' range (R281). Absent harts read zero. -/
def irqRead (s : State) (a : Nat) : Nat :=
  if 0x01700000 ≤ a && a < 0x01704000 then aplicRead s 0 (a - 0x01700000) + 2 ^ 32 * aplicRead s 0 (a - 0x01700000 + 4)
  else if 0x01710000 ≤ a && a < 0x01714000 then aplicRead s 1 (a - 0x01710000) + 2 ^ 32 * aplicRead s 1 (a - 0x01710000 + 4)
  else if 0x01800000 ≤ a && a < 0x01800000 + 8 * 144 then
    let h := (a - 0x01800000) / 8
    if hartPresent s h then (hartOf s h).mtimecmp.toNat else 0
  else if a = 0x01807FF8 then s.time.toNat
  else if 0x01F00000 ≤ a && a < 0x01F10000 then
    let c := (a - 0x01F00000) / 16
    let x := ctxOf s c
    if a % 16 = 0 then targetRead x
    else x.droppedMsis.toNat + 2 ^ 32 * min 0xFFFF (s.disp.msis.filter (·.toNat == c)).length
  else 0

/-! ## Compute dies and processor dies -/

/-- The code of STATE of SEQ_STATE (R122). -/
def seqCode (z : SeqState) : Nat :=
  match z with | .idle => 0 | .checking => 1 | .running => 2 | .waiting => 3 | .committing => 4 | .killing => 5

/-- The sequencer's registers (R122); `q` counts the ticks of a WAIT under way. -/
def seqRead (q : Seq) (off : Nat) : Nat :=
  if off = 0x00 then seqCode q.state + 2 ^ 8 * q.rank.toNat + 2 ^ 12 * q.gang.toNat + 2 ^ 16 * q.command.toNat
  else if off = 0x08 then q.step.toNat
  else if off = 0x10 then q.bundles.toNat
  else if off = 0x18 then q.fetchedWords.toNat
  else if off = 0x20 then q.discardedWords.toNat
  else if off = 0x28 then q.waitTicks.toNat
  else if off = 0x30 then q.lastEvent.toNat + 2 ^ 16 * q.lastWord.toNat
  else 0

/-- A Churn unit's registers (R146). It is BUSY while it is occupied at the next step. -/
def churnRead (s : State) (d u off : Nat) : Nat :=
  let x := dieOf s d
  let y := SMap.get {} x.churn u
  let busy := x.seq.nextStep < SMap.get 0 x.occ (churnUnitKey u)
  let st := if !(unitMapOf s d).churn.getLsbD u then 3 else if !busy then 0 else if paused s d then 2 else 1
  if off = 0x00 then st + 2 ^ 8 * y.lastOp.toNat
  else if off = 0x08 then y.opsIssued.toNat
  else if off = 0x10 then y.elements.toNat
  else if off = 0x18 then y.panRead.toNat
  else if off = 0x20 then y.panWritten.toNat
  else if off = 0x28 then y.specialOps.toNat
  else 0

/-- STATE and LOGICAL of a physical vat, from the capability map (R34, R66). -/
def vatState (u : UnitMap) (k : Nat) : Nat × Nat :=
  if k = 16 then
    if u.spareFor ≠ 0xFF then (0, u.spareFor.toNat) else if u.spareFree then (1, 0xFF) else (2, 0xFF)
  else if u.vats.getLsbD k && u.spareFor.toNat ≠ k then (0, k) else (2, 0xFF)

/-- The mode of the round-engine load that is writing a slot of logical vat k, if one is (R66, R165). -/
def roundLoading (x : DieSt) (k i : Nat) : Option Nat :=
  if !atWork x.seq.state then none
  else (loadable x k).bind fun n =>
    let e := roundEnt (roundImg x) n
    if (slotSpan e.wmode e.slot).contains i then some e.wmode else none

/-- A SLOT field of VAT_STATE: EMPTY, COMMAND, JOB or LOADING, and the weight mode (R66); a slot whose tag is stale is EMPTY (R389). -/
def slotCode (x : DieSt) (logical phys i : Nat) : Nat :=
  let z := slotNow x phys i
  match roundLoading x logical i with
  | some m => 3 + 4 * m
  | none =>
    (if z.loading then 3 else match z.kind with | .empty => 0 | .command => 1 | .job => 2)
      + 4 * ((z.data.map (·.wmode.toNat)).getD 0)

/-- A physical vat's registers (R66). -/
def vatRead (s : State) (d k off : Nat) : Nat :=
  let x := dieOf s d
  let y := pvatOf x k
  let z := vatState (unitMapOf s d) k
  let slot := slotCode x z.2 k
  if off = 0x00 then
    z.1 + 2 ^ 8 * z.2 + 2 ^ 16 * y.mismatches.toNat + 2 ^ 24 * slot 0 + 2 ^ 28 * slot 1 + 2 ^ 32 * slot 2 + 2 ^ 36 * slot 3
  else if off = 0x08 then (y.last.getD 0).toNat
  else if off = 0x10 then y.vectorsIn.toNat
  else if off = 0x18 then y.feederDry.toNat
  else if off = 0x20 then y.drainBacked.toNat
  else if off = 0x28 then y.rowsLoaded.toNat
  else 0

/-- A partition's registers (R209). -/
def servingRead (p : Partition) (off : Nat) : Nat :=
  if off = 0x00 then
    boolNat p.enable + 2 * boolNat p.stop + 2 ^ 8 * p.bind.toNat + 2 ^ 16 * p.context.toNat + 2 ^ 32 * p.stepPan.toNat
      + 2 ^ 44 * p.resultPan.toNat
  else if off = 0x08 then 2 ^ 12 * p.tableVa.toNat
  else if off = 0x10 then p.aqLog2.toNat + 2 ^ 12 * p.aqBase.toNat
  else if off = 0x18 then p.aqTail.toNat + 2 ^ 32 * p.aqHead.toNat
  else if off = 0x20 then p.poolLog2.toNat + 2 ^ 12 * p.poolBase.toNat
  else if off = 0x28 then p.poolTail.toNat + 2 ^ 32 * p.poolHead.toNat
  else if off = 0x30 then p.gatherLog2.toNat + 2 ^ 12 * p.gatherVa.toNat
  else if off = 0x38 then
    p.stepLimit.toNat + 2 ^ 16 * p.chunk.toNat + 2 ^ 32 * p.admitLimit.toNat + 2 ^ 48 * p.joinLimit.toNat
  else if off = 0x40 then p.pageLog2.toNat + 2 ^ 8 * p.kvLists.toNat + 2 ^ 32 * p.maxPages.toNat
  else if off = 0x48 then p.steps.toNat
  else if off = 0x50 then p.active.toNat + 2 ^ 32 * p.pendingJoin.toNat
  else if off = 0x58 then p.kvWaits.toNat
  else if off = 0x60 then p.ringWaits.toNat
  else if off = 0x68 then p.joinRejects.toNat
  else if off = 0x70 then p.resultErrors.toNat
  else 0

/-- A die's translation counters (R229). WALKERS_BUSY counts the walkers that are active: those of walks that wait (R218, R222). -/
def transRead (x : DieSt) (off : Nat) : Nat :=
  let t := x.tr
  if off = 0x00 then t.iotlbHits.toNat
  else if off = 0x08 then t.walks.toNat
  else if off = 0x10 then t.coalesced.toNat
  else if off = 0x18 then t.pageRequests.toNat
  else if off = 0x20 then t.budgetExpired.toNat
  else if off = 0x28 then walkersBusy x
  else 0

/-- A home's registers (R269); it holds every line of a granule that moves away BUSY (R155). -/
def homeRead (s : State) (h off : Nat) : Nat :=
  let y := SMap.get {} s.dom.homes h
  let mine := fun (l : Nat) => homeOf s (64 * l) == h
  let moving := s.moves.filter fun (p : Nat × Move) => homeOf s (granuleAddr p.1) == h
  if off = 0x00 then
    (s.dom.busy.filter fun (p : Nat × Busy) => mine p.1).length + 1024 * moving.length
      + 2 ^ 32 * (sumList ((s.dom.queue.filter fun (p : Nat × List (Nat × CohReq)) => mine p.1).map fun p => p.2.length)
        + sumList (moving.map fun p => p.2.queued.length))
  else if off = 0x08 then y.atomics.toNat
  else if off = 0x10 then y.reduces.toNat
  else if off = 0x18 then y.recalls.toNat
  else if off = 0x20 then y.poisoned.toNat
  else if off = 0x28 then y.corrected.toNat
  else 0

/-- The capabilities register of a CBQRI controller (R287; layout of the RISC-V CBQRI specification, log 68). -/
def cbqriCaps (c : Nat) : Nat :=
  match ctrlWays c with
  | some w => 0x10 + 2 ^ 8 * w + 2 ^ 24
  | none => 0x10 + 2 ^ 8 * 1024 + 2 ^ 32 * 819

/-- A CBQRI controller's registers (R287). -/
def cbqriRead (s : State) (c off : Nat) : Nat :=
  if off = 0 then cbqriCaps c else if off < 0x28 then ByteMap.num s.cluster.cbRegs (0x100 * c + off) 8 else 0

/-- A compute die's block (R9). -/
def dieRead (s : State) (d off : Nat) : Nat :=
  if 0x20000 ≤ off && off < 0x20038 then seqRead (endWait s.time (dieOf s d)).seq (off - 0x20000)
  else if 0x30000 ≤ off && off < 0x30100 then churnRead s d ((off - 0x30000) / 0x40) (off % 0x40)
  else if 0x40000 ≤ off && off < 0x40440 then vatRead s d ((off - 0x40000) / 0x40) (off % 0x40)
  else if 0x50000 ≤ off && off < 0x50078 then servingRead (partOf s d) (off - 0x50000)
  else if 0x60000 ≤ off && off < 0x60030 then transRead (dieOf s d) (off - 0x60000)
  else if 0x70000 ≤ off && off < 0x70030 then homeRead s d (off - 0x70000)
  else if 0x80000 ≤ off && off < 0x81000 then cbqriRead s (2 + d) (off - 0x80000)
  else 0

/-- A processor die's block (R9). -/
def procRead (s : State) (m off : Nat) : Nat :=
  if 0x70000 ≤ off && off < 0x70030 then homeRead s (8 + m) (off - 0x70000)
  else if 0x80000 ≤ off && off < 0x81000 then cbqriRead s m (off - 0x80000)
  else if 0x90000 ≤ off && off < 0x91000 then cbqriRead s (10 + m) (off - 0x90000)
  else 0

/-! ## Memory controllers (R334) -/

def unitRead (s : State) (u off : Nat) : Nat :=
  let x := unitOf s u
  if off = 0x00 then x.granules.toNat + 2 ^ 24 * x.spares.toNat + 2 ^ 32 * x.mtype.toNat + 2 ^ 36 * x.rate.toNat
  else if off = 0x08 then x.corrected.toNat
  else if off = 0x10 then x.uncorrected.toNat
  else if off = 0x18 then (SMap.get [] s.nv.lists u).length
  else if off = 0x20 then x.xfer0.toNat
  else if off = 0x28 then x.xfer1.toNat
  else if off = 0x30 then x.xfer2.toNat
  else if off = 0x38 then x.xfer3.toNat
  else if off = 0x40 then x.capped.toNat
  else if off = 0x48 then x.scrubPasses.toNat
  else 0

def memoryRead (s : State) (a : Nat) : Nat :=
  if a < 0x30100000 then if a % 0x10000 < 0x50 then unitRead s ((a - 0x30000000) / 0x10000) (a % 0x10000) else 0
  else if 0x30400000 ≤ a && a < 0x30500000 then
    if a % 0x10000 < 0x50 then unitRead s (16 + (a - 0x30400000) / 0x10000) (a % 0x10000) else 0
  else if 0x30800000 ≤ a && a < 0x30810000 then cbqriRead s (12 + (a - 0x30800000) / 0x1000) (a % 0x1000)
  else if 0x30810000 ≤ a && a < 0x30820000 then cbqriRead s (28 + (a - 0x30810000) / 0x1000) (a % 0x1000)
  else 0

/-! ## Eyelets, partners, membership (R299, R317) -/

/-- The code of an eyelet's STATE (R317). -/
def eyeCode (z : EyeState) : Nat := match z with | .down => 0 | .training => 1 | .up => 2 | .absent => 3

def eyeRead (x : Eyelet) (off : Nat) : Nat :=
  if off = 0x00 then
    eyeCode x.state + 2 ^ 2 * x.tx.active.toNat + 2 ^ 6 * x.rx.active.toNat + 2 ^ 10 * x.tx.lost.toNat + 2 ^ 19 * x.rx.lost.toNat
  else if off = 0x08 then x.flitsTx.toNat
  else if off = 0x10 then x.replays.toNat
  else if off = 0x18 then x.fecCorrected.toNat
  else 0

def partnerRead (e : Partner) (off : Nat) : Nat :=
  if off = 0x00 then
    boolNat e.valid + 2 * e.lstate.toNat + 2 ^ 3 * e.neye.toNat + 2 ^ 5 * e.eyes.toNat + 2 ^ 25 * e.keySlot.toNat
      + 2 ^ 37 * e.rxContext.toNat
  else if off = 0x08 then 2 ^ 16 * e.winBase.toNat
  else if off = 0x10 then e.winGranules.toNat
  else if off = 0x18 then e.rxJob.toNat
  else if off = 0x20 then e.stagedBytes.toNat
  else if off = 0x28 then e.lateDropped.toNat + 2 ^ 32 * e.authFailed.toNat
  else if off = 0x30 then e.commitsApplied.toNat
  else 0

/-- VIEW: bit p is set when package p is a member (R317). -/
def viewRead (s : State) (off : Nat) : Nat :=
  sumList ((s.lacing.memb.view.filter fun p => p / 64 = off / 8).map fun p => 2 ^ (p % 64))

def membRead (s : State) (off : Nat) : Nat :=
  let m := s.lacing.memb
  if off = 0x00 then 2 ^ 16 * m.stageBase.toNat
  else if off = 0x08 then m.stageSize.toNat + 2 ^ 32 * stageUsed s
  else if off = 0x10 then m.epoch.toNat + 2 ^ 32 * mstateCode m.mstate
  else if 0x1000 ≤ off && off < 0x1400 then viewRead s (off - 0x1000)
  else 0

def laceRead (s : State) (a : Nat) : Nat :=
  if a < 0x40000800 then eyeRead (eyeOf s ((a - 0x40000000) / 0x40)) (a % 0x40)
  else if 0x40100000 ≤ a && a < 0x40180000 then partnerRead (partnerOf s ((a - 0x40100000) / 0x40)) (a % 0x40)
  else if 0x40200000 ≤ a && a < 0x40201400 then membRead s (a - 0x40200000)
  else 0

/-! ## Host port (R340 to R342) -/

/-- The package side of an ingest queue (R341). -/
def ingestRead (x : IngestQueue) (off : Nat) : Nat :=
  if off = 0x00 then boolNat x.enable + 2 * boolNat x.jobEn + 2 ^ 2 * x.context.toNat
  else if off = 0x08 then 2 ^ 18 * x.ringBase.toNat
  else if off = 0x10 then 2 ^ 16 * x.winBase.toNat
  else x.winGranules.toNat

/-- The code of a queue's STATE (R342). -/
def queueCode (z : IqState) : Nat := match z with | .disabled => 0 | .run => 1 | .discard => 2

/-- The host side of an ingest queue (R342). -/
def hostQueueRead (x : IngestQueue) (off : Nat) : Nat :=
  if off = 0x08 then queueCode x.state + 2 ^ 8 * x.cause.toNat + 2 ^ 16 * x.curSeq.toNat
  else if off = 0x10 then x.consumed.toNat
  else if off = 0x20 then 2 ^ 6 * x.hcqBase.toNat
  else if off = 0x28 then x.hcqLog2.toNat + 2 ^ 8 * x.vector.toNat + 2 ^ 17 * boolNat x.vecEn + 2 ^ 32 * x.hcqTail.toNat
  else if off = 0x30 then x.lateDropped.toNat + 2 ^ 32 * x.discards.toNat
  else if off = 0x38 then x.hcqHead.toNat
  else 0

/-- A mailbox (R409). -/
def mailboxRead (m : Mailbox) (off : Nat) : Nat :=
  if off = 0x08 then m.state.toNat + 2 ^ 16 * m.respLen.toNat
  else if 0x1000 ≤ off && off < 0x1800 then ByteMap.num m.request (off - 0x1000) 8
  else if 0x2000 ≤ off && off < 0x2800 then ByteMap.num m.response (off - 0x2000) 8
  else 0

/-- The MSI-X table, its mask bits, and the pending bit array (R340; layout of PCI Express, log 32). -/
def msixRead (s : State) (off : Nat) : Nat :=
  if off < 16 * 257 then
    let masked := off % 16 = 8 && !s.host.msixOpen.contains (off / 16)
    ByteMap.num s.host.msixTable off 8 + (if masked then 2 ^ 32 else 0)
  else if 0x2000 ≤ off && off < 0x2028 then
    sumList ((s.host.msixPend.filter fun v => v / 64 = (off - 0x2000) / 8).map fun v => 2 ^ (v % 64))
  else 0

/-- BAR0 of Port A as an endpoint (R340). -/
def bar0Read (s : State) (off : Nat) : Nat :=
  if !endpointA s then 0
  else if off < 0x10000 then mailboxRead s.dict.mbox0 off
  else if off < 0x10500 then capMapRead s (off - 0x10000)
  else if 0x100000 ≤ off && off < 0x104000 then hostQueueRead (queueOf s ((off - 0x100000) / 0x40)) (off % 0x40)
  else if 0x200000 ≤ off && off < 0x203000 then msixRead s (off - 0x200000)
  else 0

/-! ## The MMIO mirror (R409, R410) -/

/-- A 64-bit read of the direct window: the value zero-extended, or sign-extended for I32; zero for everything that the window
does not show. -/
def windowRead (s : State) (index sub : Nat) : Nat :=
  match readObject s 0 0 index sub with
  | (st, ty, v) =>
    if st ≠ dOk || ty = 7 || ty = 8 then 0
    else if ty = 5 then (signed 32 (leNat v) % 2 ^ 64).toNat
    else leNat v % 2 ^ 64

def mirrorRead (s : State) (a : Nat) : Nat :=
  if a < 0x68000000 then windowRead s ((a - 0x60000000) / 0x800) (a % 0x800 / 8)
  else mailboxRead s.dict.mbox1 (a - 0x68000000)

/-! ## The map (R9) -/

/-- BAR0 offsets of Port A stand above every physical address in the model's operands (log 84). -/
def bar0Base : Nat := 2 ^ 64 - 2 ^ 26

/-- The 64-bit register at an address that is a multiple of 8 (R9). -/
def regRead (s : State) (a : Nat) : Nat :=
  if a < 0x01000000 then controlRead s a
  else if a < 0x02000000 then irqRead s a
  else if 0x10000000 ≤ a && a < 0x18000000 then dieRead s ((a - 0x10000000) / 0x01000000) (a % 0x01000000)
  else if 0x20000000 ≤ a && a < 0x22000000 then procRead s ((a - 0x20000000) / 0x01000000) (a % 0x01000000)
  else if 0x30000000 ≤ a && a < 0x30820000 then memoryRead s a
  else if 0x40000000 ≤ a && a < 0x40201400 then laceRead s a
  else if 0x50010000 ≤ a && a < 0x50012000 then ingestRead (queueOf s ((a - 0x50010000) / 0x20)) (a % 0x20)
  else if 0x60000000 ≤ a && a < 0x70000000 then mirrorRead s a
  else if bar0Base ≤ a then bar0Read s (a - bar0Base)
  else 0

/-- The bytes an access of n bytes reads inside one register. -/
def regBytes (s : State) (a n : Nat) : List Byte := leBytes n (bits (regRead s (a / 8 * 8)) (8 * (a % 8)) (8 * n))

end Sys2Proof.Machine
end

