-- ==== Sys2Proof/Machine/Serving.lean ====
section
/-! DEFINITION. Serving streams (R194 to R211): the stream table, admission, the step boundary and the partition's commands. -/

namespace Sys2Proof.Machine

/-! ## Table entries (R195) -/

/-- A stream table entry. -/
structure Stream where
  state : Nat
  ctl : Nat
  position : Nat
  maxLen : Nat
  endToken : Nat
  kvDir : Nat
  outVa : Nat
  outLog2 : Nat
  promptLen : Nat
  npages : Nat
  served : Nat
  cause : Nat
  deriving DecidableEq, Repr

def streamOf (b : List Byte) : Stream :=
  let f := fieldAt b
  { state := bits (f 0 1) 0 3, ctl := f 1 1, position := f 4 4, maxLen := f 8 4, endToken := f 12 4, kvDir := f 24 8,
    outVa := f 32 8, outLog2 := f 40 1, promptLen := f 44 4, npages := f 64 4, served := f 68 4, cause := f 72 1 }

def stIdle : Nat := 0
def stPending : Nat := 1
def stActive : Nat := 2
def stDraining : Nat := 3
def stDoneStream : Nat := 4

/-- What the step builder carries through a boundary: the first access that did not succeed stops it (R206). -/
abbrev Builder := Option MemStop × State

/-- Runs one access of the builder unless an earlier one failed. -/
def build (f : State → Builder) (b : Builder) : Builder := match b.1 with | some _ => b | none => f b.2

def buildPut (n va : Nat) (bs : List Byte) (b : Builder) : Builder :=
  build (fun s => match buildWrite n va bs s with | (.ok _, s) => (none, s) | (.error a, s) => (some a, s)) b

/-- Reads bytes and goes on with them. -/
def buildGet (n va len : Nat) (f : List Byte → State → Builder) (b : Builder) : Builder :=
  build (fun s => match buildRead n va len s with | (.ok x, s) => f x s | (.error a, s) => (some a, s)) b

/-- Writes a field of a table entry. -/
def putField (n i off len v : Nat) (b : Builder) : Builder := buildPut n (entryVa b.2 n i + off) (leBytes len v) b

/-- Reads a table entry and goes on with it. -/
def withStream (n i : Nat) (f : Stream → State → Builder) (b : Builder) : Builder :=
  buildGet n (entryVa b.2 n i) 128 (fun x s => f (streamOf x) s) b

/-- Applies the builder to each member of a list in order. -/
def buildEach {α : Type} (l : List α) (f : α → Builder → Builder) (b : Builder) : Builder := l.foldl (fun b x => f x b) b

/-- A change of the partition's own registers. -/
def buildPart (n : Nat) (f : Partition → Partition) (b : Builder) : Builder := build (fun s => (none, updPart s n f)) b

/-! ## Step 1: results (R202) -/

/-- LIMIT of a stream at a position (R203). -/
def limitAt (p : Partition) (promptLen pos : Nat) : Nat :=
  if pos < promptLen then min p.chunk.toNat (promptLen - pos) else 1

/-- A leave cause a result gives its stream, in R202's order: end token, maximum length, stop. -/
def leaveCause (z : Stream) (pos tok : Nat) (emit stop : Bool) : Option Nat :=
  if emit && tok = z.endToken && z.endToken ≠ 0xFFFFFFFF then some 1
  else if z.maxLen - 1 ≤ pos then some 2
  else if stop then some 3
  else none

/-- Marks a stream as leaving with a cause: LEAVE_CAUSE is written at once, DRAINING with it. -/
def markLeave (n i cause : Nat) (b : Builder) : Builder := putField n i 0 1 stDraining (putField n i 72 1 cause b)

/-- Applies one slot's result entry. -/
def applyResult (n slot : Nat) (z : ServeSlot) (r : Nat) (b : Builder) : Builder :=
  withStream n z.index (fun e s =>
    let tok := bits r 0 32
    let adv := bits r 32 16
    let emit := bits r 48 1 = 1
    let stop := bits r 49 1 = 1
    if z.limit < adv || (emit && e.position + adv < e.promptLen) || bits r 50 14 ≠ 0 then
      (none, post 0x0522 n [n, slot, 16384 * n + z.index]
        (updPart s n fun p => { p with resultErrors := bump p.resultErrors }))
    else
      let pos := e.position + adv
      let b := putField n z.index 4 4 pos (none, s)
      let b := if emit then
          buildGet n e.outVa 4 (fun h s =>
            let tail := leNat h
            buildPut n e.outVa (leBytes 4 ((tail + 1) % 2 ^ 32))
              (buildPut n (e.outVa + 64 + 4 * (tail % 2 ^ e.outLog2)) (leBytes 4 tok) (none, s))) b
        else b
      match leaveCause e pos tok emit stop with
      | some c => markLeave n z.index c b
      | none => b) b

/-- The result entries of the ended step, from the result pan of Cn, which are then zeroed (log 64). -/
def takeResults (n : Nat) (slots : List ServeSlot) (s : State) : List Nat × State :=
  let pan := (partOf s n).resultPan.toNat
  let x := dieOf s n
  match x.image with
  | none => ([], s)
  | some img =>
    let base := (panEnt img pan).base
    let lines := (8 * slots.length + 63) / 64
    let b := (List.range lines).flatMap fun l => sramLine x (base + l)
    let zero := fun (x : DieSt) => (List.range lines).foldl (fun x l =>
      putSramLine (base + l) (lineMask 0 (min 64 (8 * slots.length - 64 * l))) (zeros 64) x) x
    ((List.range slots.length).map fun i => fieldAt b (8 * i) 8, updDie s n zero)

/-! ## Step 2: admission (R199, R200) -/

/-- Whether a JOIN into an entry is accepted. -/
def joinOk (p : Partition) (e : Stream) (q : List Byte) : Bool :=
  let z := streamOf (zeros 8 ++ (q.drop 8).take 56 ++ zeros 64)
  (e.state = stIdle || e.state = stDoneStream) && z.maxLen ≠ 0 && z.maxLen ≤ p.maxPages.toNat * 2 ^ p.pageLog2.toNat
    && z.promptLen ≠ 0 && z.promptLen < z.maxLen && 4 ≤ z.outLog2 && z.outLog2 ≤ 24 && z.kvDir % 8 = 0 && z.outVa % 64 = 0

def rejectJoin (n : Nat) (q : List Byte) (entry : Nat) (s : State) : State :=
  post 0x0520 n [n, fieldAt q 2 2, entry] (updPart s n fun p => { p with joinRejects := bump p.joinRejects })

/-- Reads one admission entry. A local index above 16,383 names no entry, so its JOIN is rejected (log 62). -/
def readAdmission (n : Nat) (b : Builder) : Builder :=
  let p := partOf b.2 n
  let at' := p.aqHead.toNat % ringSize p.aqLog2.toNat
  let advance := buildPart n fun p =>
    { p with aqHead := BitVec.ofNat 16 ((at' + 1) % ringSize p.aqLog2.toNat) }
  let b := buildGet n (p.aqBase.toNat * 4096 + 64 * at') 64 (fun q s =>
    let i := fieldAt q 2 2
    let op := fieldAt q 0 1
    if i ≥ 16384 then (none, if op = 2 then s else rejectJoin n q at' s)
    else withStream n i (fun e s =>
      if op = 2 then
        if e.state = stPending || e.state = stActive then
          (none, updPart s n fun p => { p with cancels := p.cancels ++ [i] })
        else (none, s)
      else if op = 1 && joinOk p e q then
        let b := buildPut n (entryVa s n i + 1) ((q.drop 1).take 1 ++ zeros 6 ++ (q.drop 8).take 56 ++ zeros 9) (none, s)
        buildPart n (fun p => { p with joined := p.joined ++ [i] }) (putField n i 0 1 stPending b)
      else (none, rejectJoin n q at' s)) (none, s)) b
  advance b

def readAdmissions (n : Nat) : Nat → Builder → Builder
  | 0, b => b
  | k + 1, b =>
    let p := partOf b.2 n
    if p.aqHead.toNat % ringSize p.aqLog2.toNat = p.aqTail.toNat % ringSize p.aqLog2.toNat then b
    else readAdmissions n k (readAdmission n b)

/-! ## Step 3: leaves (R202) -/

/-- A stream leaves: the ring TAIL as it stands, LEAVE_CAUSE and STATE DONE are written in that order; NOTIFY sends an MSI. -/
def finishStream (n i : Nat) (b : Builder) : Builder :=
  withStream n i (fun e s =>
    let b := buildGet n e.outVa 4 (fun t s => buildPut n e.outVa t (none, s)) (none, s)
    let b := putField n i 0 1 stDoneStream (putField n i 72 1 e.cause b)
    build (fun s => (none, if bits e.ctl 3 1 = 1 then requestMsi (partOf s n).context.toNat s else s)) b) b

/-- A CANCEL takes effect on a stream that no earlier cause has marked. -/
def cancelStream (n i : Nat) (b : Builder) : Builder :=
  withStream n i (fun e s =>
    if e.state = stActive then markLeave n i 4 (none, s)
    else if e.state = stPending then
      buildPart n (fun p => { p with joined := p.joined.filter (· != i) }) (markLeave n i 4 (none, s))
    else (none, s)) b

/-- The entries of the table by index, from its bytes. -/
def streamsRead (r : Built (List Byte) × State) : Built (List (Nat × Stream)) × State :=
  match r with
  | (.ok b, s) => (.ok ((List.range 16384).map fun i => (i, streamOf ((b.drop (128 * i)).take 128))), s)
  | (.error a, s) => (.error a, s)

/-- Every entry of the table, as the builder reads it. -/
def tableStreams (n : Nat) (s : State) : Built (List (Nat × Stream)) × State :=
  streamsRead (buildRead n (entryVa s n 0) (16384 * 128) s)

/-- Goes on with the streams of a table that could be read. -/
def tableThen (f : List (Nat × Stream) → State → Builder) (r : Built (List (Nat × Stream)) × State) : Builder :=
  match r with
  | (.ok l, s) => f l s
  | (.error a, s) => (some a, s)

def withTable (n : Nat) (f : List (Nat × Stream) → State → Builder) (b : Builder) : Builder :=
  build (fun s => tableThen f (tableStreams n s)) b

def applyLeaves (n : Nat) (b : Builder) : Builder :=
  let b := buildEach (partOf b.2 n).cancels (cancelStream n) b
  let b := buildPart n (fun p => { p with cancels := [] }) b
  withTable n (fun l s => buildEach ((l.filter fun e => e.2.state = stDraining).map (·.1)) (finishStream n) (none, s)) b

/-! ## Step 4: admission to ACTIVE and the active set (R196, R203) -/

/-- Admits PENDING_JOIN streams in join order while fewer than ADMIT_LIMIT are ACTIVE. -/
def admitStreams (n : Nat) (b : Builder) : Builder :=
  withTable n (fun l s =>
    let p := partOf s n
    let active := (l.filter fun e => e.2.state = stActive).length
    let inTable := (l.filter fun e => e.2.state = stPending).map (·.1)
    let order := p.joined.filter inTable.contains ++ inTable.filter fun i => !p.joined.contains i
    let take := order.take (p.admitLimit.toNat - active)
    let b := buildEach take (fun i b => putField n i 0 1 stActive b) (none, s)
    buildPart n (fun p =>
      { p with joined := p.joined.filter (fun i => !take.contains i), active := BitVec.ofNat 32 (active + take.length),
               pendingJoin := BitVec.ofNat 32 (inTable.length - take.length) }) b) b

/-- Pages per list that positions up to POSITION + LIMIT − 1 need. -/
def pagesFor (p : Partition) (pos limit : Nat) : Nat := (pos + limit + 2 ^ p.pageLog2.toNat - 1) / 2 ^ p.pageLog2.toNat

/-- Pages the pool still holds. -/
def poolHas (p : Partition) : Nat := (p.poolTail - p.poolHead).toNat

/-- Takes one page for (list, page) of a stream: its address goes into the directory. -/
def takePage (n kvDir list page : Nat) (b : Builder) : Builder :=
  let p := partOf b.2 n
  let b := buildGet n (p.poolBase.toNat * 4096 + 8 * (p.poolHead.toNat % ringSize p.poolLog2.toNat)) 8 (fun a s =>
    buildPut n (kvDir + 8 * (list * p.maxPages.toNat + page)) a (none, s)) b
  buildPart n (fun p => { p with poolHead := p.poolHead + 1 }) b

/-- What the selection carries: slots chosen, gather entries used, and whether it has stopped at an eligible stream or after one. -/
structure Pick where
  slots : List ServeSlot
  gather : Nat
  full : Bool
  deriving DecidableEq, Repr

def noPick : Pick := { slots := [], gather := 0, full := false }

/-- Considers one ACTIVE stream for the active set (R203). -/
def pickStream (n : Nat) (i : Nat) (a : Pick × Builder) : Pick × Builder :=
  let (k, b) := a
  if k.full || b.1.isSome then a
  else
    match buildRead n (entryVa b.2 n i) 128 b.2 with
    | (.error e, s) => (k, (some e, s))
    | (.ok x, s) =>
      let z := streamOf x
      let p := partOf s n
      match buildRead n z.outVa 8 s with
      | (.error e, s) => (k, (some e, s))
      | (.ok h, s) =>
        if 2 ^ z.outLog2 ≤ (fieldAt h 0 4 + 2 ^ 32 - fieldAt h 4 4) % 2 ^ 32 then
          (k, (none, updPart s n fun p => { p with ringWaits := bump p.ringWaits }))
        else
          let limit := limitAt p z.promptLen z.position
          let pages := pagesFor p z.position limit
          let lists := p.kvLists.toNat
          let want := (pages - z.npages) * lists
          if poolHas p < want then
            let s := updPart s n fun q => { q with kvWaits := bump q.kvWaits, poolPosted := true }
            (k, (none, if p.poolPosted then s else post 0x0521 n [n, want] s))
          else if 2 ^ p.gatherLog2.toNat < k.gather + pages * lists then ({ k with full := true }, (none, s))
          else
            let news := (List.range (pages - z.npages)).flatMap fun q => (List.range lists).map fun l => (l, z.npages + q)
            let b := buildEach news (fun (q : Nat × Nat) b => takePage n z.kvDir q.1 q.2 b) (none, s)
            let b := putField n i 68 4 ((z.served + 1) % 2 ^ 32) (putField n i 64 4 (max z.npages pages) b)
            let slot : ServeSlot := { index := i, position := z.position, limit, pages, goff := k.gather }
            let k : Pick := { slots := k.slots ++ [slot], gather := k.gather + pages * lists, full := false }
            ({ k with full := k.slots.length = p.stepLimit.toNat }, b)

/-- Inserts before the first member it comes before. -/
def insertBy {α : Type} (before : α → α → Bool) (a : α) : List α → List α
  | [] => [a]
  | b :: l => if before a b then a :: b :: l else b :: insertBy before a l

def sortBy {α : Type} (before : α → α → Bool) (l : List α) : List α := l.foldr (insertBy before) []

/-- ACTIVE streams in R203's order: descending PRIORITY, ascending SERVED, ascending index. -/
def pickOrder (l : List (Nat × Stream)) : List Nat :=
  let act := l.filter fun e => e.2.state = stActive
  let before := fun (a b : Nat × Stream) =>
    let pa := bits a.2.ctl 0 3
    let pb := bits b.2.ctl 0 3
    decide (pb < pa || (pa = pb && (a.2.served < b.2.served || (a.2.served = b.2.served && a.1 ≤ b.1))))
  (sortBy before act).map (·.1)

/-- The active set of the streams read (R203). -/
def selectFrom (n : Nat) (r : Built (List (Nat × Stream)) × State) : Pick × Builder :=
  match r with
  | (.error e, s) => (noPick, (some e, s))
  | (.ok l, s) => (pickOrder l).foldl (fun a i => pickStream n i a) (noPick, (none, s))

/-- Selects the active set (R203); a stop selects none. -/
def selectSet (n : Nat) (stop : Bool) (b : Builder) : Pick × Builder :=
  if stop || b.1.isSome then (noPick, b) else selectFrom n (tableStreams n b.2)

/-- Writes one slot's pages into the gather list, list-major, shifted right by 6 bits (R205). -/
def gatherSlot (n : Nat) (z : ServeSlot) (b : Builder) : Builder :=
  let p := partOf b.2 n
  withStream n z.index (fun e s =>
    let cells := (List.range p.kvLists.toNat).flatMap fun l => (List.range z.pages).map fun q => (l, q)
    buildEach cells (fun (c : Nat × Nat) b =>
      buildGet n (e.kvDir + 8 * (c.1 * p.maxPages.toNat + c.2)) 8 (fun a s =>
        buildPut n (p.gatherVa.toNat * 4096 + 8 * (z.goff + c.1 * z.pages + c.2)) (leBytes 8 (leNat a / 64)) (none, s)) b)
      (none, s)) b

/-! ## The boundary (R201) -/

/-- Steps 4 and 5: false when the builder holds because no stream is eligible; only the attempt that ends the hold counts
the streams it skips. A first eligible stream whose gather entries alone overflow the buffer leaves a step of no slot (R203). -/
def boundaryTail (n : Nat) (b : Builder) : Bool × Builder :=
  let p0 := partOf b.2 n
  let stop := (partOf b.2 n).stop
  let (k, b) := selectSet n stop b
  match b.1 with
  | some _ => (true, b)
  | none =>
    if k.slots.isEmpty && !k.full && !stop then
      (false, buildPart n (fun p => { p with holding := true, kvWaits := p0.kvWaits, ringWaits := p0.ringWaits }) b)
    else
      let b := buildEach k.slots (gatherSlot n) b
      (true, buildPart n (fun p =>
        { p with slots := some k.slots, stopReq := stop, steps := bump p.steps, holding := false }) b)

/-- Step 6, or what R206 makes of a fault: the next command starts, and a kill that came meanwhile applies to it, or to the hold when it
ends the job (R210). A step builder whose
granule no tier takes has no command to kill: the boundary, from `s0` on, waits with the Separator's event and is tried again (log 130). -/
def endBoundary (n k : Nat) (s0 : State) (r : Bool × Builder) : State :=
  let stopped := fun (s : State) =>
    if (jobOf s k).any (fun j => j.stage == .running && !j.causes.isEmpty) then startKill k s else s
  match r.2.1 with
  | some (.noRoom e a) => postNoRoom e (partOf s0 n).context.toNat a s0
  | some e =>
    let s := each ((jobOf r.2.2 k).elim [] (·.dies)) (fun d s => updDie s d fun x => { x with boundary := false }) r.2.2
    stopped (serveFail n k e s)
  | none =>
    if r.1 then stopped (startCommand k r.2.2)
    else if (jobOf r.2.2 k).any (fun j => j.causes.any endsJob) then startKill k r.2.2
    else r.2.2

/-- While the builder holds step 6 it reads admissions again, so that a stream may become eligible (R203, log 63). -/
def resumeHold (n : Nat) (s : State) : State :=
  let k := ((dieOf s n).job).getD 0
  let p := partOf s n
  let held := ((jobOf s k).elim [] (·.dies)).any (paused s)
  if p.holding && (dieOf s n).boundary && (servedBy s k == some n) && !held then
    endBoundary n k s (boundaryTail n (admitStreams n (applyLeaves n (readAdmissions n p.joinLimit.toNat (none, s)))))
  else s

/-- STEP_BOUNDARY on the die of a serving job. -/
def stepBoundary (d : Nat) (s : State) : State :=
  match jobOn s d with
  | none => s
  | some k =>
    match servedBy s k, jobOf s k with
    | some n, some j =>
      let p := partOf s n
      if !(dieOf s d).boundary || j.dies.any (paused s) then s
      else if p.holding then resumeHold n s
      else
        let slots := p.slots.getD []
        let (rs, t) := takeResults n slots s
        let b := buildEach ((slots.zip rs).zipIdx) (fun (a : (ServeSlot × Nat) × Nat) b => applyResult n a.2 a.1.1 a.1.2 b) (none, t)
        let b := admitStreams n (applyLeaves n (readAdmissions n p.joinLimit.toNat b))
        endBoundary n k s (boundaryTail n b)
    | _, _ => s

/-! ## Registers (R206, R209) -/

/-- The first configuration field of a partition that ENABLE finds invalid, by its register offset. -/
def badField (s : State) (n : Nat) : Option Nat :=
  let p := partOf s n
  let ok := fun (off : Nat) (b : Bool) => if b then none else some off
  let between := fun (a v z : Nat) => decide (a ≤ v) && decide (v ≤ z)
  ok 0x00 ((diesOf p.bind.toNat).head? == some n)
    <|> ok 0x10 (between 4 p.aqLog2.toNat 16) <|> ok 0x20 (between 4 p.poolLog2.toNat 24)
    <|> ok 0x30 (between 10 p.gatherLog2.toNat 24)
    <|> ok 0x38 (between 1 p.stepLimit.toNat 4096 && between 1 p.chunk.toNat 4096 && between 1 p.admitLimit.toNat 16384
        && between 1 p.joinLimit.toNat 65535)
    <|> ok 0x40 (between 0 p.pageLog2.toNat 12 && between 1 p.kvLists.toNat 255 && between 1 p.maxPages.toNat 65535)

/-- Whether a partition's serving job is placed. -/
def servingPlaced (s : State) (n : Nat) : Bool :=
  s.jobs.any fun (p : Nat × Job) => placed p.2 && servesJob s n p.2

/-- Writes ENABLE: 1 checks the configuration; 0 is ignored while the serving job is placed. -/
def enablePartition (n : Nat) (v : Bool) (s : State) : State :=
  let p := partOf s n
  if v then
    if p.enable then s
    else match badField s n with
      | some off => post 0x0523 n [n, off] s
      | none => updPart s n fun p => { p with enable := true }
  else if servingPlaced s n then s
  else updPart s n fun p => { p with enable := false }

/-- Writes POOL_TAIL: 0x0521 is armed again, and a held boundary goes on (R203). -/
def writePoolTail (n : Nat) (v : BitVec 32) (s : State) : State :=
  resumeHold n (updPart s n fun p => { p with poolTail := v, poolPosted := if v = p.poolTail then p.poolPosted else false })

/-! ## The rows -/

/-- PARTITION_ENABLE (R194, R195, R206, R209). -/
def execPartitionEnable (d : Die) (v : Bool) (s : State) : Host.Outcome State Fault Refusal := command (enablePartition d v) s
/-- STOP (R203, R204, R209). -/
def execStopOp (d : Die) (v : Bool) (s : State) : Host.Outcome State Fault Refusal :=
  command (fun s => resumeHold d (updPart s d (fun p => { p with stop := v }))) s
/-- STEP_BOUNDARY (R84, R194 to R205, R208, R210). -/
def execStepBoundary (d : Die) (s : State) : Host.Outcome State Fault Refusal := command (stepBoundary d) s
/-- POOL_TAIL (R198, R203, R209). -/
def execPoolTail (d : Die) (v : BitVec 32) (s : State) : Host.Outcome State Fault Refusal := command (writePoolTail d v) s

end Sys2Proof.Machine
end

