-- ==== Sys2Proof/Machine/Registers.lean ====
section
/-! DEFINITION. Writes to the registers of the package's address map (R9), block by block, and accesses by address: device memory
(R232) and the unified range (R151, R153). A register that has a row of its own is written by that row's operation. -/

namespace Sys2Proof.Machine

/-- The value of a 64-bit register after n bytes from byte i on are written over what it reads. -/
def mergeReg (old i n data : Nat) : Nat := leNat (putBytes (leBytes 8 old) i (leBytes n data))

/-- A field of a value written. -/
def fld (v lo n : Nat) : BitVec n := BitVec.ofNat n (bits v lo n)

def bit (v i : Nat) : Bool := bits v i 1 = 1

/-! ## The package control region -/

/-- The interrupt target, written through either address (R283). -/
def writeTarget (c v : Nat) (s : State) : State :=
  updCtx s c fun x => { x with hart := fld v 0 8, file := fld v 8 3, msiEn := bit v 11, eiid := fld v 32 11 }

/-- A context's configuration fields, then ENABLE (R173). -/
def writeCtxCfg (c v : Nat) (s : State) : State :=
  if (ctxOf s c).state = .active then s
  else
    let s := updCtx s c fun x =>
      { x with priority := fld v 3 2, vmid := fld v 8 14, pasid := fld v 22 20, rcid := fld v 42 12 }
    if bit v 2 then enableContext c s else s

/-- A context's register block (R173): configuration is ignored while it is ACTIVE. -/
def contextWrite (c off v : Nat) (s : State) : State :=
  let idle := (ctxOf s c).state ≠ .active
  if off = 0x00 then writeCtxCfg c v s
  else if off = 0x08 then guarded idle (writeTarget c v) s
  else if off = 0x10 then guarded idle (updCtx · c (fun x => { x with sqLog2 := fld v 0 5, sqBase := fld v 12 52 })) s
  else if off = 0x18 then guarded idle (updCtx · c (fun x => { x with cqLog2 := fld v 0 5, cqBase := fld v 12 52 })) s
  else if off = 0x20 then updCtx s c fun x => { x with sqTail := fld v 0 16 }
  else if off = 0x28 then updCtx s c fun x => { x with cqHead := fld v 32 16 }
  else if off = 0x58 then
    let s := if bit v 0 then resetContext c s else s
    if bit v 1 then preempt (jobsOf s c) s else s
  else s

/-- DIE_RESET, PKG_RESET and HOLD_NEXT under their key (R421). -/
def writeReset (v : Nat) (s : State) : State :=
  let key := bits v 56 8
  let s := dieReset (bits v 0 8) key s
  if bit v 8 then registerReset (BitVec.ofNat 8 key) (bit v 9) s else s

/-- The Separator's registers (R160). -/
def separatorWrite (off v : Nat) (s : State) : State :=
  if off = 0x08 then sepSkip { s with sep := { s.sep with logEntries := fld v 0 5, cqBase := fld v 12 52 } }
  else if off = 0x10 then sepSkip { s with sep := { s.sep with tail := fld v 0 16 } }
  else s

/-- A context's quota block (R160). -/
def quotaWrite (c off v : Nat) (s : State) : State :=
  if off = 0x00 then writeQuota c (BitVec.ofNat 64 v) s
  else if off = 0x10 then updQuota s c fun q => { q with firstTier := bit v 2, pullDefault := bit v 3 }
  else s

/-- The package control region, apart from the translation agent. -/
def controlWrite (a v : Nat) (s : State) : State :=
  if a = 0xC008 then preempt ((diesOf (bits v 0 8)).filterMap (jobOn s)).eraseDups s
  else if a = 0xF000 then writeReset v s
  else if 0x10000 ≤ a && a < 0x10040 then separatorWrite (a - 0x10000) v s
  else if 0x20000 ≤ a && a < 0x40000 then quotaWrite ((a - 0x20000) / 0x20) (a % 0x20) v s
  else if 0x100000 ≤ a && a < 0x180000 then contextWrite ((a - 0x100000) / 0x80) (a % 0x80) v s
  else s

/-! ## The translation agent (R215; layout and rules of the RISC-V IOMMU specification, log 20) -/

/-- A control and status register of a queue: enable and interrupt-enable bits are stored, error bits are cleared by a 1, and the
queue is on when it is enabled. Turning the queue on sets the index at `idx` to 0. -/
def writeQueueCsr (off errs idx v : Nat) (s : State) : State :=
  let old := iommuReg s off 4
  let on := bits v 0 1
  let s := if on = 1 && bits old 16 1 = 0 then setIommuReg idx 4 0 s else s
  setIommuReg off 4 (bits v 0 2 + (old &&& errs - (old &&& errs &&& v)) + 2 ^ 16 * on) s

/-- A 32-bit register of the agent. -/
def agentWrite32 (off v : Nat) (s : State) : State :=
  if off = 0x10 then
    let mode := if bits v 0 4 ≤ 4 then bits v 0 4 else bits (iommuReg s 0x10 4) 0 4
    setIommuReg off 4 (mode + 2 ^ 10 * bits v 10 22) s
  else if off = 0x14 then setIommuReg off 4 (bits v 0 22) s
  else if off = 0x18 || off = 0x28 || off = 0x38 then setIommuReg off 4 (bits v 0 5 + 2 ^ 10 * bits v 10 22) s
  else if off = 0x1C || off = 0x2C || off = 0x3C then setIommuReg off 4 (bits v 0 22) s
  else if off = 0x24 || off = 0x30 || off = 0x40 then
    setIommuReg off 4 (v % 2 ^ (bits (iommuReg s (if off = 0x24 then 0x18 else off - 8) 4) 0 5 + 1)) s
  else if off = 0x48 then writeQueueCsr off 0xF00 0x20 v s
  else if off = 0x4C then writeQueueCsr off 0x300 0x34 v s
  else if off = 0x50 then writeQueueCsr off 0x300 0x44 v s
  else if off = 0x54 then let old := iommuReg s off 4; setIommuReg off 4 (old - (old &&& v)) s
  else if 0x5C ≤ off && off < 0x258 then setIommuReg off 4 v s
  else if 0x2F8 ≤ off && off < 0x400 then setIommuReg off 4 v s
  else s

/-- A vector of the agent that is unmasked sends what was pending under it. -/
def settleAgentMsi (off v : Nat) (s : State) : State :=
  if 0x300 ≤ off && off < 0x400 && off % 16 = 12 && bits v 0 1 = 0 then
    each ([1, 2, 4, 8].filter fun ip => iommuReg s 0x54 4 &&& ip ≠ 0 && agentVector s ip = (off - 0x300) / 16) agentMsi s
  else s

/-- A write of 4 or 8 bytes to the agent's register file; the specification defines no narrower one. -/
def agentWrite (off n data : Nat) (s : State) : State :=
  let one := fun (o v : Nat) (s : State) => settleAgentMsi o v (agentWrite32 o v s)
  if n = 4 then one off data s else if n = 8 then one (off + 4) (bits data 32 32) (one off (bits data 0 32) s) else s

/-! ## Interrupt controllers (R281 to R283; APLIC registers of the RISC-V AIA, log 31) -/

def setAplic (dom off v : Nat) (s : State) : State :=
  { s with cluster := { s.cluster with aplic := ByteMap.write s.cluster.aplic (0x10000 * dom + off) (leBytes 4 v) } }

/-- What a source's configuration register takes from a write: the reserved modes 2 and 3 leave the source inactive, and the reserved sources
10-63 take nothing (R282). -/
def sourceCfg (dom i v : Nat) : Nat :=
  if 10 ≤ i then 0 else if dom = 0 && bits v 10 1 = 1 then 2 ^ 10 else if bits v 0 3 = 2 || bits v 0 3 = 3 then 0 else bits v 0 3

/-- Makes a source of a domain pending, when it is active; a level source only while its wire is high. -/
def setPendSource (dom i : Nat) (s : State) : State :=
  let m := sourceMode s i
  if i = 0 || 64 ≤ i || sourceDomain s i ≠ dom || m = 0 || (6 ≤ m && !s.cluster.wires.getLsbD i) then s
  else { s with cluster := { s.cluster with pend := s.cluster.pend ||| BitVec.ofNat 64 (2 ^ i) } }

def clearPendSource (dom i : Nat) (s : State) : State :=
  if 64 ≤ i || sourceDomain s i ≠ dom then s
  else { s with cluster := { s.cluster with pend := s.cluster.pend &&& ~~~(BitVec.ofNat 64 (2 ^ i)) } }

/-- Sets or clears the enable bit of a source of a domain. -/
def enableSource (dom : Nat) (on : Bool) (i : Nat) (s : State) : State :=
  if i = 0 || 64 ≤ i || sourceDomain s i ≠ dom || sourceMode s i = 0 then s
  else
    let off := 0x1E00 + 4 * (i / 32)
    let old := aplicReg s dom off
    let b := 2 ^ (i % 32)
    setAplic dom off (if on then old ||| b else old - (old &&& b)) s

/-- The sources that a 32-bit word names. -/
def wordSources (k v : Nat) : List Nat := ((List.range 32).filter fun i => bits v i 1 = 1).map (32 * k + ·)

/-- GENMSI: an MSI with the hart and identity written. -/
def genMsi (dom v : Nat) (s : State) : State := writeFile (bits v 18 14) dom (bits v 0 11) s

/-- A 32-bit write to an APLIC domain; pending enabled sources then send their MSIs. -/
def aplicWrite (dom off v : Nat) (s : State) : State :=
  let k := off % 0x80 / 4
  let s :=
    if off = 0 then setAplic dom 0 (2 ^ 8 * bits v 8 1) s
    else if off < 0x100 then
      if dom = 0 || sourceDomain s (off / 4) = 1 then setAplic dom off (sourceCfg dom (off / 4) v) s else s
    else if 0x1BC0 ≤ off && off < 0x1BD0 then if dom = 0 then setAplic 0 off v s else s
    else if 0x1C00 ≤ off && off < 0x1C08 then each (wordSources k v) (setPendSource dom) s
    else if off = 0x1CDC then setPendSource dom v s
    else if 0x1D00 ≤ off && off < 0x1D08 then each (wordSources k v) (clearPendSource dom) s
    else if off = 0x1DDC then clearPendSource dom v s
    else if 0x1E00 ≤ off && off < 0x1E08 then each (wordSources k v) (enableSource dom true) s
    else if off = 0x1EDC then enableSource dom true v s
    else if 0x1F00 ≤ off && off < 0x1F08 then each (wordSources k v) (enableSource dom false) s
    else if off = 0x1FDC then enableSource dom false v s
    else if off = 0x2000 then setPendSource dom v s
    else if off = 0x3000 then genMsi dom v s
    else if 0x3004 ≤ off && off < 0x3100 then
      if sourceDomain s ((off - 0x3000) / 4) = dom then setAplic dom off v s else s
    else s
  each (List.range 64) deliverSource s

/-- MTIMECMP of a hart in service (R277, R281). -/
def writeTimecmp (h v : Nat) (s : State) : State := guarded (hartPresent s h) (writeCompare h .machine (BitVec.ofNat 64 v)) s

/-- The interrupt controllers' range. -/
def irqWrite (a n data : Nat) (s : State) : State :=
  let v := mergeReg (regRead s (a / 8 * 8)) (a % 8) n data
  if a < 0x01700000 then if n = 4 then imsicWrite a (data % 2 ^ 32) s else s
  else if 0x01700000 ≤ a && a < 0x01704000 then if n = 4 then aplicWrite 0 (a - 0x01700000) (data % 2 ^ 32) s else s
  else if 0x01710000 ≤ a && a < 0x01714000 then if n = 4 then aplicWrite 1 (a - 0x01710000) (data % 2 ^ 32) s else s
  else if 0x01800000 ≤ a && a < 0x01800000 + 8 * 144 then writeTimecmp ((a - 0x01800000) / 8) v s
  else if 0x01F00000 ≤ a && a < 0x01F10000 && a % 16 < 8 then writeTarget ((a - 0x01F00000) / 16) v s
  else s

/-! ## Serving partitions (R209) -/

/-- The first register: while ENABLE is 1 only ENABLE and STOP take a write. -/
def writePartCfg (d v : Nat) (s : State) : State :=
  let s := if (partOf s d).enable then s
    else updPart s d fun p =>
      { p with bind := fld v 8 8, context := fld v 16 12, stepPan := fld v 32 12, resultPan := fld v 44 12 }
  resumeHold d (updPart (enablePartition d (bit v 0) s) d fun p => { p with stop := bit v 1 })

def servingWrite (d off v : Nat) (s : State) : State :=
  let idle := !(partOf s d).enable
  if off = 0x00 then writePartCfg d v s
  else if off = 0x18 then resumeHold d (updPart s d fun p => { p with aqTail := fld v 0 16 })
  else if off = 0x28 then writePoolTail d (fld v 0 32) s
  else guarded idle (updPart · d fun p =>
    if off = 0x08 then { p with tableVa := fld v 12 52 }
    else if off = 0x10 then { p with aqLog2 := fld v 0 5, aqBase := fld v 12 52 }
    else if off = 0x20 then { p with poolLog2 := fld v 0 5, poolBase := fld v 12 52 }
    else if off = 0x30 then { p with gatherLog2 := fld v 0 5, gatherVa := fld v 12 52 }
    else if off = 0x38 then
      { p with stepLimit := fld v 0 13, chunk := fld v 16 13, admitLimit := fld v 32 15, joinLimit := fld v 48 16 }
    else if off = 0x40 then { p with pageLog2 := fld v 0 4, kvLists := fld v 8 8, maxPages := fld v 32 16 }
    else p) s

/-! ## CBQRI controllers (R287; layout of the RISC-V CBQRI specification, log 68) -/

/-- Writes a 64-bit register of a controller. -/
def setCb (c off v : Nat) (s : State) : State :=
  { s with cluster := { s.cluster with cbRegs := ByteMap.write s.cluster.cbRegs (0x100 * c + off) (leBytes 8 v) } }

def cbReg (s : State) (c off : Nat) : Nat := ByteMap.num s.cluster.cbRegs (0x100 * c + off) 8

/-- The allocation control register: 1 configures a limit from the register after it, 2 reads one into it, 3 flushes an RCID from
a capacity controller, which changes no result. -/
def cbAlloc (c v : Nat) (s : State) : State :=
  let op := bits v 0 5
  let at_ := bits v 5 3
  let r := bits v 8 12
  let done := fun (st : Nat) (s : State) => setCb c 0x18 (bits v 0 20 + 2 ^ 32 * st) s
  let cap := (ctrlWays c).isSome
  let code := at_ = 1
  if 2 ≤ at_ || (code && 2 ≤ c) then done cbqriBadAt s
  else if op = 1 then
    let w := cbReg s c 0x20
    let a : CbqriArgs := { ctrl := c, rcid := BitVec.ofNat 12 r, code, blocks := BitVec.ofNat 64 (if cap then w else bits w 0 16),
                           weight := BitVec.ofNat 8 (bits w 20 8) }
    let was := s.resp
    let t := cbqriRequest a s
    let st := match t.resp with | .status n => n | _ => 0
    done st { t with resp := was }
  else if op = 2 then
    let x := cbqriOf s c r
    let ways := fun (n : Nat) => ((if code then x.codeWays else x.ways).map (·.toNat)).getD (2 ^ n - 1)
    let w := match ctrlWays c with | some n => ways n | none => x.reserved + 2 ^ 20 * x.weight.toNat
    done cbqriOk (setCb c 0x20 w s)
  else if op = 3 && cap then done cbqriOk s
  else done 2 s

/-- What a monitor of an MCID reads: the bytes counted at a memory unit; the bytes an L3 holds under it, of one access type where that is
named; the occupancy of a home cache, which no rule gives (log 134). -/
def monitorNow (s : State) (c mcid : Nat) (code : Option Bool) : BitVec 64 :=
  if 12 ≤ c then SMap.get 0 s.cluster.monitors (cbqriKey c mcid)
  else if c < 2 then BitVec.ofNat 64 (64 * (s.dom.l3.filter fun (p : Nat × L3Line) =>
    p.1 % 2 == c && p.2.place.tag.mcid == mcid && (code.getD p.2.place.code == p.2.place.code)).length)
  else BitVec.ofNat 64 (64 * ((Config.freeWord s.free).toNat % 2 ^ 20))

/-- The monitoring control register: 1 selects an MCID's event and clears its counter, 2 reads the counter; the access type counts where ATV is
set. -/
def cbMon (c v : Nat) (s : State) : State :=
  let op := bits v 0 5
  let evt := bits v 20 8
  let k := cbqriKey c (bits v 8 12)
  let done := fun (st : Nat) (s : State) => setCb c 0x08 (bits v 0 29 + 2 ^ 32 * st) s
  let events := if (ctrlWays c).isSome then 1 else 3
  let atv := bits v 28 1 = 1
  if atv && (2 ≤ bits v 5 3 || (bits v 5 3 = 1 && 2 ≤ c)) then done 5 s
  else if op = 1 then
    if events < evt then done 4 s
    else done 1 { s with cluster := { s.cluster with
      monEvents := SMap.set 0 s.cluster.monEvents k (BitVec.ofNat 8 evt), monitors := SMap.del s.cluster.monitors k } }
  else if op = 2 then
    let now := if SMap.get 0 s.cluster.monEvents k = 0 then 0
      else monitorNow s c (bits v 8 12) (if atv then some (bits v 5 3 = 1) else none)
    done 1 (setCb c 0x10 (now.toNat % 2 ^ 63) (drew s))
  else done 2 s

def cbqriWrite (c off v : Nat) (s : State) : State :=
  if off = 0x08 then cbMon c v s
  else if off = 0x18 then cbAlloc c v s
  else if off = 0x20 then setCb c off v s
  else s

/-- A compute die's block: serving and the home cache's CBQRI controller take writes. -/
def dieWrite (d off v : Nat) (s : State) : State :=
  if 0x50000 ≤ off && off < 0x50078 then servingWrite d (off - 0x50000) v s
  else if 0x80000 ≤ off && off < 0x81000 then cbqriWrite (2 + d) (off - 0x80000) v s
  else s

def procWrite (m off v : Nat) (s : State) : State :=
  if 0x80000 ≤ off && off < 0x81000 then cbqriWrite m (off - 0x80000) v s
  else if 0x90000 ≤ off && off < 0x91000 then cbqriWrite (10 + m) (off - 0x90000) v s
  else s

def memoryWrite (a v : Nat) (s : State) : State :=
  if 0x30800000 ≤ a && a < 0x30810000 then cbqriWrite (12 + (a - 0x30800000) / 0x1000) (a % 0x1000) v s
  else if 0x30810000 ≤ a && a < 0x30820000 then cbqriWrite (28 + (a - 0x30810000) / 0x1000) (a % 0x1000) v s
  else s

/-! ## The partner table and the staging region (R299, R317) -/

/-- VALID comes into service: never at the package's own ID. -/
def setValid (p : Nat) (s : State) : State :=
  if p = ownId s then s else settleLace p (updPartner s p fun e => { e with valid := true, lstate := 0, downSince := none })

/-- A partner entry may be changed only while its VALID is 0; clearing VALID takes effect at once. -/
def partnerWrite (p off v : Nat) (s : State) : State :=
  if (partnerOf s p).valid then
    if off = 0x00 && !bit v 0 then validClear p s else s
  else if off = 0x00 then
    let s := updPartner s p fun e =>
      { e with neye := fld v 3 2, eyes := fld v 5 20, keySlot := fld v 25 12, rxContext := fld v 37 12 }
    if bit v 0 then setValid p s else s
  else updPartner s p fun e =>
    if off = 0x08 then { e with winBase := fld v 16 48 }
    else if off = 0x10 then { e with winGranules := fld v 0 32 }
    else if off = 0x18 then { e with rxJob := fld v 0 64 }
    else e

def laceRegWrite (a v : Nat) (s : State) : State :=
  if 0x40100000 ≤ a && a < 0x40180000 then partnerWrite ((a - 0x40100000) / 0x40) (a % 0x40) v s
  else if a = 0x40200000 then setMemb (fun m => { m with stageBase := fld v 16 48 }) s
  else if a = 0x40200008 then setMemb (fun m => { m with stageSize := fld v 0 32 }) s
  else s

/-! ## Host port (R340 to R342) -/

/-- The package side of an ingest queue: while ENABLE is 1 only ENABLE takes a write (R341). -/
def ingestWrite (q off v : Nat) (s : State) : State :=
  let idle := !(queueOf s q).enable
  if off = 0x00 then
    let s := guarded idle (updQueue · q fun x => { x with jobEn := bit v 1, context := fld v 2 12 }) s
    enableQueue q (bit v 0) s
  else guarded idle (updQueue · q fun x =>
    if off = 0x08 then { x with ringBase := fld v 18 46 }
    else if off = 0x10 then { x with winBase := fld v 16 48 }
    else { x with winGranules := fld v 0 32 }) s

/-- The host side of an ingest queue (R342). -/
def hostQueueWrite (q off v : Nat) (s : State) : State :=
  if off = 0x00 then doorbell q (bits v 0 40) (bits v 40 16) s
  else if off = 0x18 then resync q (fld v 0 16) s
  else if off = 0x20 then updQueue s q fun x => { x with hcqBase := fld v 6 58 }
  else if off = 0x28 then updQueue s q fun x => { x with hcqLog2 := fld v 0 5, vector := fld v 8 9, vecEn := bit v 17 }
  else if off = 0x38 then writeHcqHead q (fld v 0 16) s
  else s

/-- A mailbox: the request buffer takes bytes, GO submits (R409). -/
def mailboxWrite (m : MailboxId) (p : DictPath) (off n data : Nat) (s : State) : State :=
  if off = 0 then if bit data 0 then mailboxGo m s else s
  else if 0x1000 ≤ off && off < 0x1800 then
    setMbox p (fun b => { b with request := ByteMap.write b.request (off - 0x1000) (leBytes n data) }) s
  else s

/-- The MSI-X table: a vector whose mask bit is cleared sends what was pending (R340, log 32). -/
def msixWrite (off v : Nat) (s : State) : State :=
  if 16 * 257 ≤ off then s
  else
    let e := off / 16
    let h := s.host
    if off % 16 = 0 then { s with host := { h with msixTable := ByteMap.write h.msixTable off (leBytes 8 v) } }
    else
      let opened := !bit v 32
      let h := { h with msixTable := ByteMap.write h.msixTable off (leBytes 4 v),
                        msixOpen := if opened then (if h.msixOpen.contains e then h.msixOpen else e :: h.msixOpen)
                                    else h.msixOpen.filter (· != e) }
      if opened && h.msixPend.contains e then
        { s with host := { h with msixPend := h.msixPend.filter (· != e), msix := h.msix ++ [e] } }
      else { s with host := h }

/-- BAR0 of Port A as an endpoint (R340). -/
def bar0Write (off n data : Nat) (s : State) : State :=
  let v := mergeReg (bar0Read s (off / 8 * 8)) (off % 8) n data
  if !endpointA s then s
  else if off < 0x10000 then mailboxWrite .bar0 .bar0 off n data s
  else if 0x100000 ≤ off && off < 0x104000 then hostQueueWrite ((off - 0x100000) / 0x40) (off / 8 * 8 % 0x40) v s
  else if 0x200000 ≤ off && off < 0x202000 then msixWrite (off / 8 * 8 - 0x200000) v s
  else s

/-! ## The map (R9, R232) -/

/-- Whether a device access is naturally aligned and 1, 2, 4 or 8 bytes wide (R232). -/
def deviceFits (a n : Nat) : Bool := (n = 1 || n = 2 || n = 4 || n = 8) && a % n = 0

/-- A write of n bytes at a device address; read-only fields and addresses that no chapter defines ignore it (R9). -/
def regWrite (a n data : Nat) (s : State) : State :=
  let b := a / 8 * 8
  let v := mergeReg (regRead s b) (a % 8) n data
  if !deviceFits a n then s
  else if 0x1000 ≤ a && a < 0x2000 then agentWrite (a - 0x1000) n (data % 2 ^ (8 * n)) s
  else if a < 0x01000000 then controlWrite b v s
  else if a < 0x02000000 then irqWrite a n data s
  else if 0x10000000 ≤ a && a < 0x18000000 then dieWrite ((a - 0x10000000) / 0x01000000) (b % 0x01000000) v s
  else if 0x20000000 ≤ a && a < 0x22000000 then procWrite ((a - 0x20000000) / 0x01000000) (b % 0x01000000) v s
  else if 0x30000000 ≤ a && a < 0x30820000 then memoryWrite b v s
  else if 0x40000000 ≤ a && a < 0x40201400 then laceRegWrite b v s
  else if 0x50010000 ≤ a && a < 0x50012000 then ingestWrite ((a - 0x50010000) / 0x20) (b % 0x20) v s
  else if 0x68000000 ≤ a && a < 0x68010000 then mailboxWrite .mirror .mirror (a - 0x68000000) n data s
  else if bar0Base ≤ a then bar0Write (a - bar0Base) n data s
  else s

/-! ## Accesses by address (R9, R151, R153) -/

/-- Bytes of an access. -/
def accessLen (k : AccessKind) : Nat :=
  match k with | .load n => n | .store b => b.length | .amo op => if op.double then 8 else 4

/-- Counters of what the spec leaves to an implementation's timing and caches: the hardware performance counters of the agent
(R215), FEEDER_DRY and DRAIN_BACKED (R66), and the transfers of a memory unit by class (R332, R334; log 104). -/
def openCounter (a : Nat) : Bool :=
  let off := a % 0x1000000
  (0x1060 ≤ a && a < 0x1160)
    || (0x10000000 ≤ a && a < 0x18000000 && 0x40000 ≤ off && off < 0x40440 && 0x18 ≤ off % 0x40 && off % 0x40 < 0x28)
    || (((0x30000000 ≤ a && a < 0x30100000) || (0x30400000 ≤ a && a < 0x30500000)) && 0x20 ≤ a % 0x10000 && a % 0x10000 < 0x48)

/-- A device access: a load answers the register's bytes, or those of an open counter with what it has counted beyond State; a
store writes them; an access of another width or alignment, and an atomic, take an access fault (R232, logs 85 and 104). -/
def deviceAccess (k : AccessKind) (a : Nat) (s : State) : State :=
  if !deviceFits a (accessLen k) then answer (.trap (accessFault k)) s
  else match k with
    | .load n =>
      if openCounter a then answer (.bytes (leBytes n (leNat (regBytes s a n) + (Config.freeWord s.free).toNat))) (drew s)
      else answer (.bytes (regBytes s a n)) s
    | .store b => answer .none (regWrite a b.length (leNat b) s)
    | .amo _ => answer (.trap (accessFault k)) s

/-- The two parts of a load or store that crosses into the next block of a size: the next granule, of which each part is resolved by its own
(R151), or the next page. -/
def splitAccess (block : Nat) (a : Access) : Option (Access × Access) :=
  let p := a.addr.toNat
  let first := block - p % block
  if accessLen a.kind ≤ first then none
  else
    let rest := BitVec.ofNat 64 (p + first)
    match a.kind with
    | .load n => some ({ a with kind := .load first }, { a with addr := rest, kind := .load (n - first), ecc := .clean })
    | .store b => some ({ a with kind := .store (b.take first) }, { a with addr := rest, kind := .store (b.drop first), ecc := .clean })
    | .amo _ => none

/-- What an access in two parts answers: the bytes of both, or the exception of either. -/
def joinResponse (x y : Response) : Response :=
  match x, y with
  | .bytes a, .bytes b => .bytes (a ++ b)
  | .trap c, _ => .trap c
  | _, y => y

/-- An access to normal memory. -/
def memoryAccess (a : Access) (s : State) : State :=
  match a.kind, splitAccess granBytes a with
  | .amo op, _ =>
    if a.addr.toNat % accessLen a.kind ≠ 0 then answer (.trap 6) s
    else arriveAccess { a with kind := .amo { op with offset := BitVec.ofNat 6 (a.addr.toNat % 64) } } s
  | _, none => arriveAccess a s
  | _, some (x, y) =>
    let s := arriveAccess x s
    match s.resp with
    | .trap _ => s
    | r => let s := arriveAccess y s; answer (joinResponse r s.resp) s

/-- Whether who makes an access is there to make it: a hart in service that runs, a function behind a root port whose link is up (R338). -/
def agentThere (s : State) (w : Agent) : Bool :=
  match w with
  | .hart h => hartPresent s h.toNat && (hartOf s h.toNat).state == .started
  | .func .portA _ => s.host.portA.root && s.host.portA.up
  | .func .portB _ => s.host.portB.up
  | _ => true

/-- A hart's accesses go with instructions that train its predictors (R279). -/
def trainPredictors (a : Access) (s : State) : State :=
  match a.who with | .hart h => updHart s h.toNat (trainAt a.priv) | _ => s

/-- Whether an access is to device memory by its page: a hart's page of type IO (R232). -/
def ioPage (a : Access) : Bool := a.page == .io && match a.who with | .hart _ => true | _ => false

/-! ## PCIe functions (R213, R215, R338; log 131) -/

/-- The device_id of a PCIe function: 0x01_0000 for Port B or 0x02_0000 for Port A, and its requester ID (R213, R338). -/
def functionId (port : PcieId) (rid : BitVec 16) : Nat := (match port with | .portA => 0x20000 | .portB => 0x10000) + rid.toNat

/-- The bits of x that a mask names, packed. -/
def packBits (x mask : Nat) : Nat :=
  ((List.range 52).foldl (fun (a : Nat × Nat) i => if bits mask i 1 = 1 then (a.1 + bits x i 1 * 2 ^ a.2, a.2 + 1) else a) (0, 0)).1

/-- What translating a function's request gives: an address, or a fault by its cause and guest address; a table may find no tier. -/
inductive FuncTo where
  | addr (pa : Nat)
  | fault (cause guest : Nat)
  | noRoom (e : NoRoom) (a : Nat)
  deriving DecidableEq, Repr

/-- The cause codes of a walk's fault in the fault queue (R220; log 20). -/
def funcFault (write : Bool) (e : TrFault) : FuncTo :=
  match e with
  | .page => .fault (if write then 15 else 13) 0
  | .guest gpa => .fault (if write then 23 else 21) gpa
  | .access => .fault (if write then 7 else 5) 0
  | .noRoom e a => .noRoom e a

/-- An address the flat MSI page table serves: its entry, picked by the bits of the page that the mask names, must be valid and in basic mode. -/
def msiTarget (t : TrCtx) (gpa : Nat) (s : State) : FuncTo × State :=
  match readEntry 0 (t.msiRoot + 16 * packBits (gpa / 4096) t.msiMask) s with
  | (.error (.noRoom e a), s) => (.noRoom e a, s)
  | (.error _, s) => (.fault 261 0, s)
  | (.ok p, s) =>
    if bits p 0 1 = 0 then (.fault 262 0, s)
    else if bits p 1 2 ≠ 3 || bits p 3 7 ≠ 0 || bits p 54 10 ≠ 0 then (.fault 263 0, s)
    else (.addr (ptePpn p * 4096 + gpa % 4096), s)

/-- Translates a function's request: no process, privilege User, and nothing kept (R213, R215). -/
def translateFunc (did va : Nat) (write : Bool) (s : State) : FuncTo × State :=
  if bits (ddtp s) 0 4 = 1 then (.addr va, s)
  else match trCtx did none 0 none s with
    | (.error e, s) => (.fault e 0, s)
    | (.ok t, s) =>
      match sStage 0 none t va write s with
      | (.error e, s) => (funcFault write e, s)
      | (.ok l1, s) =>
        if isMsi t (leafAddr l1 va) then msiTarget t (leafAddr l1 va) s
        else match overG 0 none t va write l1 s with
          | (.error e, s) => (funcFault write e, s)
          | (.ok l, s) => (.addr (leafAddr l va), s)

/-- A function's access within one page: memory as by the IO agent, an MSI to an interrupt file, or an access that nothing takes; a fault is
recorded, and the access fails. -/
def functionPart (did : Nat) (a : Access) (s : State) : State :=
  let write := match a.kind with | .load _ => false | _ => true
  let refused := answer (.trap (accessFault a.kind))
  match translateFunc did a.addr.toNat write s with
  | (.fault cause guest, s) => refused (recordFault did none cause a.addr.toNat guest write s)
  | (.noRoom e b, s) => refused (postNoRoom e 0 b s)
  | (.addr pa, s) =>
    if inUnified s pa (accessLen a.kind) then memoryAccess { a with who := .io, addr := BitVec.ofNat 64 pa, page := .pma } s
    else match a.kind with
      | .store b => if b.length = 4 && (imsicFile s pa).isSome then answer .none (imsicWrite pa (leNat b) s) else refused s
      | _ => refused s

/-- A function's access, page by page. -/
def functionAccess (did : Nat) (a : Access) (s : State) : State :=
  match splitAccess 4096 a with
  | none => functionPart did a s
  | some (x, y) =>
    let s := functionPart did x s
    match s.resp with
    | .trap _ => s
    | r => let s := functionPart did y s; answer (joinResponse r s.resp) s

/-- A machine interrupt file's page is granted to M-mode alone (R281). -/
def imsicDenied (a : Access) : Bool := a.priv != .m && 0x01000000 ≤ a.addr.toNat && a.addr.toNat < 0x01200000

/-- An instruction fetch that takes an access fault takes that of a fetch (R9). -/
def asFetch (a : Access) (s : State) : State := if a.fetch && s.resp = .trap 5 then answer (.trap 1) s else s

/-- UNIFIED_ACCESS: the unified range is memory, or device memory through a page of type IO; the range below 4 GiB is device memory that
only harts reach, BAR0 is reached by the host; every other address takes an access fault (R9, R216, R232; log 85). A PCIe function's
address is translated first (R213). -/
def unifiedAccess (a : Access) (s : State) : State :=
  let p := a.addr.toNat
  if !agentThere s a.who then s
  else asFetch a <| match a.who with
  | .func port rid => functionAccess (functionId port rid) a s
  | _ =>
    let s := trainPredictors a s
    let isHart := match a.who with | .hart _ => true | _ => false
    let atomic := match a.kind with | .amo _ => true | _ => false
    if inUnified s p (accessLen a.kind) then
      if ioPage a && (atomic || !deviceFits p (accessLen a.kind)) then answer (.trap (accessFault a.kind)) s else memoryAccess a s
    else if p < unifiedBase && isHart then
      if imsicDenied a then answer (.trap (accessFault a.kind)) s else deviceAccess a.kind p s
    else if bar0Base ≤ p && a.who = .io then deviceAccess a.kind p s
    else answer (.trap (accessFault a.kind)) s

/-- UNIFIED_ACCESS (R9, R150 to R157, R232, R233, R254, R261, R265, R266, R279, R327, R329, R384). -/
def execUnifiedAccess (a : Access) (s : State) : Host.Outcome State Fault Refusal := command (unifiedAccess a) s
/-- A register write: one that is not naturally aligned and 1, 2, 4 or 8 bytes wide takes a store access fault; one by the host, at BAR0,
has no effect then (R232). -/
def registerWrite (a n data : Nat) (s : State) : State :=
  if !deviceFits a n && a < bar0Base then answer (.trap 7) s else regWrite a n data s

/-- A hart that runs an instruction on one of its registers is in service and started (R272). -/
def hartRuns (s : State) (h : Nat) : Bool := hartPresent s h && (hartOf s h).state == .started

/-- A write to a register at its place: at an address, or by a hart that runs, in it. An access to a register of the Q extension raises an
illegal-instruction exception (R274). -/
def placeWrite (p : RegPlace) (n : Nat) (v : BitVec 64) (s : State) : State :=
  match p with
  | .at a => registerWrite a.toNat n v.toNat s
  | .csr h l num op => guarded (hartRuns s h.toNat) (csrAccess h.toNat l num.toNat op v.toNat) s
  | .x h k => guarded (hartRuns s h.toNat) (putReg h.toNat k.toNat v) s
  | .f h k => guarded (hartRuns s h.toNat) (putReg h.toNat (32 + k.toNat) v) s
  | .v h k part => guarded (hartRuns s h.toNat) (putReg h.toNat (64 + 8 * k.toNat + part.toNat) v) s
  | .q h _ => guarded (hartRuns s h.toNat) (answer (.trap 2)) s

/-- REGISTER_WRITE (R9, R160, R173, R191, R209, R215, R273, R274, R277, R279, R281, R283, R287, R299, R317, R340 to R342, R409, R421). -/
def execRegisterWrite (place : RegPlace) (size : Nat) (data : BitVec 64) (s : State) : Host.Outcome State Fault Refusal :=
  command (placeWrite place size data) s

end Sys2Proof.Machine
end

