-- ==== Sys2Proof/Machine/Firmware.lean ====
section
/-! DEFINITION. The SBI calls of package firmware (R290, R291): the standard extensions, and hart_get_status. Function numbers, arguments and error
codes of the RISC-V SBI 2.0 (log 136). -/

namespace Sys2Proof.Machine

def sbiAlreadyAvailable : Int := -6
def sbiAlreadyStarted : Int := -7
def sbiAlreadyStopped : Int := -8

def sbi (e : Int) (v : Nat) (s : State) : State := answer (.sbi e (BitVec.ofNat 64 v)) s

/-! ## Extensions -/

def eidBase : Nat := 0x10
def eidTime : Nat := 0x54494D45
def eidIpi : Nat := 0x735049
def eidRfence : Nat := 0x52464E43
def eidHsm : Nat := 0x48534D
def eidSrst : Nat := 0x53525354
def eidPmu : Nat := 0x504D55
def eidDbcn : Nat := 0x4442434E
def eidQuirdaward : Nat := 0x09514B00

/-- The extensions that firmware provides; SUSP, CPPC, NACL, STA and the legacy extensions are not among them (R290). -/
def sbiProvided : List Nat := [eidBase, eidTime, eidIpi, eidRfence, eidHsm, eidSrst, eidPmu, eidDbcn, eidQuirdaward]

/-- The harts that a mask from a base names; all those in service for a base of all ones. None when one of them is absent. -/
def hartsNamed (s : State) (mask base : Nat) : Option (List Nat) :=
  if base = 2 ^ 64 - 1 then some ((List.range 144).filter (hartPresent s))
  else
    let l := ((List.range 64).filter fun i => bits mask i 1 = 1).map (base + ·)
    if l.all (hartPresent s) then some l else none

/-- Base: version 2.0; the implementation's numbers are its own. -/
def sbiBase (a : SbiArgs) (s : State) : State :=
  match a.fid.toNat with
  | 0 => sbi 0 0x02000000 s
  | 1 => sbi 0 (leNat (fit 8 (Config.manufacture 33))) s
  | 2 => sbi 0 (leNat (fit 8 (Config.manufacture 34))) s
  | 3 => sbi 0 (boolNat (sbiProvided.contains a.a0.toNat)) s
  | 4 | 5 | 6 => sbi 0 ((csrRead s a.caller.toNat (0xF11 + (a.fid.toNat - 4))).getD 0) s
  | _ => sbi sbiNotSupported 0 s

/-- TIME: set_timer. -/
def sbiTime (a : SbiArgs) (s : State) : State :=
  if a.fid = 0 then sbi 0 0 (writeCompare a.caller.toNat .supervisor a.a0 s) else sbi sbiNotSupported 0 s

/-- An interrupt between harts: the supervisor software interrupt becomes pending, and is taken when no pause holds the hart. -/
def softInt (h : Nat) (s : State) : State :=
  let s := putCsr h 0x344 (csrOf s h 0x344 ||| 2) s
  if hartPaused s h then s else updHart s h wakeHart

/-- IPI: send_ipi. -/
def sbiIpi (a : SbiArgs) (s : State) : State :=
  if a.fid ≠ 0 then sbi sbiNotSupported 0 s
  else match hartsNamed s a.a0.toNat a.a1.toNat with
    | none => sbi sbiInvalidParam 0 s
    | some l => sbi 0 0 (each l softInt s)

/-- A core's L1 instruction cache drops what it holds. -/
def dropFetched (h : Nat) (s : State) : State :=
  let clear := fun (p : Nat × L3Line) =>
    if p.1 % 2 = h / 72 then (p.1, { p.2 with place := { p.2.place with l1i := p.2.place.l1i &&& ~~~(BitVec.ofNat 72 (2 ^ (h % 72))) } }) else p
  { s with dom := { s.dom with l3 := s.dom.l3.map clear } }

/-- RFENCE: a remote FENCE.I empties the instruction caches; the fences of translations act in the cores. -/
def sbiRfence (a : SbiArgs) (s : State) : State :=
  if 7 ≤ a.fid.toNat then sbi sbiNotSupported 0 s
  else match hartsNamed s a.a0.toNat a.a1.toNat with
    | none => sbi sbiInvalidParam 0 s
    | some l => sbi 0 0 (if a.fid = 0 then each l dropFetched s else s)

/-- hart_start: a stopped hart starts with its number and the argument in a0 and a1. -/
def hartStart (h start opq : Nat) (s : State) : State :=
  if !hartPresent s h then sbi sbiInvalidParam 0 s
  else if !inUnified s start 1 then sbi sbiInvalidAddress 0 s
  else if (hartOf s h).state != .stopped then sbi sbiAlreadyAvailable 0 s
  else
    let s := putReg h 11 (BitVec.ofNat 64 opq) (putReg h 10 (BitVec.ofNat 64 h) s)
    sbi 0 0 (updHart s h fun x => { x with state := .started })

/-- hart_stop: the caller stops. -/
def hartStop (h : Nat) (s : State) : State :=
  guarded (hartPresent s h && (hartOf s h).state == .started) (updHart · h fun x => { x with state := .stopped }) s

/-- HSM. -/
def sbiHsm (a : SbiArgs) (s : State) : State :=
  match a.fid.toNat with
  | 0 => hartStart a.a0.toNat a.a1.toNat a.a2.toNat s
  | 1 => hartStop a.caller.toNat s
  | 2 => hartStatus a.a0.toNat s
  | 3 => if a.a0 = 0 || a.a0 = 0x80000000 then hartSuspend a.caller.toNat (a.a0 = 0) s else sbi sbiInvalidParam 0 s
  | _ => sbi sbiNotSupported 0 s

/-- SRST: shutdown, cold reboot, and no warm reboot. -/
def sbiSrst (a : SbiArgs) (s : State) : State :=
  if a.fid ≠ 0 then sbi sbiNotSupported 0 s
  else match a.a0.toNat with
    | 0 => srst true s
    | 1 => srst false s
    | 2 => sbi sbiNotSupported 0 s
    | _ => sbi sbiInvalidParam 0 s

/-! ## PMU (R273, R280) -/

/-- The counters of a hart: cycle, instret and the 29 programmable ones; the offset of one from 0xC00. -/
def pmuCounters : Nat := 31
def pmuIndex (i : Nat) : Nat := if i = 0 then 0 else i + 1

/-- The counters that a mask from a base names. -/
def pmuNamed (base mask : Nat) : List Nat :=
  ((List.range 64).filter fun i => bits mask i 1 = 1 && base + i < pmuCounters).map (base + ·)

/-- The selector of an event: raw codes are given, the others stand in firmware's event table; a fixed counter has none. -/
def pmuSelector (event data : Nat) : Option Nat :=
  if bits event 16 4 = 2 then some (data % 2 ^ 56) else (Config.pmuEvent event).map (·.toNat)

def inhibited (s : State) (h i : Nat) : Bool := bits (csrOf s h 0x320) (pmuIndex i) 1 = 1
def setInhibit (h : Nat) (on : Bool) (i : Nat) (s : State) : State :=
  let old := csrOf s h 0x320
  let b := 2 ^ pmuIndex i
  putCsr h 0x320 (if on then old ||| b else old - (old &&& b)) s

/-- config_matching: the first counter named that can count the event takes it, stopped unless AUTO_START says otherwise. -/
def pmuConfig (h base mask flags event data : Nat) (s : State) : State :=
  let named := pmuNamed base mask
  let pick : Option (Nat × Option Nat) :=
    if event = 1 && named.contains 0 then some (0, none)
    else if event = 2 && named.contains 1 then some (1, none)
    else (named.find? (2 ≤ ·)).bind fun i => (pmuSelector event data).map fun e => (i, some e)
  match pick with
  | none => sbi sbiNotSupported 0 s
  | some (i, e) =>
    let s := match e with | some e => putCsr h (0x320 + pmuIndex i) e s | none => s
    let s := if bits flags 1 1 = 1 then putCsr h (0xB00 + pmuIndex i) 0 s else s
    sbi 0 i (setInhibit h (bits flags 2 1 = 0) i s)

/-- PMU. -/
def sbiPmu (a : SbiArgs) (s : State) : State :=
  let h := a.caller.toNat
  let base := a.a0.toNat
  let named := pmuNamed base a.a1.toNat
  match a.fid.toNat with
  | 0 => sbi 0 pmuCounters s
  | 1 => if base < pmuCounters then sbi 0 (0xC00 + pmuIndex base + 2 ^ 12 * 63) s else sbi sbiInvalidParam 0 s
  | 2 => pmuConfig h base a.a1.toNat a.a2.toNat a.a3.toNat a.a4.toNat s
  | 3 =>
    if named.isEmpty then sbi sbiInvalidParam 0 s
    else if named.any fun i => !inhibited s h i then sbi sbiAlreadyStarted 0 s
    else
      let s := if bits a.a2.toNat 0 1 = 1 then each named (fun i => putCsr h (0xB00 + pmuIndex i) a.a3.toNat) s else s
      sbi 0 0 (each named (setInhibit h false) s)
  | 4 =>
    if named.isEmpty then sbi sbiInvalidParam 0 s
    else if named.any (inhibited s h) then sbi sbiAlreadyStopped 0 s
    else
      let s := if bits a.a2.toNat 0 1 = 1 then each named (fun i => putCsr h (0x320 + pmuIndex i) 0) s else s
      sbi 0 0 (each named (setInhibit h true) s)
  | 5 => sbi sbiInvalidParam 0 s
  | 6 => sbi 0 0 s
  | _ => sbi sbiNotSupported 0 s

/-! ## DBCN -/

/-- DBCN: bytes of memory go to the console, what waits at its input is written to memory, or one byte goes out. -/
def sbiDbcn (a : SbiArgs) (s : State) : State :=
  let n := a.a0.toNat
  let p := a.a1.toNat
  let out := fun (b : List Byte) (s : State) => { s with cluster := { s.cluster with console := s.cluster.console ++ b } }
  if a.fid = 2 then sbi 0 0 (out [BitVec.ofNat 8 n] s)
  else if 2 ≤ a.fid.toNat then sbi sbiNotSupported 0 s
  else if a.a2 ≠ 0 || !inUnified s p n then sbi sbiInvalidParam 0 s
  else if n = 0 then sbi 0 0 s
  else if !ioReady p n s then sbi sbiFailed 0 (touchIo p n s)
  else
    let s := touchIo p n s
    if a.fid = 0 then sbi 0 n (out (cohRead s p n) s)
    else
      let b := a.input.take n
      sbi 0 b.length (cohWrite p b s)

/-- The calls of the Quirdaward extension (R291). -/
def sbiQuirdaward (a : SbiArgs) (s : State) : State :=
  match a.fid.toNat with
  | 0 => platformInfo s
  | 1 => calendarRead s
  | 2 => pageRetire a.a0.toNat a.a1.toNat s
  | 3 => corePhase a.caller.toNat a.a0 a.a1 s
  | _ => sbi sbiNotSupported 0 s

/-- A call by a hart in service that runs (R290). -/
def sbiCall (a : SbiArgs) (s : State) : State :=
  let e := a.eid.toNat
  if !hartPresent s a.caller.toNat || (hartOf s a.caller.toNat).state != .started then s
  else if e = eidBase then sbiBase a s
  else if e = eidTime then sbiTime a s
  else if e = eidIpi then sbiIpi a s
  else if e = eidRfence then sbiRfence a s
  else if e = eidHsm then sbiHsm a s
  else if e = eidSrst then sbiSrst a s
  else if e = eidPmu then sbiPmu a s
  else if e = eidDbcn then sbiDbcn a s
  else if e = eidQuirdaward then sbiQuirdaward a s
  else sbi sbiNotSupported 0 s

/-- HART_GET_STATUS (R272, R290), and the calls of R290 that have no row of their own. -/
def execHartGetStatus (c : SbiCall) (s : State) : Host.Outcome State Fault Refusal :=
  command (match c with | .status h => hartStatus h.toNat | .call a => sbiCall a) s

end Sys2Proof.Machine
end

