-- ==== Sys2Proof/Machine/TransCmds.lean ====
section
/-! DEFINITION. The agent's commands (R221 to R228): page responses, the fault wait budget, invalidations and fences. -/

namespace Sys2Proof.Machine

/-! ## Page responses (R221 to R223) -/

/-- The job that awaits the answer to a slot's request after a kill (R223 step 5, R228). -/
def awaiter (s : State) (d i : Nat) : Option (Nat × Job) :=
  s.jobs.find? fun (p : Nat × Job) => p.2.awaiting.contains (d, i)

def leaving (j : Job) : Bool := j.causes.any fun c => c == .preempt || c == .budget

/-- A Success answer to a job that waits: when it was the last, the job returns to the head of its ring (R223 step 5). -/
def resolveAwait (k : Nat) (d i : Nat) (s : State) : State :=
  let s := updJob s k fun j => { j with awaiting := j.awaiting.filter (· != (d, i)) }
  match jobOf s k with
  | none => s
  | some j =>
    if j.stage == .waitingOs && j.awaiting.isEmpty then
      let counted := j.causes.contains .preempt
      let s := updJob s k fun j =>
        { j with stage := .saved, causes := [], preemptions := if counted then j.preemptions else j.preemptions + 1 }
      updCtx s j.ctx.toNat fun c => { c with requeued := k :: c.requeued }
    else s

/-- A failing answer to a job that waits (R223 step 5). -/
def failAwait (k code : Nat) (s : State) : State :=
  match jobOf s k with
  | none => s
  | some j =>
    let s := post 0x0362 noSite [j.ctx.toNat, code] s
    if j.stage == .killing then beginKill k (.failing 0x0362) s else finishJob k stFailed 0x0362 true s

def responseCode (r : PrgrCode) : Nat := match r with | .success => 0 | .invalidRequest => 1 | .responseFailure => 15

/-- What an answer to a slot's request does to the job it belongs to. -/
def answerRequest (d i did : Nat) (p : PageSlot) (resp : PrgrCode) (s : State) : State :=
  match p.job, awaiter s d i with
  | some _, _ =>
    if resp == .success then resumeSlot d i p.va s else stopWith d (.failing 0x0362 [did, responseCode resp]) s
  | none, some (k, j) =>
    if j.stage == .killing && !leaving j then updJob s k fun j => { j with awaiting := j.awaiting.filter (· != (d, i)) }
    else if resp == .success then resolveAwait k d i s
    else failAwait k (responseCode resp) s
  | none, none => s

/-- ATS.PRGR (R221 to R223, R228): the slot is free, its request is answered, and what waited for a slot is served. -/
def pageResponse (did pid prgi : Nat) (resp : PrgrCode) (s : State) : State :=
  let d := prgi / 32
  let i := prgi % 32
  match (SMap.find (dieOf s d).pageSlots i).filter fun p => p.did == did && p.pid.toNat == pid with
  | none => s
  | some p => serveWaits d (answerRequest d i did p resp (updDie s d fun x => { x with pageSlots := SMap.del x.pageSlots i }))

/-- FAULT_BUDGET_EXPIRED (R223 step 4, R230): the budget of a request has run out with no answer. -/
def budgetExpired (d i : Nat) (s : State) : State :=
  match SMap.find (dieOf s d).pageSlots i with
  | none => s
  | some p =>
    match p.start, p.job with
    | some t, some _ =>
      if since s t < p.budget then s
      else
        let s := updDie s d fun x => { x with tr := { x.tr with budgetExpired := bump x.tr.budgetExpired } }
        killOn d .budget (post 0x0361 d [d, p.did, p.va.toNat] s)
    | _, _ => s

/-! ## Invalidations (R225, R226) -/

/-- A register of the command queue: an illegal command stops it (log 20). -/
def cqStopped (s : State) : Bool := bits (iommuReg s 0x48 4) 8 3 ≠ 0

/-- Refuses a command as illegal. -/
def illegalCmd (s : State) : State :=
  let s := orIommuReg 0x48 0x400 s
  if bits (iommuReg s 0x48 4) 1 1 = 1 then raiseAgent 1 s else s

/-- What an invalidation reaches (R226): by the operands of an IOTINVAL.VMA, or by GSCID. -/
inductive InvalScope where
  | vma (a : InvalArgs)
  | gvma (gv : Bool) (gscid : Nat)
  deriving DecidableEq, Repr

/-- Whether the operands of an IOTINVAL.VMA name a GSCID and a PSCID; a global mapping is in no single process's scope (log 20). -/
def vmaTags (a : InvalArgs) (gscid pscid : Nat) : Bool :=
  (if a.gv then gscid = a.gscid.toNat else gscid = hostSpace) && (!a.pscv || pscid = a.pscid.toNat)

/-- Whether a scope covers a leaf. An address covers every part of the first-stage page that maps it (R226; log 20). -/
def leafInScope (c : InvalScope) (k : StageKey) : Bool :=
  match c with
  | .vma a => vmaTags a k.gscid k.pscid && (!a.av || a.addr.toNat / 2 ^ k.span = k.vpage * 2 ^ k.size / 2 ^ k.span)
  | .gvma gv g => !gv || k.gscid = g

/-- Whether a scope covers a step of the walk cache: an IOTINVAL.VMA reaches first-stage steps, and none of them when it names an address, whose
leaf alone it takes (log 95). -/
def stepInScope (c : InvalScope) (e : WalkEntry) : Bool :=
  match c with
  | .vma a => !e.gStage && !a.av && vmaTags a e.gscid e.pscid
  | .gvma gv g => !gv || e.gscid = g

def entryKey (e : TlbEntry) : StageKey :=
  { gscid := e.gscid, pscid := e.pscid, vpage := e.vpage, size := e.size, span := e.span }

/-- Whether a staged write lies in a scope. -/
def stagedIn (c : InvalScope) (e : LogEntry) : Bool := e.key.any (leafInScope c)

/-- An invalidation on one die: entries in scope go; a command with staged writes in scope that has not begun its drain is
pre-empted with 0x0363. -/
def invalDie (c : InvalScope) (d : Nat) (s : State) : State :=
  let x := dieOf s d
  let s := updDie s d fun x => { x with iotlb := x.iotlb.filter fun e => !leafInScope c (entryKey e),
                                        walkCache := x.walkCache.filter fun e => !stepInScope c e }
  if x.log.any (stagedIn c) && x.drain.isNone then killOn d .preempt (post 0x0363 d [d, ctxOn s d] s) else s

def invalidate (c : InvalScope) (s : State) : State := each (List.range 8) (invalDie c) s

/-- IODIR.INVAL_DDT: cached device contexts, and the process contexts found under them, go. -/
def invalDdt (dv : Bool) (did : Nat) (s : State) : State :=
  { s with iommu := { s.iommu with
    ddtCache := if dv then SMap.del s.iommu.ddtCache did else [],
    pdtCache := if dv then s.iommu.pdtCache.filter fun (p : Nat × List W64) => p.1 / 2 ^ 20 != did else [] } }

def invalPdt (did pid : Nat) (s : State) : State :=
  { s with iommu := { s.iommu with pdtCache := SMap.del s.iommu.pdtCache (did * 2 ^ 20 + pid) } }

/-- IOFENCE.C: it holds the head of the queue until the kills and drains under way have ended (R227). -/
def fence (a : FenceArgs) (s : State) : State :=
  settleFences { s with iommu := { s.iommu with fence := some { args := a, kills := killsNow s, drains := drainsNow s } } }

/-! ## The command queue (R225) -/

/-- Carries out a command; the head moves past it, past a fence when that completes. IOFENCE.C with WSI is an illegal command. -/
def runCmd (c : AgentCmd) (s : State) : State :=
  match c with
  | .prgr did pid prgi resp => cqAdvance (pageResponse did pid prgi resp s)
  | .vma a => cqAdvance (invalidate (.vma a) s)
  | .gvma gv gscid => cqAdvance (invalidate (.gvma gv gscid) s)
  | .invalDdt dv did => cqAdvance (invalDdt dv did s)
  | .invalPdt did pid => cqAdvance (invalPdt did pid s)
  | .fence a => if a.wsi then illegalCmd s else fence a s
  | .illegal => illegalCmd s

/-- Carries out the commands of the queue in order, up to a fence that waits or a command that stops the queue. -/
def runCmds : List AgentCmd → State → State
  | [], s => s
  | c :: rest, s =>
    if s.iommu.fence.isSome || cqStopped s then { s with iommu := { s.iommu with waiting := c :: rest } }
    else runCmds rest (runCmd c s)

/-- Carries out what waited behind a fence that has completed. -/
def runQueue (s : State) : State := runCmds s.iommu.waiting { s with iommu := { s.iommu with waiting := [] } }

/-- The agent takes a command of its queue, behind those that wait (R225). A queue that has stopped takes none. -/
def agentCmd (c : AgentCmd) (s : State) : State :=
  if cqStopped s then s else runQueue { s with iommu := { s.iommu with waiting := s.iommu.waiting ++ [c] } }

/-! ## The rows -/

/-- FAULT_BUDGET_EXPIRED (R167, R183, R193, R223, R224, R230). -/
def execFaultBudgetExpired (d : Die) (slot : BitVec 5) (s : State) : Host.Outcome State Fault Refusal :=
  command (budgetExpired d slot.toNat) s
/-- ATS_PRGR (R176, R220 to R223, R225, R228). -/
def execAtsPrgr (did : Nat) (pid : BitVec 20) (prgi : BitVec 9) (resp : PrgrCode) (s : State) : Host.Outcome State Fault Refusal :=
  command (agentCmd (.prgr did pid.toNat prgi.toNat resp)) s
/-- IOTINVAL_VMA (R219, R225, R226, R228). -/
def execIotinvalVma (a : InvalArgs) (s : State) : Host.Outcome State Fault Refusal := command (agentCmd (.vma a)) s
/-- IOTINVAL_GVMA (R219, R225, R226, R228). -/
def execIotinvalGvma (gv : Bool) (gscid : BitVec 16) (s : State) : Host.Outcome State Fault Refusal :=
  command (agentCmd (.gvma gv gscid.toNat)) s
/-- IODIR_INVAL_DDT (R225; scope of the RISC-V IOMMU specification, log 20). -/
def execIodirInvalDdt (dv : Bool) (did : Nat) (s : State) : Host.Outcome State Fault Refusal := command (agentCmd (.invalDdt dv did)) s
/-- IODIR_INVAL_PDT (R225; log 20). -/
def execIodirInvalPdt (did : Nat) (pid : BitVec 20) (s : State) : Host.Outcome State Fault Refusal :=
  command (agentCmd (.invalPdt did pid.toNat)) s
/-- IOFENCE_C (R225, R227). -/
def execIofenceC (a : FenceArgs) (s : State) : Host.Outcome State Fault Refusal := command (agentCmd (.fence a)) s
/-- ATS_INVAL (R225): an illegal command. -/
def execAtsInval (s : State) : Host.Outcome State Fault Refusal := command (agentCmd .illegal) s

end Sys2Proof.Machine
end

