-- ==== Sys2Proof/Machine/Dispatch.lean ====
section
/-! DEFINITION. One arm per command: each is one call of that command's meaning. -/

namespace Sys2Proof.Machine

def exec (i : Instr) (s : State) : Host.Outcome State Fault Refusal :=
  match i with
  | .bundleIssue d => Sys2Proof.Machine.execBundleIssue d s
  | .streamFetchAhead d n => Sys2Proof.Machine.execStreamFetchAhead d n s
  | .nop d => Sys2Proof.Machine.execNop d s
  | .br d target => Sys2Proof.Machine.execBr d target s
  | .loopOp d lc target => Sys2Proof.Machine.execLoopOp d lc target s
  | .setlc d lc imm => Sys2Proof.Machine.execSetlc d lc imm s
  | .brc d sv cond imm target => Sys2Proof.Machine.execBrc d sv cond imm target s
  | .setsv d sv imm => Sys2Proof.Machine.execSetsv d sv imm s
  | .addsv d sv imm => Sys2Proof.Machine.execAddsv d sv imm s
  | .lds d a => Sys2Proof.Machine.execLds d a s
  | .sts d a => Sys2Proof.Machine.execSts d a s
  | .wait d token count => Sys2Proof.Machine.execWait d token count s
  | .waitComplete d => Sys2Proof.Machine.execWaitComplete d s
  | .waitTimeout d => Sys2Proof.Machine.execWaitTimeout d s
  | .signal d rank token inc => Sys2Proof.Machine.execSignal d rank token inc s
  | .remoteSignalReceived d => Sys2Proof.Machine.execRemoteSignalReceived d s
  | .lend d token limit => Sys2Proof.Machine.execLend d token limit s
  | .remoteCopyReceived d => Sys2Proof.Machine.execRemoteCopyReceived d s
  | .fenceL d => Sys2Proof.Machine.execFenceL d s
  | .fenceS d => Sys2Proof.Machine.execFenceS d s
  | .fenceLs d => Sys2Proof.Machine.execFenceLs d s
  | .acquire d => Sys2Proof.Machine.execAcquire d s
  | .release d => Sys2Proof.Machine.execRelease d s
  | .commit d last sb => Sys2Proof.Machine.execCommit d last sb s
  | .commitDrainComplete d => Sys2Proof.Machine.execCommitDrainComplete d s
  | .hintPhase d level horizon => Sys2Proof.Machine.execHintPhase d level horizon s
  | .hintHorizonEnd site => Sys2Proof.Machine.execHintHorizonEnd site s
  | .faultOp d code => Sys2Proof.Machine.execFaultOp d code s
  | .vatHold d vat => Sys2Proof.Machine.execVatHold d vat s
  | .pass d vat slot desc => Sys2Proof.Machine.execPass d vat slot desc s
  | .passComplete d vat => Sys2Proof.Machine.execPassComplete d vat s
  | .load d vat lslot ldesc => Sys2Proof.Machine.execLoad d vat lslot ldesc s
  | .passld d vat slot desc lslot ldesc => Sys2Proof.Machine.execPassld d vat slot desc lslot ldesc s
  | .loadComplete d vat => Sys2Proof.Machine.execLoadComplete d vat s
  | .vatCheckMismatch d phys block vec => Sys2Proof.Machine.execVatCheckMismatch d phys block vec s
  | .churnHold d u => Sys2Proof.Machine.execChurnHold d u s
  | .ldv d u a => Sys2Proof.Machine.execLdv d u a s
  | .stv d u a => Sys2Proof.Machine.execStv d u a s
  | .add d u a => Sys2Proof.Machine.execAdd d u a s
  | .sub d u a => Sys2Proof.Machine.execSub d u a s
  | .mul d u a => Sys2Proof.Machine.execMul d u a s
  | .fma d u a => Sys2Proof.Machine.execFma d u a s
  | .minOp d u a => Sys2Proof.Machine.execMinOp d u a s
  | .maxOp d u a => Sys2Proof.Machine.execMaxOp d u a s
  | .abs d u a => Sys2Proof.Machine.execAbs d u a s
  | .neg d u a => Sys2Proof.Machine.execNeg d u a s
  | .andOp d u a => Sys2Proof.Machine.execAndOp d u a s
  | .orOp d u a => Sys2Proof.Machine.execOrOp d u a s
  | .xorOp d u a => Sys2Proof.Machine.execXorOp d u a s
  | .shl d u a => Sys2Proof.Machine.execShl d u a s
  | .shra d u a => Sys2Proof.Machine.execShra d u a s
  | .shrl d u a => Sys2Proof.Machine.execShrl d u a s
  | .cmp d u a => Sys2Proof.Machine.execCmp d u a s
  | .mand d u a => Sys2Proof.Machine.execMand d u a s
  | .mor d u a => Sys2Proof.Machine.execMor d u a s
  | .mxor d u a => Sys2Proof.Machine.execMxor d u a s
  | .mnot d u a => Sys2Proof.Machine.execMnot d u a s
  | .sel d u a => Sys2Proof.Machine.execSel d u a s
  | .mov d u a => Sys2Proof.Machine.execMov d u a s
  | .mcnt d u a => Sys2Proof.Machine.execMcnt d u a s
  | .iota d u a => Sys2Proof.Machine.execIota d u a s
  | .cvt d u a => Sys2Proof.Machine.execCvt d u a s
  | .exp2 d u a => Sys2Proof.Machine.execExp2 d u a s
  | .log2 d u a => Sys2Proof.Machine.execLog2 d u a s
  | .recip d u a => Sys2Proof.Machine.execRecip d u a s
  | .rsqrt d u a => Sys2Proof.Machine.execRsqrt d u a s
  | .tanh d u a => Sys2Proof.Machine.execTanh d u a s
  | .sigmoid d u a => Sys2Proof.Machine.execSigmoid d u a s
  | .erf d u a => Sys2Proof.Machine.execErf d u a s
  | .compress d u a => Sys2Proof.Machine.execCompress d u a s
  | .expand d u a => Sys2Proof.Machine.execExpand d u a s
  | .rsum d u a => Sys2Proof.Machine.execRsum d u a s
  | .rmax d u a => Sys2Proof.Machine.execRmax d u a s
  | .rmin d u a => Sys2Proof.Machine.execRmin d u a s
  | .topk d u a => Sys2Proof.Machine.execTopk d u a s
  | .rand d u a => Sys2Proof.Machine.execRand d u a s
  | .moverHold d mv => Sys2Proof.Machine.execMoverHold d mv s
  | .get d mv a => Sys2Proof.Machine.execGet d mv a s
  | .put d mv a => Sys2Proof.Machine.execPut d mv a s
  | .copy d mv a => Sys2Proof.Machine.execCopy d mv a s
  | .hred d mv a => Sys2Proof.Machine.execHred d mv a s
  | .lacePut d mv a => Sys2Proof.Machine.execLacePut d mv a s
  | .laceGet d mv a => Sys2Proof.Machine.execLaceGet d mv a s
  | .laceReduce d mv a => Sys2Proof.Machine.execLaceReduce d mv a s
  | .laceSignal d mv a => Sys2Proof.Machine.execLaceSignal d mv a s
  | .contextEnable c => Sys2Proof.Machine.execContextEnable c s
  | .contextReset c => Sys2Proof.Machine.execContextReset c s
  | .preempt c => Sys2Proof.Machine.execPreempt c s
  | .sqTail c v => Sys2Proof.Machine.execSqTail c v s
  | .cqHead c v => Sys2Proof.Machine.execCqHead c v s
  | .preemptDies mask => Sys2Proof.Machine.execPreemptDies mask s
  | .dispatchPlace => Sys2Proof.Machine.execDispatchPlace s
  | .loadTimeCheckDone d => Sys2Proof.Machine.execLoadTimeCheckDone d s
  | .killComplete d => Sys2Proof.Machine.execKillComplete d s
  | .saveComplete d => Sys2Proof.Machine.execSaveComplete d s
  | .restoreComplete d => Sys2Proof.Machine.execRestoreComplete d s
  | .dieReset mask key => Sys2Proof.Machine.execDieReset mask key s
  | .pkgReset key => Sys2Proof.Machine.execPkgReset key s
  | .holdNext key => Sys2Proof.Machine.execHoldNext key s
  | .partitionEnable d v => Sys2Proof.Machine.execPartitionEnable d v s
  | .stopOp d v => Sys2Proof.Machine.execStopOp d v s
  | .stepBoundary d => Sys2Proof.Machine.execStepBoundary d s
  | .sepCqTail v => Sys2Proof.Machine.execSepCqTail v s
  | .place => Sys2Proof.Machine.execPlace s
  | .sepRelease => Sys2Proof.Machine.execSepRelease s
  | .pinOp => Sys2Proof.Machine.execPinOp s
  | .unpin => Sys2Proof.Machine.execUnpin s
  | .setPull => Sys2Proof.Machine.execSetPull s
  | .clrPull => Sys2Proof.Machine.execClrPull s
  | .migrate => Sys2Proof.Machine.execMigrate s
  | .chown => Sys2Proof.Machine.execChown s
  | .quotaWrite c v => Sys2Proof.Machine.execQuotaWrite c v s
  | .unifiedAccess a => Sys2Proof.Machine.execUnifiedAccess a s
  | .migrationCopyDone g => Sys2Proof.Machine.execMigrationCopyDone g s
  | .migrationTimeout g => Sys2Proof.Machine.execMigrationTimeout g s
  | .demotionScan c => Sys2Proof.Machine.execDemotionScan c s
  | .roundNearFetch d => Sys2Proof.Machine.execRoundNearFetch d s
  | .roundTileFetched d => Sys2Proof.Machine.execRoundTileFetched d s
  | .roundSlotLoadDone d vat => Sys2Proof.Machine.execRoundSlotLoadDone d vat s
  | .faultBudgetExpired d slot => Sys2Proof.Machine.execFaultBudgetExpired d slot s
  | .atsPrgr did pid prgi resp => Sys2Proof.Machine.execAtsPrgr did pid prgi resp s
  | .iotinvalVma a => Sys2Proof.Machine.execIotinvalVma a s
  | .iotinvalGvma gv gscid => Sys2Proof.Machine.execIotinvalGvma gv gscid s
  | .iodirInvalDdt dv did => Sys2Proof.Machine.execIodirInvalDdt dv did s
  | .iodirInvalPdt did pid => Sys2Proof.Machine.execIodirInvalPdt did pid s
  | .iofenceC a => Sys2Proof.Machine.execIofenceC a s
  | .atsInval => Sys2Proof.Machine.execAtsInval s
  | .invalidationApply d => Sys2Proof.Machine.execInvalidationApply d s
  | .readShared src line => Sys2Proof.Machine.execReadShared src line s
  | .readUnique src line => Sys2Proof.Machine.execReadUnique src line s
  | .cleanUnique src line => Sys2Proof.Machine.execCleanUnique src line s
  | .writeLine src line data mask => Sys2Proof.Machine.execWriteLine src line data mask s
  | .writeBack src line data => Sys2Proof.Machine.execWriteBack src line data s
  | .evictClean src line => Sys2Proof.Machine.execEvictClean src line s
  | .atomicReq src line op => Sys2Proof.Machine.execAtomicReq src line op s
  | .reduce src line op data => Sys2Proof.Machine.execReduce src line op data s
  | .fwdShared owner line => Sys2Proof.Machine.execFwdShared owner line s
  | .fwdUnique owner line => Sys2Proof.Machine.execFwdUnique owner line s
  | .invalidate holder line => Sys2Proof.Machine.execInvalidate holder line s
  | .recall holder line => Sys2Proof.Machine.execRecall holder line s
  | .dataMsg dst line => Sys2Proof.Machine.execDataMsg dst line s
  | .invAck holder line => Sys2Proof.Machine.execInvAck holder line s
  | .recallData holder line => Sys2Proof.Machine.execRecallData holder line s
  | .writeAck dst line => Sys2Proof.Machine.execWriteAck dst line s
  | .atomicResult dst line => Sys2Proof.Machine.execAtomicResult dst line s
  | .compAck src line => Sys2Proof.Machine.execCompAck src line s
  | .homeTimeout line => Sys2Proof.Machine.execHomeTimeout line s
  | .shankCrcFail site => Sys2Proof.Machine.execShankCrcFail site s
  | .patrolScrub unit r => Sys2Proof.Machine.execPatrolScrub unit r s
  | .timerCompare h which => Sys2Proof.Machine.execTimerCompare h which s
  | .hgatpVmidWrite h vmid => Sys2Proof.Machine.execHgatpVmidWrite h vmid s
  | .cbqriAllocRequest a => Sys2Proof.Machine.execCbqriAllocRequest a s
  | .qkPlatformInfo => Sys2Proof.Machine.execQkPlatformInfo s
  | .qkCalendarRead => Sys2Proof.Machine.execQkCalendarRead s
  | .qkPageRetire addr cause => Sys2Proof.Machine.execQkPageRetire addr cause s
  | .retirementMoveDone unit g => Sys2Proof.Machine.execRetirementMoveDone unit g s
  | .qkCorePhase h level horizon => Sys2Proof.Machine.execQkCorePhase h level horizon s
  | .hartGetStatus call => Sys2Proof.Machine.execHartGetStatus call s
  | .srstShutdown => Sys2Proof.Machine.execSrstShutdown s
  | .srstColdReboot => Sys2Proof.Machine.execSrstColdReboot s
  | .laneLost e tx w => Sys2Proof.Machine.execLaneLost e tx w s
  | .laneRejoined e tx w => Sys2Proof.Machine.execLaneRejoined e tx w s
  | .flitReceived e f => Sys2Proof.Machine.execFlitReceived e f s
  | .flitNak e ack => Sys2Proof.Machine.execFlitNak e ack s
  | .inletLost n => Sys2Proof.Machine.execInletLost n s
  | .inletRestored n => Sys2Proof.Machine.execInletRestored n s
  | .putPacket p => Sys2Proof.Machine.execPutPacket p s
  | .reducePacket p => Sys2Proof.Machine.execReducePacket p s
  | .signalPacket p => Sys2Proof.Machine.execSignalPacket p s
  | .getReq p => Sys2Proof.Machine.execGetReq p s
  | .getRsp p => Sys2Proof.Machine.execGetRsp p s
  | .commitPacket p => Sys2Proof.Machine.execCommitPacket p s
  | .commitAck p => Sys2Proof.Machine.execCommitAck p s
  | .commitNak p => Sys2Proof.Machine.execCommitNak p s
  | .abort p => Sys2Proof.Machine.execAbort p s
  | .renew p => Sys2Proof.Machine.execRenew p s
  | .stageRefused p => Sys2Proof.Machine.execStageRefused p s
  | .e2eAck p => Sys2Proof.Machine.execE2eAck p s
  | .renewDue p => Sys2Proof.Machine.execRenewDue p s
  | .stagingLeaseExpired p cmd => Sys2Proof.Machine.execStagingLeaseExpired p cmd s
  | .commitRepeat p => Sys2Proof.Machine.execCommitRepeat p s
  | .partnerUndelivered p => Sys2Proof.Machine.execPartnerUndelivered p s
  | .e2eAckDue p => Sys2Proof.Machine.execE2eAckDue p s
  | .retransmitTimeout p => Sys2Proof.Machine.execRetransmitTimeout p s
  | .laceDown p => Sys2Proof.Machine.execLaceDown p s
  | .tagQuarantineEnd d p tag => Sys2Proof.Machine.execTagQuarantineEnd d p tag s
  | .partnerValidClear p => Sys2Proof.Machine.execPartnerValidClear p s
  | .helloDue => Sys2Proof.Machine.execHelloDue s
  | .hello p => Sys2Proof.Machine.execHello p s
  | .reachabilityLost p => Sys2Proof.Machine.execReachabilityLost p s
  | .propose p => Sys2Proof.Machine.execPropose p s
  | .accept p => Sys2Proof.Machine.execAccept p s
  | .viewPkt p => Sys2Proof.Machine.execViewPkt p s
  | .memberTimeout => Sys2Proof.Machine.execMemberTimeout s
  | .pcieLinkUp port rate width => Sys2Proof.Machine.execPcieLinkUp port rate width s
  | .pcieLinkDown port => Sys2Proof.Machine.execPcieLinkDown port s
  | .flr => Sys2Proof.Machine.execFlr s
  | .hotReset => Sys2Proof.Machine.execHotReset s
  | .aerUncorrectable port rid status => Sys2Proof.Machine.execAerUncorrectable port rid status s
  | .pailWrite addr data full => Sys2Proof.Machine.execPailWrite addr data full s
  | .pailDoorbell q bytes seq => Sys2Proof.Machine.execPailDoorbell q bytes seq s
  | .pailResync q v => Sys2Proof.Machine.execPailResync q v s
  | .pailIdleDiscard q => Sys2Proof.Machine.execPailIdleDiscard q s
  | .ingestQueueEnable q v => Sys2Proof.Machine.execIngestQueueEnable q v s
  | .dataRecord q => Sys2Proof.Machine.execDataRecord q s
  | .jobRecord q => Sys2Proof.Machine.execJobRecord q s
  | .fenceRecord q => Sys2Proof.Machine.execFenceRecord q s
  | .returnRecord q => Sys2Proof.Machine.execReturnRecord q s
  | .returnAfterJobReady q => Sys2Proof.Machine.execReturnAfterJobReady q s
  | .mailboxGo m => Sys2Proof.Machine.execMailboxGo m s
  | .readOp path f => Sys2Proof.Machine.execReadOp path f s
  | .writeOp path f => Sys2Proof.Machine.execWriteOp path f s
  | .readMulti path f => Sys2Proof.Machine.execReadMulti path f s
  | .subscribe path f => Sys2Proof.Machine.execSubscribe path f s
  | .sessionOpen path f => Sys2Proof.Machine.execSessionOpen path f s
  | .sessionClose path f => Sys2Proof.Machine.execSessionClose path f s
  | .sessionIdleTimeout path sess => Sys2Proof.Machine.execSessionIdleTimeout path sess s
  | .subscriptionPush sess sub => Sys2Proof.Machine.execSubscriptionPush sess sub s
  | .lockoutEnd path src => Sys2Proof.Machine.execLockoutEnd path src s
  | .clearFailedDieRecord r v => Sys2Proof.Machine.execClearFailedDieRecord r v s
  | .clearVatRetirementRecord r v => Sys2Proof.Machine.execClearVatRetirementRecord r v s
  | .clearRetirementList r v => Sys2Proof.Machine.execClearRetirementList r v s
  | .behaviourLevelPin r v => Sys2Proof.Machine.execBehaviourLevelPin r v s
  | .calendarTimeWrite r v => Sys2Proof.Machine.execCalendarTimeWrite r v s
  | .ownerEndTenancy r v => Sys2Proof.Machine.execOwnerEndTenancy r v s
  | .debugRequest r v => Sys2Proof.Machine.execDebugRequest r v s
  | .tunnelFuseRead r => Sys2Proof.Machine.execTunnelFuseRead r s
  | .tunnelSoftRepair r => Sys2Proof.Machine.execTunnelSoftRepair r s
  | .tunnelHardRepair r => Sys2Proof.Machine.execTunnelHardRepair r s
  | .updateBegin r => Sys2Proof.Machine.execUpdateBegin r s
  | .updateEraseDone => Sys2Proof.Machine.execUpdateEraseDone s
  | .imageChunk r data => Sys2Proof.Machine.execImageChunk r data s
  | .updateCommit r => Sys2Proof.Machine.execUpdateCommit r s
  | .updateCancel r => Sys2Proof.Machine.execUpdateCancel r s
  | .getDigests r => Sys2Proof.Machine.execGetDigests r s
  | .getCertificate r slot off len => Sys2Proof.Machine.execGetCertificate r slot off len s
  | .challenge r slot nonce => Sys2Proof.Machine.execChallenge r slot nonce s
  | .getMeasurements r idx nonce => Sys2Proof.Machine.execGetMeasurements r idx nonce s
  | .keyExchange r slot exch => Sys2Proof.Machine.execKeyExchange r slot exch s
  | .finish r sess mutAuth => Sys2Proof.Machine.execFinish r sess mutAuth s
  | .heartbeat r sess => Sys2Proof.Machine.execHeartbeat r sess s
  | .keyUpdate r sess => Sys2Proof.Machine.execKeyUpdate r sess s
  | .endSession r sess => Sys2Proof.Machine.execEndSession r sess s
  | .memKeySet k => Sys2Proof.Machine.execMemKeySet k s
  | .memKeyDestroy k => Sys2Proof.Machine.execMemKeyDestroy k s
  | .laceKeySet k => Sys2Proof.Machine.execLaceKeySet k s
  | .laceKeyDestroy k => Sys2Proof.Machine.execLaceKeyDestroy k s
  | .endTenancy k => Sys2Proof.Machine.execEndTenancy k s
  | .membKeySet k => Sys2Proof.Machine.execMembKeySet k s
  | .zeroFillDone => Sys2Proof.Machine.execZeroFillDone s
  | .estimatorInterval m => Sys2Proof.Machine.execEstimatorInterval m s
  | .trimUpdate meterMj => Sys2Proof.Machine.execTrimUpdate meterMj s
  | .slewComplete rail => Sys2Proof.Machine.execSlewComplete rail s
  | .droopPause r => Sys2Proof.Machine.execDroopPause r s
  | .droopPauseEnd r => Sys2Proof.Machine.execDroopPauseEnd r s
  | .memoryDroopTrip r => Sys2Proof.Machine.execMemoryDroopTrip r s
  | .railOvercurrentTrip r => Sys2Proof.Machine.execRailOvercurrentTrip r s
  | .softStartRampEnd r ok => Sys2Proof.Machine.execSoftStartRampEnd r ok s
  | .softStartRetry site => Sys2Proof.Machine.execSoftStartRetry site s
  | .tjLimit site sensors => Sys2Proof.Machine.execTjLimit site sensors s
  | .thermalStep site sensors => Sys2Proof.Machine.execThermalStep site sensors s
  | .hardTrip site sensors => Sys2Proof.Machine.execHardTrip site sensors s
  | .inputRange mv => Sys2Proof.Machine.execInputRange mv s
  | .coldStart b => Sys2Proof.Machine.execColdStart b s
  | .pkgResetPin => Sys2Proof.Machine.execPkgResetPin s
  | .pwrgoodIn => Sys2Proof.Machine.execPwrgoodIn s
  | .startupStepOverrun => Sys2Proof.Machine.execStartupStepOverrun s
  | .identityFrameRepeat port => Sys2Proof.Machine.execIdentityFrameRepeat port s
  | .identityFrame port f => Sys2Proof.Machine.execIdentityFrame port f s
  | .discoveryTimeout => Sys2Proof.Machine.execDiscoveryTimeout s
  | .configFrame port f => Sys2Proof.Machine.execConfigFrame port f s
  | .configAck port f => Sys2Proof.Machine.execConfigAck port f s
  | .configAckTimeout port => Sys2Proof.Machine.execConfigAckTimeout port s
  | .dairymanHeartbeat => Sys2Proof.Machine.execDairymanHeartbeat s
  | .dairymanFailed selfReport => Sys2Proof.Machine.execDairymanFailed selfReport s
  | .dairymanRestarted ok => Sys2Proof.Machine.execDairymanRestarted ok s
  | .powerLost => Sys2Proof.Machine.execPowerLost s
  | .heelExhausted => Sys2Proof.Machine.execHeelExhausted s
  | .ledgerRecordDue => Sys2Proof.Machine.execLedgerRecordDue s
  | .eventBatchDue => Sys2Proof.Machine.execEventBatchDue s
  | .calendarMidnight vbatMv => Sys2Proof.Machine.execCalendarMidnight vbatMv s
  | .ptpSync offset => Sys2Proof.Machine.execPtpSync offset s
  | .registerWrite place size data => Sys2Proof.Machine.execRegisterWrite place size data s
  | .pkgResetRelease => Sys2Proof.Machine.execPkgResetRelease s
  | .hcqHead q v => Sys2Proof.Machine.execHcqHead q v s
  | .poolTail d v => Sys2Proof.Machine.execPoolTail d v s
  | .msiDelivered => Sys2Proof.Machine.execMsiDelivered s
  | .edgeCacheEvict d line => Sys2Proof.Machine.execEdgeCacheEvict d line s
  | .portBIntx n level => Sys2Proof.Machine.execPortBIntx n level s
  | .spareSubstitutionComplete e tx => Sys2Proof.Machine.execSpareSubstitutionComplete e tx s
  | .passLastRowFed d vat => Sys2Proof.Machine.execPassLastRowFed d vat s
  | .granuleZeroFilled g => Sys2Proof.Machine.execGranuleZeroFilled g s
  | .testPortInstruction t => Sys2Proof.Machine.execTestPortInstruction t s
  | .hartSuspend h retentive => Sys2Proof.Machine.execHartSuspend h retentive s

end Sys2Proof.Machine
end

