-- ==== Sys2Proof/Machine/Tick.lean ====
section
/-! DEFINITION. One tick of the 100 MHz timebase: what happens as time passes with no command waiting (R7, R265, R276, R430; log 6). -/

namespace Sys2Proof.Machine

/-- The trim 0x7000:03 in parts per 10^9. -/
def clockTrim (s : State) : Int := signed 32 (objNat s 0x7000 3 (leNat (fit 4 (Config.manufacture 20))))

/-- Most units of 2^-24 s that a PTP offset is slewed in one second: 100 ppm (R430). -/
def slewLimit : Int := 1677

/-- At a second boundary of the calendar clock the trim is applied, and a part of the PTP offset (R430). -/
def calendarSecond (s : State) : State :=
  let due := s.cal.trimRem + clockTrim s * 2 ^ 24
  let slew := max (-slewLimit) (min slewLimit s.cal.slewing)
  let time := BitVec.ofInt 64 (s.cal.time.toNat + due.fdiv 1000000000 + slew)
  { s with cal := { s.cal with time, trimRem := due.fmod 1000000000, slewing := s.cal.slewing - slew } }

/-- One period of the 32.768 kHz crystal: 512 units, and the second's work when it ends one. -/
def crystalPeriod (s : State) : State :=
  let t := s.cal.time + 512
  let u := { s with cal := { s.cal with time := t } }
  if t.toNat / 2 ^ 24 = s.cal.time.toNat / 2 ^ 24 then u else calendarSecond u

/-- The calendar clock over one tick: 32,768 crystal periods are 10^8 ticks. -/
def calendarTick (s : State) : State :=
  let n := s.cal.sub + 32768
  if n < 100000000 then { s with cal := { s.cal with sub := n } }
  else crystalPeriod { s with cal := { s.cal with sub := n - 100000000 } }

/-- 0x0403 for each home whose corrected errors grew since the last whole second (R265). -/
def summarise (h : Nat) (s : State) : State :=
  let x := SMap.get {} s.dom.homes h
  if x.corrected = x.summed then s
  else post 0x0403 h [h, (x.corrected - x.summed).toNat]
    { s with dom := { s.dom with homes := SMap.set {} s.dom.homes h { x with summed := x.corrected } } }

/-- Whether the timebase runs: the input is there and the Cowbell has not shed it (R413, R428). -/
def timebaseRuns (s : State) : Bool := s.su.phase ≠ .dark && s.su.phase ≠ .shed

/-- What waits at an eyelet that is UP for want of a full flit goes with the tick (R298; log 52). -/
def flushEyes (s : State) : State :=
  { s with lacing := { s.lacing with eyes := s.lacing.eyes.map fun (p : Nat × Eyelet) =>
      (p.1, if p.2.state == .up then sendFlit p.2 else p.2) } }

/-- An edge cache applies what its queue has held for 10 us (R237). -/
def dueInvals (now : BitVec 64) (x : DieSt) : DieSt :=
  let due := x.invQueue.filter fun q => 1000 ≤ (now - q.2).toNat
  { x with edge := due.foldl (fun e q => SMap.del e q.1) x.edge, invQueue := x.invQueue.filter fun q => (now - q.2).toNat < 1000 }

/-- Whether a compute die holds work that goes on as time passes. -/
def dieWaits (x : DieSt) : Bool := x.drain.isSome || !x.deferred.isEmpty || !x.walkWait.isEmpty || !x.invQueue.isEmpty

/-- What a compute die does as time passes: its draining log goes on, the actions that wait in it are tried again (log 119), its walkers
serve what waits on them, and its edge cache keeps its limit (R236, R237). -/
def dieTick (d : Nat) (s : State) : State :=
  if dieWaits (dieOf s d) then updDie (serveWaits d (runDeferred d (drainSome d s))) d (dueInvals s.time) else s

/-- The dispatcher may send an MSI that waits; when it does the spec leaves open (R283; log 133). -/
def msiTick (s : State) : State :=
  if s.disp.msis.isEmpty then s else if Config.freeBit s.free then sendMsi (drew s) else drew s

/-- One tick. -/
def tick (s : State) : State :=
  let s := calendarTick s
  if !timebaseRuns s then s
  else
    let s := runQueue (runStops (each (s.dies.map (·.1)) dieTick (flushEyes { s with time := s.time + 1 })))
    let s := hartsTick (msiTick (if dairymanUp s && !s.sep.owed.isEmpty then payOwed s else s))
    if s.time.toNat % 100000000 = 0 then each (s.dom.homes.map (·.1)) summarise s else s

end Sys2Proof.Machine
end

