-- ==== Sys2Proof/Machine/Step.lean ====
section
/-! DEFINITION. One step of the package: it runs the command at the front of the queue, or lets time pass. -/

namespace Sys2Proof.Machine

/-- The command at the front runs on the state with the queue's rest; with no command waiting the timebase and the calendar
clock advance by one tick (R4, R276; log 6). -/
def step (s : State) : Host.Outcome State Fault Refusal :=
  match s.pending with
  | [] => .next (tick s)
  | c :: rest => exec c { s with pending := rest }

/-- The state with the command a word spells put at the front of its queue: the table gives no word any command. -/
def State.withFetchWord (s : State) (nbits w : Nat) : State :=
  match Sys2Proof.decodeTableWord nbits w with
  | some c => { s with pending := c :: s.pending }
  | none => s

end Sys2Proof.Machine
end

