-- ==== Sys2Proof/WellFormed.lean ====
section
/-! DEFINITION. Which commands are well formed: operands whose type is wider than the range the spec gives them lie inside it. -/

namespace Sys2Proof

/-- Granules of the unified range: 44 physical address bits in 64 KiB granules (R149, R215). -/
def granuleLimit : Nat := 2 ^ 28

/-- Lines of 64 bytes below 44 physical address bits (R215, R253). -/
def lineLimit : Nat := 2 ^ 38

/-- Most bytes that a UDP datagram carries to the field port (R405). -/
def frameLimit : Nat := 65527

/-- Bytes of an access, at least one; an atomic has 4 or 8. An instruction fetch is a hart's load. -/
def Access.fits (a : Access) : Bool :=
  (match a.kind with
  | .load n => decide (1 ≤ n)
  | .store b => !b.isEmpty
  | .amo _ => true) && (!a.fetch || match a.who, a.kind with | .hart _, .load _ => true | _, _ => false)

/-- A register at an address is written naturally aligned; a hart's registers are 64 bits (R232, R273). -/
def RegPlace.fits (p : RegPlace) (size : Nat) : Bool :=
  match p with
  | .at a => (size = 1 || size = 2 || size = 4 || size = 8) && a.toNat % size = 0
  | .csr h _ _ _ | .x h _ | .f h _ | .v h _ _ | .q h _ => h.toNat < 144 && size = 8

/-- The caller of firmware is a hart (R272). -/
def SbiCall.fits (c : SbiCall) : Bool := match c with | .status _ => true | .call a => a.caller.toNat < 144

/-- An atomic lies naturally aligned inside its line (R261). -/
def AtomicOp.fits (x : AtomicOp) : Bool := x.offset.toNat % (if x.double then 8 else 4) = 0

/-- A packet's data is at most 1,024 bytes and its tag is 16 bytes (R298). -/
def Packet.fits (p : Packet) : Bool := p.data.length ≤ 1024 && p.mac.length = 16

/-- The KEY field of a delivery request is 64 bytes (R381). -/
def KeyReq.fits (k : KeyReq) : Bool := k.key.length = 64

/-- A rail of a site 0-9 or a stack 0-15 (R353). -/
def RailId.fits (r : RailId) : Bool :=
  match r with
  | .logic site => site < 10
  | .memory site => site < 10
  | .stack k => k < 16

/-- Measured sites and handshake classes are those of R352 and R357. -/
def PowerMeter.fits (m : PowerMeter) : Bool :=
  m.vinMv < 65536 && m.meas.all (fun p => p.1 < 32 && p.2 < 4096) && m.counts.all fun p => p.1 < 32 && p.2.1 < 32

/-- Modules sit in D0-D15, units and eyelets are 0-63 and stacks 0-15 (R319, R321 to R324). -/
def Board.fits (b : Board) : Bool :=
  b.modules.all (fun p => p.1 < 16) && b.trainFail.all (· < 64) && b.badLanes.all (fun p => p.stack < 16 && p.pseudo < 64) && b.vbatMv < 65536
    && b.norFail.all (· < 2) && b.progFail.all (· < 2) && b.oneSided.all (fun p => p.1 < 3) && (b.slowStep = 0 || (6 ≤ b.slowStep && b.slowStep ≤ 10))

/-- Sites are 0-10 and the cores of a processor die 0-71 (R256, R275). -/
def ReqSrc.fits (r : ReqSrc) : Bool := r.site < 11 && r.core.toNat < 72

/-- Whether a command is well formed. -/
def Instr.wellFormed (i : Instr) : Bool :=
  match i with
  | .streamFetchAhead _ n => 1 ≤ n && n ≤ 131072
  | .hintHorizonEnd site => site < 10
  | .vatCheckMismatch _ phys _ _ => phys < 17
  | .unifiedAccess a => a.fits
  | .migrationCopyDone g => g < granuleLimit
  | .migrationTimeout g => g < granuleLimit
  | .atsPrgr did _ _ _ => did < 2 ^ 24
  | .iodirInvalDdt _ did => did < 2 ^ 24
  | .iodirInvalPdt did _ => did < 2 ^ 24
  | .readShared src line => src.fits && line < lineLimit
  | .readUnique src line => src.fits && line < lineLimit
  | .cleanUnique src line => src.fits && line < lineLimit
  | .writeLine src line data _ => src < 11 && line < lineLimit && data.length = 64
  | .writeBack src line data => src < 11 && line < lineLimit && data.length = 64
  | .evictClean src line => src < 11 && line < lineLimit
  | .atomicReq src line op => src.fits && line < lineLimit && op.fits
  | .reduce src line _ data => src < 11 && line < lineLimit && data.length = 64
  | .fwdShared who line => who < 11 && line < lineLimit
  | .fwdUnique who line => who < 11 && line < lineLimit
  | .invalidate who line => who < 11 && line < lineLimit
  | .recall who line => who < 11 && line < lineLimit
  | .dataMsg who line => who < 11 && line < lineLimit
  | .invAck who line => who < 11 && line < lineLimit
  | .recallData who line => who < 11 && line < lineLimit
  | .writeAck who line => who < 11 && line < lineLimit
  | .atomicResult who line => who < 11 && line < lineLimit
  | .compAck who line => who < 11 && line < lineLimit
  | .homeTimeout line => line < lineLimit
  | .shankCrcFail site => site < 11
  | .patrolScrub unit _ => unit < 32
  | .timerCompare h _ => h.toNat < 144
  | .hgatpVmidWrite h _ => h.toNat < 144
  | .cbqriAllocRequest a => a.ctrl < 44
  | .retirementMoveDone unit _ => unit < 32
  | .qkCorePhase h _ _ => h.toNat < 144
  | .laneLost _ _ w => w < 9
  | .laneRejoined _ _ w => w < 9
  | .flitReceived _ f => f.length = 256
  | .putPacket p => p.fits
  | .reducePacket p => p.fits
  | .signalPacket p => p.fits
  | .getReq p => p.fits
  | .getRsp p => p.fits
  | .commitPacket p => p.fits
  | .commitAck p => p.fits
  | .commitNak p => p.fits
  | .abort p => p.fits
  | .renew p => p.fits
  | .stageRefused p => p.fits
  | .e2eAck p => p.fits
  | .hello p => p.fits
  | .propose p => p.fits
  | .accept p => p.fits
  | .viewPkt p => p.fits
  | .pailWrite _ data _ => !data.isEmpty
  | .readOp _ f => f.length ≤ frameLimit
  | .writeOp _ f => f.length ≤ frameLimit
  | .readMulti _ f => f.length ≤ frameLimit
  | .subscribe _ f => f.length ≤ frameLimit
  | .sessionOpen _ f => f.length ≤ frameLimit
  | .sessionClose _ f => f.length ≤ frameLimit
  | .imageChunk _ data => data.length ≤ 4096
  | .challenge _ _ nonce => nonce.length = 32
  | .getMeasurements _ _ nonce => nonce.length = 32
  | .memKeySet k => k.fits
  | .memKeyDestroy k => k.fits
  | .laceKeySet k => k.fits
  | .laceKeyDestroy k => k.fits
  | .endTenancy k => k.fits
  | .membKeySet k => k.fits
  | .estimatorInterval m => m.fits
  | .slewComplete rail => rail < 10
  | .droopPause r => r.fits
  | .droopPauseEnd r => r.fits
  | .memoryDroopTrip r => r.fits
  | .railOvercurrentTrip r => r.fits
  | .softStartRampEnd r _ => r.fits
  | .softStartRetry site => site < 10
  | .tjLimit site _ => site < 32
  | .thermalStep site _ => site < 32
  | .hardTrip site _ => site < 32
  | .inputRange mv => mv < 65536
  | .coldStart b => b.fits
  | .identityFrameRepeat port => port < 11
  | .identityFrame port f => port < 11 && f.length = 64
  | .configFrame port f => port < 11 && f.length = 64
  | .configAck port f => port < 11 && f.length = 64
  | .configAckTimeout port => port < 11
  | .calendarMidnight vbatMv => vbatMv < 65536
  | .registerWrite p size _ => p.fits size
  | .edgeCacheEvict _ line => line < lineLimit
  | .granuleZeroFilled g => g < granuleLimit
  | .hartSuspend h _ => h.toNat < 144
  | .hartGetStatus c => c.fits
  | .bundleIssue _ | .nop _ | .br _ _ | .loopOp _ _ _ | .setlc _ _ _ | .brc _ _ _ _ _ | .setsv _ _ _ | .addsv _ _ _ | .lds _ _
  | .sts _ _ | .wait _ _ _ | .waitComplete _ | .waitTimeout _ | .signal _ _ _ _ | .remoteSignalReceived _ | .lend _ _ _
  | .remoteCopyReceived _ | .fenceL _ | .fenceS _ | .fenceLs _ | .acquire _ | .release _ | .commit _ _ _
  | .commitDrainComplete _ | .hintPhase _ _ _ | .faultOp _ _ | .vatHold _ _ | .pass _ _ _ _ | .passComplete _ _ | .load _ _ _ _
  | .passld _ _ _ _ _ _ | .loadComplete _ _ | .churnHold _ _ | .ldv _ _ _ | .stv _ _ _ | .add _ _ _ | .sub _ _ _ | .mul _ _ _
  | .fma _ _ _ | .minOp _ _ _ | .maxOp _ _ _ | .abs _ _ _ | .neg _ _ _ | .andOp _ _ _ | .orOp _ _ _ | .xorOp _ _ _ | .shl _ _ _
  | .shra _ _ _ | .shrl _ _ _ | .cmp _ _ _ | .mand _ _ _ | .mor _ _ _ | .mxor _ _ _ | .mnot _ _ _ | .sel _ _ _ | .mov _ _ _
  | .mcnt _ _ _ | .iota _ _ _ | .cvt _ _ _ | .exp2 _ _ _ | .log2 _ _ _ | .recip _ _ _ | .rsqrt _ _ _ | .tanh _ _ _
  | .sigmoid _ _ _ | .erf _ _ _ | .compress _ _ _ | .expand _ _ _ | .rsum _ _ _ | .rmax _ _ _ | .rmin _ _ _ | .topk _ _ _
  | .rand _ _ _ | .moverHold _ _ | .get _ _ _ | .put _ _ _ | .copy _ _ _ | .hred _ _ _ | .lacePut _ _ _ | .laceGet _ _ _
  | .laceReduce _ _ _ | .laceSignal _ _ _ | .contextEnable _ | .contextReset _ | .preempt _ | .sqTail _ _ | .cqHead _ _
  | .preemptDies _ | .dispatchPlace | .loadTimeCheckDone _ | .killComplete _ | .saveComplete _ | .restoreComplete _
  | .dieReset _ _ | .pkgReset _ | .holdNext _ | .partitionEnable _ _ | .stopOp _ _ | .stepBoundary _ | .sepCqTail _ | .place
  | .sepRelease | .pinOp | .unpin | .setPull | .clrPull | .migrate | .chown | .quotaWrite _ _ | .demotionScan _
  | .roundNearFetch _ | .roundTileFetched _ | .roundSlotLoadDone _ _ | .faultBudgetExpired _ _ | .iotinvalVma _
  | .iotinvalGvma _ _ | .iofenceC _ | .atsInval | .invalidationApply _ | .qkPlatformInfo | .qkCalendarRead | .qkPageRetire _ _
  | .srstShutdown | .srstColdReboot | .flitNak _ _ | .inletLost _ | .inletRestored _ | .renewDue _
  | .stagingLeaseExpired _ _ | .commitRepeat _ | .partnerUndelivered _ | .e2eAckDue _ | .retransmitTimeout _ | .laceDown _
  | .tagQuarantineEnd _ _ _ | .partnerValidClear _ | .helloDue | .reachabilityLost _ | .memberTimeout | .pcieLinkUp _ _ _
  | .pcieLinkDown _ | .flr | .hotReset | .aerUncorrectable _ _ _ | .pailDoorbell _ _ _ | .pailResync _ _ | .pailIdleDiscard _
  | .ingestQueueEnable _ _ | .dataRecord _ | .jobRecord _ | .fenceRecord _ | .returnRecord _ | .returnAfterJobReady _
  | .mailboxGo _ | .sessionIdleTimeout _ _ | .subscriptionPush _ _ | .lockoutEnd _ _ | .clearFailedDieRecord _ _
  | .clearVatRetirementRecord _ _ | .clearRetirementList _ _ | .behaviourLevelPin _ _ | .calendarTimeWrite _ _
  | .ownerEndTenancy _ _ | .debugRequest _ _ | .tunnelFuseRead _ | .tunnelSoftRepair _ | .tunnelHardRepair _ | .updateBegin _
  | .updateEraseDone | .updateCommit _ | .updateCancel _ | .getDigests _ | .getCertificate _ _ _ _ | .keyExchange _ _ _
  | .finish _ _ _ | .heartbeat _ _ | .keyUpdate _ _ | .endSession _ _ | .zeroFillDone | .trimUpdate _ | .pkgResetPin
  | .pwrgoodIn | .startupStepOverrun | .discoveryTimeout | .dairymanHeartbeat | .dairymanFailed _ | .dairymanRestarted _
  | .powerLost | .heelExhausted | .ledgerRecordDue | .eventBatchDue | .ptpSync _ | .pkgResetRelease | .hcqHead _ _
  | .poolTail _ _ | .msiDelivered | .portBIntx _ _ | .spareSubstitutionComplete _ _ | .passLastRowFed _ _
  | .testPortInstruction _ => true

end Sys2Proof
end

