-- ==== Sys2Proof/Safety.lean ====
section
/-! DEFINITION. What counts as a safe run, and the words the statements are written in: an event record posted, a kill begun, an
invariant kept. -/

namespace Sys2Proof.Machine

/-- A step that goes on. -/
def Safe.goesOn (s : State) : Bool := match step s with | .next _ => true | _ => false

/-- What is true of the state before a step is true of the state after it. -/
def Safe.keptByStep (P : State → Prop) : Prop := ∀ s t : State, P s → step s = .next t → P t

/-- Memory in its canonical form: addresses strictly rising, no byte listed that an unlisted address reads as. -/
def Safe.memory (s : State) : Prop := Memory.wf s.mem = true

/-- A record of a code, site and payload went to the log's pending batch or, while the Dairyman cannot append, to the Cowbell's
buffer or its overflow count (R417, R426, R427). -/
def Posted (s t : State) (code site : Nat) (payload : List Nat) : Prop :=
  ∃ r : Event, r.code = BitVec.ofNat 16 code ∧ r.site = BitVec.ofNat 8 site ∧ r.payload = payload ∧ r.tick = s.time ∧
    (if dairymanUp s then r ∈ t.ev.pendingRecs else r ∈ t.ev.cowbell ∨ s.ev.overflow < t.ev.overflow)

/-- The running command of job k is being killed for a cause (R183, R184 steps 1 to 4): the cause is recorded, and on every die of
its gang the sequencer reads KILLING with no pass, load or log entry left. -/
def KillBegun (s t : State) (k : Nat) (c : KillCause) : Prop :=
  ∃ j i : Job, jobOf s k = some j ∧ jobOf t k = some i ∧ i.stage = .killing ∧ i.causes = j.causes ++ [c] ∧
    ∀ d ∈ j.dies, (dieOf t d).seq.state = .killing ∧ (dieOf t d).log = [] ∧ (dieOf t d).passes = [] ∧ (dieOf t d).loads = []

/-- A job whose command runs on a die and whose drain has not begun, so that a kill starts at once (R182, R183). -/
def Killable (s : State) (d k : Nat) : Prop :=
  jobOn s d = some k ∧ ∃ j : Job, jobOf s k = some j ∧ j.stage = .running ∧ draining s j = false ∧ d ∈ j.dies

/-! ## Lanes of a Churn register -/

/-- The number lane i of register r of Churn unit u of die d holds, in a type's lanes (R126, R128). -/
def laneOf (s : State) (d u r ty i : Nat) : Nat := ((lanes ty (vecBytes (churnOf (dieOf s d) u) r))[i]?).getD 0

/-- Whether an operation's element i is active (R133). -/
def activeLane (s : State) (d u : Nat) (a : ChurnReg) (i : Nat) : Bool :=
  !a.men || (maskOf (churnOf (dieOf s d) u) a.msk.toNat).getLsbD i

/-- Operands A, B and C of element i (R126, R128, R132): a lane, lane 0 at stride zero, or for B a broadcast scalar register. -/
def laneA (s : State) (d u : Nat) (a : ChurnReg) (ty i : Nat) : Nat :=
  elemCode ty (laneOf s d u a.va.toNat ty (if a.za then 0 else i))

def laneB (s : State) (d u : Nat) (a : ChurnReg) (ty i : Nat) : Nat :=
  if a.svb then elemCode ty ((SMap.get 0 (dieOf s d).sv (a.vb.toNat % 16)).toNat % 2 ^ (8 * laneBytes ty))
  else elemCode ty (laneOf s d u a.vb.toNat ty (if a.zb then 0 else i))

def laneC (s : State) (d u : Nat) (a : ChurnReg) (ty i : Nat) : Nat :=
  elemCode ty (laneOf s d u a.vc.toNat ty (if a.zc then 0 else i))

/-- How many of the first n elements are active. -/
def activeCount (s : State) (d u : Nat) (a : ChurnReg) (n : Nat) : Nat := ((List.range n).filter (activeLane s d u a)).length

/-- A register slot that acts: its unit is named, its encoding valid, the die runs a command (R87, R121, R134). -/
def ChurnReady (s : State) (d : Die) (u : BitVec 2) (op : Nat) (a : ChurnReg) : Prop :=
  running s d = true ∧ (dieOf s d).deferred = [] ∧ regSlotValid op a = true ∧ ∃ img, (dieOf s d).image = some img ∧ unitNamed img u.toNat = true

/-- What every register operation does (R92, R133, R134, R145, R146): its unit is occupied, its flags join the pending word, its counters
move; vector registers other than the named ones and mask registers other than the named ones keep their contents; no other
unit, die or part of the package changes. -/
def ChurnActs (s t : State) (d : Die) (u : BitVec 2) (op steps elements : Nat) (flags : BitVec 32) (vecs masks : List Nat) : Prop :=
  let b := churnOf (dieOf s d) u.toNat
  let c := churnOf (dieOf t d) u.toNat
  t = { s with dies := t.dies } ∧ (∀ e, e ≠ d.val → dieOf t e = dieOf s e) ∧
    dieOf t d = occupy (16 + u.toNat) steps { dieOf s d with
      churn := (dieOf t d).churn, pendingFlags := (dieOf s d).pendingFlags ||| flags } ∧
    (∀ v, v ≠ u.toNat → churnOf (dieOf t d) v = churnOf (dieOf s d) v) ∧
    (∀ r, r < 32 → r ∉ vecs → vecBytes c r = vecBytes b r) ∧ (∀ m, m ∉ masks → maskOf c m = maskOf b m) ∧
    c.lastOp = BitVec.ofNat 8 op ∧ c.opsIssued = b.opsIssued + 1 ∧ c.elements = b.elements + BitVec.ofNat 64 elements ∧
    c.specialOps = b.specialOps + (if 0x40 ≤ op ∧ op ≤ 0x46 then 1 else 0) ∧ c.panRead = b.panRead ∧ c.panWritten = b.panWritten

/-- The lanes of VD after an element-wise operation in a type: an active lane below n holds its result, the rest keep their contents
(R126, R128, R133). -/
def LanesWritten (s t : State) (d : Die) (u : BitVec 2) (a : ChurnReg) (ty n : Nat) (result : Nat → Nat) : Prop :=
  ∀ i, i < laneCount ty → laneOf t d u.toNat a.vd.toNat ty i =
    if i < n ∧ activeLane s d u.toNat a i = true then laneCode ty (result i) % 2 ^ (8 * laneBytes ty)
    else laneOf s d u.toNat a.vd.toNat ty i

/-! ## Movers -/

/-- What a LACE operation needs to issue (R301, R307, R385): a valid partner that is a member, its key bound to the job's context, nonces
and buffer space left, and no RELEASE outstanding. -/
def LaceReady (s : State) (d : Die) (mv : BitVec 2) (a : MoverArgs) (img : Image) (lop : Nat) : Prop :=
  (dieOf s d).image = some img ∧ running s d = true ∧ moverNamed img mv.toNat = true ∧ moverOk img 5 a.desc.toNat = true ∧
    laceOp (movDesc img a.desc.toNat).target = lop ∧ releaseClear s d = true ∧ (dieOf s d).deferred = [] ∧
    (let p := lacePartner (movDesc img a.desc.toNat).target
     p ≠ s.lacing.memb.pkgId.toNat ∧ (partnerOf s p).valid = true ∧ isMember s p = true ∧
       (∃ k, laceKeyOf s p = some k ∧ k.ctx.toNat = ctxOn s d ∧ k.nonce.toNat + 2 ^ 21 < 2 ^ 64 - 1) ∧
       retransmitFull s p = false)

/-! ## The Separator's ring -/

/-- A granule lies in a stack, and neither a fill nor a migration is under way on it (R151, R155). -/
abbrev Settled (s : State) (g : Nat) : Prop := (granOf s g).state = .hbm ∧ SMap.find s.filling g = none ∧ SMap.find s.moves g = none

/-- The one descriptor in the Separator's ring (R159): of an operation, with sound arguments and nothing done yet, in a settled granule of the
stacks whose line no cache holds and no transaction holds BUSY. -/
def LoneDesc (s : State) (z : SepDesc) (op : Nat) : Prop :=
  sepHead s = some z ∧ z.op = op ∧ sepArgsOk s z = true ∧ s.sep.prog = 0 ∧
    (s.sep.head.toNat + 1) % sepSize s = s.sep.tail.toNat % sepSize s ∧
    Settled s (granuleOf z.pos) ∧ (keyOf s (granuleOf z.pos)).isSome ∧
    busyOf s (z.pos / 64) = none ∧ l3Line s 0 (z.pos / 64) = none ∧ l3Line s 1 (z.pos / 64) = none

/-- The descriptor is finished: the head moves on and its STATUS and DONE are in memory (R159). -/
def DescEnds (s t : State) (z : SepDesc) (status done : Nat) : Prop :=
  t.sep.head = BitVec.ofNat 16 ((s.sep.head.toNat + 1) % sepSize s) ∧ t.sep.prog = 0 ∧
    ByteMap.byte t.mem (z.pos + 1) = BitVec.ofNat 8 status ∧ ByteMap.num t.mem (z.pos + 28) 4 = done

/-! ## Coherence -/

/-- A request for a line can be accepted at once (R258): the domain runs, no pause holds the home, the line's granule lies in a stack, the
line is not BUSY and nothing waits for it. -/
def HomeOpen (s : State) (line : Nat) : Prop :=
  domainUp s = true ∧ inUnified s (64 * line) 64 = true ∧ engineHeld s (homeOf s (64 * line)) = false ∧
    Settled s (granuleOf (64 * line)) ∧ busyOf s line = none ∧ SMap.get [] s.dom.queue line = []

/-- What an L3 holds of a line: its state and data. -/
def heldAs (s : State) (a l : Nat) : Option (CacheState × LineData) := (l3At s a l).map fun x => (x.st, x.data)

/-- Whether a site can take a line for a core without an eviction from its L3: it holds the line, or a way of the set that the request may use
holds none (R275, R287). -/
def l3HasRoom (s : State) (a l : Nat) (k : Asker) : Bool :=
  !isL3 a || (l3At s a l).isSome || (waysOf s a k).any fun w => (l3Set s a l).all (·.2.place.way != w)

/-- For whom a hart's access asks. -/
def accessAsker (s : State) (a : Access) (h : HartId) : Asker := { core := h.toNat % 72, tag := hartTag s h.toNat, code := a.fetch }

/-- A message that was sent for a line reaches a site, and none sent before it on its way is still to arrive (R21). -/
def Arrives (s : State) (site line : Nat) (pick : ShankMsg → Bool) (m : ShankMsg) : Prop :=
  domainUp s = true ∧ inUnified s (64 * line) 64 = true ∧ m.dst = site ∧ engineWaits s m = false ∧ laneTo s m = [m] ∧
    s.dom.net.find? (fun m => m.line == line && pick m) = some m

/-- The domain fault and its reset (R264, R267) while the Dairyman runs: the event at the site that detected it, the count and cause, and no
protocol state left. -/
def DomainReset (s t : State) (code detect detail : Nat) : Prop :=
  Posted s t code detect [detect, detail] ∧ t.dom.resets = s.dom.resets + 1 ∧ t.dom.lastCause = BitVec.ofNat 16 code ∧
    t.dom.busy = [] ∧ t.dom.net = [] ∧ t.dom.queue = [] ∧ t.dom.dir = [] ∧ t.dom.l3 = []

/-! ## Lacing -/

/-- A lace packet is acted on at once (R299, R307, R309, R312, R385): it is for this package, from a valid partner whose key is set and bound, its
tag is right, its epoch is the package's, and its number is the next. -/
def PacketIn (s : State) (ty : Nat) (k : Packet) : Prop :=
  s.variant ≠ .skim ∧ k.dst = s.lacing.memb.pkgId ∧ (partnerOf s k.src.toNat).valid = true ∧ k.memb = false ∧ k.epoch = s.lacing.memb.epoch ∧
    k.lseq = (partnerOf s k.src.toNat).lseqRx ∧ (partnerOf s k.src.toNat).reorder = [] ∧
    ∃ key, laceKeyOf s k.src.toNat = some key ∧ key.nonce ≠ BitVec.allOnes 64 ∧ Config.packetMac key.key (packetBytes ty k) = k.mac

/-- One packet of a TYPE went to a partner (R298). -/
def LaceSent (s t : State) (p ty aux cmd : Nat) (data : List Byte) : Prop :=
  ∃ k : Packet, t.lacing.outbox = s.lacing.outbox ++ [(BitVec.ofNat 8 ty, k)] ∧ k.dst = BitVec.ofNat 13 p ∧ k.epoch = s.lacing.memb.epoch ∧
    k.aux = BitVec.ofNat 8 aux ∧ k.cmd = BitVec.ofNat 32 cmd ∧ k.data = data

/-- A partner's key is set, bound and not worn out (R309, R385). -/
def LaceKeyed (s : State) (p : Nat) : Prop := ∃ key, laceKeyOf s p = some key ∧ key.nonce ≠ BitVec.allOnes 64

/-- A membership packet is acted on (R309, R310). -/
def MembIn (s : State) (ty : Nat) (k : Packet) : Prop :=
  membershipActs s = true ∧ k.dst = s.lacing.memb.pkgId ∧ k.memb = true ∧ s.lacing.memb.membNonce ≠ BitVec.allOnes 64 ∧
    ∃ key, s.sec.membKey = some key ∧ Config.packetMac key (packetBytes ty k) = k.mac

/-- A view of a higher epoch is in force (R312, R313). -/
def ViewAdopted (s t : State) (epoch : BitVec 32) (view : List Nat) : Prop :=
  t.lacing.memb.epoch = epoch ∧ t.lacing.memb.view = view ∧ t.lacing.staging = [] ∧
    t.lacing.memb.mstate = (if view.contains s.lacing.memb.pkgId.toNat then .member else .held) ∧
    Posted s t 0x0720 noSite [s.lacing.memb.epoch.toNat, epoch.toNat]

/-! ## Bytes of memory -/

/-- n bytes of the unified range that nothing holds up (R253, R257): settled granules in the stacks, lines in no cache and in no transaction, last
written under the key they are now accessed under. -/
def PlainBytes (s : State) (a n : Nat) : Prop :=
  inUnified s a n = true ∧ ∀ l, a / 64 ≤ l → l ≤ (a + n - 1) / 64 →
    Settled s (granuleOf (64 * l)) ∧ keyOf s (granuleOf (64 * l)) = some (storedKey s l) ∧
      busyOf s l = none ∧ l3Line s 0 l = none ∧ l3Line s 1 l = none

/-- Bytes were stored from an address up, and no other byte of memory changed. -/
def BytesStored (s t : State) (a : Nat) (bs : List Byte) : Prop :=
  ByteMap.read t.mem a bs.length = bs ∧ ∀ b, b < a ∨ a + bs.length ≤ b → ByteMap.byte t.mem b = ByteMap.byte s.mem b

/-! ## The host port -/

/-- A queue entered DISCARD for a code (R348): its landed bits and its waiting RETURN are gone. -/
def Discarded (s t : State) (q code : Nat) : Prop :=
  (queueOf t q).state = .discard ∧ (queueOf t q).cause = BitVec.ofNat 8 code ∧ (queueOf t q).landed = [] ∧
    (queueOf t q).waiting = none ∧ (queueOf t q).discards = (queueOf s q).discards + 1

/-- A RETURN acted (R347): the data of the window and then the 32-byte host record went to the host, the host ring's tail and CONSUMED moved
on, and with VEC_EN the queue's vector was sent or is pending. -/
def Returned (s t : State) (q : Nat) (r : WaitRet) : Prop :=
  let x := queueOf s q
  let src := x.winBase.toNat * granBytes + r.srcOff.toNat
  let tail := (x.hcqTail.toNat + 1) % hcqSize x
  t.host.out = s.host.out
      ++ (if r.count = 0 then [] else
          [{ addr := r.hostAddr, bytes := cohRead (touchIo src r.count.toNat s) src r.count.toNat, relaxed := Config.relaxedOn s.time }])
      ++ [{ addr := BitVec.ofNat 64 (64 * x.hcqBase.toNat + 32 * x.hcqTail.toNat), bytes := hostRecord s x r, relaxed := false }] ∧
    (queueOf t q).waiting = none ∧ (queueOf t q).hcqTail = BitVec.ofNat 32 tail ∧
    (queueOf t q).hcqPhase = (if tail = 0 then !x.hcqPhase else x.hcqPhase) ∧ (queueOf t q).consumed = x.consumed + 48 ∧
    (x.vecEn = true → x.vector.toNat ∈ t.host.msix ∨ x.vector.toNat ∈ t.host.msixPend)

/-! ## The dictionary -/

/-- A session's write to an object passes every check (R396, R406) while the store accepts records. -/
def ObjWrite (s : State) (r : ObjReq) (index sub ty : Nat) (v : List Byte) (x : Session) : Prop :=
  anyoneServes s = true ∧ cowbellServes s = false ∧ storeUp s = true ∧ sessionOf s r.path r.sess.toNat = some x ∧
    checkWrite s x.level.toNat index sub ty v = 0

/-- A well-formed request frame of an operation passes its MAC and SEQ in an open session while the Dairyman serves (R405, R406). -/
def InSession (s : State) (p : DictPath) (f : List Byte) (op : Nat) (x : Session) : Prop :=
  anyoneServes s = true ∧ cowbellServes s = false ∧ reqOp f = op ∧ reqForm f = true ∧ sessionOf s p (reqSess f) = some x ∧
    passes x f = true

/-- A request was answered with a status and a payload under the session's key (R405). -/
def FrameAnswer (t : State) (x : Session) (f : List Byte) (status : Nat) (out : List Byte) : Prop :=
  t.resp = .frame (sealFrame (some x.key) (frameBody (reqOp f) 1 status (reqSess f) (reqSeq f) out))

/-- The session after a request that passed (R406). -/
def seen (s : State) (x : Session) (f : List Byte) : Session := { x with seq := BitVec.ofNat 32 (reqSeq f), validAt := s.time }

/-! ## Start-up -/

/-- Discovery classified the sites and sent the config frames (R25, R27 to R31, R33, R34): the map holds the level, the link version, the shared
capabilities and each die's state, as the frames, the pin and the records in state u give them. -/
def Classified (u t : State) : Prop :=
  t.su.phase = .config ∧ t.map.effBl = BitVec.ofNat 8 (levelFixed u) ∧ t.map.linkVer = BitVec.ofNat 8 (linkFixed u) ∧
    t.map.caps = capsFixed u ∧ t.map.changeCount = 1 ∧
    (∀ p ∈ fittedDies u.variant, siteOf t p = {
      state := BitVec.ofNat 3 (dieState u p).1, reason := BitVec.ofNat 8 (dieState u p).2,
      dieType := (frameOf u p).dieType, generation := (frameOf u p).generation }) ∧
    t.disc.sent = (configured t).map fun p => (p, configFrameFor t p)

/-- A package reset for a cause (R380, R413, R414, R420, R421): counted; memory, the retirement lists and the membership key stay; jobs, dies, tenant
keys, sessions and ingest queues are gone; the timebase is 0; start-up holds while PKG_RESET# is low, else it is at discovery, or stopped
when neither Dairyman image is accepted. -/
def PackageReset (s t : State) (cause : Nat) (low : Bool) : Prop :=
  t.su.pkgResets = s.su.pkgResets + 1 ∧ t.su.lastCause = BitVec.ofNat 4 cause ∧ t.mem = s.mem ∧ t.nv.lists = s.nv.lists ∧
    t.sec.membKey = s.sec.membKey ∧ t.jobs = [] ∧ t.dies = [] ∧ t.sec.memKeys = [] ∧ t.sec.laceKeys = [] ∧ t.dict.sessions = [] ∧
    t.host.queues = [] ∧ t.time = 0 ∧
    (let boots := dairyAccepted s s.nv.dairyA = true ∨ dairyAccepted s s.nv.dairyB = true
     (low = true → t.su.phase = .step2) ∧ (low = false → boots → t.su.phase = .discovery ∧ t.su.dairyman = true) ∧
       (low = false → ¬ boots → t.su.phase = .stopped ∧ t.su.supervisor = 4))

/-- How training ends (R413, R416, R179): stopped with 0x1001:02 at FAULT, in the zero-fill of a tenancy that ends, or ready: RUNNING, the tick
kept, 0x0A07 posted and the dispatch origin advanced. -/
def Trained (s t : State) : Prop :=
  (t.su.phase = .stopped ∧ t.su.supervisor = 4) ∨ (t.su.phase = .zeroFill ∧ s.sec.tenancy = 2 ∧ t.sec.fillStart = some s.time) ∨
    (t.su.phase = .running ∧ t.su.supervisor = 1 ∧ t.su.readyTick = s.time ∧ t.nv.origin = s.nv.origin + 1 ∧
      Posted s t 0x0A07 noSite [s.time.toNat, s.su.lastCause.toNat])

end Sys2Proof.Machine
end

