-- ==== Sys2Proof/Certificates/Slice0/Obligations.lean ====
section
/-! DEFINITION. The statements for the provers, family by family of the table of operations. Each says that its commands answer a
next state, which one, and so what they leave alone. -/

open Sys2Proof Sys2Proof.Machine
/-! ## The machine -/

/-- The command at the front of the queue runs on the state with the queue's rest. -/
def Obligations.StepRunsTheFrontCommand : Prop :=
  ∀ (c : Instr) (rest : List Instr) (s : State), s.pending = c :: rest → step s = exec c { s with pending := rest }

/-- With no command waiting a tick passes (R4, R276); it changes memory, dies, contexts and jobs only where work is under way that needs
none: a draining log, an action, walk or invalidation that waits, a command of the agent held behind a fence, or an engine's stop. That an
idle step is one tick is the model's choice (log 6). -/
def Obligations.EmptyQueueLetsOneTickPass : Prop :=
  ∀ s : State, s.pending = [] →
    ∃ t, step s = .next t ∧ t.pending = [] ∧
      t.time = (if s.su.phase = .dark ∨ s.su.phase = .shed then s.time else s.time + 1) ∧
      ((∀ d, dieWaits (dieOf s d) = false) → s.iommu.waiting = [] → s.dom.stops = [] →
        t.mem = s.mem ∧ t.dies = s.dies ∧ t.ctxs = s.ctxs ∧ t.jobs = s.jobs)

/-- Every command answers a next state, whatever the state; it leaves the queue as it found it and nothing it does depends on
the queue. -/
def Obligations.EveryCommandGoesOnAndKeepsTheQueue : Prop :=
  ∀ (c : Instr) (s : State), ∃ t, exec c s = .next t ∧ t.pending = s.pending ∧
    ∀ q : List Instr, exec c { s with pending := q } = .next { t with pending := q }

/-- Memory, a list of the bytes that are not zero at rising addresses (the model's choice of form, log 14), keeps that form at every step. -/
def Obligations.MemoryKeepsItsForm : Prop := Safe.keptByStep Safe.memory

/-- No step changes what is fused: the variant, the Welt generation and the fused minimum security version (R1, R16, R414). -/
def Obligations.FusesNeverChange : Prop :=
  ∀ s t : State, step s = .next t → t.variant = s.variant ∧ t.weltGen = s.weltGen ∧ t.su.fusedMin = s.su.fusedMin
/-! ## The control slot (R103 to R119) -/

/-- The control slot: each scalar operation writes its one register, scalar loads and stores move their bytes, branches set the next
bundle. (1) The scalar operations of the control slot on a running die whose image is loaded (R113, R114): NOP changes nothing; SETLC,
SETSV and ADDSV write one loop counter or scalar register, the 32-bit immediate sign-extended, ADDSV modulo 2^64. Nothing else changes.
(2) LDS and STS (R96, R97, R114): the 8 bytes at OFFSET, plus the index register in 8-byte units, of the token's region; an indexed offset
that leaves the region posts 0x0604 and kills the command. That an index register counts as two's complement is the model's reading (log
10). (3) BR, LOOP and BRC (R113, R114, R120): a taken branch sets the position and discards the words fetched beyond it; LOOP first
decrements its counter; BRC compares under COND, signed or unsigned. -/
def Obligations.ControlSlotScalarsAndBranches : Prop :=
  (
  (∀ (d : Die) (s : State), exec (.nop d) s = .next s) ∧
  ∀ (d : Die) (s : State) (img : Image), (dieOf s d).image = some img → running s d = true →
    (∀ (lc : BitVec 3) (imm : BitVec 32),
      exec (.setlc d lc imm) s = .next (updDie s d fun x => { x with lc := SMap.set 0 x.lc lc.toNat imm })) ∧
    (∀ (sv : BitVec 4) (imm : BitVec 32),
      exec (.setsv d sv imm) s = .next (updDie s d fun x => { x with sv := SMap.set 0 x.sv sv.toNat (imm.signExtend 64) })) ∧
    (∀ (sv : BitVec 4) (imm : BitVec 32),
      exec (.addsv d sv imm) s =
        .next (updDie s d fun x => { x with sv := SMap.set 0 x.sv sv.toNat (SMap.get 0 x.sv sv.toNat + imm.signExtend 64) }))) ∧
  (
  ∀ (d : Die) (s : State) (img : Image) (a : ScalarMem) (x : DieSt), (dieOf s d).image = some img → running s d = true →
    scalarFits img a = true → (tokOf (dieOf s d) a.token.toNat).lent = none →
    let r := tokEnt img a.token.toNat
    let unit : Int := a.offset.toNat + (if a.idx then (svOf (dieOf s d) a.xsv.toNat).toInt else 0)
    let at8 := 64 * r.offset + 8 * unit.toNat
    (0 ≤ unit → 8 * unit + 8 ≤ 64 * r.length → settleAll img (jobWord s d) a.token.toNat (dieOf s d) = .ok x →
      (∀ b, readPan x (panEnt img r.pan) a.token.toNat at8 8 = .ok b →
        exec (.lds d a) s = .next (setDie s d { x with sv := SMap.set 0 x.sv a.sv.toNat (BitVec.ofNat 64 (leNat b)) })) ∧
      (∀ y, writePan (panEnt img r.pan) at8 (leBytes 8 (svOf x a.sv.toNat).toNat) x = .ok y →
        exec (.sts d a) s = .next (setDie s d y))) ∧
    (a.idx = true → (unit < 0 ∨ 64 * (r.length : Int) < 8 * unit + 8) → ∀ k, Killable s d k →
      ∃ t u, exec (.lds d a) s = .next t ∧ exec (.sts d a) s = .next u ∧
        Posted s t 0x0604 d [jobIdOn s d, a.token.toNat, intCode 64 unit] ∧ KillBegun s t k (.program 0x0604) ∧ t.mem = s.mem ∧
        Posted s u 0x0604 d [jobIdOn s d, a.token.toNat, intCode 64 unit] ∧ KillBegun s u k (.program 0x0604) ∧ u.mem = s.mem)) ∧
  (
  ∀ (d : Die) (s : State) (img : Image) (target : BitVec 24), (dieOf s d).image = some img → running s d = true →
    let taken := fun (x : DieSt) => { x with seq := { x.seq with
      pos := target.toNat, fetchedTo := target.toNat,
      discardedWords := x.seq.discardedWords + BitVec.ofNat 64 (x.seq.fetchedTo - x.seq.pos) } }
    exec (.br d target) s = .next (updDie s d taken) ∧
    (∀ lc : BitVec 3,
      let n := SMap.get 0 (dieOf s d).lc lc.toNat - 1
      let counted := fun (x : DieSt) => { x with lc := SMap.set 0 x.lc lc.toNat n }
      exec (.loopOp d lc target) s = .next (updDie s d fun x => if n = 0 then counted x else taken (counted x))) ∧
    (∀ (sv : BitVec 4) (cond : BitVec 3) (imm : BitVec 16), cond.toNat ≤ 5 →
      let a := SMap.get 0 (dieOf s d).sv sv.toNat
      let b := imm.signExtend 64
      let holds := match cond.toNat with
        | 0 => a == b | 1 => a != b | 2 => a.slt b | 3 => b.sle a | 4 => a.ult b | _ => b.ule a
      exec (.brc d sv cond imm target) s = .next (if holds then updDie s d taken else s)))

/-- Tokens: a WAIT holds until its count is there, signals add to counts here and on other dies, and lent tokens admit copies. (1) WAIT,
its completion and its timeout (R105, R122, R125): issue stops with the token, count and tick recorded; once the count is reached the
sequencer runs again and a token LENT with L at most n returns to LOCAL; a WAIT older than WAIT_LIMIT posts 0x0608 and the command is
killed as a fault. (2) SIGNAL and its arrival (R103, R104, R165): an own SIGNAL adds INC once the die's accesses to the token are
complete; one to another rank is sent and adds INC where it arrives. (With copies held for the token, the arrival may also admit them.)
(3) LEND and remote COPYs (R105, R106): the token reads LENT with limit L; a COPY is applied only when its token is LENT with L above SEQ
and the count equals SEQ, otherwise it is held. -/
def Obligations.TokensOrderAndLend : Prop :=
  (
  (∀ (d : Die) (s : State) (img : Image) (token : BitVec 13) (count : BitVec 32), (dieOf s d).image = some img → running s d = true →
    exec (.wait d token count) s = .next (updDie s d fun x =>
      { x with wait := some ⟨token, count, s.time, x.seq.pos⟩, seq := { x.seq with state := .waiting } })) ∧
  (∀ (d : Die) (s : State) (w : WaitSt), (dieOf s d).wait = some w → (dieOf s d).seq.state = .waiting → paused s d = false →
    w.count.toNat ≤ (tokOf (dieOf s d) w.token.toNat).count.toNat →
    exec (.waitComplete d) s = .next (updDie s d fun x =>
      { x with
        wait := none
        tokens := SMap.set {} x.tokens w.token.toNat { tokOf x w.token.toNat with
          lent := (tokOf x w.token.toNat).lent.filter fun l => w.count.toNat < l.toNat }
        seq := { x.seq with state := .running, waitTicks := x.seq.waitTicks + (s.time - w.start) } })) ∧
  (∀ (d : Die) (s : State) (img : Image) (w : WaitSt) (k : Nat), (dieOf s d).wait = some w → (dieOf s d).image = some img →
    (dieOf s d).seq.state = .waiting → (imageSect img).waitLimit ≠ 0 → (imageSect img).waitLimit < (s.time - w.start).toNat →
    Killable s d k →
    ∃ t, exec (.waitTimeout d) s = .next t ∧ Posted s t 0x0608 d [jobIdOn s d, w.token.toNat, w.count.toNat] ∧
      KillBegun s t k (.fault 0x0608) ∧ t.mem = s.mem)) ∧
  (
  (∀ (d : Die) (s : State) (img : Image) (rank : BitVec 4) (token : BitVec 13) (inc : BitVec 16) (x : DieSt),
    (dieOf s d).image = some img → running s d = true → dieOfRank s d rank.toNat = some d.val → rank ≠ 0xF →
    let y := { dieOf s d with
      actSeq := (dieOf s d).actSeq + 1
      sent := SMap.upd 0 (dieOf s d).sent (8192 * rank.toNat + token.toNat) (· + inc.zeroExtend 32) }
    let g : RemoteSignal := ⟨(dieOf s d).actSeq, d, d, token, inc, (dieOf s d).barrier, (dieOf s d).relLace⟩
    (deliverable (setDie s d y) g = false →
      exec (.signal d rank token inc) s = .next { setDie s d y with sigNet := s.sigNet ++ [g] }) ∧
    (deliverable (setDie s d y) g = true → settleAll img (jobWord s d) token.toNat y = .ok x → x.seq.state ≠ .killing →
      x.heldCopies = [] →
      exec (.signal d rank token inc) s = .next (setDie s d { x with
        tokens := SMap.upd {} x.tokens token.toNat fun k => { k with count := k.count + inc.zeroExtend 32 } }))) ∧
  (∀ (d : Die) (s : State) (img : Image) (rank : BitVec 4) (token : BitVec 13) (inc : BitVec 16) (q : Nat),
    (dieOf s d).image = some img → running s d = true → dieOfRank s d rank.toNat = some q → rank ≠ 0xF → q ≠ d.val →
    exec (.signal d rank token inc) s = .next { updDie s d (fun x => { x with
        actSeq := x.actSeq + 1
        sent := SMap.upd 0 x.sent (8192 * rank.toNat + token.toNat) (· + inc.zeroExtend 32) }) with
      sigNet := s.sigNet ++ [⟨(dieOf s d).actSeq, d, q, token, inc, (dieOf s d).barrier, (dieOf s d).relLace⟩] }) ∧
  (∀ (d : Die) (s z : State) (g : RemoteSignal), nextSignal { s with pending := [] } d = some (g, z) → g.src ≠ d.val →
    paused s d = false → (dieOf s d).heldCopies = [] →
    ∃ t, exec (.remoteSignalReceived d) s = .next t ∧ t.mem = s.mem ∧
      t.sigNet = s.sigNet.filter (fun h => h.id ≠ g.id || h.src ≠ g.src) ∧
      tokOf (dieOf t d) g.token.toNat =
        { tokOf (dieOf s d) g.token.toNat with count := (tokOf (dieOf s d) g.token.toNat).count + g.inc.zeroExtend 32 })) ∧
  (
  (∀ (d : Die) (s : State) (img : Image) (token : BitVec 13) (limit : BitVec 32) (x : DieSt), (dieOf s d).image = some img →
    running s d = true → settleAll img (jobWord s d) token.toNat (dieOf s d) = .ok x → x.heldCopies = [] →
    exec (.lend d token limit) s =
      .next (setDie s d { x with tokens := SMap.upd {} x.tokens token.toNat fun k => { k with lent := some limit } })) ∧
  (∀ (d : Die) (s z : State) (c : RemoteCopy), nextCopy { s with pending := [] } d = some (c, z) → paused s d = false →
    let k := tokOf (dieOf s d) c.token.toNat
    let rest := s.copyNet.filter fun h => h.id ≠ c.id || h.src ≠ c.src
    (¬(k.count = c.seq ∧ ∃ l, k.lent = some l ∧ c.seq.toNat < l.toNat) →
      exec (.remoteCopyReceived d) s = .next { updDie (linksGood c.src d { z with copyNet := rest }) d
        (fun x => { x with heldCopies := x.heldCopies ++ [c] }) with pending := s.pending }) ∧
    (∀ img y, k.count = c.seq → (∃ l, k.lent = some l ∧ c.seq.toNat < l.toNat) → (dieOf s d).image = some img →
      writePan (panEnt img (tokEnt img c.token.toNat).pan) (64 * c.line) c.lines.flatten (dieOf s d) = .ok y →
      ∃ t, exec (.remoteCopyReceived d) s = .next t ∧ t.copyNet = rest ∧ t.mem = s.mem ∧ (dieOf t d).sram = y.sram ∧
        (dieOf t d).log = y.log ∧ (dieOf t d).tokens = (dieOf s d).tokens)))

/-- Fences order a die's accesses; a hint's level lasts for its horizon. (1) Fences, ACQUIRE and RELEASE (R115, R116, R238): FENCE.L marks
the reads issued so far, FENCE.S a point in the log; ACQUIRE, once no access is held or under way, completes the passes and applies the
queued invalidations; RELEASE marks what later SIGNALs, remote COPYs and LACE operations wait for. (2) The end of a hint's horizon (R367):
the level returns to 2. -/
def Obligations.FencesAndHorizons : Prop :=
  (
  ∀ (d : Die) (s : State) (img : Image), (dieOf s d).image = some img → running s d = true →
    let point : LogEntry := ⟨.fence, (dieOf s d).actSeq, [], 0, none⟩
    exec (.fenceL d) s = .next (updDie s d fun x => { x with fenceL := x.actSeq }) ∧
    exec (.fenceS d) s = .next (updDie s d fun x => { x with log := x.log ++ [point] }) ∧
    exec (.fenceLs d) s = .next (updDie s d fun x => { x with fenceL := x.actSeq, fenceX := x.actSeq, log := x.log ++ [point] }) ∧
    (actsHeld (dieOf s d) = false → (dieOf s d).getTokens = [] → (dieOf s d).deferred = [] → copiesOut s d (dieOf s d).actSeq = [] →
      (dieOf s d).passes = [] →
      exec (.acquire d) s = .next (updDie s d fun x =>
        { x with edge := x.invQueue.foldl (fun e p => SMap.del e p.1) x.edge, invQueue := [] })) ∧
    exec (.release d) s = .next (updDie s d fun x =>
      { x with barrier := x.actSeq
               relLace := ((lacePartners x).filter fun p => !(partnerOf s p).retransmit.isEmpty).map fun p =>
                 (p, (partnerOf s p).lseqTx - 1) })) ∧
  (
  (∀ (d : Die) (s : State) (n : Nat), (dieOf s d).hintEnd = some n → n ≤ (dieOf s d).seq.nextStep →
    ∃ t, exec (.hintHorizonEnd d) s = .next t ∧ (railOf t d).level = 2 ∧ (dieOf t d).hintEnd = none ∧ t.mem = s.mem) ∧
  (∀ (site : Nat) (s : State) (e : BitVec 64), 8 ≤ site → (railOf s site).horizonEnd = some e → e.toNat ≤ s.time.toNat →
    ∃ t, exec (.hintHorizonEnd site) s = .next t ∧ (railOf t site).level = 2 ∧ (railOf t site).horizonEnd = none ∧ t.mem = s.mem))

/-- COMMIT ends a command, and its drain makes its writes visible and starts the next. (1) COMMIT (R105, R117, R181): with a token LENT it
posts 0x0605; otherwise the sequencer reads COMMITTING, and once every die of the gang has issued its COMMIT and is quiet, the drain
starts. (2) The end of a drain that no partner is awaited for and that neither ends the job nor waits for a serving boundary, in a job
with no round list (R117, R145, R181, R186): with nothing staged no byte of memory changes, the counts and flags of the job move on, and
the next command starts on every die. -/
def Obligations.CommandsCommitAndDrain : Prop :=
  (
  ∀ (d : Die) (s : State) (img : Image) (last sb : Bool) (k : Nat) (j : Job), (dieOf s d).image = some img → running s d = true →
    jobOn s d = some k → jobOf s k = some j →
    ((∀ p ∈ (dieOf s d).tokens, p.2.lent = none) → (∃ e ∈ j.dies, e ≠ d.val ∧ (dieOf s e).commit = none) →
      exec (.commit d last sb) s =
        .next (updDie s d fun x => { x with commit := some (last, sb), seq := { x.seq with state := .committing } })) ∧
    ((∀ p ∈ (dieOf s d).tokens, p.2.lent = none) → j.stage = .running → j.dies = [d.val] → (dieOf s d).drain = none → quiet s d = true →
      lacePartners (dieOf s d) = [] →
      exec (.commit d last sb) s = .next (updDie s d fun x =>
        { x with commit := some (last, sb), seq := { x.seq with state := .committing }, drain := some ⟨last, sb, [], false⟩ })) ∧
    (∀ tk ∈ (dieOf s d).tokens, tk.2.lent.isSome → Killable s d k →
      ∃ t e, exec (.commit d last sb) s = .next t ∧ Posted s t 0x0605 d [jobIdOn s d, e, (dieOf s d).seq.pos] ∧
        (∃ z ∈ (dieOf s d).tokens, z.1 = e ∧ z.2.lent.isSome) ∧ KillBegun s t k (.program 0x0605) ∧ t.mem = s.mem)) ∧
  (
  ∀ (d : Die) (s : State) (k : Nat) (j : Job), jobOn s d = some k → jobOf s k = some j → j.dies = [d.val] → j.causes = [] →
    (dieOf s d).drain = some ⟨false, false, [], false⟩ → paused s d = false → (dieOf s d).log = [] → (dieOf s d).spareClaim = none →
    roundCount (dieOf s d) = 0 → servedBy s k = none → s.iommu.fence = none →
    ∃ t i, exec (.commitDrainComplete d) s = .next t ∧ jobOf t k = some i ∧ i.commands = j.commands + 1 ∧
      i.flagWord = j.flagWord ||| (dieOf s d).pendingFlags ∧ i.stage = j.stage ∧
      (dieOf t d).seq.state = .running ∧ (dieOf t d).seq.command = (dieOf s d).seq.command + 1 ∧ (dieOf t d).drain = none ∧
      (dieOf t d).commit = none ∧ (dieOf t d).pendingFlags = 0 ∧ t.mem = s.mem)

/-- HINT.PHASE passes LEVEL and HORIZON to the power manager and changes no result and no issue order (R118): on a running die the rail's level and the
end of the horizon in logical steps are set, and beside the power manager's own state nothing else changes. -/
def Obligations.HintPhaseChangesNoResult : Prop :=
  ∀ (d : Die) (s : State) (img : Image) (level : BitVec 2) (horizon : BitVec 24), (dieOf s d).image = some img → running s d = true →
    ∃ t, exec (.hintPhase d level horizon) s = .next t ∧ (railOf t d).level = level ∧
      dieOf t d = { dieOf s d with hintEnd := some ((dieOf s d).seq.step.toNat + horizon.toNat) } ∧
      (∀ e, e ≠ d.val → dieOf t e = dieOf s e) ∧ t = { s with power := t.power, dies := t.dies }

/-- FAULT posts 0x0601 with CODE and faults the command (R119, R124). That the word index it posts is its bundle's first word is the model's
choice (log 114). -/
def Obligations.FaultPostsItsCode : Prop :=
  ∀ (d : Die) (s : State) (img : Image) (code : BitVec 16) (k : Nat), (dieOf s d).image = some img → running s d = true →
    Killable s d k →
    ∃ t, exec (.faultOp d code) s = .next t ∧ Posted s t 0x0601 d [jobIdOn s d, code.toNat, (dieOf s d).seq.pos] ∧
      KillBegun s t k (.program 0x0601) ∧ t.mem = s.mem
/-! ## The step stream (R87 to R93, R120, R121) -/

/-- Bundles issue in order and once; fetching ahead fills the buffer and does nothing else. (1) A bundle issues (R89, R91 to R93, R98, R120):
its units' slots act in slot order, each starting or waiting behind what it is ordered by, from the state whose STEP, BUNDLES and
FETCHED_WORDS have moved on; then its control slot acts and the position passes the bundle unless a branch is taken, or the control slot
holds issue while it cannot act; a slot that names an occupied unit posts 0x0603 and kills the command. `z` is the state beside the queue. (2)
Fetch-ahead (R120): up to n words beyond those fetched, never past the image or 131,072 words beyond the bundle, are counted; the
position, the commands and the page requests do not change; a word whose page does not translate is not fetched. -/
def Obligations.BundlesIssueAndFetch : Prop :=
  (
  ∀ (d : Die) (s z : State) (img : Image), z = { s with pending := [] } → (dieOf z d).image = some img → running z d = true →
    (dieOf z d).seq.pos < img.words → jobLoadHeld (dieOf z d) = false →
    let x := dieOf z d
    let b := bundleAt img x.seq.pos
    let past := x.seq.pos + b.length
    let zs := slotsOf img b
    let units := zs.filter (·.unit < 24)
    past ≤ x.seq.fetchedTo → x.deferred = [] → x.seq.ctlHeld = false →
    (∀ t v, (∀ k ∈ units, isHold k = true ∨ SMap.get 0 x.occ k.unit ≤ x.seq.nextStep) →
      each units (slotAct d img) (updDie z d fun x => { x with seq := { x.seq with
        step := BitVec.ofNat 64 x.seq.nextStep, bundles := x.seq.bundles + 1, issued := true, nextStep := x.seq.nextStep + 1 + b.skip,
        fetchedWords := x.seq.fetchedWords + BitVec.ofNat 64 (past - x.seq.fetchedTo) } }) = t → running t d = true →
      ((∀ k ∈ zs, k.unit ≠ 24) → v = t → (dieOf t d).job = x.job →
        exec (.bundleIssue d) s =
          .next { updDie v d (fun x => { x with seq := { x.seq with pos := past, ctlHeld := false } }) with pending := s.pending }) ∧
      (∀ k, zs.find? (·.unit == 24) = some k → ctlTarget k.code (dieOf t d) = none →
        (ctlAct d img k.code past t = some v → (dieOf v d).seq.state ≠ .killing → (dieOf v d).job = (dieOf t d).job →
          exec (.bundleIssue d) s =
            .next { updDie v d (fun x => { x with seq := { x.seq with pos := past, ctlHeld := false } }) with pending := s.pending }) ∧
        (ctlAct d img k.code past t = none →
          exec (.bundleIssue d) s =
            .next { updDie t d (fun x => { x with seq := { x.seq with ctlHeld := true } }) with pending := s.pending }))) ∧
    (∀ u ∈ zs, isHold u = false → u.unit < 24 → x.seq.nextStep < SMap.get 0 x.occ u.unit → ∀ k, Killable s d k →
      ∃ t n, exec (.bundleIssue d) s = .next t ∧ Posted s t 0x0603 d [jobIdOn s d, n, x.seq.pos] ∧
        (∃ u ∈ zs, u.unit = n ∧ x.seq.nextStep < SMap.get 0 x.occ n) ∧ KillBegun s t k (.program 0x0603) ∧ t.mem = s.mem)) ∧
  (
  ∀ (d : Die) (s z : State) (img : Image) (n : Nat), z = { s with pending := [] } → (dieOf z d).image = some img → working z d = true →
    let x := dieOf z d
    let lo := max x.seq.fetchedTo x.seq.pos
    let hi := min (lo + n) (min img.words (x.seq.pos + 131072))
    ∃ t w, exec (.streamFetchAhead d n) s = .next t ∧ w ≤ hi - lo ∧
      (dieOf t d).seq = { x.seq with fetchedTo := lo + w, fetchedWords := x.seq.fetchedWords + BitVec.ofNat 64 w } ∧
      (dieOf t d).pageSlots = x.pageSlots ∧ (dieOf t d).held = x.held ∧ t.jobs = s.jobs ∧
      (lo < hi → (fetchWords d img lo (lo + 1) z).1 = .ok () → 0 < w))

/-- The load-time check ends (R121, R124): an image that fails posts 0x0602 with the reason and word and its job ends REFUSED; one that
passes is taken, and a job of one die with nothing saved starts its first command. -/
def Obligations.LoadTimeCheckRefusesOrStarts : Prop :=
  ∀ (d : Die) (s z w : State) (k : Nat) (j : Job) (img : Image), z = { s with pending := [] } → jobOn z d = some k → jobOf z k = some j →
    j.stage = .checking → j.dies = [d.val] → j.checked = [] → jobLoadHeld (dieOf z d) = false → paused z d = false →
    readImage d j.ctx.toNat j.desc z = (.ok img, w) → w.jobs = z.jobs → (∀ e, (dieOf w e).job = (dieOf z e).job) →
    (∀ reason word, loadFailure w d img = some (reason, word) →
      ∃ t, exec (.loadTimeCheckDone d) s = .next t ∧ jobOf t k = none ∧ (dieOf t d).job = none ∧
        Posted w t 0x0602 d [jobIdOn w d, reason, word] ∧ (ctxOf t j.ctx.toNat).failed = (ctxOf w j.ctx.toNat).failed + 1) ∧
    (loadFailure w d img = none → servedBy w k = none → j.saves = [] → (imageSect img).roundUsed = 0 → (dieOf w d).spareClaim = none →
      (∀ p ∈ w.lacing.partners, p.2.heldCommits = []) →
      ∃ t i, exec (.loadTimeCheckDone d) s = .next t ∧ jobOf t k = some i ∧ i.stage = .running ∧ i.checked = [d.val] ∧
        (dieOf t d).image = some img ∧ (dieOf t d).seq.state = .running ∧
        (dieOf t d).seq.command = (dieOf w d).seq.command + 1 ∧ t.mem = w.mem)
/-! ## The vats (R38 to R66) -/

/-- The vat slot starts nothing on HOLD, a pass against a loaded slot, a load into a slot, or both (R41, R49 to R52, R62, R65, R98): the
pass joins the passes in flight with the activation vectors and the slot contents it meets, the load fills its slot (or slot pair)
under the die's tag, each occupies the vat; nothing else of the state changes. -/
def Obligations.VatSlotsStartPassesAndLoads : Prop :=
  (∀ (d : Die) (vat : BitVec 4) (s : State), exec (.vatHold d vat) s = .next s) ∧
  ∀ (d : Die) (vat : BitVec 4) (s : State) (img : Image), (dieOf s d).image = some img → running s d = true →
    vatNamed img vat.toNat = true → (dieOf s d).held = [] → (dieOf s d).deferred = [] →
    let job := jobWord s d
    let phys := physOf s d vat.toNat
    let desc := fun (i : BitVec 12) => vatDesc (vatDescAt img i.toNat)
    let started := fun (x : DieSt) (slot : BitVec 2) (i : BitVec 12) (acts : List (List Byte)) (hi : SlotData) (lo : Option SlotData) =>
      occupy vat.toNat (passEntries (desc i)) { x with
        passes := x.passes ++ [⟨x.actSeq, vat.toNat, phys, slot.toNat, i.toNat, BitVec.ofNat 256 (vatDescAt img i.toNat), acts, some hi, lo,
          none, false, s.time⟩]
        actSeq := x.actSeq + 1 }
    let meets := fun (x : DieSt) (slot : BitVec 2) (i : BitVec 12) (y : DieSt) (acts : List (List Byte)) (w : SlotData × Option SlotData) =>
      (tokOf x (desc i).srcToken).lent = none ∧ (tokOf x (desc i).dstToken).lent = none ∧ tokenBusy img x [(desc i).dstToken] = false ∧ settle img job [(desc i).srcToken] x = .ok y ∧
        waitsFor y vat.toNat (slotSpan (desc i).wmode slot.toNat) = none ∧ meetSlot y phys slot.toNat i.toNat (desc i) = .ok w ∧
        (List.range (desc i).count).mapM (fun n => readPan y (panEnt img (desc i).srcPan) (desc i).srcToken
          (64 * ((desc i).srcOffset + n * (desc i).srcStride)) (actBytes (desc i).actFmt)) = .ok acts
    let reads := fun (x : DieSt) (slot : BitVec 2) (i : BitVec 12) (y : DieSt) (rows : List (List Byte)) (scales : List Byte) =>
      (tokOf x (desc i).srcToken).lent = none ∧ settle img job [(desc i).srcToken] x = .ok y ∧
        waitsFor y vat.toNat (slotSpan (desc i).wmode slot.toNat) = none ∧
        (List.range 256).mapM (fun n => readPan y (panEnt img (desc i).srcPan) (desc i).srcToken
          (64 * ((desc i).srcOffset + n * (desc i).srcStride)) (rowBytes (desc i).wmode (desc i).wFmt)) = .ok rows ∧
        (if scaleBytes (desc i).wmode (desc i).wFmt = 0 then .ok [] else readPan y (panEnt img (desc i).srcPan) (desc i).srcToken
          (64 * ((desc i).srcOffset + 256 * (desc i).srcStride)) (scaleBytes (desc i).wmode (desc i).wFmt)) = .ok scales
    let loading := fun (y : DieSt) (slot : BitVec 2) (i : BitVec 12) (rows : List (List Byte)) (scales : List Byte) =>
      let r := loadSlot (desc i).wmode (desc i).wFmt rows scales
      occupy vat.toNat (if (desc i).wmode = 3 then 512 else 256) (raise (flagIf r.2 fInvalid)
        (fillSlots phys slot.toNat .command true none r.1 { y with
          loads := y.loads ++ [⟨y.actSeq, vat.toNat, phys, slot.toNat, (desc i).wmode⟩]
          actSeq := y.actSeq + 1 }))
    (∀ slot i y acts w, passOk img slot.toNat i.toNat = true → meets (dieOf s d) slot i y acts w →
      exec (.pass d vat slot i) s = .next (setDie s d (started y slot i acts w.1 w.2))) ∧
    (∀ slot i y rows scales, loadOk img slot.toNat i.toNat = true → reads (dieOf s d) slot i y rows scales →
      exec (.load d vat slot i) s = .next (setDie s d (loading y slot i rows scales))) ∧
    (∀ slot i lslot l y acts w v rows scales, passldOk img slot.toNat i.toNat lslot.toNat l.toNat = true →
      meets (dieOf s d) slot i y acts w → reads (started y slot i acts w.1 w.2) lslot l v rows scales →
      exec (.passld d vat slot i lslot l) s = .next (setDie s d (loading v lslot l rows scales)))

/-- What goes wrong in the vats: a pass on an empty slot faults its command; a checksum mismatch kills, and retires the vat. (1) A pass on
an EMPTY slot posts 0x0505 and kills the command, writing nothing (R52, R68). (2) A check mismatch (R57 to R59) posts 0x0501 with the vat,
block and vector and kills the command as a fault; the vat counts it, saturating at 255. A second within 10 s retires the vat: 0x0502 is
posted and a free spare claimed. -/
def Obligations.VatFaultsAndMismatches : Prop :=
  (
  ∀ (d : Die) (vat : BitVec 4) (slot : BitVec 2) (i : BitVec 12) (s : State) (img : Image) (y : DieSt) (k : Nat),
    (dieOf s d).image = some img → running s d = true → vatNamed img vat.toNat = true → passOk img slot.toNat i.toNat = true →
    let p := vatDesc (vatDescAt img i.toNat)
    let phys := physOf s d vat.toNat
    (dieOf s d).deferred = [] → (tokOf (dieOf s d) p.srcToken).lent = none → (tokOf (dieOf s d) p.dstToken).lent = none →
    tokenBusy img (dieOf s d) [p.dstToken] = false → settle img (jobWord s d) [p.srcToken] (dieOf s d) = .ok y → waitsFor y vat.toNat (slotSpan p.wmode slot.toNat) = none →
    (slotNow y phys slot.toNat).kind = .empty → Killable s d k →
    ∃ t, exec (.pass d vat slot i) s = .next t ∧ Posted s t 0x0505 d [phys, slot.toNat, i.toNat] ∧
      KillBegun s t k (.program 0x0505) ∧ t.mem = s.mem) ∧
  (
  ∀ (d : Die) (phys block vec : Nat) (s : State) (f : PassFlight) (k : Nat),
    (dieOf s d).passes.find? (fun f => f.phys == phys && f.entry.isNone) = some f → working s d = true →
    vec < (passDesc f).count → block < 8 → Killable s d k →
    let v := pvatOf (dieOf s d) phys
    let counted := if v.mismatches = 0xFF then 0xFF else v.mismatches + 1
    ((v.last = none ∨ ∃ e, v.last = some e ∧ 1000000000 < (s.time - e).toNat) →
      ∃ t, exec (.vatCheckMismatch d phys block vec) s = .next t ∧ Posted s t 0x0501 d [phys, block, vec, f.vat] ∧
        KillBegun s t k (.fault 0x0501) ∧ (∃ n r, pvatOf (dieOf t d) phys =
          { v with mismatches := counted, last := some s.time, vectorsIn := n, rowsLoaded := r }) ∧ t.mem = s.mem) ∧
    (∀ e, v.last = some e → (s.time - e).toNat ≤ 1000000000 → (unitMapOf s d).spareFree = true → (dieOf s d).spareClaim = none →
      ∃ t, exec (.vatCheckMismatch d phys block vec) s = .next t ∧ Posted s t 0x0501 d [phys, block, vec, f.vat] ∧
        Posted s t 0x0502 d [phys, e.toNat] ∧ KillBegun s t k (.fault 0x0501) ∧ (dieOf t d).spareClaim = some phys ∧
        (pvatOf (dieOf t d) phys).retired = true ∧ (pvatOf (dieOf t d) phys).mismatches = counted ∧ t.mem = s.mem))

/-- Passes and loads complete (R50, R51, R65, R66, R98), on a die that has issued no COMMIT: the pass writes its outputs and leaves
flight, with any earlier pass to the same token before it; feeding row 255, once every earlier load of its slots is written, counts
VECTORS_IN; a load whose slots no earlier pass still feeds makes them ready and counts ROWS_LOADED. -/
def Obligations.PassesAndLoadsComplete : Prop :=
  ∀ (d : Die) (vat : BitVec 4) (s : State) (k : Nat) (j : Job), working s d = true → jobOn s d = some k → jobOf s k = some j →
    d.val ∈ j.dies → (dieOf s d).commit = none →
    (∀ img f y, (dieOf s d).image = some img → (dieOf s d).passes.find? (·.vat == vat.toNat) = some f → f.entry = none →
      ((dieOf s d).passes.filter fun g => g.id ≤ f.id && (passDesc g).dstToken = (passDesc f).dstToken).foldl
        (fun (r : Act DieSt) g => r.bind (finishPass img (jobWord s d) g)) (.ok (dieOf s d)) = .ok y → y.commit = none →
      exec (.passComplete d vat) s = .next (setDie s d y)) ∧
    (∀ f, (dieOf s d).passes.find? (fun f => f.vat == vat.toNat && !f.fed) = some f → f.entry = none → behindLoad (dieOf s d) f = false →
      exec (.passLastRowFed d vat) s = .next (updDie s d fun x => { x with
        pvats := SMap.upd {} x.pvats f.phys fun v => { v with vectorsIn := v.vectorsIn + BitVec.ofNat 64 (passEntries (passDesc f)) }
        passes := x.passes.map fun g => if g.id = f.id then { g with fed := true } else g })) ∧
    (∀ f, (dieOf s d).loads.find? (·.vat == vat.toNat) = some f → f.wmode ≠ 3 →
      (∀ l ∈ (dieOf s d).loads, l.id ≠ f.id → l.phys = f.phys → f.slot ∉ slotSpan l.wmode l.slot) →
      (∀ p ∈ (dieOf s d).passes, p.vat = vat.toNat → p.id < f.id → p.fed = true ∨ f.slot ∉ slotSpan (passDesc p).wmode p.slot) →
      exec (.loadComplete d vat) s = .next (updDie s d fun x => { x with
        slots := SMap.set {} x.slots (4 * f.phys + f.slot) { rawSlot x f.phys f.slot with loading := false }
        pvats := SMap.upd {} x.pvats f.phys fun v => { v with rowsLoaded := v.rowsLoaded + 256 }
        loads := x.loads.filter (·.id != f.id) }))

/-! ## The Churn (R126 to R146) -/

/-- The element-wise Churn operations of two, one and three operands, IOTA and RAND. (1) Element-wise operations of two operands (R126,
R132 to R135): each active lane of VD becomes the operation on its lanes of A and B, whose flags alone join the pending word; each
occupies its unit one step. (2) Element-wise operations of one operand (R126, R132 to R135, R139): MOV, ABS and NEG occupy their unit one
step, the special functions four, which also count as special operations; the special functions round the exact value once. Where 320 bits
do not decide the rounding of a special function its code is a free value (log 11). (3) FMA, IOTA and RAND (R132 to R135, R143): FMA
rounds the product plus C once; IOTA writes the lane number; RAND draws for its lane with the key, XORed with the job ID when IMM bit 0 is
set, and the counter, as a number or a fraction of 24 bits. -/
def Obligations.ChurnElementwiseLanes : Prop :=
  (
  ∀ row ∈ ([(.add, 0x10, elemAdd), (.sub, 0x11, elemSub), (.mul, 0x12, elemMul), (.minOp, 0x14, elemMin), (.maxOp, 0x15, elemMax),
      (.andOp, 0x20, elemAnd), (.orOp, 0x21, elemOr), (.xorOp, 0x22, elemXor), (.shl, 0x23, elemShl), (.shra, 0x24, elemShra),
      (.shrl, 0x25, elemShrl)] : List ((Die → BitVec 2 → ChurnReg → Instr) × Nat × (Nat → Bool → Nat → Nat → Rounded))),
    ∀ (d : Die) (u : BitVec 2) (a : ChurnReg) (s : State), ChurnReady s d u row.2.1 a →
      let ty := a.ty.toNat
      let n := laneCount ty
      let r := fun i => row.2.2 ty a.sat (laneA s d u.toNat a ty i) (laneB s d u.toNat a ty i)
      ∃ t, exec (row.1 d u a) s = .next t ∧ LanesWritten s t d u a ty n (fun i => (r i).1) ∧
        ChurnActs s t d u row.2.1 1 (activeCount s d u.toNat a n)
          (flagsOr (((List.range n).filter (activeLane s d u.toNat a)).map fun i => (r i).2)) [a.vd.toNat] []) ∧
  (
  ∀ row ∈ ([(.abs, 0x16, elemAbs), (.neg, 0x17, elemNeg), (.mov, 0x31, fun _ _ x => (x, 0)), (.exp2, 0x40, specialFn 0x40),
      (.log2, 0x41, specialFn 0x41), (.recip, 0x42, specialFn 0x42), (.rsqrt, 0x43, specialFn 0x43), (.tanh, 0x44, specialFn 0x44),
      (.sigmoid, 0x45, specialFn 0x45), (.erf, 0x46, specialFn 0x46)] :
      List ((Die → BitVec 2 → ChurnReg → Instr) × Nat × (Nat → Bool → Nat → Rounded))),
    ∀ (d : Die) (u : BitVec 2) (a : ChurnReg) (s : State), ChurnReady s d u row.2.1 a →
      let ty := a.ty.toNat
      let n := laneCount ty
      let r := fun i => row.2.2 ty a.sat (laneA s d u.toNat a ty i)
      ∃ t, exec (row.1 d u a) s = .next t ∧ LanesWritten s t d u a ty n (fun i => (r i).1) ∧
        ChurnActs s t d u row.2.1 (if row.2.1 < 0x40 then 1 else 4) (activeCount s d u.toNat a n)
          (flagsOr (((List.range n).filter (activeLane s d u.toNat a)).map fun i => (r i).2)) [a.vd.toNat] []) ∧
  (
  ∀ (d : Die) (u : BitVec 2) (a : ChurnReg) (s : State),
    let ty := a.ty.toNat
    let n := laneCount ty
    let on := (List.range n).filter (activeLane s d u.toNat a)
    (ChurnReady s d u 0x13 a →
      let r := fun i => elemFma ty a.sat (laneA s d u.toNat a ty i) (laneB s d u.toNat a ty i) (laneC s d u.toNat a ty i)
      ∃ t, exec (.fma d u a) s = .next t ∧ LanesWritten s t d u a ty n (fun i => (r i).1) ∧
        ChurnActs s t d u 0x13 1 on.length (flagsOr (on.map fun i => (r i).2)) [a.vd.toNat] []) ∧
    (ChurnReady s d u 0x33 a →
      ∃ t, exec (.iota d u a) s = .next t ∧ LanesWritten s t d u a 0xB 512 (fun i => i) ∧
        ChurnActs s t d u 0x33 1 on.length 0 [a.vd.toNat] []) ∧
    (ChurnReady s d u 0x68 a →
      let base := SMap.get 0 (dieOf s d).sv (a.va.toNat % 16)
      let key := if a.imm.toNat % 2 = 1 then base ^^^ jobWord s d else base
      let r := fun i => draw key i ((SMap.get 0 (dieOf s d).sv (a.vb.toNat % 16)).toNat % 2 ^ 32)
      ∃ t, exec (.rand d u a) s = .next t ∧
        LanesWritten s t d u a ty n (fun i => if ty = 0xB then r i else (roundFp 0 .nearest false false (r i >>> 8) (-24)).1) ∧
        ChurnActs s t d u 0x68 1 on.length 0 [a.vd.toNat] []))

/-- The integer rule (R136), lane by lane: with x, y, z the signed operands and w the width of the type, ADD, SUB, MUL, FMA, NEG and ABS
wrap the exact result modulo 2^w into the signed range, or with SAT clamp it and raise saturation where it was clamped. -/
def Obligations.IntegerArithmeticWrapsOrClamps : Prop :=
  ∀ row ∈ ([(.add, 0x10, fun x y _ => x + y), (.sub, 0x11, fun x y _ => x - y), (.mul, 0x12, fun x y _ => x * y),
      (.fma, 0x13, fun x y z => x * y + z), (.neg, 0x17, fun x _ _ => -x), (.abs, 0x16, fun x _ _ => |x|)] :
      List ((Die → BitVec 2 → ChurnReg → Instr) × Nat × (Int → Int → Int → Int))),
    ∀ (d : Die) (u : BitVec 2) (a : ChurnReg) (s : State), ChurnReady s d u row.2.1 a →
      a.ty.toNat = 8 ∨ a.ty.toNat = 9 ∨ a.ty.toNat = 0xB →
      let ty := a.ty.toNat
      let w := if ty = 9 then 4 else if ty = 8 then 8 else 32
      let e := fun i => row.2.2 (signed w (laneA s d u.toNat a ty i)) (signed w (laneB s d u.toNat a ty i))
        (signed w (laneC s d u.toNat a ty i))
      let lo : Int := -2 ^ (w - 1)
      let hi : Int := 2 ^ (w - 1) - 1
      ∃ t, exec (row.1 d u a) s = .next t ∧
        (∀ i, i < laneCount ty → activeLane s d u.toNat a i = true →
          signed (8 * laneBytes ty) (laneOf t d u.toNat a.vd.toNat ty i) =
            if a.sat then max lo (min (e i) hi) else (e i - lo) % 2 ^ w + lo) ∧
        (dieOf t d).pendingFlags = (dieOf s d).pendingFlags |||
          (if a.sat ∧ ∃ i, i < laneCount ty ∧ activeLane s d u.toNat a i = true ∧ ¬(lo ≤ e i ∧ e i ≤ hi) then fSaturation else 0)

/-- Mask registers, selection by mask, COMPRESS and EXPAND. (1) CMP, the mask operations, SEL and MCNT (R133 to R135): CMP writes the mask
bit of each active lane; the mask operations act on all 2,048 bits; SEL takes A where the mask is set and B elsewhere; MCNT writes the
number of set bits among the type's lanes into lane 0 as INT32 and clears the rest of VD. (2) COMPRESS and EXPAND (R140): COMPRESS packs
the elements under the mask into the lowest lanes, clears the others and writes a mask of as many low bits; EXPAND gives the j-th set
position lane j and leaves the others as they were. -/
def Obligations.ChurnMasksSelectionAndCompression : Prop :=
  (
  ∀ (d : Die) (u : BitVec 2) (a : ChurnReg) (s : State),
    let ty := a.ty.toNat
    let n := laneCount ty
    let m := fun (s : State) (k : Nat) => maskOf (churnOf (dieOf s d) u.toNat) k
    let md := a.vd.toNat % 8
    let on := (List.range n).filter (activeLane s d u.toNat a)
    let r := fun i => elemCmp ty (a.imm.toNat % 8) (laneA s d u.toNat a ty i) (laneB s d u.toNat a ty i)
    (ChurnReady s d u 0x28 a →
      ∃ t, exec (.cmp d u a) s = .next t ∧
        (∀ i, i < 2048 → (m t md).getLsbD i =
          if i < n ∧ activeLane s d u.toNat a i = true then (r i).1 else (m s md).getLsbD i) ∧
        ChurnActs s t d u 0x28 1 on.length (flagsOr (on.map fun i => (r i).2)) [] [md]) ∧
    (∀ row ∈ ([(.mand, 0x2C, fun x y => x &&& y), (.mor, 0x2D, fun x y => x ||| y), (.mxor, 0x2E, fun x y => x ^^^ y),
        (.mnot, 0x2F, fun x _ => ~~~x)] :
        List ((Die → BitVec 2 → ChurnReg → Instr) × Nat × (BitVec 2048 → BitVec 2048 → BitVec 2048))),
      ChurnReady s d u row.2.1 a →
      ∃ t, exec (row.1 d u a) s = .next t ∧ m t md = row.2.2 (m s (a.va.toNat % 8)) (m s (a.vb.toNat % 8)) ∧
        ChurnActs s t d u row.2.1 1 0 0 [] [md]) ∧
    (ChurnReady s d u 0x30 a →
      ∃ t, exec (.sel d u a) s = .next t ∧
        (∀ i, i < n → laneOf t d u.toNat a.vd.toNat ty i =
          laneCode ty (if (m s a.msk.toNat).getLsbD i then laneA s d u.toNat a ty i else laneB s d u.toNat a ty i) % 2 ^ (8 * laneBytes ty)) ∧
        ChurnActs s t d u 0x30 1 n 0 [a.vd.toNat] []) ∧
    (ChurnReady s d u 0x32 a →
      ∃ t, exec (.mcnt d u a) s = .next t ∧
        laneOf t d u.toNat a.vd.toNat 0xB 0 = ((List.range n).filter fun i => (m s a.msk.toNat).getLsbD i).length ∧
        (∀ i, 0 < i → i < 512 → laneOf t d u.toNat a.vd.toNat 0xB i = 0) ∧
        ChurnActs s t d u 0x32 1 0 0 [a.vd.toNat] [])) ∧
  (
  ∀ (d : Die) (u : BitVec 2) (a : ChurnReg) (s : State),
    let ty := a.ty.toNat
    let n := laneCount ty
    let mask := maskOf (churnOf (dieOf s d) u.toNat) a.msk.toNat
    let picked := (List.range n).filter fun i => mask.getLsbD i
    (ChurnReady s d u 0x50 a →
      ∃ t, exec (.compress d u a) s = .next t ∧
        (∀ i, i < n → laneOf t d u.toNat a.vd.toNat ty i =
          (match picked[i]? with | some j => laneCode ty (laneA s d u.toNat a ty j) % 2 ^ (8 * laneBytes ty) | none => 0)) ∧
        (∀ i, i < 2048 → (maskOf (churnOf (dieOf t d) u.toNat) (a.vc.toNat % 8)).getLsbD i = decide (i < picked.length)) ∧
        ChurnActs s t d u 0x50 2 picked.length 0 [a.vd.toNat] [a.vc.toNat % 8]) ∧
    (ChurnReady s d u 0x51 a →
      ∃ t, exec (.expand d u a) s = .next t ∧
        (∀ i, i < n → laneOf t d u.toNat a.vd.toNat ty i =
          if mask.getLsbD i then
            laneCode ty (laneA s d u.toNat a ty ((List.range i).filter fun j => mask.getLsbD j).length) % 2 ^ (8 * laneBytes ty)
          else laneOf s d u.toNat a.vd.toNat ty i) ∧
        ChurnActs s t d u 0x51 2 picked.length 0 [a.vd.toNat] []))

/-- CVT (R137, R138): between Churn types each active element below the narrower register's count is converted, stochastically with
a draw for its element under RM 1; from an MX or KT2 format it is unpacked with its group's scale in VC and then converted; to one, each
group of 32 with an active element gets its scale in VC and the active elements' codes in VD. -/
def Obligations.ChurnConversions : Prop :=
  ∀ (d : Die) (u : BitVec 2) (a : ChurnReg) (s : State), ChurnReady s d u 0x38 a →
    let dst := a.ty.toNat
    let src := a.imm.toNat % 16
    let c := churnOf (dieOf s d) u.toNat
    let mode := fun i =>
      if a.rm = 1 then RMode.stochastic (draw (jobWord s d) i ((SMap.get 0 (dieOf s d).sv (a.vb.toNat % 16)).toNat % 2 ^ 32)) else .nearest
    (isPacked dst = false → isPacked src = false →
      let n := min (laneCount src) (laneCount dst)
      let on := (List.range n).filter (activeLane s d u.toNat a)
      let r := fun i => convertElem src dst (mode i) a.sat (elemCode src (laneOf s d u.toNat a.va.toNat src (if a.za then 0 else i)))
      ∃ t, exec (.cvt d u a) s = .next t ∧ LanesWritten s t d u a dst n (fun i => (r i).1) ∧
        ChurnActs s t d u 0x38 1 on.length (flagsOr (on.map fun i => (r i).2)) [a.vd.toNat] []) ∧
    (isPacked src = true →
      let n := laneCount dst
      let on := (List.range n).filter (activeLane s d u.toNat a)
      let codes := unpackAll (vecBytes c a.va.toNat) (fmtWidth src) n
      let scale := fun g => if src = 0xA then fieldAt (vecBytes c a.vc.toNat) (2 * g) 2 else fieldAt (vecBytes c a.vc.toNat) g 1
      let v := fun i => unpackElem src (codes.getD (if a.za then 0 else i) 0) (scale (i / 32))
      let r := fun i => convertF dst (mode i) a.sat (v i).1
      ∃ t, exec (.cvt d u a) s = .next t ∧ LanesWritten s t d u a dst n (fun i => (r i).1) ∧
        ChurnActs s t d u 0x38 2 on.length (flagsOr (on.map fun i => (r i).2 ||| (v i).2)) [a.vd.toNat] []) ∧
    (isPacked dst = true →
      let n := laneCount src
      let sw := if dst = 0xA then 2 else 1
      let on := fun g => ((List.range 32).map (32 * g + ·)).filter (activeLane s d u.toNat a)
      let group := fun g => packGroup dst ((on g).map fun i => decodeF src (laneA s d u.toNat a src i))
      ∃ t, exec (.cvt d u a) s = .next t ∧
        (∀ g, g < n / 32 → on g ≠ [] →
          fieldAt (vecBytes (churnOf (dieOf t d) u.toNat) a.vc.toNat) (sw * g) sw = (group g).1 % 2 ^ (8 * sw)) ∧
        (a.vc ≠ a.vd → ∀ i, i < n →
          (unpackAll (vecBytes (churnOf (dieOf t d) u.toNat) a.vd.toNat) (fmtWidth dst) n)[i]? =
            if activeLane s d u.toNat a i then
              some ((group (i / 32)).2.1.getD ((on (i / 32)).filter (· < i)).length 0 % 2 ^ fmtWidth dst)
            else (unpackAll (vecBytes c a.vd.toNat) (fmtWidth dst) n)[i]?) ∧
        ChurnActs s t d u 0x38 2 ((List.range n).filter (activeLane s d u.toNat a)).length
          (flagsOr (((List.range (n / 32)).filter fun g => on g ≠ []).map fun g => (group g).2.2)) [a.vd.toNat, a.vc.toNat] [])

/-- Reductions: integer sums and extremes exactly, floating sums by the tree, and the ranks. (1) Reductions of integer elements (R141):
the result lane of a group is the sum of its active elements modulo 2^32, or with SAT 0 the maximum or minimum of its active elements,
where the least or greatest INT32 stands for an inactive one; the lanes above are zero. (2) Reductions and TOPK in general (R141, R142):
the tree over groups of neighbouring elements, an inactive element entering as the identity; the k best of each 512 elements with their
indices, padded. -/
def Obligations.ChurnReductionsAndRanks : Prop :=
  (
  ∀ (d : Die) (u : BitVec 2) (a : ChurnReg) (s : State), a.ty.toNat = 8 ∨ a.ty.toNat = 9 ∨ a.ty.toNat = 0xB →
    let ty := a.ty.toNat
    let w := if ty = 9 then 4 else if ty = 8 then 8 else 32
    let n := laneCount ty
    let k := 2 ^ (a.imm.toNat % 16)
    let xs := fun g => (((List.range k).map (k * g + ·)).filter (activeLane s d u.toNat a)).map fun i => signed w (laneA s d u.toNat a ty i)
    let count := activeCount s d u.toNat a n
    (ChurnReady s d u 0x58 a → a.sat = false →
      ∃ t, exec (.rsum d u a) s = .next t ∧
        (∀ g, g < 512 → laneOf t d u.toNat a.vd.toNat 0xB g = if g < n / k then ((xs g).sum % 2 ^ 32).toNat else 0) ∧
        ChurnActs s t d u 0x58 2 count 0 [a.vd.toNat] []) ∧
    (ChurnReady s d u 0x59 a →
      ∃ t, exec (.rmax d u a) s = .next t ∧
        (∀ g, g < 512 → laneOf t d u.toNat a.vd.toNat 0xB g =
          if g < n / k then ((xs g).foldl max (-2 ^ 31) % 2 ^ 32).toNat else 0) ∧
        ChurnActs s t d u 0x59 2 count 0 [a.vd.toNat] []) ∧
    (ChurnReady s d u 0x5A a →
      ∃ t, exec (.rmin d u a) s = .next t ∧
        (∀ g, g < 512 → laneOf t d u.toNat a.vd.toNat 0xB g =
          if g < n / k then ((xs g).foldl min (2 ^ 31 - 1) % 2 ^ 32).toNat else 0) ∧
        ChurnActs s t d u 0x5A 2 count 0 [a.vd.toNat] [])) ∧
  (
  ∀ (d : Die) (u : BitVec 2) (a : ChurnReg) (s : State),
    let ty := a.ty.toNat
    let n := laneCount ty
    let rt := sumType ty
    let on := (List.range n).filter (activeLane s d u.toNat a)
    (∀ row ∈ ([(.rsum, 0x58, elemAdd, idSum rt), (.rmax, 0x59, elemMax, idPick true rt), (.rmin, 0x5A, elemMin, idPick false rt)] :
        List ((Die → BitVec 2 → ChurnReg → Instr) × Nat × (Nat → Bool → Nat → Nat → Rounded) × Nat)),
      ChurnReady s d u row.2.1 a →
      let leaves := (List.range n).map fun i => if activeLane s d u.toNat a i then widen ty (laneA s d u.toNat a ty i) else row.2.2.2
      let tree := treeLevels (row.2.2.1 rt a.sat) (a.imm.toNat % 16) leaves
      ∃ t, exec (row.1 d u a) s = .next t ∧
        (∀ g, g < laneCount rt → laneOf t d u.toNat a.vd.toNat rt g = laneCode rt (tree.1.getD g 0) % 2 ^ (8 * laneBytes rt)) ∧
        ChurnActs s t d u row.2.1 2 on.length tree.2 [a.vd.toNat] []) ∧
    (ChurnReady s d u 0x60 a →
      let best := fun g => bestOf ty (a.imm.toNat % 128) ((on.filter fun i => i / 512 = g).map fun i => (laneA s d u.toNat a ty i, i))
      ∃ t, exec (.topk d u a) s = .next t ∧
        (a.vc ≠ a.vd → ∀ i, i < n → laneOf t d u.toNat a.vd.toNat ty i = ((best (i / 512))[i % 512]?.map (·.1)).getD 0 % 2 ^ (8 * laneBytes ty)) ∧
        (∀ i, i < 512 → laneOf t d u.toNat a.vc.toNat 0xB i =
          if i < 64 * (n / 512) then ((best (i / 64))[i % 64]?.map (·.2)).getD 0xFFFFFFFF else 0xFFFFFFFF) ∧
        ChurnActs s t d u 0x60 8 on.length
          (if isIntType ty = false ∧ ∃ i ∈ on, (decodeF ty (laneA s d u.toNat a ty i)).snan = true then fInvalid else 0)
          [a.vd.toNat, a.vc.toNat] []))

/-- HOLD, LDV and STV (R92, R96, R97, R109, R130, R131, R146): HOLD does nothing; LDV reads the active elements of its pan access and
writes zeros above COUNT where no mask holds them off (log 123); STV writes the active lanes (at stride zero the last), which read back as written. The counters move by the
elements accessed. -/
def Obligations.ChurnPanAccesses : Prop :=
  (∀ (d : Die) (u : BitVec 2) (s : State), exec (.churnHold d u) s = .next s) ∧
  ∀ (d : Die) (u : BitVec 2) (a : ChurnMem) (s : State) (img : Image) (y : DieSt), (dieOf s d).image = some img → running s d = true →
    unitNamed img u.toNat = true → churnMemValid img a = true → (dieOf s d).deferred = [] → (tokOf (dieOf s d) a.token.toNat).lent = none →
    settle img (jobWord s d) [a.token.toNat] (dieOf s d) = .ok y →
    let c := churnDesc img a.desc.toNat
    let ty := a.ty.toNat
    let pan := panEnt img c.pan
    let b := churnOf y u.toNat
    let on := memActives b a c.count
    let steps := if c.estride = 0 ∨ c.estride = 1 then 1 else 4
    let elem := fun (x : DieSt) i =>
      let line := panLineNow x pan ((elemPlace ty c i).1 / 64)
      if ty = 9 then (fieldAt line ((elemPlace ty c i).1 % 64) 1 >>> (elemPlace ty c i).2) % 16
      else fieldAt line ((elemPlace ty c i).1 % 64) (laneBytes ty)
    ((∀ i ∈ on, pan.persistent = true ∨ pan.base + (elemPlace ty c i).1 / 64 ∈ y.written) →
      ∃ t, exec (.ldv d u a) s = .next t ∧ t = { s with dies := t.dies } ∧ (∀ e, e ≠ d.val → dieOf t e = dieOf s e) ∧
        dieOf t d = occupy (16 + u.toNat) steps { y with churn := (dieOf t d).churn } ∧
        (∀ v, v ≠ u.toNat → churnOf (dieOf t d) v = churnOf y v) ∧
        (∀ r, r < 32 → r ≠ a.vr.toNat → vecBytes (churnOf (dieOf t d) u.toNat) r = vecBytes b r) ∧
        (∀ i, i < laneCount ty → laneOf t d u.toNat a.vr.toNat ty i =
          if i < c.count then
            (if i ∈ on then laneCode ty (elem y i) % 2 ^ (8 * laneBytes ty) else ((lanes ty (vecBytes b a.vr.toNat))[i]?).getD 0)
          else if a.men = true ∧ (maskOf b a.msk.toNat).getLsbD i = false then ((lanes ty (vecBytes b a.vr.toNat))[i]?).getD 0 else 0) ∧
        (churnOf (dieOf t d) u.toNat).panRead =
          b.panRead + BitVec.ofNat 64 (laneBytes ty * placeCount ty c on)) ∧
    (pan.persistent = false ∨ logCount y + on.length ≤ maxLogEntries →
      let kept := if c.estride = 0 then on.drop (on.length - 1) else on
      ∃ t, exec (.stv d u a) s = .next t ∧ t = { s with dies := t.dies } ∧ (∀ e, e ≠ d.val → dieOf t e = dieOf s e) ∧
        (∀ i ∈ kept, elem (dieOf t d) i =
          (let lane := ((lanes ty (vecBytes b a.vr.toNat))[i]?).getD 0; if ty = 9 then lane % 16 else lane)) ∧
        (∀ v r, r < 32 → vecBytes (churnOf (dieOf t d) v) r = vecBytes (churnOf y v) r) ∧
        (churnOf (dieOf t d) u.toNat).elements = b.elements + BitVec.ofNat 64 on.length ∧
        (churnOf (dieOf t d) u.toNat).panWritten = b.panWritten + BitVec.ofNat 64 (laneBytes ty * placeCount ty c kept))
/-! ## The movers (R98, R102, R104, R110 to R112, R180, R181, R300, R301) -/

/-- HOLD and GET (R98, R102, R110, R112, R180, R237): the mover is occupied by its bytes, every line of the range is translated and its granule
taken, the lines are read through the edge cache with the command's staged PUTs forwarded, and the pan is written. `z` is the state
beside the queue, `w` and `v` what translation and the reads leave. -/
def Obligations.GetReadsMemoryIntoAPan : Prop :=
  (∀ (d : Die) (mv : BitVec 2) (s : State), exec (.moverHold d mv) s = .next s) ∧
  ∀ (d : Die) (mv : BitVec 2) (a : MoverArgs) (s z w v : State) (img : Image) (y q : DieSt) (ls : List MovLine) (b : List Byte),
    z = { s with pending := [] } → (dieOf z d).image = some img → running z d = true → moverNamed img mv.toNat = true →
    moverOk img 1 a.desc.toNat = true →
    let m := movDesc img a.desc.toNat
    let va := (m.target + if a.idx then 64 * (svOf (dieOf z d) a.xsv.toNat).toNat else 0) % 2 ^ 64
    (dieOf z d).deferred = [] → ordersBehind img (dieOf z d) false va (64 * m.length) = false → (tokOf (dieOf z d) m.token).lent = none →
    settle img (jobWord z d) [m.token] (dieOf z d) = .ok y →
    movLines d (ctxOn z d) va m.length false
      (setDie z d (occupy (20 + mv.toNat) (max 1 ((64 * m.length + 1023) / 1024)) { y with actSeq := y.actSeq + 1 })) = (.ok ls, w) →
    movRead d (ctxOn z d) ls w = (.ok b, v) →
    writePan (panEnt img m.pan) (64 * m.offset) b (dieOf v d) = .ok q →
    exec (.get d mv a) s = .next { setDie v d q with pending := s.pending }

/-- PUT and HRED stage lines; copies go to a pan or to another die. (1) PUT and HRED (R102, R112, R180, R181): the pan's lines are staged
in the log, a PUT's so that the command's later reads of those lines see them, an HRED's in order as new entries; memory and near SRAM do
not change. (2) COPY (R102, R104, R106): on the die itself the destination pan is written at once; to another rank a copy is sent,
numbered with the INC values of the SIGNALs issued to its token before it; while a RELEASE waits it is put among the actions that wait
(R116). -/
def Obligations.PutsAndCopiesStoreLines : Prop :=
  (
  ∀ (d : Die) (mv : BitVec 2) (a : MoverArgs) (s z w : State) (img : Image) (y : DieSt) (ls : List MovLine) (b : List Byte),
    z = { s with pending := [] } → (dieOf z d).image = some img → running z d = true → moverNamed img mv.toNat = true →
    let m := movDesc img a.desc.toNat
    let va := (m.target + if a.idx then 64 * (svOf (dieOf z d) a.xsv.toNat).toNat else 0) % 2 ^ 64
    let x := occupy (20 + mv.toNat) (max 1 ((64 * m.length + 1023) / 1024)) { y with actSeq := y.actSeq + 1 }
    (dieOf z d).deferred = [] → ordersBehind img (dieOf z d) true va (64 * m.length) = false → (tokOf (dieOf z d) m.token).lent = none →
    settle img (jobWord z d) [m.token] (dieOf z d) = .ok y → movLines d (ctxOn z d) va m.length true (setDie z d x) = (.ok ls, w) →
    readPan (dieOf w d) (panEnt img m.pan) m.token (64 * m.offset) (64 * m.length) = .ok b →
    logCount (dieOf w d) + m.length ≤ maxLogEntries →
    (moverOk img 2 a.desc.toNat = true → (ls.map MovLine.line).Nodup →
      ∃ t l, exec (.put d mv a) s = .next t ∧ t = { setDie w d { dieOf w d with log := l } with pending := s.pending } ∧
        ∀ i k old, ls[i]? = some k → forwarded (dieOf t d) .put k.line old = (b.drop (64 * i)).take 64) ∧
    (moverOk img 4 a.desc.toNat = true →
      exec (.hred d mv a) s = .next { setDie w d { dieOf w d with
        log := (dieOf w d).log ++ (ls.zip (toLines b)).map fun (p : MovLine × LineData) =>
          ⟨.hred (BitVec.ofNat 3 m.redOp), p.1.line, p.2, allMask, p.1.key⟩ } with pending := s.pending })) ∧
  (
  ∀ (d : Die) (mv : BitVec 2) (a : MoverArgs) (s : State) (img : Image) (y : DieSt) (b : List Byte), (dieOf s d).image = some img →
    running s d = true → moverNamed img mv.toNat = true → moverOk img 3 a.desc.toNat = true → (dieOf s d).deferred = [] →
    let m := movDesc img a.desc.toNat
    let c := copyTarget m.target
    let steps := max 1 ((64 * m.length + 1023) / 1024)
    (tokOf (dieOf s d) m.token).lent = none → readPan y (panEnt img m.pan) m.token (64 * m.offset) (64 * m.length) = .ok b →
    (∀ q, c.rank = 0xF → (tokOf (dieOf s d) c.token).lent = none → settle img (jobWord s d) [m.token, c.token] (dieOf s d) = .ok y →
      writePan (panEnt img c.pan) (64 * c.offset) b y = .ok q →
      exec (.copy d mv a) s = .next (setDie s d (occupy (20 + mv.toNat) steps q))) ∧
    (∀ q, c.rank ≠ 0xF → settle img (jobWord s d) [m.token] (dieOf s d) = .ok y → releaseClear s d = true →
      dieOfRank s d c.rank = some q → (tokEnt img c.token).source = rankOf s d →
      exec (.copy d mv a) s = .next { setDie s d (occupy (20 + mv.toNat) steps { y with actSeq := y.actSeq + 1 }) with
        copyNet := s.copyNet ++ [⟨y.actSeq, d, rankOf s d, q, BitVec.ofNat 13 c.token,
          SMap.get 0 y.sent (8192 * c.rank + c.token), c.offset, toLines b⟩] }) ∧
    (c.rank ≠ 0xF → releaseClear s d = false →
      exec (.copy d mv a) s = .next (updDie s d (deferAct steps (.mover 3 mv.toNat a)))))

/-- LACE PUT, REDUCE, SIGNAL and GET (R298, R300, R301, R304): a write records the partner in the log and sends its lines in packets of up to
16; a SIGNAL sends one packet; a GET takes the lowest free tag of the die at the partner and sends its requests; an invalid partner
posts 0x0715 and ends the job. -/
def Obligations.LaceOperationsSendPackets : Prop :=
  ∀ (d : Die) (mv : BitVec 2) (a : MoverArgs) (s : State) (img : Image) (y : DieSt) (b : List Byte),
    let m := movDesc img a.desc.toNat
    let p := lacePartner m.target
    let off := bits m.target 16 48
    let chunks := (List.range ((m.length + 15) / 16)).map fun i => (16 * i, min 16 (m.length - 16 * i))
    let occupied := fun (x : DieSt) => occupy (20 + mv.toNat) (max 1 ((64 * m.length + 1023) / 1024)) { x with actSeq := x.actSeq + 1 }
    let record : LogEntry := ⟨.lace p, 0, [], 0, none⟩
    (∀ row ∈ ([(.lacePut, 0, ptPut), (.laceReduce, 2, ptReduce)] : List ((Die → BitVec 2 → MoverArgs → Instr) × Nat × Nat)),
      LaceReady s d mv a img row.2.1 → (tokOf (dieOf s d) m.token).lent = none →
      settle img (jobWord s d) [m.token] (dieOf s d) = .ok y →
      readPan y (panEnt img m.pan) m.token (64 * m.offset) (64 * m.length) = .ok b → logCount y < maxLogEntries →
      ∃ (t : State) (pkts : List Packet), exec (row.1 d mv a) s = .next t ∧ t.mem = s.mem ∧ dieOf t d = occupied { y with log := y.log ++ [record] } ∧
        t.lacing.outbox = s.lacing.outbox ++ pkts.map (fun (k : Packet) => (BitVec.ofNat 8 row.2.2, k)) ∧
        pkts.map (fun (k : Packet) => (k.dst.toNat, k.oper.toNat, k.data)) = chunks.map fun (c : Nat × Nat) =>
          (p % 2 ^ 13, (off + c.1) % 2 ^ 48 + (c.2 - 1) * 2 ^ 48, (b.drop (64 * c.1)).take (64 * c.2))) ∧
    (LaceReady s d mv a img 3 → logCount (dieOf s d) < maxLogEntries →
      ∃ t k, exec (.laceSignal d mv a) s = .next t ∧ t.mem = s.mem ∧
        dieOf t d = occupy (20 + mv.toNat) 1 { dieOf s d with log := (dieOf s d).log ++ [record], actSeq := (dieOf s d).actSeq + 1 } ∧
        t.lacing.outbox = s.lacing.outbox ++ [(BitVec.ofNat 8 ptSignal, k)] ∧
        k.oper.toNat = bits off 0 4 + bits off 4 13 * 2 ^ 4 + bits off 17 16 * 2 ^ 32) ∧
    (LaceReady s d mv a img 1 → ordersBehind img (dieOf s d) false 0 0 = false → (tokOf (dieOf s d) m.token).lent = none →
      settle img (jobWord s d) [m.token] (dieOf s d) = .ok y → ∀ tag, tag < 8192 →
      let used := SMap.get [] s.lacing.tags (tagKey d p)
      (∀ n, n < tag → ∃ g ∈ used, g.tag.toNat = 8192 * d + n) → (∀ g ∈ used, g.tag.toNat ≠ 8192 * d + tag) →
      ∃ (t : State) (pkts : List Packet), exec (.laceGet d mv a) s = .next t ∧ t.mem = s.mem ∧ dieOf t d = occupied { y with getTokens := y.getTokens ++ [(m.token, y.actSeq)] } ∧
        SMap.get [] t.lacing.tags (tagKey d p) =
          used ++ [⟨BitVec.ofNat 16 (8192 * d + tag), m.pan, m.token, m.offset, m.length, 0, s.lacing.memb.epoch, none⟩] ∧
        t.lacing.outbox = s.lacing.outbox ++ pkts.map (fun (k : Packet) => (BitVec.ofNat 8 ptGetReq, k)) ∧
        pkts.map (fun (k : Packet) => (k.tag.toNat, k.oper.toNat)) = chunks.map fun (c : Nat × Nat) =>
          (8192 * d + tag, (off + c.1) % 2 ^ 48 + (c.2 - 1) * 2 ^ 48)) ∧
    (∀ row ∈ ([(.lacePut, 0), (.laceGet, 1), (.laceReduce, 2), (.laceSignal, 3)] : List ((Die → BitVec 2 → MoverArgs → Instr) × Nat)),
      ∀ k, (dieOf s d).image = some img → running s d = true → moverNamed img mv.toNat = true → moverOk img 5 a.desc.toNat = true →
      laceOp m.target = row.2 → releaseClear s d = true → (dieOf s d).deferred = [] → (p = s.lacing.memb.pkgId.toNat ∨ (partnerOf s p).valid = false) → Killable s d k →
      ∃ t reason, exec (row.1 d mv a) s = .next t ∧ Posted s t 0x0715 d [p, reason] ∧ KillBegun s t k (.failing 0x0715) ∧ t.mem = s.mem)
/-! ## Contexts, the dispatcher, jobs (R172 to R193, R283) -/

/-- Context registers (R172, R173, R175, R177, R283, R383): a write of ENABLE makes a FREE context ACTIVE when its ring sizes are 16 to 65,536
entries, its rings lie in unified memory and the tenancy mode permits; the doorbells write their pointers; a delivered MSI leaves the
queue and pends in its target file, or counts as dropped, and one sent before pends at the target it was sent to. -/
def Obligations.ContextRegisters : Prop :=
  ∀ (c : CtxId) (s : State),
    let x := ctxOf s c.toNat
    let ringOk := fun (log2 : BitVec 5) (base : BitVec 52) =>
      4 ≤ log2.toNat ∧ log2.toNat ≤ 16 ∧ inUnified s (base.toNat * 4096) (64 * 2 ^ log2.toNat) = true
    (x.state = .free → ringOk x.sqLog2 x.sqBase → ringOk x.cqLog2 x.cqBase → sharedPermits s c.toNat = true →
      exec (.contextEnable c) s = .next (updCtx s c.toNat fun x => { x with state := .active })) ∧
    ((x.state ≠ .free ∨ ¬ringOk x.sqLog2 x.sqBase ∨ ¬ringOk x.cqLog2 x.cqBase ∨ sharedPermits s c.toNat = false) →
      exec (.contextEnable c) s = .next s) ∧
    (∀ v : BitVec 16, exec (.sqTail c v) s = .next (updCtx s c.toNat fun x => { x with sqTail := v })) ∧
    (∀ v : BitVec 16, exec (.cqHead c v) s = .next (updCtx s c.toNat fun x => { x with cqHead := v })) ∧
    (∀ rest, s.disp.msis = c :: rest → s.disp.sent = [] →
      let u := { s with disp := { s.disp with msis := rest } }
      exec .msiDelivered s = .next
        (if x.eiid = 0 ∨ hartPresent s x.hart.toNat = false then updCtx u c.toNat fun x => { x with droppedMsis := x.droppedMsis + 1 }
         else
           let files := SMap.upd {} u.cluster.files (9 * x.hart.toNat + 1 + x.file.toNat)
             (fun f => { f with pending := f.pending ||| BitVec.ofNat 2048 (2 ^ x.eiid.toNat) })
           { u with cluster := { u.cluster with files } })) ∧
    (∀ k i rest, s.disp.sent = (k, i) :: rest →
      let files := SMap.upd {} s.cluster.files k (fun f => { f with pending := f.pending ||| BitVec.ofNat 2048 (2 ^ i.toNat) })
      exec .msiDelivered s = .next { s with disp := { s.disp with sent := rest }, cluster := { s.cluster with files } })

/-- Pre-emption kills running jobs to save them; a context reset discards them. (1) PREEMPT and PREEMPT_DIES (R187, R191): every job of
the context, or with a die in the mask, that runs a command whose drain has not begun is killed for pre-emption; memory does not change.
(2) CONTEXT_RESET (R173, R174, R285): the waiting descriptors count as KILLED; without a job its queued MSIs are dropped and counted and
the context is FREE at once, and while a killed job of it still holds dies it reads RESETTING. -/
def Obligations.PreemptionAndContextReset : Prop :=
  (
  ∀ (s : State),
    let preempted := fun (t : State) (k : Nat) => ∃ i, jobOf t k = some i ∧ i.stage = .killing ∧ .preempt ∈ i.causes
    (∀ c : CtxId, ∃ t, exec (.preempt c) s = .next t ∧ t.mem = s.mem ∧ t.ctxs = s.ctxs ∧
      ∀ k j, jobOf s k = some j → j.ctx = c → j.stage = .running → draining s j = false → preempted t k) ∧
    (∀ mask : BitVec 8, ∃ t, exec (.preemptDies mask) s = .next t ∧ t.mem = s.mem ∧ t.ctxs = s.ctxs ∧
      ∀ (d : Die) k j, mask.getLsbD d = true → jobOn s d = some k → jobOf s k = some j → j.stage = .running → draining s j = false →
        preempted t k)) ∧
  (
  ∀ (c : CtxId) (s : State),
    let x := ctxOf s c.toNat
    let queued := s.disp.msis.filter (·.toNat == c.toNat)
    let n := 2 ^ x.sqLog2.toNat
    let waiting := (x.sqTail.toNat + n - x.sqHead.toNat % n) % n
    let reset := { x with killed := x.killed + BitVec.ofNat 64 waiting, sqHead := x.sqTail }
    (jobsOf s c.toNat = [] → (∀ d, (dieOf s d).walkWait = []) →
      ∃ t, exec (.contextReset c) s = .next t ∧
        ctxOf t c.toNat = { reset with state := .free, droppedMsis := x.droppedMsis + BitVec.ofNat 32 queued.length } ∧
        t.disp.msis = s.disp.msis.filter (·.toNat != c.toNat) ∧ t.mem = s.mem ∧ t.jobs = s.jobs ∧
        ∀ e, e ≠ c.toNat → ctxOf t e = ctxOf s e) ∧
    (∀ k j, jobsOf s c.toNat = [k] → jobOf s k = some j → j.ctx = c → j.dies ≠ [] → j.stage = .running → draining s j = false →
      (∀ d, (dieOf s d).walkWait = []) →
      ∃ t i, exec (.contextReset c) s = .next t ∧ ctxOf t c.toNat = { reset with state := .resetting } ∧ t.mem = s.mem ∧
        jobOf t k = some i ∧ i.stage = .killing ∧ i.causes = j.causes ++ [.contextReset]))

/-- The dispatcher places the job at the head of a ring, and saved jobs come back. (1) DISPATCH_PLACE on a fresh descriptor at the head of
the first context in order (R175, R176, R178, R388, R389): its job takes the free allowed dies in counting order, rank by rank, with
registers zero and a new tag; one that cannot be placed ends FAILED. `w` and `v` are what reading the descriptor and the image's gang size
leave. (2) SAVE_COMPLETE and RESTORE_COMPLETE for a job of one die (R187 to R189): once its save area is written the job leaves its die
and heads its ring; once the area is read back the die has its registers, position and pans again and the command re-runs. -/
def Obligations.DispatcherPlacesJobsNewAndSaved : Prop :=
  (
  ∀ (s z w v : State) (c : Nat) (rest : List Nat) (b : List Byte) (gang save : Nat), z = { s with pending := [] } →
    z.dom.halted = false → z.su.phase = .running → heldStops z = false → contextOrder z = c :: rest → c < 4096 →
    headJob z c = some (.fresh b, w) → recordFree w c none = true → readGang c b w = (gang, save, v) →
    let k := v.disp.serial
    let dies := (freeDies v (fieldAt b 36 1)).take gang
    (placeable v b gang save = true → gang ≤ (freeDies v (fieldAt b 36 1)).length →
      ∃ t i, exec .dispatchPlace s = .next t ∧ jobOf t k = some i ∧ i.ctx = BitVec.ofNat 12 c ∧ i.dies = dies ∧ i.stage = .checking ∧
        i.jobId = BitVec.ofNat 64 (fieldAt b 0 8) ∧ t.disp.last = some c ∧ t.disp.serial = k + 1 ∧ t.mem = v.mem ∧
        (ctxOf t c).submitted = (ctxOf v c).submitted + 1 ∧
        ∀ rank d, dies[rank]? = some d →
          (dieOf t d).job = some k ∧ (dieOf t d).seq.state = .checking ∧ (dieOf t d).seq.rank = BitVec.ofNat 4 rank ∧
            (dieOf t d).sv = [] ∧ (dieOf t d).lc = [] ∧ (dieOf t d).tokens = [] ∧ (dieOf t d).placeCtr = (dieOf v d).placeCtr + 1) ∧
    (placeable v b gang save = false →
      ∃ t, exec .dispatchPlace s = .next t ∧ jobOf t k = none ∧ t.disp.serial = k + 1 ∧
        (ctxOf t c).submitted = (ctxOf v c).submitted + 1 ∧ (ctxOf t c).failed = (ctxOf v c).failed + 1)) ∧
  (
  ∀ (d : Die) (s z w : State) (k : Nat) (j : Job) (r : CmdStart) (img : Image), z = { s with pending := [] } → jobOn z d = some k →
    jobOf z k = some j → j.dies = [d.val] → (dieOf z d).image = some img →
    (j.stage = .saving → j.saves = [] → (dieOf z d).start = some r → j.awaiting = [] →
      vwrite d j.ctx.toNat (fieldAt j.desc 24 8) (freeBytes z.free 0x21000 ++ churnArea r ++ panArea img (dieOf z d))
        { z with free := z.free + 0x21000 } = (.ok [], w) → w.jobs = z.jobs → (dieOf w d).job = some k → (dieOf w d).round.pins = [] →
      ∃ t i, exec (.saveComplete d) s = .next t ∧ jobOf t k = some i ∧ i.stage = .saved ∧ i.dies = [] ∧ i.causes = [] ∧
        i.preemptions = j.preemptions + (if j.causes.contains .preempt || j.causes.contains .budget then 1 else 0) ∧
        i.saves = [{ r with slots := logicalSlots (unitMapOf w d) r.slots, tokens := (dieOf z d).tokens }] ∧
        (dieOf t d).job = none ∧ (ctxOf t j.ctx.toNat).requeued = k :: (ctxOf w j.ctx.toNat).requeued ∧ t.mem = w.mem) ∧
    (∀ b, j.stage = .restoring → j.saves = [r] →
      vread d j.ctx.toNat false (fieldAt j.desc 24 8) (saveSize img) z = (.ok b, w) → w.jobs = z.jobs →
      (dieOf w d).image = some img → (dieOf w d).spareClaim = none → roundCount (dieOf w d) = 0 → servedBy w k = none →
      ∃ t i, exec (.restoreComplete d) s = .next t ∧ jobOf t k = some i ∧ i.stage = .running ∧ i.saves = [] ∧
        (dieOf t d).seq.state = .running ∧ (dieOf t d).seq.pos = r.pos ∧ (dieOf t d).sv = r.sv ∧ (dieOf t d).lc = r.lc ∧
        (dieOf t d).tokens = r.tokens ∧ t.mem = w.mem))

/-- KILL_COMPLETE for a job of one die without a round list (R108, R127, R183 to R187, R193): after a fault the die is back at its command
start and runs again, three such kills in a row, a program fault or a failing error end the job, and a pre-empted job is saved next. -/
def Obligations.KillsEndInReRunSaveOrEnd : Prop :=
  ∀ (d : Die) (s : State) (k : Nat) (j : Job) (r : CmdStart), jobOn s d = some k → jobOf s k = some j → j.stage = .killing →
    j.dies = [d.val] → j.saves = [] → (dieOf s d).start = some r → (dieOf s d).spareClaim = none → roundCount (dieOf s d) = 0 →
    servedBy s k = none → s.iommu.fence = none →
    let issued := (dieOf s d).seq.issued
    let ended := fun (status : Context → BitVec 64) =>
      ∃ t, exec (.killComplete d) s = .next t ∧ jobOf t k = none ∧ (dieOf t d).job = none ∧ (dieOf t d).seq.state = .idle ∧
        status (ctxOf t j.ctx.toNat) = status (ctxOf s j.ctx.toNat) + 1
    let kills := if issued then j.faultKills + 1 else j.faultKills
    (∀ e, j.causes = [.fault e] → kills < 3 →
      ∃ t i, exec (.killComplete d) s = .next t ∧ jobOf t k = some i ∧ i.stage = .running ∧ i.causes = [] ∧ i.faultKills = kills ∧
        i.reruns = j.reruns + (if j.rerunDue || issued then 1 else 0) ∧ (dieOf t d).seq.state = .running ∧
        (dieOf t d).seq.pos = r.pos ∧ (dieOf t d).sv = r.sv ∧ (dieOf t d).lc = r.lc ∧ (dieOf t d).written = [] ∧ t.mem = s.mem) ∧
    (∀ e, j.causes = [.fault e] → 3 ≤ kills → ended (·.failed)) ∧
    (∀ e, j.causes = [.program e] ∨ j.causes = [.failing e] → ended (·.failed)) ∧
    (j.causes = [.contextReset] → ended (·.killed)) ∧
    (j.causes = [.preempt] →
      ∃ t i, exec (.killComplete d) s = .next t ∧ jobOf t k = some i ∧ i.stage = .saving ∧ i.causes = [.preempt] ∧
        (dieOf t d).sv = r.sv ∧ (dieOf t d).seq.pos = r.pos ∧ t.mem = s.mem)

/-- DIE_RESET (R67, R390, R420): with the key 0xA5 each die named posts 0x0A09 with the number of jobs it holds, loses its slots and tags, and its
job is killed for the reset; with another key nothing happens. -/
def Obligations.DieResetClearsEngines : Prop :=
  ∀ (mask : BitVec 8) (key : BitVec 8) (s : State),
    (key ≠ 0xA5 → exec (.dieReset mask key) s = .next s) ∧
    (key = 0xA5 →
      ∃ t, exec (.dieReset mask key) s = .next t ∧ t.mem = s.mem ∧
        (∀ d : Die, mask.getLsbD d = true → (dieOf t d).slots = [] ∧ (dieOf t d).lineTag = [] ∧ (dieOf t d).invQueue = []) ∧
        (∀ d : Die, mask = BitVec.ofNat 8 (2 ^ d.val) →
          (jobOn s d = none → Posted s t 0x0A09 d [d, 0]) ∧
          (∀ k, Killable s d k → Posted s t 0x0A09 d [d, 1] ∧ KillBegun s t k .dieReset)))
/-! ## The Separator (R150 to R161, R384) -/

/-- The Separator's commands: those that set granule bits, and those that place, move and free granules. (1) PIN, UNPIN, SET_PULL and
CLR_PULL (R150, R159): the bit of every granule named is written, STATUS reads 1 and DONE the count; no other granule changes but for the
REF of the one that holds the ring, and no memory outside the descriptor's line. (2) PLACE, RELEASE, MIGRATE and CHOWN of one granule, and
the ring's tail (R153, R154, R156, R157, R159, R384): a granule takes storage of the tier and reads zero; one given back is UNPLACED and
uncharged; a move to the other tier, or to an owner with another key, begins; an owner with the same key takes the charge; a pinned
granule answers PINNED, a full quota QUOTA. -/
def Obligations.SeparatorCommands : Prop :=
  (
  ∀ (s : State) (z : SepDesc),
    let writes := fun (c : Instr) (f : Granule → Granule) =>
      ∃ t, exec c s = .next t ∧ DescEnds s t z 1 z.count ∧ t.moves = s.moves ∧ t.quotas = s.quotas ∧
        (∀ g, granOf t g =
          let x := if granuleOf z.addr ≤ g ∧ g < granuleOf z.addr + z.count then f (granOf s g) else granOf s g
          { x with ref := x.ref || g == granuleOf z.pos }) ∧
        ∀ a, a / 64 ≠ z.pos / 64 → ByteMap.byte t.mem a = ByteMap.byte s.mem a
    (LoneDesc s z 3 → writes .pinOp fun x => { x with pin := true }) ∧
    (LoneDesc s z 4 → writes .unpin fun x => { x with pin := false }) ∧
    (LoneDesc s z 5 → writes .setPull fun x => { x with pull := true }) ∧
    (LoneDesc s z 6 → writes .clrPull fun x => { x with pull := false })) ∧
  (
  (∀ (v : BitVec 16) (s : State), (∀ z, sepHead { s with sep := { s.sep with tail := v } } = some z → 1 ≤ z.op ∧ z.op ≤ 8) →
    exec (.sepCqTail v) s = .next { s with sep := { s.sep with tail := v } }) ∧
  ∀ (s : State) (z : SepDesc), z.count = 1 → granuleOf z.addr ≠ granuleOf z.pos →
    let g := granuleOf z.addr
    let x := granOf s g
    let hbm : Bool := z.tier == 0
    let begun := fun (t : State) (kind : MoveKind) (toHbm : Bool) (loc : Nat) =>
      granOf t g = { x with state := .moving } ∧ t.sep.head = s.sep.head ∧ t.sep.prog = 1 ∧
        SMap.find t.moves g = some ⟨kind, x.state == .hbm, x.location, toHbm, BitVec.ofNat 32 loc, s.time, []⟩
    (LoneDesc s z 1 → x.state = .unplaced →
      (∀ loc, moveRoom s z.ctx hbm true = .ok loc →
        ∃ t, exec .place s = .next t ∧ DescEnds s t z 1 1 ∧
          granOf t g = { x with state := if hbm then .hbm else .far, pull := (quotaOf s z.ctx).pullDefault, owner := BitVec.ofNat 12 z.ctx,
                                location := BitVec.ofNat 32 loc } ∧
          quotaUse (quotaOf t z.ctx) hbm =
            (if hbm then (quotaOf s z.ctx).hbmUse + 1 else (quotaOf s z.ctx).farUse + 1).toNat ∧
          ∀ i, i < 65536 → ByteMap.byte t.mem (granuleAddr g + i) = 0) ∧
      (moveRoom s z.ctx hbm true = .error .quota →
        ∃ t, exec .place s = .next t ∧ DescEnds s t z 3 0 ∧ granOf t g = x)) ∧
    (LoneDesc s z 2 →
      (isPinned s g = true → ∃ t, exec .sepRelease s = .next t ∧ DescEnds s t z 2 0 ∧ granOf t g = x) ∧
      (isPinned s g = false → SMap.find s.filling g = none → (x.state = .hbm ∨ x.state = .far) →
        ∃ t, exec .sepRelease s = .next t ∧ DescEnds s t z 1 1 ∧ granOf t g = {} ∧
          quotaUse (quotaOf t x.owner.toNat) (x.state == .hbm) =
            (if x.state == .hbm then (quotaOf s x.owner.toNat).hbmUse - 1 else (quotaOf s x.owner.toNat).farUse - 1).toNat)) ∧
    (LoneDesc s z 7 → isPinned s g = false → x.state = (if hbm then .far else .hbm) →
      ∀ loc, moveRoom s x.owner.toNat hbm true = .ok loc → ∃ t, exec .migrate s = .next t ∧ begun t .migrate hbm loc) ∧
    (LoneDesc s z 8 → (x.state = .hbm ∨ x.state = .far) → x.owner.toNat ≠ z.ctx → z.ctx < 4096 → atQuota s z.ctx (x.state == .hbm) = false →
      let keyed := fun (k : Nat) => (SMap.find s.sec.memKeys k).map (·.key)
      (keyed x.owner.toNat = keyed z.ctx →
        ∃ t, exec .chown s = .next t ∧ DescEnds s t z 1 1 ∧ granOf t g = { x with owner := BitVec.ofNat 12 z.ctx } ∧
          quotaUse (quotaOf t z.ctx) (x.state == .hbm) =
            (if x.state == .hbm then (quotaOf s z.ctx).hbmUse + 1 else (quotaOf s z.ctx).farUse + 1).toNat) ∧
      (keyed x.owner.toNat ≠ keyed z.ctx → ∀ loc, pickFree s (x.state == .hbm) none = some loc →
        ∃ t, exec .chown s = .next t ∧ begun t (.chown (BitVec.ofNat 12 z.ctx)) (x.state == .hbm) loc)))

/-- How moves end, quotas and the demotion scan (R151, R153 to R158, R160, R384): a finished copy puts the granule at its target and counts a migration,
one later than 1 ms is undone with PULL cleared and 0x0342; a written quota sets the over-quota bits anew; the scan demotes the next unpinned
granule whose REF is clear; a filled granule's accesses proceed. -/
def Obligations.MovesQuotasAndScans : Prop :=
  (∀ (g : Nat) (s : State) (m : Move), SMap.find s.moves g = some m → s.sep.prog = 0 →
    let x := granOf s g
    let moved := { x with
      state := if m.toHbm then GranState.hbm else .far, location := m.target,
      pull := if m.kind = .demote then (quotaOf s x.owner.toNat).pullDefault else x.pull,
      owner := match m.kind with | .chown n => n | _ => x.owner }
    (s.time - m.start).toNat ≤ 100000 → ∃ t, exec (.migrationCopyDone g) s = .next t ∧ granOf t g = moved ∧ SMap.find t.moves g = none ∧
      t.sep.migrations = s.sep.migrations + 1 ∧
      (∀ h, h ≠ g → granOf t h = granOf s h)) ∧
  (∀ (g : Nat) (s : State) (m : Move), SMap.find s.moves g = some m → s.sep.prog = 0 → 100000 < (s.time - m.start).toNat →
    ∀ c ∈ [Instr.migrationTimeout g, .migrationCopyDone g], ∃ t, exec c s = .next t ∧ SMap.find t.moves g = none ∧
      granOf t g = { granOf s g with state := if m.fromHbm then .hbm else .far, location := m.source, pull := false } ∧
      Posted s t 0x0342 noSite [granuleAddr g, if m.toHbm then 0 else 1] ∧ ∀ h, h ≠ g → granOf t h = granOf s h) ∧
  (∀ (c : CtxId) (v : BitVec 64) (s : State),
    let q := quotaOf s c.toNat
    let above := fun (limit use : BitVec 32) => limit.toNat ≠ 0xFFFFFFFF && decide (32 * limit.toNat < use.toNat)
    ∃ t, exec (.quotaWrite c v) s = .next t ∧ t.mem = s.mem ∧ t.grans = s.grans ∧
      quotaOf t c.toNat = { q with
        hbmQuota := v.setWidth 32, farQuota := (v >>> 32).setWidth 32, overHbm := above (v.setWidth 32) q.hbmUse,
        overFar := above ((v >>> 32).setWidth 32) q.farUse } ∧
      (q.overHbm = true → above (v.setWidth 32) q.hbmUse = false → Posted s t 0x0343 noSite [c.toNat, 0]) ∧
      (q.overFar = true → above ((v >>> 32).setWidth 32) q.farUse = false → Posted s t 0x0343 noSite [c.toNat, 1])) ∧
  (∀ (c : CtxId) (s : State) (g : Nat) (rest : List Nat), (quotaOf s c.toNat).overHbm = true → (windowOpen s (quotaOf s c.toNat)).1 = true →
    scanOrder s c.toNat = g :: rest →
    (∀ loc, isPinned s g = false → (granOf s g).ref = false → moveRoom s c.toNat false true = .ok loc →
      ∃ t m, exec (.demotionScan c) s = .next t ∧ granOf t g = { granOf s g with state := .moving } ∧ SMap.find t.moves g = some m ∧
        m.kind = .demote ∧ m.toHbm = false ∧ m.target = BitVec.ofNat 32 loc ∧ (quotaOf t c.toNat).windowStart = s.time ∧
        ∀ h, h ≠ g → granOf t h = granOf s h) ∧
    (rest = [] → isPinned s g = false → (granOf s g).ref = true →
      ∃ t, exec (.demotionScan c) s = .next t ∧ granOf t g = { granOf s g with ref := false } ∧ t.moves = s.moves ∧ t.mem = s.mem)) ∧
  (∀ (g : Nat) (s : State) (q : List Waiter), SMap.find s.filling g = some q →
    ∃ t, exec (.granuleZeroFilled g) s = .next t ∧ t.filling = SMap.del s.filling g ∧ t.grans = s.grans ∧
      ∀ who addr n priv fetch, q = [.access ⟨who, addr, .load n, .clean, .pma, priv, fetch⟩] → (keyOf s (granuleOf addr.toNat)).isSome →
        (∀ l, poisoned s l = false ∧ busyOf s l = none ∧ l3Line s 0 l = none ∧ l3Line s 1 l = none) →
        t.resp = .bytes (cohRead s addr.toNat n))
/-! ## The milk round and serving (R162 to R168, R194 to R209) -/

/-- ROUND_NEAR_FETCH, ROUND_TILE_FETCHED and ROUND_SLOT_LOAD_DONE (R165 to R167): the walk promotes the entries up to the current layer plus HBM_LEAD
and reads the next tile into the round pan; its arrival lets its slot load begin; the load writes the slots and gives back the tile and
the RPINs. `w` is the state after the promotion, `v` after the read. -/
def Obligations.RoundEngineFetchesAndLoads : Prop :=
  ∀ (d : Die) (s z : State), z = { s with pending := [] } → working s d = true →
    let x := dieOf s d
    let due := ((List.range (roundCount x)).drop x.round.promoted).takeWhile
      fun i => ((roundEnt (roundImg x) i).layer : Int) ≤ currentLayer x + (x.round.hbmLead : Int)
    (∀ w v y i tile, promote d z = w → (dieOf w d).round.fetching = none → roundHeld (dieOf w d) = false →
      fetchNext (dieOf w d) = some i →
      freeFor (entryLines (dieOf w d) i) (roundHead (roundImg (dieOf w d))).size (victims (dieOf w d) i) (dieOf w d) = some y →
      readTile d i (setDie w d y) = (.ok tile, v) →
      ∃ t, exec (.roundNearFetch d) s = .next t ∧ t.mem = v.mem ∧
        dieOf t d = { dieOf v d with round := { (dieOf v d).round with
          tiles := (dieOf v d).round.tiles ++ [(i, tile)], fetching := some i } } ∧
        (dieOf w d).round.promoted = x.round.promoted + due.length) ∧
    (x.round.fetching ≠ none →
      ∃ t, exec (.roundTileFetched d) s = .next t ∧ (dieOf t d).round.fetching = none ∧ (dieOf t d).round.tiles = x.round.tiles ∧
        (dieOf t d).round.promoted = x.round.promoted + due.length) ∧
    (∀ (vat : BitVec 4) i y, loadable x vat.toNat = some i → x.commit = none → writeEntryLoad s.time (physOf s d vat.toNat) vat.toNat i x = .ok y →
      ∃ t, exec (.roundSlotLoadDone d vat) s = .next t ∧ (dieOf t d).slots = y.slots ∧ i ∈ (dieOf t d).round.loaded ∧
        hasTile (dieOf t d) i = false ∧ (i < x.round.promoted → ∀ p ∈ (dieOf t d).round.pins, p.1 ≠ i))

/-- Serving partitions: their registers, and the boundaries at which steps end and begin. (1) The partition registers (R194, R198, R203,
R206, R209): ENABLE puts a partition whose configuration is valid in service and names the register at fault in 0x0523 otherwise; it is
cleared only while the serving job is not placed; STOP and POOL_TAIL write their fields, and a boundary that holds is tried again. (2)
STEP_BOUNDARY (R201 to R205, R208): after the results, admissions and leaves, of which `w` is what they leave, a stop starts a step of no
slot; otherwise the active set is chosen, its gather list written and its step started, and with no eligible stream the boundary holds. -/
def Obligations.PartitionsAndBoundaries : Prop :=
  (
  ∀ (d : Die) (s : State),
    let p := partOf s d
    (p.enable = true → exec (.partitionEnable d true) s = .next s) ∧
    (p.enable = false → badField s d = none →
      exec (.partitionEnable d true) s = .next (updPart s d fun p => { p with enable := true })) ∧
    (∀ off, p.enable = false → badField s d = some off →
      ∃ t, exec (.partitionEnable d true) s = .next t ∧ Posted s t 0x0523 d [d, off] ∧ t.parts = s.parts ∧ t.mem = s.mem) ∧
    (servingPlaced s d = false → exec (.partitionEnable d false) s = .next (updPart s d fun p => { p with enable := false })) ∧
    (servingPlaced s d = true → exec (.partitionEnable d false) s = .next s) ∧
    (p.holding = false →
      (∀ v, exec (.stopOp d v) s = .next (updPart s d fun p => { p with stop := v })) ∧
      ∀ v, exec (.poolTail d v) s = .next (updPart s d fun p =>
        { p with poolTail := v, poolPosted := if v = p.poolTail then p.poolPosted else false }))) ∧
  (
  ∀ (d : Die) (s z y w : State) (k n : Nat) (j i : Job) (rs : List Nat) (b : Builder), z = { s with pending := [] } → jobOn z d = some k →
    servedBy z k = some n → jobOf z k = some j → (dieOf z d).boundary = true → (∀ e ∈ j.dies, paused z e = false) →
    (partOf z n).holding = false → takeResults n ((partOf z n).slots.getD []) z = (rs, y) →
    buildEach ((((partOf z n).slots.getD []).zip rs).zipIdx) (fun a b => applyResult n a.2 a.1.1 a.1.2 b) (none, y) = b →
    admitStreams n (applyLeaves n (readAdmissions n (partOf z n).joinLimit.toNat b)) = (none, w) →
    jobOf w k = some i → i.causes = [] → i.dies.Nodup →
    let p := partOf w n
    let started := fun (u t : State) (slots : List ServeSlot) =>
      partOf t n = { partOf u n with
        slots := some slots, stopReq := p.stop, steps := (partOf u n).steps + 1, holding := false, enable := (partOf t n).enable } ∧
      ∀ e ∈ i.dies, (dieOf t e).boundary = false ∧ (dieOf t e).seq.command = (dieOf u e).seq.command + 1
    (p.stop = true → ∃ t, exec (.stepBoundary d) s = .next t ∧ started w t []) ∧
    (p.stop = false → ∀ (q : Pick) u v, selectSet n false (none, w) = (q, (none, u)) → jobOf u k = some i →
      (q.slots ≠ [] ∨ q.full = true → buildEach q.slots (gatherSlot n) (none, u) = (none, v) → jobOf v k = some i →
        ∃ t, exec (.stepBoundary d) s = .next t ∧ started v t q.slots) ∧
      (q.slots = [] → q.full = false → ∃ t, exec (.stepBoundary d) s = .next t ∧ t.dies = u.dies ∧ t.mem = u.mem ∧
        partOf t n = { partOf u n with holding := true, kvWaits := p.kvWaits, ringWaits := p.ringWaits })))

/-! ## The translation agent (R215 to R228) -/

/-- The fault wait budget and page responses (R221 to R224, R228): a budget that runs out posts 0x0361 and kills the command; a response frees its
slot; Success lets a job that awaited only it return to the head of its ring, and a failing answer posts 0x0362 and kills the running command.
A response that names no slot in use has no effect but to leave the queue. -/
def Obligations.PageRequestsAreAnswered : Prop :=
  (∀ (d : Die) (i : BitVec 5) (s : State) (p : PageSlot) (b : BitVec 64) (k : Nat), SMap.find (dieOf s d).pageSlots i.toNat = some p →
    p.start = some b → p.job = some k → p.budget ≤ (s.time - b).toNat → Killable s d k →
    ∃ t, exec (.faultBudgetExpired d i) s = .next t ∧ Posted s t 0x0361 d [d, p.did, p.va.toNat] ∧ KillBegun s t k .budget ∧
      (dieOf t d).tr.budgetExpired = (dieOf s d).tr.budgetExpired + 1 ∧ t.mem = s.mem) ∧
  ∀ (did : Nat) (pid : BitVec 20) (prgi : BitVec 9) (resp : PrgrCode) (s : State), cqStopped s = false → s.iommu.fence = none →
    s.iommu.waiting = [] → (dieOf s (prgi.toNat / 32)).walkWait = [] →
    let d := prgi.toNat / 32
    let i := prgi.toNat % 32
    let found := (SMap.find (dieOf s d).pageSlots i).filter fun p => p.did == did && p.pid == pid
    (found = none → exec (.atsPrgr did pid prgi resp) s = .next (cqAdvance s)) ∧
    (∀ p, found = some p →
      (resp = .success → (∀ h ∈ (dieOf s d).held, h.1.toNat ≠ i) →
        ∃ t, exec (.atsPrgr did pid prgi resp) s = .next t ∧ SMap.find (dieOf t d).pageSlots i = none) ∧
      (∀ k q, resp ≠ .success → p.job = some q → Killable s d k →
        ∃ t, exec (.atsPrgr did pid prgi resp) s = .next t ∧ SMap.find (dieOf t d).pageSlots i = none ∧
          Posted s t 0x0362 d [did, if resp = .invalidRequest then 1 else 15] ∧ KillBegun s t k (.failing 0x0362) ∧ t.mem = s.mem) ∧
      (∀ k j, resp = .success → p.job = none → awaiter s d i = some (k, j) → jobOf s k = some j → j.stage = .waitingOs →
        j.awaiting = [(d, i)] →
        ∃ t a, exec (.atsPrgr did pid prgi resp) s = .next t ∧ jobOf t k = some a ∧ a.stage = .saved ∧ a.awaiting = [] ∧ a.causes = [] ∧
          (ctxOf t j.ctx.toNat).requeued = k :: (ctxOf s j.ctx.toNat).requeued ∧ t.mem = s.mem))

/-- IOTINVAL, IODIR, IOFENCE.C and ATS.INVAL (R225 to R227; scopes and registers as logs 20 and 95 take them): entries in scope leave every
die's IOTLB and walk cache and a command with staged writes in scope is pre-empted with 0x0363; cached contexts go; a fence holds the head
of the queue while a kill or a drain it found under way goes on, and later commands wait behind it; a fence that asks for a wired interrupt
and ATS.INVAL are illegal commands, which stop the queue at them. -/
def Obligations.AgentCommands : Prop :=
  (∀ (s : State), cqStopped s = false → s.iommu.fence = none → s.iommu.waiting = [] →
    let removes := fun (c : Instr) (leaf : StageKey → Bool) (step : WalkEntry → Bool) =>
      ∃ t, exec c s = .next t ∧ t.mem = s.mem ∧
        (∀ d : Die, (dieOf t d).iotlb = (dieOf s d).iotlb.filter (fun e => !leaf ⟨e.gscid, e.pscid, e.vpage, e.size, e.span⟩) ∧
          (dieOf t d).walkCache = (dieOf s d).walkCache.filter fun e => !step e) ∧
        ∀ (d : Die) k j, Killable s d k → (∀ e, jobOn s e = some k → e = d.val) → jobOf s k = some j → j.dies = [d.val] →
          (∃ e ∈ (dieOf s d).log, ∃ y, e.key = some y ∧ leaf y = true) →
          Posted s t 0x0363 d [d, ctxOn s d] ∧ ∃ i, jobOf t k = some i ∧ i.stage = .killing ∧ .preempt ∈ i.causes
    let illegal := fun (c : Instr) =>
      ∃ t, exec c s = .next t ∧ bits (iommuReg t 0x48 4) 10 1 = 1 ∧ iommuReg t 0x20 4 = iommuReg s 0x20 4 ∧ t.mem = s.mem ∧ t.dies = s.dies
    let tags := fun (a : InvalArgs) (g q : Nat) =>
      (if a.gv then g == a.gscid.toNat else g == 65536) && (!a.pscv || q == a.pscid.toNat)
    (∀ a : InvalArgs, removes (.iotinvalVma a)
      (fun y => tags a y.gscid y.pscid && (!a.av || a.addr.toNat / 2 ^ y.span == y.vpage * 2 ^ y.size / 2 ^ y.span))
      (fun y => !y.gStage && !a.av && tags a y.gscid y.pscid)) ∧
    (∀ gv (gscid : BitVec 16), removes (.iotinvalGvma gv gscid) (fun y => !gv || y.gscid == gscid.toNat)
      (fun y => !gv || y.gscid == gscid.toNat)) ∧
    (∀ dv did, exec (.iodirInvalDdt dv did) s = .next (cqAdvance { s with iommu := { s.iommu with
      ddtCache := if dv then SMap.del s.iommu.ddtCache did else [],
      pdtCache := if dv then s.iommu.pdtCache.filter (fun (p : Nat × List W64) => p.1 / 2 ^ 20 != did) else [] } })) ∧
    (∀ did (pid : BitVec 20), exec (.iodirInvalPdt did pid) s = .next (cqAdvance { s with iommu := { s.iommu with
      pdtCache := SMap.del s.iommu.pdtCache (did * 2 ^ 20 + pid.toNat) } })) ∧
    (∀ a : FenceArgs,
      (a.wsi = true → illegal (.iofenceC a)) ∧
      (a.wsi = false → killsNow s ≠ [] ∨ drainsNow s ≠ [] →
        exec (.iofenceC a) s = .next { s with iommu := { s.iommu with fence := some ⟨a, killsNow s, drainsNow s⟩ } }) ∧
      (a.wsi = false → killsNow s = [] → drainsNow s = [] → a.av = false → exec (.iofenceC a) s = .next (cqAdvance s)) ∧
      (a.wsi = false → killsNow s = [] → drainsNow s = [] → a.av = true →
        let w := a.addr.toNat / 4 * 4
        inUnified s w 4 = true → Settled s (granuleOf w) → (keyOf s (granuleOf w)).isSome →
        busyOf s (w / 64) = none → l3Line s 0 (w / 64) = none → l3Line s 1 (w / 64) = none →
        ∃ t, exec (.iofenceC a) s = .next t ∧ ByteMap.num t.mem w 4 = a.data.toNat ∧ t.iommu.fence = none ∧
          ∀ b, b / 64 ≠ w / 64 → ByteMap.byte t.mem b = ByteMap.byte s.mem b)) ∧
    illegal .atsInval) ∧
  ∀ (s : State) (f : HeldFence), cqStopped s = false → s.iommu.fence = some f →
    let waits := fun (c : Instr) (q : AgentCmd) =>
      exec c s = .next { s with iommu := { s.iommu with waiting := s.iommu.waiting ++ [q] } }
    (∀ did (pid : BitVec 20) (prgi : BitVec 9) resp, waits (.atsPrgr did pid prgi resp) (.prgr did pid.toNat prgi.toNat resp)) ∧
    (∀ a, waits (.iotinvalVma a) (.vma a)) ∧ (∀ gv (gscid : BitVec 16), waits (.iotinvalGvma gv gscid) (.gvma gv gscid.toNat)) ∧
    (∀ dv did, waits (.iodirInvalDdt dv did) (.invalDdt dv did)) ∧
    (∀ did (pid : BitVec 20), waits (.iodirInvalPdt did pid) (.invalPdt did pid.toNat)) ∧
    (∀ a, waits (.iofenceC a) (.fence a)) ∧ waits .atsInval .illegal

/-! ## Coherence (R237, R253 to R271) -/

/-- The eight requests at a home (R256 to R258, R261, R262, R271): reads forward to an owner or answer from memory; a unique request first invalidates
the other sharers; a write, an atomic or a reduction of a line no one holds acts on memory at once and is answered; a release
of a held copy updates the directory and holds the line until it is acknowledged; a request for a BUSY line waits, and one its sender may not make is domain-fatal. -/
def Obligations.HomesServeRequests : Prop :=
  ∀ (src line : Nat) (s : State), HomeOpen s line → (keyOf s (granuleOf (64 * line))).isSome →
    let h := homeOf s (64 * line)
    let e := dirOf s line
    let others := (sharersOf e).filter fun a => a != src && some a != ownerOf e
    let sends := fun (c : Instr) (m : List (MsgKind × Nat)) (busy : Bool) (P : State → Prop) =>
      ∃ t, exec c s = .next t ∧ t.dom.net = s.dom.net ++ m.map (fun k => ⟨k.1, h, k.2, line⟩) ∧ (busyOf t line).isSome = busy ∧ P t
    let same := fun (t : State) => t.mem = s.mem ∧ dirOf t line = e ∧ ∀ a l, heldAs t a l = heldAs s a l
    let unique := fun (c : Instr) =>
      (others ≠ [] → sends c (others.map (.invalidate, ·)) true same) ∧
      (others = [] → ∀ o, ownerOf e = some o → o ≠ src → sends c [(.fwdUnique src, o)] true same) ∧
      (others = [] → ownerOf e = none → sends c [(.data (memLine s line) .m, src)] true same)
    ∀ core : BitVec 7,
    (src ≤ 10 →
      (∀ o, ownerOf e = some o → o ≠ src → sends (.readShared ⟨src, core⟩ line) [(.fwdShared src, o)] true same) ∧
      (ownerOf e = none →
        sends (.readShared ⟨src, core⟩ line) [(.data (memLine s line) (if e.st == .i && isL3 src then .e else .s), src)] true same)) ∧
    (isL3 src = true → ownerOf e ≠ some src → unique (.readUnique ⟨src, core⟩ line)) ∧
    (isL3 src = true →
      ((ownerOf e = some src ∨ src ∈ sharersOf e) → (∀ a ∈ sharersOf e, a = src) → (∀ o, ownerOf e = some o → o = src) →
        sends (.cleanUnique ⟨src, core⟩ line) [(.writeAck, src)] true same) ∧
      (ownerOf e ≠ some src → src ∉ sharersOf e → unique (.cleanUnique ⟨src, core⟩ line))) ∧
    (∀ data mask, ((src < 8 ∧ mask = BitVec.allOnes 64) ∨ src = 10) →
      (e = {} → sends (.writeLine src line data mask) [(.writeAck, src)] false fun t =>
        memLine t line = mergeLine mask (fit 64 data) (memLine s line)) ∧
      (ownerOf e = none → others ≠ [] → src ∉ sharersOf e →
        sends (.writeLine src line data mask) (others.map (.invalidate, ·)) true same)) ∧
    (∀ data x, isL3 src = true → ownerOf e = some src → l3At s src line = some x → (x.st = .m ∨ x.st = .o) →
      sends (.writeBack src line data) [(.writeAck, src)] true fun t =>
        memLine t line = fit 64 data ∧ l3At t src line = none ∧ dirOf t line = withoutHolder src e) ∧
    (∀ x, isL3 src = true → src ∈ sharersOf e → l3At s src line = some x → x.st = .s →
      sends (.evictClean src line) [(.writeAck, src)] true fun t =>
        t.mem = s.mem ∧ l3At t src line = none ∧ dirOf t line = withoutHolder src e) ∧
    (∀ op, (isL3 src = true ∨ src = 10) → e = {} →
      sends (.atomicReq ⟨src, core⟩ line op) [(.atomicResult (amoLine op (memLine s line)).1, src)] false fun t =>
        memLine t line = fit 64 (amoLine op (memLine s line)).2) ∧
    (∀ op data, src < 8 → e = {} →
      sends (.reduce src line op data) [(.writeAck, src)] false fun t =>
        memLine t line = fit 64 (reduceData op.toNat (memLine s line) (fit 64 data))) ∧
    (10 < src → h < 10 → dairymanUp s = true → ∃ t, exec (.readShared ⟨src, core⟩ line) s = .next t ∧ DomainReset s t 0x0410 h (64 * line))

/-- Coherence messages: what holders answer, and how homes complete transactions. (1) A message that reaches a holder or a requester
(R237, R256, R257, R261): owners forward their copy and keep it or not as the forward says, invalidated and recalled copies go, granted
data is kept and acknowledged, and so is the answer to a release; an atomic's result on a poisoned line is the hardware error 19 to a core (R266); a line's INVALIDATE or RECALL enters an edge cache's queue. (2) What an answer makes of a BUSY line at its
home (R255, R257, R258): each awaited answer is struck off, the last lets the request proceed with the data that was recalled, or ends the
eviction of the line's directory entry, and COMP_ACK ends the transaction with the directory as the request leaves it. -/
def Obligations.CoherenceMessages : Prop :=
  (
  ∀ (site line : Nat) (s : State) (m : ShankMsg),
    let h := homeOf s (64 * line)
    let answers := fun (c : Instr) (k : MsgKind) (dst : Nat) (P : State → Prop) =>
      ∃ t, exec c s = .next t ∧ t.dom.net = s.dom.net.erase m ++ [⟨k, site, dst, line⟩] ∧ t.mem = s.mem ∧ dirOf t line = dirOf s line ∧
        busyOf t line = busyOf s line ∧ P t
    (∀ req x, Arrives s site line (fun m => m.dst == site && isFwdShared m.kind) m → m.kind = .fwdShared req → l3At s site line = some x →
      answers (.fwdShared site line) (.data x.data .s) req fun t =>
        l3At t site line = some { x with st := if x.st = .m then .o else if x.st = .e then .s else x.st }) ∧
    (∀ req x, Arrives s site line (fun m => m.dst == site && isFwdUnique m.kind) m → m.kind = .fwdUnique req → l3At s site line = some x →
      answers (.fwdUnique site line) (.data x.data .m) req fun t => l3At t site line = none) ∧
    (Arrives s site line (fun m => m.dst == site && m.kind == .invalidate) m → invalidateFull s site line = false →
      answers (.invalidate site line) .invAck h fun t =>
        (site < 8 → dieOf t site = queueInval line s.time (dieOf s site)) ∧ (8 ≤ site → l3At t site line = none ∧ t.dies = s.dies)) ∧
    (Arrives s site line (fun m => m.dst == site && m.kind == .recall) m → invalidateFull s site line = false →
      (∀ x, l3At s site line = some x → (x.st = .m ∨ x.st = .o) →
        answers (.recall site line) (.recallData x.data) h fun t => l3At t site line = none) ∧
      (∀ x, l3At s site line = some x → (x.st = .e ∨ x.st = .s) → answers (.recall site line) .invAck h fun t => l3At t site line = none) ∧
      (l3At s site line = none → answers (.recall site line) .invAck h fun t =>
        t.dom.l3 = s.dom.l3 ∧ (site < 8 → dieOf t site = queueInval line s.time (dieOf s site)))) ∧
    (∀ data st, Arrives s site line (fun m => m.dst == site && isData m.kind) m → m.kind = .data data st →
      ∃ t, exec (.dataMsg site line) s = .next t ∧ t.dom.net = s.dom.net.erase m ++ [⟨.compAck, site, h, line⟩] ∧
        dirOf t line = dirOf s line ∧ busyOf t line = busyOf s line ∧ (l3HasRoom s site line (SMap.get {} s.dom.asked (l3Key site line)) = true → t.mem = s.mem) ∧
        (isL3 site = true → heldAs t site line = some (st, data)) ∧
        (site < 8 → SMap.find (dieOf t site).edge line = some ⟨dieCtx s site, data⟩) ∧ (10 ≤ site → t.resp = .bytes data)) ∧
    (Arrives s site line (fun m => m.dst == site && m.kind == .writeAck) m →
      (∀ b x, busyOf s line = some b → b.src = site → b.req = .cleanUnique → b.granted = true → l3At s site line = some x →
        answers (.writeAck site line) .compAck h fun t => l3At t site line = some { x with st := .m }) ∧
      (∀ b d, busyOf s line = some b → b.src = site → (b.req = .writeBack d ∨ b.req = .evictClean) → b.granted = true →
        answers (.writeAck site line) .compAck h fun t => t.dom.l3 = s.dom.l3) ∧
      ((∀ b, busyOf s line = some b → b.src ≠ site) →
        ∃ t, exec (.writeAck site line) s = .next t ∧ t.dom.net = s.dom.net.erase m ∧ t.mem = s.mem ∧ t.dom.l3 = s.dom.l3)) ∧
    (∀ old, Arrives s site line (fun m => m.dst == site && isResult m.kind) m → m.kind = .atomicResult old →
      ∃ t, exec (.atomicResult site line) s = .next t ∧
        t.resp = (if isL3 site = true ∧ poisoned s line = true then .trap 19 else .value old) ∧ t.dom.net = s.dom.net.erase m ∧ t.mem = s.mem)) ∧
  (
  ∀ (site line : Nat) (s : State) (m : ShankMsg) (b : Busy), busyOf s line = some b → SMap.get [] s.dom.queue line = [] →
    let h := homeOf s (64 * line)
    let net := s.dom.net.erase m
    let rest := b.awaiting.filter (· != site)
    (Arrives s h line (fun m => m.src == site && m.kind == .invAck) m →
      (rest ≠ [] → ∃ t, exec (.invAck site line) s = .next t ∧ busyOf t line = some { b with awaiting := rest } ∧ t.dom.net = net ∧
        t.mem = s.mem) ∧
      (rest = [] → b.granted = false → b.req = .cleanUnique →
        ∃ t, exec (.invAck site line) s = .next t ∧ t.dom.net = net ++ [⟨.writeAck, h, b.src, line⟩] ∧ t.mem = s.mem ∧
          busyOf t line = some { b with awaiting := [], granted := true, start := some s.time }) ∧
      (rest = [] → b.granted = false → b.req = .evictClean → b.recalled = none →
        ∃ t, exec (.invAck site line) s = .next t ∧ t.dom.net = net ∧ t.mem = s.mem ∧ busyOf t line = none ∧ dirOf t line = {})) ∧
    (∀ d, Arrives s h line (fun m => m.src == site && isRecallData m.kind) m → m.kind = .recallData d → rest = [] →
      b.granted = false → b.req = .evictClean → (keyOf s (granuleOf (64 * line))).isSome →
      ∃ t, exec (.recallData site line) s = .next t ∧ t.dom.net = net ∧ busyOf t line = none ∧ dirOf t line = {} ∧
        memLine t line = fit 64 d) ∧
    (∀ d data mask, Arrives s h line (fun m => m.src == site && isRecallData m.kind) m → m.kind = .recallData d → rest = [] →
      b.granted = false → b.req = .writeLine data mask → (keyOf s (granuleOf (64 * line))).isSome →
      ∃ t, exec (.recallData site line) s = .next t ∧ t.dom.net = net ++ [⟨.writeAck, h, b.src, line⟩] ∧ busyOf t line = none ∧
        dirOf t line = {} ∧ memLine t line = mergeLine mask data (fit 64 d)) ∧
    (Arrives s h line (fun m => m.src == site && m.kind == .compAck) m →
      ∃ t, exec (.compAck site line) s = .next t ∧ t.dom.net = net ∧ busyOf t line = none ∧ dirOf t line = finalDir s line b ∧ t.mem = s.mem))

/-- Coherence happenings of the sites alone (R22, R237, R255, R259, R264, R267, R269): an edge cache applies its oldest invalidation or evicts a line; a home
that evicts a directory entry counts it and recalls the line from its holders (when its store is full is not given: log 97); a line BUSY for 2 ms and the ninth CRC failure in a row on a site's link are domain-fatal, an earlier one only counts.
The site that 0x0414 and 0x0413 name is the model's reading (log 21). -/
def Obligations.CoherenceFaultsAndEdgeCaches : Prop :=
  (∀ (d : Die) (s : State) l u rest, (dieOf s d).invQueue = (l, u) :: rest →
    exec (.invalidationApply d) s = .next (updDie s d fun x => { x with edge := SMap.del x.edge l, invQueue := rest })) ∧
  (∀ (d : Die) (line : Nat) (s : State),
    exec (.edgeCacheEvict d line) s = .next (updDie s d fun x => { x with edge := SMap.del x.edge line })) ∧
  (∀ (site line : Nat) (s : State), HomeOpen s line → (8 ≤ site → engineHeld s site = false) → invalidateFull s site line = false →
    (∀ m ∈ s.dom.net, m.line ≠ line ∧ m.dst ≠ site) → site ∈ holdersOf (dirOf s line) →
    let h := homeOf s (64 * line)
    ∃ t, exec (.recall site line) s = .next t ∧ t.mem = s.mem ∧ dirOf t line = dirOf s line ∧ l3At t site line = none ∧
      busyOf t line = some ⟨h, .evictClean, holdersOf (dirOf s line), none, false, some s.time⟩ ∧
      (SMap.get {} t.dom.homes h).recalls = bump (SMap.get {} s.dom.homes h).recalls) ∧
  (∀ (line : Nat) (s : State) b u, busyOf s line = some b → b.start = some u → domainUp s = true →
    let h := homeOf s (64 * line)
    ((s.time - u).toNat < 200000 → exec (.homeTimeout line) s = .next s) ∧
    (200000 ≤ (s.time - u).toNat → h < 10 → dairymanUp s = true →
      ∃ t, exec (.homeTimeout line) s = .next t ∧ DomainReset s t 0x0411 h (64 * line))) ∧
  (∀ (site : Nat) (s : State), domainUp s = true →
    let n := SMap.get 0 s.dom.shankFails site
    (siteUp s site = false → exec (.shankCrcFail site) s = .next s) ∧
    (site ≤ 10 → siteUp s site = true → n < 8 →
      exec (.shankCrcFail site) s = .next { s with dom := { s.dom with shankFails := SMap.put s.dom.shankFails site (n + 1) } }) ∧
    (site < 10 → siteUp s site = true → 8 ≤ n → dairymanUp s = true → ∃ t, exec (.shankCrcFail site) s = .next t ∧ DomainReset s t 0x0413 siteW site))
/-! ## The processor cluster and the power manager (R272 to R291, R352 to R371) -/

/-- Harts, CBQRI requests and firmware calls (R273, R277, R279, R287, R290, R291, R292, R367): a reached compare makes its timer interrupt pending and
wakes a suspended hart, unless a power pause holds it; a change of VMID flushes the guest partitions; an allocation request is checked and answered (status codes: log 68); the calls answer their error and value,
and of the standard extensions a probe names those provided, set_timer writes the compare, harts start and stop, and there is no warm reboot (function numbers
and error codes of the family's SBI: log 136). -/
def Obligations.HartsAndFirmwareCalls : Prop :=
  ∀ (s : State),
    let answers := fun (c : Instr) (error : Int) (value : W64) => exec c s = .next { s with resp := .sbi error value }
    (∀ (h : HartId), hartPresent s h.toNat = true →
      let woken := fun (x : Hart) =>
        { x with state := if x.state = HartState.suspended ∧ paused s (8 + h.toNat / 72) = false then HartState.started else x.state }
      let x := hartOf s h.toNat
      (x.mtimecmp.toNat ≤ s.time.toNat →
        exec (.timerCompare h .machine) s = .next (updHart s h.toNat fun x => { woken x with mtip := true })) ∧
      (x.stimecmp.toNat ≤ s.time.toNat →
        exec (.timerCompare h .supervisor) s = .next (updHart s h.toNat fun x => { woken x with stip := true })) ∧
      (x.vstimecmp.toNat ≤ s.time.toNat →
        exec (.timerCompare h .virtual) s = .next (updHart s h.toNat fun x => { woken x with vstip := true })) ∧
      (∀ vmid, exec (.hgatpVmidWrite h vmid) s = .next (updHart s h.toNat fun x =>
        { x with vmid := vmid, predictors := if vmid = x.vmid then x.predictors else x.predictors.filter fun p => p.1 != .vs && p.1 != .vu })) ∧
      (x.state = .started → exec (.hartSuspend h true) s =
        .next { updHart s h.toNat (fun x => { x with state := .suspended }) with resp := .sbi 0 0 })) ∧
    (∀ h : HartId, answers (.hartSuspend h false) (-2) 0) ∧
    (∀ h : BitVec 64,
      (hartPresent s h.toNat = true → answers (.hartGetStatus (.status h)) 0
        (match (hartOf s h.toNat).state with | .started => 0 | .stopped => 1 | .suspended => 4)) ∧
      (hartPresent s h.toNat = false → answers (.hartGetStatus (.status h)) (-3) 0)) ∧
    (∀ a : SbiArgs, hartPresent s a.caller.toNat = true → (hartOf s a.caller.toNat).state = .started →
      let call := Instr.hartGetStatus (.call a)
      let provided := [0x10, 0x54494D45, 0x735049, 0x52464E43, 0x48534D, 0x53525354, 0x504D55, 0x4442434E, 0x09514B00]
      let e := a.eid.toNat
      let new := a.a0.toNat
      (e ∉ provided → answers call (-2) 0) ∧
      (e = 0x10 → a.fid = 0 → answers call 0 0x02000000) ∧
      (e = 0x10 → a.fid = 3 → answers call 0 (if new ∈ provided then 1 else 0)) ∧
      (e = 0x54494D45 → a.fid = 0 → ∃ t, exec call s = .next t ∧ t.resp = .sbi 0 0 ∧ t.mem = s.mem ∧
        (hartOf t a.caller.toNat).stimecmp = a.a0 ∧ ((hartOf t a.caller.toNat).stip = true ↔ new ≤ s.time.toNat)) ∧
      (e = 0x48534D → a.fid = 0 → hartPresent s new = true → inUnified s a.a1.toNat 1 = true → (hartOf s new).state = .stopped →
        ∃ t, exec call s = .next t ∧ t.resp = .sbi 0 0 ∧ t.mem = s.mem ∧ (hartOf t new).state = .started) ∧
      (e = 0x48534D → a.fid = 1 → exec call s = .next (updHart s a.caller.toNat fun x => { x with state := .stopped })) ∧
      (e = 0x53525354 → a.fid = 0 → a.a0 = 2 → answers call (-2) 0)) ∧
    (∀ a : CbqriArgs,
      let x := cbqriOf s a.ctrl a.rcid.toNat
      let w := if a.ctrl < 2 then 18 else 16
      let status := fun (n : Nat) (u : State) => exec (.cbqriAllocRequest a) s = .next { u with resp := .status n }
      (a.ctrl < 12 →
        (a.code = true → 2 ≤ a.ctrl → status 4 s) ∧
        ((a.code = false ∨ a.ctrl < 2) → (a.blocks = 0 ∨ 2 ^ w ≤ a.blocks.toNat) → status 5 s) ∧
        ((a.code = false ∨ a.ctrl < 2) → a.blocks ≠ 0 → a.blocks.toNat < 2 ^ w →
          let ways := if a.blocks.toNat = 2 ^ w - 1 then none else some a.blocks
          status 1 (setCbqri a.ctrl a.rcid.toNat (if a.code then { x with codeWays := ways } else { x with ways }) s))) ∧
      (12 ≤ a.ctrl → a.ctrl < 44 →
        (a.code = true → status 4 s) ∧
        (a.code = false → 819 < otherBlocks s a.ctrl a.rcid.toNat + a.blocks.toNat → status 5 s) ∧
        (a.code = false → otherBlocks s a.ctrl a.rcid.toNat + a.blocks.toNat ≤ 819 →
          status 1 (setCbqri a.ctrl a.rcid.toNat { x with reserved := a.blocks.toNat, weight := a.weight } s)))) ∧
    answers .qkPlatformInfo 0 (BitVec.ofNat 64
      ((match s.variant with | .whole => 1 | .half => 2 | .skim => 3) + 256 * s.map.effBl.toNat + 65536 * hartsInService s)) ∧
    (dairymanUp s = true → answers .qkCalendarRead 0 s.cal.time) ∧ (dairymanUp s = false → answers .qkCalendarRead (-1) 0) ∧
    (∀ (h : HartId) (level horizon : BitVec 64),
      (3 < level.toNat → answers (.qkCorePhase h level horizon) (-3) 0) ∧
      (level.toNat ≤ 3 →
        ∃ t, exec (.qkCorePhase h level horizon) s = .next t ∧ t.resp = .sbi 0 0 ∧ t.mem = s.mem ∧ t.cluster = s.cluster ∧
          (railOf t (8 + h.toNat / 72)).level = BitVec.ofNat 2 level.toNat ∧
          (railOf t (8 + h.toNat / 72)).horizonEnd = some (s.time + horizon)))

/-- Power and thermal control: estimates, pauses, trips, and rails lowered for temperature. (1) Estimates, pauses and trips (R352, R356 to
R362): once for each 2 us interval that has ended, its estimate and meter are noted and the first cap exceeded is posted; once a second
the trim is the clamped ratio of meter and estimate (log 137); a droop pauses a rail and its end is posted; a tripped stack is lost with its rail, a tripped logic or memory rail is a domain
fault; an input out of range is posted once. The rail numbers in events are the model's (log 74). (2) Thermal control and hint levels
(R118, R365, R367): a sensor at the limit posts 0x0201 and lowers the rail that heats its site by 10 mV, at least to 450 mV; each later
step, 1 ms after the last, lowers it again until the hottest sensor is 2 degrees below the limit. -/
def Obligations.PowerAndThermalControl : Prop :=
  (
  ∀ (s : State),
    (∀ m : PowerMeter,
      let u := noteMeter m s
      let live := if u.power.fallback then (caps u).take 1 else caps u
      let excess := live.filter fun c => c.2 < capLoad u (measMv u) c.1
      let ended := s.power.intervals < s.time.toNat / 200
      (¬ (s.power.off = false ∧ ended) → exec (.estimatorInterval m) s = .next s) ∧
      (s.power.off = false → ended →
        ∃ t, exec (.estimatorInterval m) s = .next t ∧ t.mem = s.mem ∧ t.power.meter = BitVec.ofNat 32 m.meterMw ∧
          t.power.intervals = s.time.toNat / 200 ∧ t.power.vin = BitVec.ofNat 16 m.vinMv ∧ t.power.est = BitVec.ofNat 32 (pkgMw u (measMv u)) ∧
          t.power.totalNj = s.power.totalNj + 2 * pkgMw u (measMv u) ∧
          ∀ c rest, excess = c :: rest → t.power.capped = true ∧ t.power.lastExcess = some s.time ∧
            (s.power.capped = false →
              Posted s t 0x0104 (match c.1 with | some d => d | none => noSite) [c.2, capLoad u (measMv u) c.1]))) ∧
    (∀ mj : Nat,
      let ratio := mj * 1000000 * 10000 / s.power.secondNj
      let n := s.time.toNat / 100000000
      (n ≤ s.power.seconds → exec (.trimUpdate mj) s = .next s) ∧
      (s.power.seconds < n → (s.power.secondNj = 0 ∨ dairymanUp s = false) →
        exec (.trimUpdate mj) s = .next { s with power := { s.power with secondNj := 0, seconds := n } }) ∧
      (s.power.seconds < n → s.power.secondNj ≠ 0 → dairymanUp s = true →
        ∃ t, exec (.trimUpdate mj) s = .next t ∧ t.power.secondNj = 0 ∧ t.power.trim = max 9000 (min 11000 ratio) ∧ t.mem = s.mem)) ∧
    (∀ i : Nat, (railOf s i).slewing = true → exec (.slewComplete i) s = .next (updRail s i fun r => { r with slewing := false })) ∧
    (∀ r : RailId, railOn s r = true →
      (paused s (railKey r) = false → exec (.droopPause r) s =
        .next (updLine (railKey r) (fun l => { l with pausedAt := some s.time })
          { s with power := { s.power with droopPauses := s.power.droopPauses + 1 } })) ∧
      (∀ u, (lineOf s (railKey r)).pausedAt = some u →
        ∃ t, exec (.droopPauseEnd r) s = .next t ∧ (lineOf t (railKey r)).pausedAt = none ∧ t.mem = s.mem ∧
          (((railOf s (railSite r)).lastDroop.all fun v => 100000000 ≤ (s.time - v).toNat) = true →
            Posted s t 0x0105 (railSite r) [railSite r, railNum r, (s.time - u).toNat])) ∧
      (∀ k, r = .stack k → ∃ t, exec (.railOvercurrentTrip r) s = .next t ∧ Posted s t 0x0109 (16 + k) [k] ∧ t.mem = s.mem ∧
        (railOf t (16 + k)).state = .tripped ∧ (unitOf t k).tripped = true ∧ (siteOf t (16 + k)).state = 2 ∧ (siteOf t (16 + k)).reason = 8) ∧
      (∀ i, (r = .logic i ∨ r = .memory i) → dairymanUp s = true →
        ∃ t, exec (.railOvercurrentTrip r) s = .next t ∧ DomainReset s t 0x0413 siteW i ∧ (railOf t i).state = .tripped) ∧
      (∀ i u, r = .memory i → dairymanUp s = true → (lineOf s (railKey r)).pausedAt = some u → 10000 ≤ (s.time - u).toNat →
        ∃ t, exec (.memoryDroopTrip r) s = .next t ∧ DomainReset s t 0x0413 siteW i ∧ (railOf t i).state = .tripped)) ∧
    (∀ mv : Nat, 38000 ≤ mv →
      let out := decide (mv < 40000 ∨ 60000 < mv)
      ∃ t, exec (.inputRange mv) s = .next t ∧ t.power = { s.power with vin := BitVec.ofNat 16 mv, excursion := out } ∧ t.mem = s.mem ∧
        (out = true → s.power.excursion = false → Posted s t 0x0106 noSite [mv]))) ∧
  (
  ∀ (i : Nat) (l : List Nat) (s : State),
    let d := if 16 ≤ i then (i - 16) / 2 else i
    let h := hottest l
    let lower := fun (t : State) => d < 10 → (railOf s d).state = .on → (railOf s d).setpoint.toNat ≠ 450 →
      (railOf t d).setpoint = BitVec.ofNat 12 (max 450 ((railOf s d).setpoint.toNat - 10)) ∧ (railOf t d).slewing = true
    ((railOf s i).hot = false → thermalLimit s ≤ h.2 →
      ∃ t, exec (.tjLimit i l) s = .next t ∧ (railOf t i).hot = true ∧ (railOf t i).tjMax = BitVec.ofNat 8 h.2 ∧ lower t ∧
        Posted s t 0x0201 i [i, h.1, h.2] ∧ t.mem = s.mem) ∧
    ((railOf s i).hot = true → h.2 + 2 ≤ thermalLimit s →
      ∃ t, exec (.thermalStep i l) s = .next t ∧ (railOf t i).hot = false ∧ (railOf t i).setpoint = (railOf s i).setpoint ∧ t.mem = s.mem) ∧
    ((railOf s i).hot = true → thermalLimit s < h.2 + 2 →
      ∃ t, exec (.thermalStep i l) s = .next t ∧ (railOf t i).hot = true ∧ t.mem = s.mem ∧
        let due := (railOf s i).lastCool.all fun u => decide (100000 ≤ (s.time - u).toNat)
        (due = true → lower t ∧ (railOf t i).lastCool = some s.time) ∧
        (due = false → (railOf t i).setpoint = (railOf s i).setpoint ∧ (railOf t i).lastCool = (railOf s i).lastCool)))

/-! ## Memory units, the event log, the ledger and the calendar clock (R265, R327 to R331, R426, R430, R431) -/

/-- Memory units, the event log, the energy ledger and the calendar clock. (1) PATROL_SCRUB, QK_PAGE_RETIRE and RETIREMENT_MOVE_DONE
(R265, R291, R327 to R331): a scrub reads the unit's next line and counts what it found, poisoning an uncorrectable line with 0x0401; a
retired granule's storage leaves the pool, its data moves within the tier or waits for room there, and once it has moved the list record is
written, with 0x0304 and the call's answer. (2) The log, the ledger and the
clock (R282, R404, R424, R426, R430 to R432): a due batch of at most 63 records is appended while the store accepts it; a device that fails to program
leaves the store with 0x0B02, and with the second one the log stays as it is; each whole second a ledger record; at midnight VBAT is read, and a low one posted; a PTP offset above 1 ms steps the clock with 0x0A11, a smaller one is slewed. -/
def Obligations.MemoryUnitsLogLedgerAndClock : Prop :=
  (
  ∀ (s : State),
    (∀ (u : Nat) (r : ScrubResult), unitCap s u ≠ 0 →
      let l := scrubLineOf s u
      let known := (granuleAt s u (l / 1024)).any fun g => s.dom.poison.contains (granuleAddr g / 64 + l % 1024)
      l < unitCap s u * 1024 →
      ∃ t, exec (.patrolScrub u r) s = .next t ∧ t.mem = s.mem ∧ (unitOf t u).xfer3 = (unitOf s u).xfer3 + 1 ∧
        ((unitOf t u).scrubLine = l + 1 ∨
          ((unitOf t u).scrubLine = 0 ∧ (unitOf t u).scrubPasses = (unitOf s u).scrubPasses + 1)) ∧
        (unitOf t u).corrected = (unitOf s u).corrected + (if r = .corrected then 1 else 0) ∧
        (unitOf t u).uncorrected = (unitOf s u).uncorrected + (if r = .uncorrectable ∧ known = false then 1 else 0) ∧
        (r ≠ .uncorrectable → t.dom.poison = s.dom.poison) ∧
        ∀ g, r = .uncorrectable → known = false → granuleAt s u (l / 1024) = some g →
          let line := granuleAddr g / 64 + l % 1024
          let h := homeOf s (granuleAddr g)
          Posted s t 0x0401 h [h, granuleAddr g] ∧ (ownedDirty s line = false → line ∈ t.dom.poison)) ∧
    (∀ (addr cause : BitVec 64),
      let g := granuleOf addr.toNat
      let inside := inUnified s (addr.toNat / 65536 * 65536) 65536
      (inside = false → exec (.qkPageRetire addr cause) s = .next { s with resp := .sbi (-5) 0 }) ∧
      (inside = true → (cause.toNat < 1 ∨ 3 < cause.toNat) → exec (.qkPageRetire addr cause) s = .next { s with resp := .sbi (-3) 0 }) ∧
      (∀ hbm loc u i, inside = true → 1 ≤ cause.toNat → cause.toNat ≤ 3 → retireBegun s g = false → storageOf s g = some (hbm, loc) →
        unitAt hbm loc = (u, i) →
        (∀ target, pickFree (withdraw u i s) hbm none = some target →
          ∃ t, exec (.qkPageRetire addr cause) s = .next t ∧ t.resp = .none ∧ (u, i) ∈ t.sep.withdrawn ∧
            granOf t g = { granOf s g with state := .moving } ∧
            SMap.find t.moves g = some ⟨.retire cause.toNat, hbm, BitVec.ofNat 32 loc, hbm, BitVec.ofNat 32 target, s.time, []⟩) ∧
        (pickFree (withdraw u i s) hbm none = none →
          ∃ t, exec (.qkPageRetire addr cause) s = .next t ∧ t.resp = .none ∧ (u, i) ∈ t.sep.withdrawn ∧ granOf t g = granOf s g ∧
            t.sep.retiring = s.sep.retiring ++ [(g, cause.toNat)] ∧ t.mem = s.mem))) ∧
    (∀ (g : Nat) (m : Move) (cause : Nat), SMap.find s.moves g = some m → m.kind = .retire cause → (s.time - m.start).toNat ≤ 100000 → s.sep.prog = 0 →
      s.sep.owed = [] → dairymanUp s = true →
      let (u, i) := unitAt m.fromHbm m.source.toNat
      listFull s u = false →
      ∃ t, exec (.migrationCopyDone g) s = .next t ∧ t.resp = .sbi 0 0 ∧ (granOf t g).location = m.target ∧
        SMap.get [] t.nv.lists u = SMap.get [] s.nv.lists u ++ [retireEntry s i cause] ∧ Posted s t 0x0304 (16 + u) [u, i, cause]) ∧
    (∀ (u i g cause : Nat) (hbm : Bool) (loc target : Nat),
      waitingRetire s u i = some (g, cause) → s.sep.prog = 0 → s.sep.owed = [] →
      storageOf s g = some (hbm, loc) → pickFree (withdraw u i s) hbm none = some target → dairymanUp s = true → listFull s u = false →
      ∃ t, exec (.retirementMoveDone u i) s = .next t ∧ (u, i) ∈ t.sep.withdrawn ∧ (∀ r ∈ t.sep.retiring, r.1 ≠ g) ∧
        granOf t g = { granOf s g with location := BitVec.ofNat 32 target } ∧ Posted s t 0x0304 (16 + u) [u, i, cause])) ∧
  (
  ∀ (s : State),
    (batchDue s = false ∨ storeUp s = false ∨ dairymanUp s = false → exec .eventBatchDue s = .next s) ∧
    (let recs := s.ev.pendingRecs.take 63
     let size := recordBytes (64 * recs.length)
     batchDue s = true → recs ≠ [] → storeUp s = true → dairymanUp s = true → s.su.board.progFail = [] →
      s.nv.logEnd + size ≤ s.nv.logStart + 96 * 2 ^ 20 →
      ∃ t, exec .eventBatchDue s = .next t ∧ t.nv = { s.nv with
          log := s.nv.log ++ recs, logBatches := s.nv.logBatches ++ [(s.nv.logEnd, recs.length)], logEnd := s.nv.logEnd + size,
          seq := s.nv.seq + 1 } ∧ t.ev.pendingRecs = s.ev.pendingRecs.drop 63 ∧ t.mem = s.mem) ∧
    (dairymanUp s = true → storeUp s = true → s.time.toNat % 100000000 = 0 → (∀ r, s.nv.ledger.getLast? = some r → r.2.1 ≠ s.time) →
      s.nv.ledger.length < ledgerMax → s.su.board.progFail = [] →
      exec .ledgerRecordDue s = .next { s with nv := { s.nv with
        ledger := s.nv.ledger ++ [(BitVec.ofNat 64 (s.power.totalNj / 1000000), s.time, s.power.fallback)],
        ledgerTime := s.cal.time, seq := s.nv.seq + 1 } }) ∧
    (batchDue s = true → storeUp s = true → dairymanUp s = true →
      (s.nv.device0Bad = false → s.su.board.progFail = [0] → ∃ t, exec .eventBatchDue s = .next t ∧ t.nv.device0Bad = true ∧ t.nv.device1Bad = s.nv.device1Bad ∧
        Posted s t 0x0B02 noSite [0] ∧ t.mem = s.mem ∧ (s.nv.device1Bad = true → t.nv.log = s.nv.log)) ∧
      (s.nv.device1Bad = false → s.su.board.progFail = [1] → ∃ t, exec .eventBatchDue s = .next t ∧ t.nv.device1Bad = true ∧ t.nv.device0Bad = s.nv.device0Bad ∧
        Posted s t 0x0B02 noSite [1] ∧ t.mem = s.mem ∧ (s.nv.device0Bad = true → t.nv.log = s.nv.log))) ∧
    (∀ mv : Nat, dairymanUp s = true → s.cal.time.toNat / 2 ^ 24 % 86400 = 0 →
      ∃ t, exec (.calendarMidnight mv) s = .next t ∧ t.cal = { s.cal with vbat := BitVec.ofNat 16 mv } ∧ t.mem = s.mem ∧
        (mv % 65536 < 2700 → Posted s t 0x0A12 noSite [mv % 65536])) ∧
    (∀ offset : Int, dairymanUp s = true → objNat s 0x7000 2 0 = 1 →
      (offset.natAbs ≤ 16777 → exec (.ptpSync offset) s = .next { s with cal := { s.cal with slewing := offset } }) ∧
      (16777 < offset.natAbs →
        let stepped := BitVec.ofInt 64 (s.cal.time.toNat + offset)
        ∃ t, exec (.ptpSync offset) s = .next t ∧ t.cal = { s.cal with time := stepped, invalid := false, slewing := 0 } ∧
          Posted s t 0x0A11 noSite [s.cal.time.toNat, stepped.toNat] ∧ t.mem = s.mem)))

/-! ## Eyelets, laces and membership (R17 to R19, R294 to R314, R385) -/

/-- Lanes, flits and inlets (R17 to R19, R294 to R297, R316): a lost lane is posted and the spare takes its place, or the direction narrows, below 4
lanes the eyelet is DOWN; a rejoined lane leaves the lost ones, and with W0 to W7 in lock the spare is idle; a good flit is delivered and
an ill one discarded with a NAK; a NAK resends from its ACK; a half whose inlets are both dark has no eyelet UP. -/
def Obligations.EyeletsLanesFlitsAndInlets : Prop :=
  ∀ (s : State),
    (∀ (e : EyeId) (tx : Bool) (w : Nat), (eyeOf s e.toNat).state ≠ .absent → w < 9 →
      let x := eyeOf s e.toNat
      let y := dirOfEye x tx
      let dir := if tx then 0 else 1
      let bit := BitVec.ofNat 9 (2 ^ w)
      (y.lost.getLsbD w = false →
        ∃ t, exec (.laneLost e tx w) s = .next t ∧ t.mem = s.mem ∧ Posted s t 0x0701 (48 + e.toNat) [e.toNat, dir, w] ∧
          (dirOfEye (eyeOf t e.toNat) tx).lost = y.lost ||| bit ∧
          (w < 8 → y.spareUsed = false → y.substituting = false → y.lost.getLsbD 8 = false →
            dirOfEye (eyeOf t e.toNat) tx = { y with lost := y.lost ||| bit, active := y.active - 1, substituting := true } ∧
            (eyeOf t e.toNat).state = x.state) ∧
          (x.state = .up → y.spareUsed = true → y.substituting = false → (y.active - 1).toNat < 4 →
            (eyeOf t e.toNat).state = .down ∧ Posted s t 0x0704 (48 + e.toNat) [e.toNat])) ∧
      (y.lost.getLsbD w = true →
        ∃ t, exec (.laneRejoined e tx w) s = .next t ∧ t.mem = s.mem ∧ (dirOfEye (eyeOf t e.toNat) tx).lost = y.lost &&& ~~~bit ∧
          ((y.lost &&& ~~~bit).toNat % 256 = 0 →
            dirOfEye (eyeOf t e.toNat) tx = ⟨8, y.lost &&& ~~~bit, false, false⟩) ∧
          (x.state = .up → y.lost = bit → (dirOfEye x !tx).lost = 0 → Posted s t 0x0705 (48 + e.toNat) [e.toNat]))) ∧
    (∀ (e : EyeId) (tx : Bool),
      let y := dirOfEye (eyeOf s e.toNat) tx
      y.substituting = true →
        ∃ t, exec (.spareSubstitutionComplete e tx) s = .next t ∧ Posted s t 0x0702 (48 + e.toNat) [e.toNat, if tx then 0 else 1] ∧
          dirOfEye (eyeOf t e.toNat) tx = { y with substituting := false, spareUsed := true, active := y.active + 1 } ∧ t.mem = s.mem) ∧
    (∀ (e : EyeId) (f : List Byte), (eyeOf s e.toNat).state = .up →
      let x := eyeOf s e.toNat
      let good := f.length = 256 ∧ (crc32c (f.take 252)).toNat = fieldAt f 252 4
      (¬good → exec (.flitReceived e f) s = .next (updEye s e.toNat fun x =>
        { x with sent := x.sent ++ [flitOf x.txSeq.toNat (x.rxSeq - 1).toNat 1 true []] })) ∧
      (good → bits (fieldAt f 2 2) 13 3 = 0 → bits (fieldAt f 0 2) 0 12 = x.rxSeq.toNat →
        ∃ t, exec (.flitReceived e f) s = .next t ∧ (eyeOf t e.toNat).rxSeq = x.rxSeq + 1 ∧ t.mem = s.mem ∧
          (eyeOf t e.toNat).stream = x.stream ++ (f.drop 4).take 248)) ∧
    (∀ (e : EyeId) (ack : BitVec 12), (eyeOf s e.toNat).state = .up → (eyeOf s e.toNat).txq = [] →
      let n := (ack - (eyeOf s e.toNat).acked).toNat
      n ≤ (eyeOf s e.toNat).replay.length →
        exec (.flitNak e ack) s = .next (updEye s e.toNat fun x =>
          { x with replay := x.replay.drop n, acked := ack, sent := x.sent ++ x.replay.drop n,
                   replays := x.replays + BitVec.ofNat 64 (x.replay.drop n).length })) ∧
    (∀ i : BitVec 2,
      let h := i.toNat / 2
      let other := 80 + (2 * h + 1 - i.toNat % 2)
      (siteUp s (80 + i.toNat) = true →
        ∃ t, exec (.inletLost i) s = .next t ∧ Posted s t 0x0706 (80 + i.toNat) [i.toNat] ∧ t.mem = s.mem ∧
          (siteOf t (80 + i.toNat)).state = 2 ∧ (siteOf t (80 + i.toNat)).reason = 6 ∧
          (siteUp s other = true → t.lacing = s.lacing) ∧
          (siteUp s other = false → t.lacing.relayed.getLsbD h = true ∧
            ∀ e, e / 16 = h → (eyeOf t e).state ≠ .up ∧ (eyeOf t e).state ≠ .training)) ∧
      ((siteOf s (80 + i.toNat)).state = 2 → (siteOf s (80 + i.toNat)).reason = 6 →
        ∃ t, exec (.inletRestored i) s = .next t ∧ Posted s t 0x0707 (80 + i.toNat) [i.toNat] ∧ t.mem = s.mem ∧
          (siteOf t (80 + i.toNat)).state = 1 ∧ t.lacing.relayed.getLsbD h = false ∧
          ∀ e, e / 16 = h → (eyeOf s e).state = .down → wideEnough (eyeOf s e) = true → (siteOf s (48 + e)).reason = 6 →
            (eyeOf t e).state = .up))

/-- Lace packets that arrive in order (R302 to R307, R385): requests are staged within the window and the region or refused, a GET is answered from committed
memory and its answer written into its pan, a COMMIT applies what is staged and is acknowledged, ABORT and RENEW end and extend
the staging, and the answers to this package's COMMITs end its drain's wait. -/
def Obligations.LacePacketsAct : Prop :=
  ∀ (k : Packet) (s : State),
    let p := k.src.toNat
    let cmd := k.cmd.toNat
    let e := partnerOf s p
    let staged := fun (c : Instr) (ty n : Nat) =>
      (stagedTotal s + n ≤ stageCapacity s →
        ∃ t, exec c s = .next t ∧ t.mem = s.mem ∧ (partnerOf t p).lseqRx = e.lseqRx + 1 ∧
          (partnerOf t p).stagedBytes = e.stagedBytes + BitVec.ofNat 64 n ∧
          let x := (stagingOf s p cmd).getD {}
          stagingOf t p cmd = some { x with entries := x.entries ++ [(BitVec.ofNat 8 ty, k)], lease := s.time, bytes := x.bytes + n }) ∧
      (stageCapacity s < stagedTotal s + n →
        ∃ t, exec c s = .next t ∧ t.mem = s.mem ∧ stagingOf t p cmd = none ∧ LaceSent s t p 0x0D 4 cmd [])
    let fits := inWindow s p (operOffset k.oper) (operLines k.oper)
    let ended := fun (c : Instr) (undelivered : Bool) (P : State → Prop) =>
      ∀ z, e.cmds.find? (fun c => c.cmd == k.cmd && c.committed.isSome) = some z →
        ∃ t, exec c s = .next t ∧ t.mem = s.mem ∧ (partnerOf t p).cmds = e.cmds.filter (·.cmd != k.cmd) ∧ P t ∧
          (dieOf t z.die).drain = (dieOf s z.die).drain.map fun r =>
            { r with awaiting := r.awaiting.filter (·.1 != p), undelivered := r.undelivered || undelivered }
    (PacketIn s 0x01 k → (fits = true → staged (.putPacket k) 0x01 k.data.length) ∧
      (fits = false → ∃ t, exec (.putPacket k) s = .next t ∧ t.mem = s.mem ∧ stagingOf t p cmd = none ∧ LaceSent s t p 0x0D 2 cmd [])) ∧
    (PacketIn s 0x04 k → fits = true → staged (.reducePacket k) 0x04 k.data.length) ∧
    (PacketIn s 0x05 k → staged (.signalPacket k) 0x05 0) ∧
    (PacketIn s 0x02 k →
      (fits = false → ∃ t, exec (.getReq k) s = .next t ∧ t.mem = s.mem ∧ LaceSent s t p 0x03 2 cmd []) ∧
      (let ls := (List.range (operLines k.oper)).map (windowLine s p (operOffset k.oper) + ·)
       fits = true → (∀ l ∈ ls, Settled s (granuleOf (64 * l)) ∧ busyOf s l = none ∧ poisoned s l = false) →
         ∃ t, exec (.getReq k) s = .next t ∧ t.mem = s.mem ∧ LaceSent s t p 0x03 0 cmd (ls.flatMap (heldLine s)))) ∧
    (PacketIn s 0x03 k →
      let d := k.tag.toNat / 8192
      let found := (SMap.get [] s.lacing.tags (tagKey d p)).find? fun g => g.tag == k.tag && g.retired.isNone && g.epoch == k.epoch
      (found = none → ∃ t, exec (.getRsp k) s = .next t ∧ (partnerOf t p).lateDropped = e.lateDropped + 1 ∧ t.dies = s.dies ∧ t.mem = s.mem) ∧
      (∀ g img y, found = some g → k.aux.toNat % 16 = 0 → (dieOf s d).image = some img → g.got + operLines k.oper = g.lines →
        writePan (panEnt img g.pan) (64 * (g.line + g.got)) (fit (64 * operLines k.oper) k.data) (dieOf s d) = .ok y →
        ∃ t, exec (.getRsp k) s = .next t ∧ (dieOf t d).sram = y.sram ∧ t.mem = s.mem ∧
          (SMap.get [] t.lacing.tags (tagKey d p)).find? (·.tag == k.tag) = none)) ∧
    (PacketIn s 0x08 k → e.heldCommits.contains k.cmd = false →
      (e.applied.contains k.cmd = true → ∃ t, exec (.commitPacket k) s = .next t ∧ t.mem = s.mem ∧ LaceSent s t p 0x09 0 cmd []) ∧
      (e.applied.contains k.cmd = false → stagingOf s p cmd = none →
        ∃ t, exec (.commitPacket k) s = .next t ∧ t.mem = s.mem ∧
          LaceSent s t p 0x0A (if e.epochGone.contains k.cmd = true then 5 else 1) cmd []) ∧
      (∀ x q line, e.applied.contains k.cmd = false → e.heldCommits = [] → stagingOf s p cmd = some x → bits k.oper.toNat 0 32 = 1 →
        x.entries = [(0x01, q)] → operLines q.oper = 1 → line = windowLine s p (operOffset q.oper) →
        Settled s (granuleOf (64 * line)) → (keyOf s (granuleOf (64 * line))).isSome →
        ∃ t, exec (.commitPacket k) s = .next t ∧ memLine t line = fit 64 (q.data.take 64) ∧ stagingOf t p cmd = none ∧
          (partnerOf t p).applied = e.applied ++ [k.cmd] ∧ (partnerOf t p).commitsApplied = e.commitsApplied + 1 ∧
          LaceSent s t p 0x09 0 cmd [])) ∧
    (PacketIn s 0x09 k → ended (.commitAck k) false fun t => t.lacing.outbox = s.lacing.outbox) ∧
    (PacketIn s 0x0A k → ended (.commitNak k) true fun t => LaceSent s t p 0x0B 0 cmd []) ∧
    (PacketIn s 0x0B k → (stagingOf s p cmd).isSome → ∃ t, exec (.abort k) s = .next t ∧ stagingOf t p cmd = none) ∧
    (PacketIn s 0x0C k → ∀ x, stagingOf s p cmd = some x → x.commit = none →
      ∃ t, exec (.renew k) s = .next t ∧ t.mem = s.mem ∧ stagingOf t p cmd = some { x with lease := s.time }) ∧
    (PacketIn s 0x0D k → ∀ z job, e.cmds.find? (·.cmd == k.cmd) = some z → z.committed = none → Killable s z.die job →
      ∃ t, exec (.stageRefused k) s = .next t ∧ Posted s t 0x0714 noSite [p, k.aux.toNat] ∧ t.mem = s.mem ∧
        KillBegun s t job (if k.aux.toNat = 2 then .failing 0x0714 else .fault 0x0714)) ∧
    (PacketIn s 0x10 k →
      let n := BitVec.ofNat 32 (bits k.oper.toNat 0 32)
      exec (.e2eAck k) s = .next (updPartner s p fun e =>
        { e with ackedTo := n, retransmit := e.retransmit.filter fun r => (n - r.pkt.lseq).toNat ≥ 2 ^ 31 }))

/-- What a lace's timers do (R299, R303 to R308): leases are renewed and expire, COMMITs repeat and are given up, acknowledgements go out, unacknowledged packets are sent
again, a lace without an eyelet for its timeout is DOWN, a retired tag is free after 10 ms, and a partner no longer VALID loses what it staged. -/
def Obligations.LaceTimersAct : Prop :=
  ∀ (p : PkgId) (s : State),
    let e := partnerOf s p.toNat
    let lease := 100000 * objNat s 0x5000 3 100
    let repeats := fun (c : Instr) (z : LaceCmd) (ty : Nat) (f : LaceCmd → LaceCmd) =>
      e.cmds = [z] → LaceKeyed s p.toNat →
        ∃ t, exec c s = .next t ∧ t.mem = s.mem ∧ (partnerOf t p.toNat).cmds = [f z] ∧ LaceSent s t p.toNat ty 0 z.cmd.toNat []
    (∀ z, z.committed = none → z.packets ≠ 0 → lease ≤ 4 * (s.time - z.renewAt).toNat →
      repeats (.renewDue p) z 0x0C fun z => { z with renewAt := s.time }) ∧
    (∀ z u, z.committed = some u → z.epoch = s.lacing.memb.epoch → 1000000 ≤ (s.time - z.repeatAt).toNat →
      repeats (.commitRepeat p) z 0x08 fun z => { z with repeatAt := s.time }) ∧
    (∀ (cmd : BitVec 32) x, stagingOf s p.toNat cmd.toNat = some x →
      ((s.time - x.lease).toNat < lease → exec (.stagingLeaseExpired p cmd) s = .next s) ∧
      (lease ≤ (s.time - x.lease).toNat →
        ∃ t, exec (.stagingLeaseExpired p cmd) s = .next t ∧ stagingOf t p.toNat cmd.toNat = none ∧
          Posted s t 0x0713 noSite [p.toNat, cmd.toNat])) ∧
    (∀ z u, e.cmds = [z] → z.committed = some u → lease ≤ (s.time - u).toNat →
      ∃ t, exec (.partnerUndelivered p) s = .next t ∧ t.mem = s.mem ∧ (partnerOf t p.toNat).cmds = [] ∧
        (dieOf t z.die).drain = (dieOf s z.die).drain.map fun r =>
          { r with awaiting := r.awaiting.filter (·.1 != p.toNat), undelivered := true }) ∧
    (e.ackDue.isSome → LaceKeyed s p.toNat →
      ∃ t, exec (.e2eAckDue p) s = .next t ∧ t.mem = s.mem ∧ (partnerOf t p.toNat).ackDue = none ∧ LaceSent s t p.toNat 0x10 0 0 []) ∧
    (∃ t, exec (.retransmitTimeout p) s = .next t ∧ t.mem = s.mem ∧ (partnerOf t p.toNat).retransmit =
      e.retransmit.map fun k => if 20000 ≤ (s.time - k.sentAt).toNat then { k with sentAt := s.time, eye := laceEye s p.toNat k.pkt.lseq.toNat } else k) ∧
    (∀ u, e.valid = true → e.lstate ≠ 2 → e.downSince = some u → 100000 * objNat s 0x5000 6 10 ≤ (s.time - u).toNat → upEyes s e = [] →
      ∃ t, exec (.laceDown p) s = .next t ∧ (partnerOf t p.toNat).lstate = 2 ∧ Posted s t 0x0710 noSite [p.toNat] ∧ t.mem = s.mem ∧
        ∀ (d : Die) k, Killable s d k → getOutstanding s d (some p.toNat) = true →
          ∃ i, jobOf t k = some i ∧ i.stage = .killing ∧ .fault 0x0710 ∈ i.causes) ∧
    (∀ (d : Die) (tag : BitVec 16) g u, (SMap.get [] s.lacing.tags (tagKey d p.toNat)).find? (·.tag == tag) = some g → g.retired = some u →
      (1000000 ≤ (s.time - u).toNat → exec (.tagQuarantineEnd d p tag) s = .next (setTag d p.toNat tag.toNat none s)) ∧
      ((s.time - u).toNat < 1000000 → exec (.tagQuarantineEnd d p tag) s = .next s)) ∧
    (e.valid = true →
      ∃ t, exec (.partnerValidClear p) s = .next t ∧ t.mem = s.mem ∧ (partnerOf t p.toNat).valid = false ∧ (partnerOf t p.toNat).lstate = 0 ∧
        (∀ cmd : BitVec 32, stagingOf t p.toNat cmd.toNat = none) ∧
        ∀ d : Die, ∀ g ∈ SMap.get [] t.lacing.tags (tagKey d p.toNat), g.retired.isSome)

/-- Membership (R310 to R314): HELLO goes out each millisecond and is noted where it arrives; a package silent for 5 ms is reached no longer; a voter accepts
a higher proposal and, with a quorum of acceptances, the leader's view is in force, as is one received; without a quorum for the
timeout a member is Held.
How a membership packet carries its epoch and members is the model's choice (log 53). -/
def Obligations.MembershipFollowsItsQuorum : Prop :=
  ∀ (s : State),
    let m := s.lacing.memb
    (membershipActs s = true → (∀ u, m.helloSent = some u → 100000 ≤ (s.time - u).toNat) →
      ∃ t, exec .helloDue s = .next t ∧ t.lacing.memb.helloSent = some s.time ∧ t.mem = s.mem) ∧
    (∀ k, MembIn s 0x20 k → ∃ t, exec (.hello k) s = .next t ∧ (partnerOf t k.src.toNat).helloAt = some s.time ∧ t.mem = s.mem ∧
      (partnerOf t k.src.toNat).reach = BitVec.ofNat 15 (fieldAt k.data 5 2)) ∧
    (∀ (p : PkgId) u, membershipActs s = true → (partnerOf s p.toNat).helloAt = some u → 500000 ≤ (s.time - u).toNat →
      ∃ t, exec (.reachabilityLost p) s = .next t ∧ (partnerOf t p.toNat).helloAt = none ∧ t.mem = s.mem) ∧
    (∀ k, MembIn s 0x21 k → m.voters.contains m.pkgId.toNat = true → m.highAccepted.toNat < (membEpoch k).toNat →
      ∃ t q, exec (.propose k) s = .next t ∧ t.lacing.memb.highAccepted = membEpoch k ∧ t.mem = s.mem ∧
        t.lacing.outbox = s.lacing.outbox ++ [(0x22, q)] ∧ q.dst = k.src) ∧
    (∀ k v, MembIn s 0x22 k → m.proposal = some (membEpoch k, v) → m.voters.contains k.src.toNat = true → m.accepts.contains k.src.toNat = false →
      let accepts := m.accepts ++ [k.src.toNat]
      (isQuorum m.voters accepts = false →
        ∃ t, exec (.accept k) s = .next t ∧ t.lacing.memb.accepts = accepts ∧ t.lacing.memb.epoch = m.epoch ∧ t.mem = s.mem) ∧
      (isQuorum m.voters accepts = true → m.epoch.toNat < (membEpoch k).toNat →
        ∃ t, exec (.accept k) s = .next t ∧ ViewAdopted s t (membEpoch k) v ∧ t.lacing.memb.proposal = none ∧ t.mem = s.mem)) ∧
    (∀ k, MembIn s 0x23 k → m.epoch.toNat < (membEpoch k).toNat →
      ∃ t, exec (.viewPkt k) s = .next t ∧ ViewAdopted s t (membEpoch k) (viewMembers k.data) ∧ t.mem = s.mem) ∧
    (membershipActs s = true → m.mstate = .member →
      (∀ u, (noteQuorum s).lacing.memb.lastQuorum = some u → 100000 * objNat s 0x5000 5 20 ≤ (s.time - u).toNat) →
      isQuorum m.voters (votersReached s) = false →
      ∃ t, exec .memberTimeout s = .next t ∧ t.lacing.memb.mstate = .held ∧ t.mem = s.mem ∧
        Posted s t 0x0721 noSite [m.epoch.toNat, (votersReached s).length])

/-! ## The host port (R338 to R351) -/

/-- Links and resets (R36, R282, R348, R351): a port that trains or fails says so, with its site's state; with an FLR, a hot reset or a link failure of
Port A as an endpoint every running ingest queue discards; a root port posts an uncorrectable error it logs; a level of INTA to INTD
drives its APLIC source.
The kind numbers of 0x0820 are the model's (log 72). -/
def Obligations.HostLinksAndResets : Prop :=
  ∀ (s : State),
    let queuesDiscard := fun (t : State) (code : Nat) => ∀ q, (queueOf s q).state = .run → Discarded s t q code
    (∀ (port : PcieId) (rate width : Nat),
      let full : Prop := rate = 64 ∧ width = 16
      ∃ t, exec (.pcieLinkUp port rate width) s = .next t ∧ t.mem = s.mem ∧
        portOf t port = { portOf s port with up := true, rate := rate, width := width } ∧
        (full → (siteOf t (sitePort port)).state = 1 ∧ Posted s t 0x0801 (sitePort port) [portNum port, rate, width]) ∧
        (¬ full → (siteOf t (sitePort port)).state = 5 ∧ Posted s t 0x0803 (sitePort port) [portNum port, rate, width])) ∧
    (∀ port : PcieId,
      ((portOf s port).up = false → exec (.pcieLinkDown port) s = .next s) ∧
      ((portOf s port).up = true →
        ∃ t, exec (.pcieLinkDown port) s = .next t ∧ t.mem = s.mem ∧ (portOf t port).up = false ∧ (siteOf t (sitePort port)).state = 2 ∧
          Posted s t 0x0802 (sitePort port) [portNum port] ∧ (port = .portA → endpointA s = true → queuesDiscard t 0x0802))) ∧
    (endpointA s = false → exec .flr s = .next s ∧ exec .hotReset s = .next s) ∧
    (endpointA s = true →
      (∃ t, exec .flr s = .next t ∧ t.mem = s.mem ∧ Posted s t 0x0820 84 [0] ∧ queuesDiscard t 0x0820) ∧
      (∃ t, exec .hotReset s = .next t ∧ t.mem = s.mem ∧ Posted s t 0x0820 84 [1] ∧ queuesDiscard t 0x0820)) ∧
    (∀ (port : PcieId) (rid : BitVec 16) (status : BitVec 32),
      ((portOf s port).root = false → exec (.aerUncorrectable port rid status) s = .next s) ∧
      ((portOf s port).root = true → ∃ t, exec (.aerUncorrectable port rid status) s = .next t ∧ t.mem = s.mem ∧ t.host.queues = s.host.queues ∧
        Posted s t 0x0821 (sitePort port) [portNum port, rid.toNat, status.toNat])) ∧
    (∀ n : BitVec 2,
      let src := 6 + n.toNat
      let bit := BitVec.ofNat 64 (2 ^ src)
      let dom := sourceDomain s src
      let enabled := bits (aplicReg s dom 0) 8 1 = 1 ∧ bits (aplicReg s dom (0x1E00 + 4 * (src / 32))) (src % 32) 1 = 1
      exec (.portBIntx n false) s = .next { s with cluster := { s.cluster with
        wires := s.cluster.wires &&& ~~~bit, pend := if sourceMode s src = 6 then s.cluster.pend &&& ~~~bit else s.cluster.pend } } ∧
      ∃ t, exec (.portBIntx n true) s = .next t ∧ t.cluster.wires = s.cluster.wires ||| bit ∧ t.mem = s.mem ∧
        (s.cluster.wires.getLsbD src = true → t = s) ∧
        (s.cluster.wires.getLsbD src = false → (sourceMode s src = 4 ∨ sourceMode s src = 6) →
          (enabled → t.cluster.pend.getLsbD src = false) ∧ (¬ enabled → t.cluster.pend.getLsbD src = true)))

/-- Ingest (R341, R343, R345, R348): a dword of the current sequence lands in the queue's ring, one of another sequence is dropped, one
that hits a dword still landed or has partial byte enables makes the queue discard; a doorbell counts bytes; RESYNC starts the stream
again; a stopped stream is discarded; ENABLE starts and ends it.
The reason numbers of 0x0812 are the model's (log 72). -/
def Obligations.IngestQueuesTakeStreams : Prop :=
  ∀ (q : QueueId) (s : State),
    let n := q.toNat
    let x := queueOf s n
    (∀ (addr : BitVec 28) (data : List Byte) (full : Bool), endpointA s = true → addr.toNat / 0x100000 = n →
      let now : Prop := x.state = .run ∧ x.curSeq.toNat % 4 = addr.toNat / 0x40000 % 4
      let whole : Prop := full = true ∧ addr.toNat % 4 = 0 ∧ data.length = 4
      let d := addr.toNat % 0x40000 / 4
      (now → ¬ (full = true ∧ addr.toNat % 4 = 0 ∧ data.length % 4 = 0) →
        ∃ t, exec (.pailWrite addr data full) s = .next t ∧ t.mem = s.mem ∧ Discarded s t n 0x0812 ∧
          Posted s t 0x0812 noSite [n, x.consumed.toNat, 1]) ∧
      (¬ now → whole → (x.waiting.isSome ∨ arrived x 16 = false ∨ x.state ≠ .run) →
        exec (.pailWrite addr data full) s = .next (updQueue s n fun x => { x with lateDropped := x.lateDropped + 1 })) ∧
      (now → whole → x.landed.contains d = true →
        ∃ t, exec (.pailWrite addr data full) s = .next t ∧ t.mem = s.mem ∧ Discarded s t n 0x0811 ∧
          Posted s t 0x0811 noSite [n, x.consumed.toNat]) ∧
      (now → whole → x.landed.contains d = false → PlainBytes s (x.ringBase.toNat * 2 ^ 18 + 4 * d) 4 →
        ∃ t, exec (.pailWrite addr data full) s = .next t ∧ BytesStored s t (x.ringBase.toNat * 2 ^ 18 + 4 * d) data ∧
          (queueOf t n).lastLand = s.time ∧ (x.bytes.toNat < x.consumed.toNat + 16 → (queueOf t n).landed = d :: x.landed))) ∧
    (∀ (bytes : BitVec 40) (seq : BitVec 16),
      let y : IngestQueue := { x with bytes := bytes }
      let seen : Bool := x.waiting.isNone && arrived y 16
      ((x.state ≠ .run ∨ seq ≠ x.curSeq) → exec (.pailDoorbell q bytes seq) s = .next s) ∧
      (x.state = .run → seq = x.curSeq →
        (bytes.toNat % 16 ≠ 0 → ∃ t, exec (.pailDoorbell q bytes seq) s = .next t ∧ Discarded s t n 0x0812 ∧ t.mem = s.mem ∧
          Posted s t 0x0812 noSite [n, x.consumed.toNat, 2]) ∧
        (bytes.toNat % 16 = 0 → bytes.toNat < x.bytes.toNat → exec (.pailDoorbell q bytes seq) s = .next s) ∧
        (bytes.toNat % 16 = 0 → x.bytes.toNat ≤ bytes.toNat → (seen = false ∨ headFault y (headOf s n) = none) →
          exec (.pailDoorbell q bytes seq) s = .next (updQueue s n fun x =>
            { x with bytes := bytes, lastLand := if incomplete x = true then x.lastLand else s.time })) ∧
        (∀ r, bytes.toNat % 16 = 0 → x.bytes.toNat ≤ bytes.toNat → seen = true → headFault y (headOf s n) = some r →
          ∃ t, exec (.pailDoorbell q bytes seq) s = .next t ∧ Discarded s t n 0x0812 ∧ t.mem = s.mem ∧
            Posted s t 0x0812 noSite [n, x.consumed.toNat, r]))) ∧
    (∀ v : BitVec 16,
      ((x.state = .disabled ∨ v ≠ x.curSeq + 1) → exec (.pailResync q v) s = .next s) ∧
      (x.state ≠ .disabled → v = x.curSeq + 1 →
        ∃ t, exec (.pailResync q v) s = .next t ∧ t.mem = s.mem ∧ Posted s t 0x0813 noSite [n, v.toNat] ∧
          queueOf t n = { x with curSeq := v, consumed := 0, bytes := 0, landed := [], waiting := none, state := .run })) ∧
    (idleDue s n = false → exec (.pailIdleDiscard q) s = .next s) ∧
    (idleDue s n = true → ∃ t, exec (.pailIdleDiscard q) s = .next t ∧ t.mem = s.mem ∧ Discarded s t n 0x0810 ∧
      Posted s t 0x0810 noSite [n, 4 * x.landed.length, x.curSeq.toNat]) ∧
    (∀ v : Bool, exec (.ingestQueueEnable q v) s = .next (if x.enable = v then s else updQueue s n fun x =>
      { x with enable := v, state := if v = true then .run else .disabled, consumed := 0, bytes := 0, landed := [], waiting := none }))

/-- Records act in stream order (R344 to R347): a whole DATA record's body goes into the window, a JOB record's descriptor into its context's ring
at SQ_TAIL, a FENCE passes, and a RETURN writes the window's data and the host record, or waits for the host ring or for its job; a
malformed RETURN makes the queue discard.
The reason numbers of 0x0812 are the model's (log 72). -/
def Obligations.IngestRecordsAct : Prop :=
  ∀ (q : QueueId) (s : State),
    let n := q.toNat
    let x := queueOf s n
    let body := fun (len : Nat) => ringRead s n (x.consumed.toNat + 16) len
    (atRecord s n 1 = false → exec (.dataRecord q) s = .next s) ∧
    (let h := headOf s n
     let a := x.winBase.toNat * granBytes + h.arg
     atRecord s n 1 = true → PlainBytes s a h.len →
      ∃ t, exec (.dataRecord q) s = .next t ∧ BytesStored s t a (body h.len) ∧
        (queueOf t n).consumed = x.consumed + BitVec.ofNat 40 (recordLen h)) ∧
    (let c := ctxOf s x.context.toNat
     let slot := c.sqTail.toNat % ringSize c.sqLog2.toNat
     ((atRecord s n 2 = false ∨ ringOpen c = false) → exec (.jobRecord q) s = .next s) ∧
     (atRecord s n 2 = true → ringOpen c = true → PlainBytes s (c.sqBase.toNat * 4096 + 64 * slot) 64 →
      ∃ t, exec (.jobRecord q) s = .next t ∧ BytesStored s t (c.sqBase.toNat * 4096 + 64 * slot) (body 64) ∧
        (ctxOf t x.context.toNat).sqTail = BitVec.ofNat 16 ((slot + 1) % ringSize c.sqLog2.toNat) ∧
        (queueOf t n).consumed = x.consumed + 80 ∧
        (queueOf t n).jobs = (BitVec.ofNat 64 (fieldAt (body 64) 0 8), 2 ^ 16 * x.context.toNat + slot, none) :: x.jobs)) ∧
    (atRecord s n 3 = false → exec (.fenceRecord q) s = .next s) ∧
    (atRecord s n 3 = true → ∃ t, exec (.fenceRecord q) s = .next t ∧ t.mem = s.mem ∧ (queueOf t n).consumed = x.consumed + 16) ∧
    (let h := headOf s n
     let b := body 32
     let r : WaitRet :=
      { hostAddr := BitVec.ofNat 64 (fieldAt b 0 8), srcOff := BitVec.ofNat 64 (fieldAt b 8 8), count := BitVec.ofNat 32 (fieldAt b 16 4),
        tag := BitVec.ofNat 64 (fieldAt b 24 8), afterJob := if h.flags = 1 then some (BitVec.ofNat 64 h.arg) else none, status := none }
     let sound : Prop := fieldAt b 0 8 % 64 = 0 ∧ fieldAt b 8 8 % 64 = 0 ∧ fieldAt b 16 4 % 64 = 0 ∧ fieldAt b 16 4 ≤ 2 ^ 24 ∧
      fieldAt b 20 4 = 0
     let inWindow : Prop := fieldAt b 8 8 + fieldAt b 16 4 ≤ windowLen x
     let known := hostJob x (BitVec.ofNat 64 h.arg)
     (atRecord s n 4 = false → exec (.returnRecord q) s = .next s) ∧
     (atRecord s n 4 = true →
      (¬ sound ∨ (sound ∧ inWindow ∧ h.flags = 1 ∧ known = none) →
        ∃ t, exec (.returnRecord q) s = .next t ∧ t.mem = s.mem ∧ Discarded s t n 0x0812 ∧ Posted s t 0x0812 noSite [n, x.consumed.toNat, 6]) ∧
      (sound → ¬ inWindow →
        ∃ t, exec (.returnRecord q) s = .next t ∧ t.mem = s.mem ∧ Discarded s t n 0x0812 ∧ Posted s t 0x0812 noSite [n, x.consumed.toNat, 4]) ∧
      (sound → inWindow → (h.flags = 1 → known = some none) → (hcqFull x = true ∨ h.flags = 1) →
        exec (.returnRecord q) s = .next (updQueue s n fun x => { x with waiting := some r })) ∧
      (sound → inWindow → h.flags ≠ 1 → hcqFull x = false → ∃ t, exec (.returnRecord q) s = .next t ∧ Returned s t n r) ∧
      (∀ st, sound → inWindow → h.flags = 1 → known = some (some st) → hcqFull x = false →
        ∃ t, exec (.returnRecord q) s = .next t ∧ Returned s t n { r with status := some st }))) ∧
    (x.waiting = none → exec (.returnAfterJobReady q) s = .next s) ∧
    (∀ r id, x.waiting = some r → r.afterJob = some id →
      (hostJob x id = some none → exec (.returnAfterJobReady q) s = .next s) ∧
      (∀ st, hostJob x id = some (some st) → x.state = .run → hcqFull x = false →
        ∃ t, exec (.returnAfterJobReady q) s = .next t ∧ Returned s t n { r with status := some st })) ∧
    (∀ v : BitVec 16, (x.waiting = none → exec (.hcqHead q v) s = .next (updQueue s n fun x => { x with hcqHead := v })) ∧
      (∀ r, x.waiting = some r → r.afterJob = none → x.state = .run → hcqFull { x with hcqHead := v } = false →
        ∃ t, exec (.hcqHead q v) s = .next t ∧ (queueOf t n).hcqHead = v ∧ Returned s t n r))

/-! ## The dictionary (R395 to R409) -/

/-- Requests in a session (R396, R403, R405 to R407): a read returns the object's type and value, a write keeps an accepted value and posts 0x0A31 or
answers its status, many reads answer together, a subscription is kept, a close ends the session; the Cowbell answers in the Dairyman's
place with SESSION 0.
The refusals of SUBSCRIBE are the model's (log 82). -/
def Obligations.DictionaryRequestsAnswer : Prop :=
  ∀ (p : DictPath) (f : List Byte) (s : State),
    let n := reqSess f
    let q := reqPayload f
    let only := fun (t : State) => t = { s with dict := t.dict, resp := t.resp } ∧ t.dict.values = s.dict.values
    let num := fieldAt q
    (∀ x, InSession s p f 1 x →
      let a := readAnswer (sessionRead s x) q
      ∃ t, exec (.readOp p f) s = .next t ∧ FrameAnswer t x f a.1 a.2 ∧ sessionOf t p n = some (seen s x f) ∧ only t ∧
        ∀ ty v, q.length = 8 → num 3 1 = 0 → num 6 2 = 0 → readObject s x.level.toNat x.readPos.toNat (num 0 2) (num 2 1) = (0, ty, v) →
          num 4 2 ≤ v.length →
          let part := (v.drop (num 4 2)).take 1392
          a = (0, [BitVec.ofNat 8 ty, 0] ++ leBytes 2 v.length ++ leBytes 2 (num 4 2) ++ leBytes 2 part.length ++ part)) ∧
    (∀ x, InSession s p f 2 x → q.length = 8 + num 4 2 → num 6 2 = 0 →
      let index := num 0 2
      let sub := num 2 1
      let v := q.drop 8
      let st := checkWrite s x.level.toNat index sub (num 3 1) v
      (st ≠ 0 → ∃ t, exec (.writeOp p f) s = .next t ∧ FrameAnswer t x f st [] ∧ sessionOf t p n = some (seen s x f) ∧ only t) ∧
      (∀ r, st = 0 → objRow index sub = some r → r.acc = .rwp → storeUp s = true →
        actionObject ⟨pathNum p, n, x.level.toNat⟩ index sub v = none →
        ∃ t, exec (.writeOp p f) s = .next t ∧ FrameAnswer t x f 0 [] ∧ objStored t r index sub = v ∧ t.mem = s.mem ∧
          Posted s t 0x0A31 noSite [256 * index + sub, x.level.toNat, pathNum p])) ∧
    (∀ x, InSession s p f 3 x → 1 ≤ num 0 1 → num 0 1 ≤ 64 → num 1 3 = 0 → q.length = 4 + 4 * num 0 1 →
      ∃ t, exec (.readMulti p f) s = .next t ∧ only t ∧ sessionOf t p n = some (seen s x f) ∧
        FrameAnswer t x f 0 ([BitVec.ofNat 8 (num 0 1), 0, 0, 0] ++
          multiEntries 1396 ((namedObjects (num 0 1) (q.drop 4)).map fun o => sessionRead s x o.1 o.2))) ∧
    (∀ x, InSession s p f 4 x → pathNum p = 0 → q.length = 8 + 4 * num 5 1 → num 6 2 = 0 →
      (num 4 1 = 0 → 10 ≤ num 0 4 → num 0 4 ≤ 3600000 → 1 ≤ num 5 1 → num 5 1 ≤ 32 → x.subs.length < 4 →
        ∃ t id, exec (.subscribe p f) s = .next t ∧ FrameAnswer t x f 0 [id] ∧ id ≠ 0 ∧ (∀ y ∈ x.subs, y.id ≠ id) ∧ only t ∧
          sessionOf t p n = some { seen s x f with subs := x.subs ++ [{
            id := id, period := 100000 * num 0 4, nextAt := s.time + BitVec.ofNat 64 (100000 * num 0 4),
            items := (namedObjects (num 5 1) (q.drop 8)).map fun o => 256 * o.1 + o.2 }] }) ∧
      (num 0 4 = 0 → (∃ y ∈ x.subs, y.id.toNat = num 4 1) → num 4 1 ≠ 0 →
        ∃ t, exec (.subscribe p f) s = .next t ∧ FrameAnswer t x f 0 [BitVec.ofNat 8 (num 4 1)] ∧ only t ∧
          sessionOf t p n = some { seen s x f with subs := x.subs.filter fun y => y.id.toNat ≠ num 4 1 })) ∧
    (∀ x, InSession s p f 6 x → q = [] →
      ∃ t, exec (.sessionClose p f) s = .next t ∧ FrameAnswer t x f 0 [] ∧ sessionOf t p n = none ∧ only t) ∧
    (anyoneServes s = true → cowbellServes s = true → pathNum p = 0 → reqOp f = 1 → q.length = 8 → num 3 1 = 0 → num 6 2 = 0 →
      cowbellObjects.contains (num 0 2, num 2 1) = false →
      ∃ t, exec (.readOp p f) s = .next t ∧ only t ∧ t.resp = .frame (sealFrame none (frameBody 1 5 9 0 (reqSeq f) [])))

/-- Sessions (R406 to R409): SESSION_OPEN makes a session with a fresh nonce and a key from the level's credential, or answers BUSY to a locked-out source; a frame
that fails its session's MAC or SEQ is dropped and counted, and the sixteenth in a minute locks the source out; mailboxes submit frames
as their rows do; sessions, pushes and lockouts follow their times.
The all-zero MAC of a refused SESSION_OPEN is the model's choice (log 82). -/
def Obligations.DictionarySessions : Prop :=
  ∀ (p : DictPath) (f : List Byte) (s : State),
    let q := reqPayload f
    let level := fieldAt q 0 1
    let cred := credentialOf s p level
    let serves : Prop := anyoneServes s = true ∧ cowbellServes s = false
    let asked : Prop := serves ∧ reqOp f = 5 ∧ reqForm f = true ∧ reqMac f = zeros 16 ∧ reqSess f = 0 ∧ q.length = 20 ∧ fieldAt q 1 3 = 0 ∧
      level ≤ 3
    (asked → lockedOut s p = true → ∃ t, exec (.sessionOpen p f) s = .next t ∧ t.dict.sessions = s.dict.sessions ∧ t.mem = s.mem ∧
      t.resp = .frame (sealFrame none (frameBody 5 1 6 0 (reqSeq f) []))) ∧
    (asked → lockedOut s p = false → cred ≠ [] → sessionsOn s p < sessionLimit p →
      ∃ t x ns, exec (.sessionOpen p f) s = .next t ∧ sessionOf t p s.dict.nextSess = some x ∧ ns.length = 16 ∧ x.level = BitVec.ofNat 2 level ∧
        x.key = hmac cred ([0x51, 0x44, 0x41, 0x50] ++ [BitVec.ofNat 8 level] ++ q.drop 4 ++ ns) ∧ x.seq = 0 ∧ x.validAt = s.time ∧
        x.subs = [] ∧ t.dict.nextSess = s.dict.nextSess + 1 ∧ t.mem = s.mem ∧
        t.resp = .frame (sealFrame (some x.key) (frameBody 5 1 0 s.dict.nextSess (reqSeq f) ns))) ∧
    (serves → (∀ x, sessionOf s p (reqSess f) = some x → passes x f = false) →
      let recent := (SMap.get [] s.dict.drops (srcKey p)).filter fun t => since s t < 6000000000
      ∀ op c, (op, c) ∈ [(1, Instr.readOp p f), (2, .writeOp p f), (3, .readMulti p f), (4, .subscribe p f), (6, .sessionClose p f)] → reqOp f = op →
        ∃ t, exec c s = .next t ∧ t.resp = .dropped ∧ t.dict.dropCount = s.dict.dropCount + 1 ∧ t.dict.sessions = s.dict.sessions ∧
          t.dict.values = s.dict.values ∧ t.mem = s.mem ∧
          (recent.length < 15 → t.dict.lockout = s.dict.lockout) ∧
          (15 ≤ recent.length → SMap.find t.dict.lockout (srcKey p) = some (s.time + 6000000000) ∧
            Posted s t 0x0A30 noSite [pathNum p, pathSrc p])) ∧
    (∀ m : MailboxId,
      let path : DictPath := match m with | .bar0 => .bar0 | .mirror => .mirror
      let b : Mailbox := match m with | .bar0 => s.dict.mbox0 | .mirror => s.dict.mbox1
      let g := ByteMap.read b.request 0 (min 2048 (32 + ByteMap.num b.request 12 2))
      (b.state = 1 → exec (.mailboxGo m) s = .next s) ∧
      (b.state ≠ 1 → anyoneServes s = true → (m = .bar0 → s.host.portA.root = false) →
        ∀ op c, (op, c) ∈ [(1, Instr.readOp path g), (2, .writeOp path g), (3, .readMulti path g), (4, .subscribe path g), (5, .sessionOpen path g),
          (6, .sessionClose path g)] → reqOp g = op →
          ∃ t, exec (.mailboxGo m) s = .next t ∧ exec c (setMbox path (fun m => { m with state := 1 }) s) = .next t)) ∧
    (∀ (sess : BitVec 32) x, sessionOf s p sess.toNat = some x →
      (since s x.validAt < 6000000000 → exec (.sessionIdleTimeout p sess) s = .next s) ∧
      (6000000000 ≤ since s x.validAt → exec (.sessionIdleTimeout p sess) s = .next (closeSession sess.toNat s))) ∧
    (∀ (sess : BitVec 32) (id : BitVec 8) x y, SMap.find s.dict.sessions sess.toNat = some x → x.subs.find? (fun y => y.id.toNat = id.toNat) = some y →
      (s.time.toNat < y.nextAt.toNat → exec (.subscriptionPush sess id) s = .next s) ∧
      (y.nextAt.toNat ≤ s.time.toNat → cowbellServes s = false →
        ∃ t z, exec (.subscriptionPush sess id) s = .next t ∧ t = { s with dict := t.dict } ∧
          t.dict.pushed = s.dict.pushed ++ [pushFrame s sess.toNat x y] ∧ SMap.find t.dict.sessions sess.toNat = some z ∧
          z.pushes = x.pushes + 1 ∧ z.key = x.key ∧
          z.subs = x.subs.map fun w => if w.id = id then { w with nextAt := w.nextAt + BitVec.ofNat 64 w.period } else w)) ∧
    (∀ src : Nat,
      let path : DictPath := match p with | .field _ => .field src | w => w
      (lockedOut s path = true → exec (.lockoutEnd p src) s = .next s) ∧
      (lockedOut s path = false →
        exec (.lockoutEnd p src) s = .next { s with dict := { s.dict with lockout := SMap.del s.dict.lockout (srcKey path) } }))

/-- Writes with an effect of their own, and the repair tunnel. (1) Writes with an effect of their own (R32, R335, R386, R391, R402, R415,
R425, R430, R442): records clear, the level pin is kept, the clock is set, the Owner ends a tenancy, debug is requested, and an update
goes from erasing through chunks to a verified slot; a write that fails its check answers its status and changes no object. (2) The repair
tunnel (R333): while start-up is held a command reads the selected stack's fuses, or ends a repair of its row as done, which 0x0308
reports, failed or without a spare row (which of the three is the stack's own, log 83); at other times it is refused. -/
def Obligations.ObjectWritesAndRepairTunnel : Prop :=
  (
  ∀ (r : ObjReq) (s : State),
    let acts := fun (c : Instr) (index sub ty : Nat) (v : List Byte) (q : Session → State → Prop) =>
      (∀ x, ObjWrite s r index sub ty v x → ∃ t, exec c s = .next t ∧ t.resp = .status 0 ∧ t.mem = s.mem ∧ q x t) ∧
      ∀ x, anyoneServes s = true → cowbellServes s = false → sessionOf s r.path r.sess.toNat = some x →
        checkWrite s x.level.toNat index sub ty v ≠ 0 →
        ∃ t, exec c s = .next t ∧ t.resp = .status (checkWrite s x.level.toNat index sub ty v) ∧ t = { s with dict := t.dict, resp := t.resp } ∧
          t.dict.values = s.dict.values
    (∀ v : BitVec 8, acts (.clearFailedDieRecord r v) 0x4002 1 1 [v] fun x t =>
      t.nv.failedDies = s.nv.failedDies &&& ~~~(BitVec.ofNat 8 (2 ^ v.toNat)) ∧ Posted s t 0x0A31 noSite [0x400201, x.level.toNat, pathNum r.path]) ∧
    (∀ v : BitVec 16, acts (.clearVatRetirementRecord r v) 0x4002 2 2 (leBytes 2 v.toNat) fun x t =>
      SMap.get 0 t.nv.retiredVats (v.toNat % 8) =
        SMap.get 0 s.nv.retiredVats (v.toNat % 8) &&& ~~~(BitVec.ofNat 17 (2 ^ (v.toNat / 256))) ∧
      Posted s t 0x0A31 noSite [0x400202, x.level.toNat, pathNum r.path]) ∧
    (∀ v : BitVec 8, acts (.clearRetirementList r v) 0x3303 1 1 [v] fun _ t => SMap.get [] t.nv.lists v.toNat = []) ∧
    (∀ v : BitVec 8, acts (.behaviourLevelPin r v) 0x1020 1 1 [v] fun x t =>
      objNat t 0x1020 1 0 = v.toNat ∧ t.map = s.map ∧ Posted s t 0x0A31 noSite [0x102001, x.level.toNat, pathNum r.path]) ∧
    (∀ v : BitVec 64, acts (.calendarTimeWrite r v) 0x7000 1 9 (leBytes 8 v.toNat) fun _ t =>
      t.cal.time = v ∧ t.cal.invalid = false ∧ Posted s t 0x0A11 noSite [s.cal.time.toNat, v.toNat]) ∧
    (∀ v : BitVec 8, acts (.ownerEndTenancy r v) 0x6000 3 1 [v] fun _ t =>
      t.sec.tenancy = 2 ∧ soleTenant t = [] ∧
        (resettable s = true → t.su.pkgResets = s.su.pkgResets + 1 ∧ t.su.lastCause = 3 ∧ t.sec.memKeys = [] ∧ t.sec.spdm = [])) ∧
    (∀ v : BitVec 8, acts (.debugRequest r v) 0x6000 5 1 [v] fun _ t =>
      t.sec.debugReq = some (decide (v = 1)) ∧ t.sec.debug = s.sec.debug) ∧
    acts (.updateBegin r) 0x1040 3 1 [1] (fun _ t =>
      let target := objNat s 0x1040 1 0
      let b := inactiveB s target
      t.upd = { target := BitVec.ofNat 8 target, slotB := b, status := 1, bytes := [] } ∧
      t.nv = (putImage noImage { s with upd := t.upd }).nv) ∧
    (∀ data : List Byte, acts (.imageChunk r data) 0x1040 2 8 data fun _ t =>
      t.upd = { s.upd with bytes := s.upd.bytes ++ data, status := 3 } ∧ t.nv = s.nv) ∧
    acts (.updateCommit r) 0x1040 3 1 [2] (fun _ t =>
      let b := s.upd.bytes
      let i : FwImage := ⟨Config.imageSigned b, Config.imageVersion b, true, sha384 b⟩
      let ok := if s.upd.target = 1 then dairyAccepted s i else coreAccepted s i
      (ok = true → t.upd.status = 5 ∧ t.nv = (putImage i s).nv) ∧ (ok = false → t.upd.status = 6 ∧ t.nv = s.nv)) ∧
    acts (.updateCancel r) 0x1040 3 1 [3] (fun _ t =>
      t.nv = s.nv ∧ ((s.upd.status = 1 ∨ s.upd.status = 2 ∨ s.upd.status = 3) → t.upd = {}))) ∧
  (
  ∀ (r : ObjReq) (x : Session) (s : State),
    let k := objNat s 0xF030 1 0
    let row := objNat s 0xF030 3 0
    let asked := fun (n : Byte) => ObjWrite s r 0xF030 2 1 [n] x
    let refused := fun (c : Instr) => s.su.phase ≠ .held →
      ∃ t, exec c s = .next t ∧ t.resp = .status 0 ∧ t.tunnel = { s.tunnel with status := 3 } ∧ t.mem = s.mem
    let repair := fun (c : Instr) (hard : Bool) => s.su.phase = .held →
      ∃ t, exec c s = .next t ∧ t.resp = .status 0 ∧ t.mem = s.mem ∧
        ((t.tunnel.status = 2 ∧ Posted s t 0x0308 (siteUnit k) [k, row, if hard = true then 1 else 0] ∧
            t.tunnel.hard = s.tunnel.hard ++ (if hard = true then [(k, BitVec.ofNat 32 row)] else []) ∧
            t.tunnel.soft = s.tunnel.soft ++ (if hard = true then [] else [(k, BitVec.ofNat 32 row)])) ∨
          ((t.tunnel.status = 4 ∨ t.tunnel.status = 5) ∧ t.tunnel.hard = s.tunnel.hard ∧ t.tunnel.soft = s.tunnel.soft))
    (asked 1 → refused (.tunnelFuseRead r) ∧ (s.su.phase = .held →
      ∃ t, exec (.tunnelFuseRead r) s = .next t ∧ t.resp = .status 0 ∧ t.tunnel.status = 2 ∧ t.tunnel.fuses.length ≤ 256 ∧
        t.tunnel.hard = s.tunnel.hard ∧ t.tunnel.soft = s.tunnel.soft ∧ t.mem = s.mem)) ∧
    (asked 2 → refused (.tunnelSoftRepair r) ∧ repair (.tunnelSoftRepair r) false) ∧
    (asked 3 → refused (.tunnelHardRepair r) ∧ repair (.tunnelHardRepair r) true))

/-! ## Attestation, keys and the test port (R374 to R391) -/

/-- SPDM (R377, R378, R382): while a responder is up it answers with its chain, with signed answers that carry a fresh 32-byte nonce, and with its measurements;
a key exchange opens one of four sessions, FINISH secures it and names the requester, and in a secured session HEARTBEAT, KEY_UPDATE and
END_SESSION act; anything else is an error.
Session numbers and the layouts inside measurement blocks are the model's (log 75). -/
def Obligations.SpdmRespondersAnswer : Prop :=
  ∀ (r : SpdmPort) (s : State),
    let up := responderUp s r = true
    let error : State := { s with resp := .spdm false [] }
    let chain := chainOf r s
    let signs := fun (c : Instr) (request body : List Byte) => ∃ t ns, exec c s = .next t ∧ ns.length = 32 ∧
      t.resp = .spdm true (body ++ ns ++ signature s (request ++ (body ++ ns))) ∧ t = { s with resp := t.resp, free := t.free }
    (exec (.getDigests r) s = .next (if responderUp s r = true then { s with resp := .spdm true (sha384 chain) } else error)) ∧
    (∀ (slot : BitVec 4) (off len : BitVec 16),
      let part := (chain.drop off.toNat).take len.toNat
      (up → slot = 0 → off.toNat ≤ chain.length → exec (.getCertificate r slot off len) s = .next { s with
        resp := .spdm true (leBytes 2 part.length ++ leBytes 2 (chain.length - off.toNat - part.length) ++ part) }) ∧
      (¬ up ∨ slot ≠ 0 ∨ chain.length < off.toNat → exec (.getCertificate r slot off len) s = .next error)) ∧
    (∀ (slot : BitVec 4) (nonce : List Byte),
      (up → slot = 0 → signs (.challenge r slot nonce) nonce (sha384 chain)) ∧
      (¬ up ∨ slot ≠ 0 → exec (.challenge r slot nonce) s = .next error)) ∧
    (∀ (idx : BitVec 8) (nonce : List Byte),
      (up → idx = 0 → signs (.getMeasurements r idx nonce) nonce [7]) ∧
      (up → 1 ≤ idx.toNat → idx.toNat ≤ 7 → signs (.getMeasurements r idx nonce) nonce (measurementBlock s idx.toNat)) ∧
      (up → idx = 0xFF → signs (.getMeasurements r idx nonce) nonce ([1, 2, 3, 4, 5, 6, 7].flatMap (measurementBlock s))) ∧
      (¬ up ∨ (7 < idx.toNat ∧ idx ≠ 0xFF) → exec (.getMeasurements r idx nonce) s = .next error)) ∧
    (∀ (slot : BitVec 4) (exch : List Byte),
      (∀ n, up → slot = 0 → n < 4 → (∀ m, m < n → (SMap.find s.sec.spdm (4 * responder r + m)).isSome) → SMap.find s.sec.spdm (4 * responder r + n) = none →
        ∃ t ns, exec (.keyExchange r slot exch) s = .next t ∧ ns.length = 32 ∧ spdmOf t r n = some ⟨false, none, 0⟩ ∧
          let body := BitVec.ofNat 8 n :: Config.dheResponse (responder r) exch ++ ns
          t.resp = .spdm true (body ++ signature s (exch ++ body)) ∧ t.mem = s.mem) ∧
      (¬ up ∨ slot ≠ 0 ∨ (∀ n, n < 4 → (SMap.find s.sec.spdm (4 * responder r + n)).isSome) →
        exec (.keyExchange r slot exch) s = .next error)) ∧
    (∀ (n : Nat) (cert : Option (List Byte)),
      let x := spdmOf s r n
      let secured := fun (f : SpdmSession) => f.finished = true
      (∀ y, x = some y → ¬ secured y → ∃ t, exec (.finish r n cert) s = .next t ∧ t.resp = .spdm true [] ∧ t = { s with resp := t.resp, sec := t.sec } ∧
        spdmOf t r n = some { y with finished := true, tenant := cert.map sha384 }) ∧
      (∀ y, x = some y → secured y →
        exec (.finish r n cert) s = .next error ∧ exec (.heartbeat r n) s = .next { s with resp := .spdm true [] } ∧
        (∃ t, exec (.keyUpdate r n) s = .next t ∧ t.resp = .spdm true [] ∧ t = { s with resp := t.resp, sec := t.sec } ∧
          spdmOf t r n = some { y with updates := y.updates + 1 }) ∧
        (∃ t, exec (.endSession r n) s = .next t ∧ t.resp = .spdm true [] ∧ t = { s with resp := t.resp, sec := t.sec } ∧ spdmOf t r n = none ∧
          t.sec.memKeys = s.sec.memKeys ∧ t.sec.laceKeys = s.sec.laceKeys)) ∧
      ((∀ y, x = some y → ¬ secured y) → exec (.heartbeat r n) s = .next error ∧ exec (.keyUpdate r n) s = .next error ∧
        exec (.endSession r n) s = .next error))

/-- Key delivery (R380 to R382, R384 to R386): an operation that passes every check sets or empties its slot and no other, or ends the tenancy; the first key
of a Sole tenancy binds its identity with 0x0901; a failing one answers its status and posts 0x0905, and no set passes while debug is
unlocked. The test port (R391) carries out BYPASS and IDCODE, the pin tests while unlocked or in reset, and the rest while unlocked.
The order of the checks is the model's (log 81). -/
def Obligations.KeysAreDelivered : Prop :=
  ∀ (k : KeyReq) (s : State) (x : SpdmSession), spdmOf s k.port k.sess = some x → x.finished = true →
    let slot := k.slot.toNat
    let tenant := x.tenant.getD []
    let fails := fun (c : Instr) (o : KeyOp) (op : Nat) =>
      (isSet o = true → s.sec.debug = true → keyCheck o k x s ≠ 0) ∧
      (keyCheck o k x s ≠ 0 → ∃ t, exec c s = .next t ∧ t.resp = .keyStatus (keyCheck o k x s) ∧ t.sec = s.sec ∧ t.mem = s.mem ∧
        Posted s t 0x0905 noSite [op, slot, keyCheck o k x s])
    let done := fun (c : Instr) (o : KeyOp) (q : State → Prop) => keyCheck o k x s = 0 →
      ∃ t, exec c s = .next t ∧ t.resp = .keyStatus 0 ∧ t.mem = s.mem ∧ q t
    let others := fun (t : State) => ∀ n, n ≠ slot → SMap.find t.sec.memKeys n = SMap.find s.sec.memKeys n
    let laces := fun (t : State) => ∀ n, n ≠ slot → SMap.find t.sec.laceKeys n = SMap.find s.sec.laceKeys n
    fails (.memKeySet k) .memSet 1 ∧ fails (.memKeyDestroy k) .memDestroy 2 ∧ fails (.laceKeySet k) .laceSet 3 ∧
    fails (.laceKeyDestroy k) .laceDestroy 4 ∧ fails (.endTenancy k) .endTenancy 5 ∧ fails (.membKeySet k) .membSet 6 ∧
    done (.memKeySet k) .memSet (fun t => SMap.find t.sec.memKeys slot = some ⟨k.key, tenant⟩ ∧ others t ∧
      (s.sec.mode = 0 → soleTenant s = [] → t.sec.tenancy = 1 ∧ soleTenant t = tenant ∧ Posted s t 0x0901 noSite [responder k.port])) ∧
    done (.memKeyDestroy k) .memDestroy (fun t => SMap.find t.sec.memKeys slot = none ∧ others t) ∧
    done (.laceKeySet k) .laceSet (fun t => laces t ∧
      SMap.find t.sec.laceKeys slot = some { key := k.key.take 32, tenant := tenant, ctx := BitVec.ofNat 12 k.ctx.toNat }) ∧
    done (.laceKeyDestroy k) .laceDestroy (fun t => SMap.find t.sec.laceKeys slot = none ∧ laces t) ∧
    done (.endTenancy k) .endTenancy (fun t => t.sec.tenancy = 2 ∧ soleTenant t = [] ∧
      (resettable s = true → t.su.pkgResets = s.su.pkgResets + 1 ∧ t.su.lastCause = 3 ∧ t.sec.memKeys = [] ∧ t.sec.laceKeys = [])) ∧
    done (.membKeySet k) .membSet (fun t => t.sec.membKey = some (k.key.take 32) ∧ t.sec.memKeys = s.sec.memKeys) ∧
    ∀ c : TestInstr,
      let allowed : Prop := s.su.phase ≠ .dark ∧ (s.sec.debug = true ∨ c = .bypass ∨ c = .idcode ∨
        (s.su.pkgResetLow = true ∧ (c = .samplePreload ∨ c = .extest ∨ c = .clamp ∨ c = .highz)))
      (allowed → exec (.testPortInstruction c) s = .next { s with resp := .test true }) ∧
      (¬ allowed → exec (.testPortInstruction c) s = .next { s with resp := .test false })

/-! ## Discovery, start-up, resets, the supervisors and power loss (R23 to R31, R354, R365, R386, R413 to R421, R428) -/

/-- Discovery and the soft starts (R23, R25 to R30, R354): frames are checked and kept by port; when every fitted port has delivered, or the window ends, the
sites are classified and configured, or start-up stops; acknowledgements are awaited; rails come up in order, a short is tried again after
100 ms and the third fences its site or stack.
The cause numbers of 0x0A05 and 0x0306 are the model's (log 77). -/
def Obligations.DiscoveryAndSoftStarts : Prop :=
  ∀ (p : Nat) (f : List Byte) (s : State),
    let stops := fun (u t : State) (cause : Nat) => t.su.phase = .stopped ∧ t.su.supervisor = 4 ∧ t.mem = s.mem ∧ Posted u t 0x0A05 noSite [4, cause]
    let pinOk := fun (u : State) => pinNow u = 0 ∨ (ioBlMask u).testBit (pinNow u - 1) = true
    let discovering : Prop := s.su.phase = .discovery ∧ dairymanUp s = true
    let repeats : Bool := (s.su.phase = .discovery || s.su.phase = .config) && isFitted s p && (SMap.find s.disc.config p).isNone
    exec (.identityFrameRepeat p) s = .next (if repeats then
      { s with disc := { s.disc with repeats := SMap.upd 0 s.disc.repeats p (· + 1) } } else s) ∧
    ((s.su.phase = .config → s.disc.sentAt ≠ []) → ¬ discovering ∨ isFitted s p = false → exec (.identityFrame p f) s = .next s) ∧
    (discovering → isFitted s p = true → frameGood 1 f = false → ∃ t, exec (.identityFrame p f) s = .next t ∧ p ∈ t.disc.bad ∧
      t = { s with disc := { s.disc with bad := t.disc.bad } }) ∧
    (discovering → isFitted s p = true → frameGood 1 f = true →
      let u := { s with disc := { s.disc with frames := SMap.put s.disc.frames p (parseIdentity f) } }
      (allFrames u = false → exec (.identityFrame p f) s = .next u) ∧
      (allFrames u = true → ioBlMask u ≠ 0 → pinOk u → configured (writeMap u) ≠ [] →
        ∃ t, exec (.identityFrame p f) s = .next t ∧ Classified u t ∧ t.mem = s.mem)) ∧
    (let ended : Prop := discovering ∧ ∃ a, s.disc.opened = some a ∧ 4000000 ≤ since s a
     let io := SMap.find s.disc.frames 10
     ((s.su.phase = .config → s.disc.sentAt ≠ []) → ¬ ended → exec .discoveryTimeout s = .next s) ∧
     (ended → io = none → ∃ t, exec .discoveryTimeout s = .next t ∧ stops s t 1) ∧
     (ended → io ≠ none → ioBlMask s = 0 → ∃ t, exec .discoveryTimeout s = .next t ∧ stops s t 2) ∧
     (ended → io ≠ none → ioBlMask s ≠ 0 → ¬ pinOk s → ∃ t, exec .discoveryTimeout s = .next t ∧ stops s t 3) ∧
     (ended → io ≠ none → ioBlMask s ≠ 0 → pinOk s → configured (writeMap s) ≠ [] →
       ∃ t, exec .discoveryTimeout s = .next t ∧ Classified s t ∧ t.mem = s.mem)) ∧
    (let takes : Prop := s.su.phase = .config ∧ (SMap.find s.disc.sentAt p).isSome ∧ frameGood 2 f = true
     (¬ takes → exec (.configFrame p f) s = .next s) ∧
     (takes → exec (.configFrame p f) s = .next { s with disc := { s.disc with config := SMap.put s.disc.config p {
       site := BitVec.ofNat 8 (fieldAt f 5 1), link := BitVec.ofNat 8 (fieldAt f 3 1), bl := BitVec.ofNat 8 (fieldAt f 6 1),
       caps := BitVec.ofNat 64 (fieldAt f 8 8) } } })) ∧
    (let waits : Prop := s.su.phase = .config ∧ dairymanUp s = true ∧ s.disc.acked.contains p = false ∧ siteUp s p = true
     let more : Prop := ∃ q ∈ s.disc.sentAt, q.1 ≠ p ∧ s.disc.acked.contains q.1 = false ∧ siteUp s q.1 = true
     (frameGood 3 f = false ∨ ¬ waits → exec (.configAck p f) s = .next s) ∧
     (waits → (SMap.find s.disc.config p).isSome → frameGood 3 f = true →
       (more → exec (.configAck p f) s = .next { s with disc := { s.disc with acked := p :: s.disc.acked } }) ∧
       (¬ more → ∃ t, exec (.configAck p f) s = .next t ∧ t.su.phase ≠ .config ∧ t.mem = s.mem)) ∧
     (∀ a, SMap.find s.disc.sentAt p = some a →
       (since s a < 500000 → exec (.configAckTimeout p) s = .next s) ∧
       (500000 ≤ since s a → waits → p < 11 → ∃ t, exec (.configAckTimeout p) s = .next t ∧ (siteOf t p).state = 2 ∧ (siteOf t p).reason = 3 ∧
         t.mem = s.mem))) ∧
    (∀ r : RailId,
      let l := lineOf s (railKey r)
      let ramps : Prop := s.su.phase = .softStart ∧ dairymanUp s = true ∧ railWanted s r = true ∧ railGood s r = false ∧ l.retryAt = none ∧
        ∀ b ∈ railBefore r, railGood s b = true
      let other : Prop := ∃ i, ∃ b ∈ railsOf i, i < 10 ∧ siteUp s i = true ∧ railWanted s b = true ∧ railGood s b = false ∧ b ≠ r
      let n := l.attempts + 1
      (¬ ramps → ∀ ok, exec (.softStartRampEnd r ok) s = .next s) ∧
      (ramps → other → ∃ t, exec (.softStartRampEnd r true) s = .next t ∧ railGood t r = true ∧ t.su = s.su ∧ t.mem = s.mem ∧
        ∀ i, r = .logic i → (railOf t i).state = .on ∧ (railOf t i).setpoint = BitVec.ofNat 12 (idleMv s)) ∧
      (ramps → n < 3 → ∃ t, exec (.softStartRampEnd r false) s = .next t ∧ Posted s t 0x0101 (railSite r) [railSite r, railNum r, n] ∧
        lineOf t (railKey r) = { l with attempts := n, retryAt := some (s.time + 10000000) } ∧ t.su.phase = .softStart ∧ t.mem = s.mem) ∧
      (ramps → 3 ≤ n → ∃ t, exec (.softStartRampEnd r false) s = .next t ∧ Posted s t 0x0102 (railSite r) [railSite r, railNum r] ∧
        (siteOf t (railSite r)).state = 2 ∧ (siteOf t (railSite r)).reason = 4 ∧ t.mem = s.mem)) ∧
    ∀ site : Nat,
      let rails := if 16 ≤ site then [RailId.stack (site - 16)] else railsOf site
      let live : Prop := s.su.phase = .softStart ∧ dairymanUp s = true
      (¬ live → exec (.softStartRetry site) s = .next s) ∧
      (live → ∃ t, exec (.softStartRetry site) s = .next t ∧ t = { s with power := t.power } ∧ ∀ r ∈ rails, ∀ u,
        (lineOf s (railKey r)).retryAt = some u →
        lineOf t (railKey r) = if u.toNat ≤ s.time.toNat then { lineOf s (railKey r) with retryAt := none } else lineOf s (railKey r))

/-- Starts and resets (R290, R354, R386, R413 to R416, R420, R421, R431): a cold start loses memory and keeps the store; the pin, the register, the SBI calls and a hold
record reset the package while it can be reset; PWRGOOD_IN lets a held start train (log 142); a step a second over its bound stops; a finished
zero-fill leaves memory zero and the tenancy VACANT.
The cause numbers of 0x0A05 and 0x0306 are the model's (log 77). -/
def Obligations.StartsAndResets : Prop :=
  ∀ (s : State),
    let low := s.su.pkgResetLow
    let boots : Prop := dairyAccepted s s.nv.dairyA = true ∨ dairyAccepted s s.nv.dairyB = true
    (∀ b : Board, ∃ t, exec (.coldStart b) s = .next t ∧ t.mem = [] ∧ t.grans = [] ∧ t.jobs = [] ∧ t.su.pkgResets = 0 ∧ t.su.lastCause = 0 ∧
      t.su.board = b ∧ t.sec.memKeys = [] ∧ t.sec.membKey = s.sec.membKey ∧ t.nv.lists = s.nv.lists ∧ t.nv.failedDies = s.nv.failedDies ∧
      (b.baseShort = true → t.su.phase = .stopped ∧ t.su.supervisor = 4) ∧
      (b.baseShort = false → low = true → t.su.phase = .step2) ∧
      (b.baseShort = false → low = false → boots → t.su.phase = .discovery ∧ t.su.dairyman = true) ∧
      (b.baseShort = false → low = false → ¬ boots → t.su.phase = .stopped ∧ t.su.supervisor = 4)) ∧
    (∀ key : BitVec 8,
      let acts : Prop := key = 0xA5 ∧ resettable s = true
      (¬ acts → exec (.pkgReset key) s = .next s ∧ exec (.holdNext key) s = .next s) ∧
      (acts → (∃ t, exec (.pkgReset key) s = .next t ∧ PackageReset s t 2 low ∧ t.nv.holdRecord = s.nv.holdRecord) ∧
        (∃ t, exec (.holdNext key) s = .next t ∧ PackageReset s t 2 low ∧ t.nv.holdRecord = true))) ∧
    (s.su.phase ≠ .running → exec .srstShutdown s = .next s ∧ exec .srstColdReboot s = .next s) ∧
    (s.su.phase = .running → (∃ t, exec .srstShutdown s = .next t ∧ PackageReset s t 2 low ∧ t.nv.holdRecord = true) ∧
      (∃ t, exec .srstColdReboot s = .next t ∧ PackageReset s t 2 low ∧ t.nv.holdRecord = s.nv.holdRecord)) ∧
    (let off : Prop := s.su.phase = .dark ∨ s.su.phase = .shed ∨ s.su.phase = .tripped
     (off ∨ low = true → exec .pkgResetPin s = .next { s with su := { s.su with pkgResetLow := true } }) ∧
     (¬ off → low = false → ∃ t, exec .pkgResetPin s = .next t ∧ PackageReset s t 1 true ∧ t.su.pkgResetLow = true)) ∧
    (s.su.phase ≠ .step2 → exec .pkgResetRelease s = .next { s with su := { s.su with pkgResetLow := false } }) ∧
    (s.su.phase = .step2 → ∃ t, exec .pkgResetRelease s = .next t ∧ t.su.pkgResetLow = false ∧ t.mem = s.mem ∧
      (boots → t.su.phase = .discovery ∧ t.su.dairyman = true ∧ t.disc = { opened := some s.time }) ∧
      (¬ boots → t.su.phase = .stopped ∧ t.su.supervisor = 4)) ∧
    (let goes : Prop := s.su.phase = .held ∧ s.su.heldByRecord = false ∧ dairymanUp s = true
     (¬ goes → exec .pwrgoodIn s = .next { s with su := { s.su with pwrgood := true } }) ∧
     (goes → ∃ t, exec .pwrgoodIn s = .next t ∧ t.su.pwrgood = true ∧ Trained s t ∧ t.mem = s.mem ∧
       (moduleIn s 0 = none → s.su.board.slowStep = 0 → t.su.phase = .stopped ∧ Posted s t 0x0306 32 [0, 1]) ∧
       (s.su.board.slowStep = 6 → t.su.phase = .stopped ∧ Posted s t 0x0A05 noSite [6, 8]))) ∧
    (∀ step bound, stepBound s.su.phase = some (step, bound) →
      (since s s.su.stepStart ≤ bound + 100000000 → exec .startupStepOverrun s = .next s) ∧
      (bound + 100000000 < since s s.su.stepStart → ∃ t, exec .startupStepOverrun s = .next t ∧ t.su.phase = .stopped ∧ t.su.supervisor = 4 ∧
        t.mem = s.mem ∧ Posted s t 0x0A05 noSite [step, 8])) ∧
    (s.su.phase ≠ .zeroFill → exec .zeroFillDone s = .next s) ∧
    (∀ u, s.su.phase = .zeroFill → s.sec.fillStart = some u → ∃ t, exec .zeroFillDone s = .next t ∧ t.mem = [] ∧ t.dom.poison = [] ∧
      t.sec.tenancy = 0 ∧ t.sec.lastScrub = BitVec.ofNat 32 (since s u / 100000) ∧ Posted s t 0x0903 noSite [since s u / 100000] ∧ Trained s t)

/-- The supervisors and power (R365, R369, R415, R417, R418, R428, R438): heartbeats are kept; a Dairyman that fails leaves the package in FALLBACK, with its jobs unmetered, and is
restarted twice at most; its return within 400 ms ends FALLBACK and its sessions, and an overrun leaves it down (log 137); a loss of power sheds, then the pins go undriven; a hard trip ends all
but the base; an erased slot is ready for an update. -/
def Obligations.SupervisorsAndPower : Prop :=
  ∀ (s : State),
    let gone := s.su.phase = .dark ∨ s.su.phase = .shed
    exec .dairymanHeartbeat s = .next (if watched s = true then { s with su := { s.su with heartbeat := s.time } } else s) ∧
    (∀ report : Bool,
      let fails : Prop := watched s = true ∧ (report = true ∨ 3000000 ≤ since s s.su.heartbeat)
      let n := s.su.restarts.toNat
      (¬ fails → exec (.dairymanFailed report) s = .next s) ∧
      (fails → ∃ t, exec (.dairymanFailed report) s = .next t ∧ t.su.down = true ∧ t.power.fallback = true ∧ t.mem = s.mem ∧
        t.su.supervisor = (if s.su.supervisor = 4 then 4 else 2) ∧ t.su.restarting = (if n < 2 then true else s.su.restarting) ∧
        t.su.restarts = (if n < 2 then s.su.restarts + 1 else s.su.restarts) ∧
        (∀ i, i < 10 → (railOf s i).state = .on → (railOf t i).setpoint.toNat = min 550 (railOf s i).setpoint.toNat) ∧
        (∀ k j, jobOf s k = some j → placed j = true → ∃ i, jobOf t k = some i ∧ i.unmetered = true) ∧
        (s.ev.cowbell.length < 64 → ∃ e ∈ t.ev.cowbell, e.code = 0x0A01 ∧ e.payload = [if report = true then 1 else 0, n]))) ∧
    (∀ ok : Bool,
      let waits : Prop := s.su.down = true ∧ s.su.restarting = true
      let boots : Prop := dairyAccepted s s.nv.dairyA = true ∨ dairyAccepted s s.nv.dairyB = true
      let late := 40000000 < since s s.su.failedAt
      (¬ waits ∨ (ok = false ∧ ¬ late) → exec (.dairymanRestarted ok) s = .next s) ∧
      (waits → ok = true → ¬ late → boots → s.su.dairyman = true → ∃ t, exec (.dairymanRestarted ok) s = .next t ∧ t.su.down = false ∧
        t.su.restarting = false ∧ t.power.fallback = false ∧ t.dict.sessions = [] ∧ t.sec.spdm = [] ∧ t.mem = s.mem ∧
        (s.su.phase = .running → t.su.supervisor = 1) ∧ (∀ e ∈ s.ev.cowbell, e ∈ t.ev.pendingRecs) ∧
        ∃ e ∈ t.ev.pendingRecs, e.code = 0x0A02 ∧ e.payload = [since s s.su.failedAt]) ∧
      (waits → (late ∨ (ok = true ∧ ¬ boots)) → ∃ t, exec (.dairymanRestarted ok) s = .next t ∧ t.su.down = true ∧ t.su.restarting = false ∧
        t.power.fallback = s.power.fallback ∧ t.dict = s.dict ∧ t.mem = s.mem)) ∧
    (gone → exec .powerLost s = .next s) ∧
    (¬ gone → ∃ t, exec .powerLost s = .next t ∧ t.su.phase = .shed ∧ t.mem = [] ∧ t.jobs = [] ∧ t.sec.memKeys = [] ∧ t.nv = s.nv ∧
      t.sec.membKey = s.sec.membKey) ∧
    (s.su.phase ≠ .shed → exec .heelExhausted s = .next s) ∧
    (s.su.phase = .shed → ∃ t, exec .heelExhausted s = .next t ∧ t.su.phase = .dark ∧ t.su.pinsDriven = false ∧ t.nv = s.nv) ∧
    (∀ (site : Nat) (l : List Nat),
      (gone ∨ s.su.phase = .tripped → exec (.hardTrip site l) s = .next s) ∧
      (¬ gone → s.su.phase ≠ .tripped → (hottest l).2 < 115 → exec (.hardTrip site l) s = .next (readSensors site l s)) ∧
      (¬ gone → s.su.phase ≠ .tripped → 115 ≤ (hottest l).2 → ∃ t, exec (.hardTrip site l) s = .next t ∧ t.su.phase = .tripped ∧
        t.su.supervisor = 4 ∧ t.su.thermtrip = true ∧ t.mem = [] ∧ t.jobs = [] ∧ Posted s t 0x0203 noSite [site, (hottest l).1] ∧
        ∀ i, i ≠ 10 → i ≠ 11 → (railOf t i).state = .off)) ∧
    (let erasing : Prop := s.upd.status = 1 ∧ dairymanUp s = true
     (¬ erasing → exec .updateEraseDone s = .next s) ∧
     (erasing → exec .updateEraseDone s = .next { s with upd := { s.upd with status := if storeUp s = true then 2 else 7 } }))

/-! ## Accesses by address and register writes (R9, R151, R153, R160, R173, R209, R232, R277, R299, R340 to R342) -/

/-- UNIFIED_ACCESS (R9, R151, R153, R216, R232, R257, R261, R264 to R266, R327): a load of a granule in the stacks answers its bytes; a store by a hart
is held in its die's L3, in M, any other writes memory; an atomic goes to the line's home; an access to an UNPLACED granule
places it and is held while it is filled; where no tier can take it, an engine's command is killed and any other takes the access fault; outside the
ranges that exist, and on a device access, by its address or its page, that
is not aligned and 1, 2, 4 or 8 bytes wide, there is a load access fault, 5, that of a fetch, 1, or a store access fault, 7, as for a machine interrupt
file's page below M-mode (R281); a hart that is not started accesses nothing. A load or store is said for lines that the L3 has room for. A load whose line the controller finds uncorrectable is poisoned and posts 0x0401; an engine's command is then killed with 0x0402, and any
other reader takes the hardware error 19. A PCIe function's access is one of the IO agent under Bare translation, and fails where its address does not
translate (R213, log 131). An uncorrectable directory entry is domain-fatal. What the open counters (log 104) answer
is free.
BAR0 offsets as addresses and atomics on device memory are as logs 84 and 85 take them. -/
def Obligations.UnifiedAccesses : Prop :=
  ∀ (a : Access) (s : State),
    let p := a.addr.toNat
    let n := accessLen a.kind
    let g := granuleOf p
    let fault := match a.kind with | .load _ => if a.fetch = true then 1 else 5 | _ => 7
    let inside : Prop := inUnified s p n = true ∧ p % 65536 + n ≤ 65536 ∧ 1 ≤ n
    let isHart : Prop := ∃ h, a.who = .hart h
    let byDevice : Prop := isHart ∧ a.page = .io
    let still : Prop := inside ∧ (byDevice → deviceFits p n = true) ∧ SMap.find s.filling g = none ∧ SMap.find s.moves g = none
    let sound : Prop := a.ecc = .clean ∨ a.ecc = .corrected
    let fits : Prop := ∀ h, a.who = .hart h → a.page = .pma → ∀ l, p / 64 ≤ l → l ≤ (p + n - 1) / 64 →
      l3HasRoom s (8 + h.toNat / 72) l (accessAsker s a h) = true
    (agentThere s a.who = false → exec (.unifiedAccess a) s = .next s) ∧
    (∀ port rid, a.who = .func port rid → agentThere s a.who = true → p % 4096 + n ≤ 4096 →
      let write := match a.kind with | .load _ => false | _ => true
      (bits (ddtp s) 0 4 = 1 → inUnified s p n = true →
        exec (.unifiedAccess a) s = exec (.unifiedAccess { a with who := .io, page := .pma }) s) ∧
      ∀ cause guest u, translateFunc (functionId port rid) p write { s with pending := [] } = (.fault cause guest, u) →
        ∃ t, exec (.unifiedAccess a) s = .next t ∧ t.resp = .trap fault) ∧
    (agentThere s a.who = true → (∀ port rid, a.who ≠ .func port rid) →
      (∀ k, a.kind = .load k → still → PlainBytes s p n → sound → fits →
        (∀ l, p / 64 ≤ l → l ≤ (p + n - 1) / 64 → poisoned s l = false) →
        ∃ t, exec (.unifiedAccess a) s = .next t ∧ t.resp = .bytes (ByteMap.read s.mem p n) ∧ t.mem = s.mem ∧
          granOf t g = { granOf s g with ref := true }) ∧
      (∀ k hbm loc, a.kind = .load k → still → PlainBytes s p n → a.ecc = .uncorrectable → storageOf s g = some (hbm, loc) →
        ∃ t, exec (.unifiedAccess a) s = .next t ∧ t.mem = s.mem ∧
          p / 64 ∈ t.dom.poison ∧ Posted s t 0x0401 (homeOf s (granuleAddr g)) [homeOf s (granuleAddr g), granuleAddr g] ∧
          (unitOf t (unitAt hbm loc).1).uncorrected = (unitOf s (unitAt hbm loc).1).uncorrected + 1 ∧
          match a.who with | .engine d => t.resp = .none ∧ Posted s t 0x0402 d [d, ctxOn s d, p] | _ => t.resp = .trap 19) ∧
      (∀ b, a.kind = .store b → still → PlainBytes s p n → sound → fits →
        ∃ t, exec (.unifiedAccess a) s = .next t ∧ t.resp = .none ∧
          ((¬ isHart ∨ a.page ≠ .pma) → BytesStored s t p b) ∧
          (isHart → a.page = .pma → t.mem = s.mem ∧ cohRead t p n = b ∧
            (∀ l, p / 64 ≤ l → l ≤ (p + n - 1) / 64 → ∃ x m, l3At t m l = some x ∧ x.st = .m) ∧
            ∀ q, q < p ∨ p + n ≤ q → cohRead t q 1 = cohRead s q 1)) ∧
      (∀ op, a.kind = .amo op → inUnified s p n = true → ¬ byDevice → p % n ≠ 0 →
        ∃ t, exec (.unifiedAccess a) s = .next t ∧ t.resp = .trap 6 ∧ t.mem = s.mem) ∧
      (∀ op, a.kind = .amo op → still → ¬ byDevice → p % n = 0 → PlainBytes s p n → sound → poisoned s (p / 64) = false →
        let r := amoLine { op with offset := BitVec.ofNat 6 (p % 64) } (memLine s (p / 64))
        ∃ t, exec (.unifiedAccess a) s = .next t ∧ t.resp = .value r.1 ∧ memLine t (p / 64) = fit 64 r.2) ∧
      (inside → ¬ byDevice → (∀ op, a.kind ≠ .amo op) → a.ecc ≠ .directory → SMap.find s.filling g = none → SMap.find s.moves g = none →
        (granOf s g).state = .unplaced →
        (∀ u, placeGranule g (accessCtx s a).1 (accessCtx s a).2 s = .ok u →
          ∃ t, exec (.unifiedAccess a) s = .next t ∧ t.resp = .none ∧ SMap.find t.filling g = some [.access a] ∧ t.mem = u.mem ∧
            granOf t g = { granOf u g with ref := true }) ∧
        (∀ e, placeGranule g (accessCtx s a).1 (accessCtx s a).2 s = .error e →
          ∃ t, exec (.unifiedAccess a) s = .next t ∧ t.mem = s.mem ∧
            (match a.who with | .engine _ => t.resp = .none | _ => t.resp = .trap fault) ∧
            match e with
            | .quota => Posted s t 0x0340 noSite [(accessCtx s a).1, p]
            | .storage => Posted s t 0x0341 noSite [p])) ∧
      (inside → (byDevice → deviceFits p n = true) → (∀ op, a.kind ≠ .amo op) → a.ecc = .directory → homeOf s p < 10 → dairymanUp s = true →
        ∃ t, exec (.unifiedAccess a) s = .next t ∧ DomainReset s t 0x0412 (homeOf s p) (p / 64 * 64)) ∧
      (inUnified s p n = true → byDevice → (deviceFits p n = false ∨ ∃ op, a.kind = .amo op) →
        ∃ t, exec (.unifiedAccess a) s = .next t ∧ t.resp = .trap fault ∧ t.mem = s.mem) ∧
      (inUnified s p n = false → ¬ (p < 0x100000000 ∧ isHart) → ¬ (bar0Base ≤ p ∧ a.who = .io) →
        ∃ t, exec (.unifiedAccess a) s = .next t ∧ t.resp = .trap fault ∧ t.mem = s.mem) ∧
      (p < 0x100000000 → isHart →
        ((imsicDenied a = true ∨ deviceFits p n = false ∨ ∃ op, a.kind = .amo op) →
          ∃ t, exec (.unifiedAccess a) s = .next t ∧ t.resp = .trap fault ∧ t.mem = s.mem) ∧
        (∀ k, a.kind = .load k → imsicDenied a = false → deviceFits p n = true → openCounter p = false →
          ∃ t, exec (.unifiedAccess a) s = .next t ∧ t = { s with cluster := t.cluster, resp := .bytes (regBytes s p n) }) ∧
        (∀ k, a.kind = .load k → imsicDenied a = false → deviceFits p n = true → openCounter p = true →
          ∃ t v, exec (.unifiedAccess a) s = .next t ∧ t = { s with cluster := t.cluster, free := t.free, resp := .bytes v })))

/-- REGISTER_WRITE (R9, R160, R173, R209, R232, R299, R340 to R342): an 8-byte write reaches the register's fields; configuration that is in force ignores it, and so
do addresses that no chapter defines; a write of another width or alignment takes the store access fault 7, but for one by the host, which has no
effect. A hart that runs writes its integer registers, but for x0, and its srmcfg, whose RCID and MCID are 12 bits each (R273), and takes an exception for
a register of the Q extension or of a level above it (R274, log 132).
Addresses of BAR0 registers are as log 84 takes them. -/
def Obligations.RegisterWrites : Prop :=
  ∀ (s : State) (v : W64),
    let w := fun (a : Nat) => exec (.registerWrite (.at (BitVec.ofNat 64 a)) 8 v) s
    let num := bits v.toNat
    (∀ (a : W64) (n : Nat), deviceFits a.toNat n = false →
      exec (.registerWrite (.at a) n v) s = .next (if a.toNat < bar0Base then { s with resp := .trap 7 } else s)) ∧
    (∀ (a : W64) (n : Nat), deviceFits a.toNat n = true → 0x02000000 ≤ a.toNat → a.toNat < 0x10000000 →
      exec (.registerWrite (.at a) n v) s = .next s) ∧
    (∀ (h : HartId) (n : Nat), hartRuns s h.toNat = true →
      (∀ k : BitVec 5, k ≠ 0 → exec (.registerWrite (.x h k) n v) s =
        .next (updHart s h.toNat fun x => { x with regs := SMap.set 0 x.regs k.toNat v })) ∧
      exec (.registerWrite (.x h 0) n v) s = .next s ∧
      (∀ k, exec (.registerWrite (.q h k) n v) s = .next { s with resp := .trap 2 }) ∧
      exec (.registerWrite (.csr h .m 0x181 .write) n v) s =
        .next { updHart s h.toNat (fun x => { x with csrs := SMap.set 0 x.csrs 0x181 (v &&& 0x0FFF0FFF) }) with
          resp := .value (SMap.get 0 (hartOf s h.toNat).csrs 0x181) } ∧
      exec (.registerWrite (.csr h .u 0x181 .read) n v) s = .next { s with resp := .trap 2 } ∧
      exec (.registerWrite (.csr h .vs 0x680 .read) n v) s = .next { s with resp := .trap 22 }) ∧
    (∀ c, c < 4096 →
      let block := 0x100000 + 0x80 * c
      let active : Prop := (ctxOf s c).state = .active
      w (block + 0x20) = .next (updCtx s c fun x => { x with sqTail := BitVec.ofNat 16 (num 0 16) }) ∧
      w (block + 0x28) = .next (updCtx s c fun x => { x with cqHead := BitVec.ofNat 16 (num 32 16) }) ∧
      (active → w (block + 0x00) = .next s ∧ w (block + 0x08) = .next s ∧ w (block + 0x10) = .next s ∧ w (block + 0x18) = .next s) ∧
      (¬ active →
        w (block + 0x10) = .next (updCtx s c fun x => { x with sqLog2 := BitVec.ofNat 5 (num 0 5), sqBase := BitVec.ofNat 52 (num 12 52) }) ∧
        w (block + 0x18) = .next (updCtx s c fun x => { x with cqLog2 := BitVec.ofNat 5 (num 0 5), cqBase := BitVec.ofNat 52 (num 12 52) }) ∧
        (num 2 1 = 0 → w (block + 0x00) = .next (updCtx s c fun x => { x with
          priority := BitVec.ofNat 2 (num 3 2), vmid := BitVec.ofNat 14 (num 8 14), pasid := BitVec.ofNat 20 (num 22 20),
          rcid := BitVec.ofNat 12 (num 42 12) }))) ∧
      w (0x20000 + 0x20 * c + 0x10) = .next (updQuota s c fun q => { q with firstTier := num 2 1 = 1, pullDefault := num 3 1 = 1 })) ∧
    (∀ q, q < 256 →
      let x := queueOf s q
      let block := 0x50010000 + 0x20 * q
      let port := bar0Base + 0x100000 + 0x40 * q
      (x.enable = true → w (block + 0x08) = .next s ∧ w (block + 0x10) = .next s ∧ w (block + 0x18) = .next s) ∧
      (x.enable = false →
        w (block + 0x08) = .next (updQueue s q fun x => { x with ringBase := BitVec.ofNat 46 (num 18 46) }) ∧
        w (block + 0x10) = .next (updQueue s q fun x => { x with winBase := BitVec.ofNat 48 (num 16 48) }) ∧
        w (block + 0x18) = .next (updQueue s q fun x => { x with winGranules := BitVec.ofNat 32 (num 0 32) })) ∧
      (endpointA s = false → w (port + 0x20) = .next s) ∧
      (endpointA s = true →
        w (port + 0x20) = .next (updQueue s q fun x => { x with hcqBase := BitVec.ofNat 58 (num 6 58) }) ∧
        w (port + 0x28) = .next (updQueue s q fun x => { x with
          hcqLog2 := BitVec.ofNat 5 (num 0 5), vector := BitVec.ofNat 9 (num 8 9), vecEn := num 17 1 = 1 }))) ∧
    (∀ p, p < 8192 →
      let block := 0x40100000 + 0x40 * p
      ((partnerOf s p).valid = true → w (block + 0x08) = .next s ∧ w (block + 0x10) = .next s ∧ w (block + 0x18) = .next s) ∧
      ((partnerOf s p).valid = false →
        w (block + 0x08) = .next (updPartner s p fun e => { e with winBase := BitVec.ofNat 48 (num 16 48) }) ∧
        w (block + 0x10) = .next (updPartner s p fun e => { e with winGranules := BitVec.ofNat 32 (num 0 32) }) ∧
        w (block + 0x18) = .next (updPartner s p fun e => { e with rxJob := BitVec.ofNat 64 (num 0 64) }))) ∧
    (∀ d, d < 8 →
      let block := 0x10050000 + 0x01000000 * d
      ((partOf s d).enable = true → w (block + 0x08) = .next s ∧ w (block + 0x38) = .next s) ∧
      ((partOf s d).enable = false →
        w (block + 0x08) = .next (updPart s d fun p => { p with tableVa := BitVec.ofNat 52 (num 12 52) }) ∧
        w (block + 0x38) = .next (updPart s d fun p => { p with
          stepLimit := BitVec.ofNat 13 (num 0 13), chunk := BitVec.ofNat 13 (num 16 13), admitLimit := BitVec.ofNat 15 (num 32 15),
          joinLimit := BitVec.ofNat 16 (num 48 16) })))

/-- Reset (R153, R156, R160, R173, R209, R273, R341, R342, R347, R391, R413): no command waits, memory lists nothing and every granule is UNPLACED; contexts are FREE; quotas carry no
limit and pull; serving partitions, ingest queues, harts and the security state hold their reset values; the timebase reads 0.
That a byte memory does not list reads 0 is the model's choice of form (log 14).
The state and compare registers of a hart at reset are the model's (log 30). -/
def Obligations.ResetLeavesTheSpecsValues : Prop :=
  let s := State.reset
  s.pending = [] ∧ Safe.memory s ∧ (∀ a, ByteMap.byte s.mem a = 0) ∧ s.time = 0 ∧
  (∀ g, (granOf s g).state = .unplaced) ∧
  (∀ c, (ctxOf s c).state = .free ∧ (ctxOf s c).sqHead = 0 ∧ (ctxOf s c).sqTail = 0 ∧ (ctxOf s c).cqTail = 0 ∧ (ctxOf s c).msiEn = false) ∧
  (∀ c, (quotaOf s c).hbmQuota = 0xFFFFFFFF ∧ (quotaOf s c).farQuota = 0xFFFFFFFF ∧ (quotaOf s c).firstTier = false ∧
    (quotaOf s c).pullDefault = true ∧ (quotaOf s c).hbmUse = 0 ∧ (quotaOf s c).farUse = 0) ∧
  s.sep.head = 0 ∧ s.sep.tail = 0 ∧ s.sep.logEntries = 0 ∧
  (∀ d, (partOf s d).enable = false ∧ (partOf s d).stepLimit = 4096 ∧ (partOf s d).chunk = 256 ∧ (partOf s d).admitLimit = 16384 ∧
    (partOf s d).joinLimit = 256 ∧ (partOf s d).pageLog2 = 5 ∧ (partOf s d).kvLists = 1 ∧ (partOf s d).maxPages = 1) ∧
  (∀ q, (queueOf s q).state = .disabled ∧ (queueOf s q).enable = false ∧ (queueOf s q).curSeq = 0 ∧ (queueOf s q).consumed = 0 ∧
    (queueOf s q).hcqTail = 0 ∧ (queueOf s q).hcqPhase = true) ∧
  (∀ d, (unitMapOf s d).spareFor = 0xFF ∧ (unitMapOf s d).vats = 0) ∧
  (∀ h, (hartOf s h).state = .stopped ∧ (hartOf s h).mtimecmp = BitVec.allOnes 64 ∧ (hartOf s h).stimecmp = BitVec.allOnes 64 ∧
    (hartOf s h).vmid = 0 ∧ (hartOf s h).csrs = [] ∧ (hartOf s h).regs = []) ∧
  s.sec.debug = false ∧ s.sec.memKeys = [] ∧ s.sec.laceKeys = []
end

