-- ==== Sys2Proof/Laws/Maps.lean ====
section
/-! SUPPORT. Laws of sparse maps and byte maps: what a key reads as after a write, and that every operation keeps the canonical
form. -/

namespace Sys2Proof.Machine

/-! ## What a key reads as -/

theorem lookup_filter_keep {α : Type} (m : SMap α) (p : Nat → Bool) (k : Nat) (h : p k = true) :
    List.lookup k (m.filter fun e => p e.1) = List.lookup k m := by
  induction m with
  | nil => rfl
  | cons e es ih =>
    obtain ⟨a, v⟩ := e
    by_cases hk : k = a
    · subst hk; simp [h, List.lookup]
    · cases hp : p a <;> simp [hp, List.lookup, beq_eq_false_iff_ne.mpr hk, ih]

theorem lookup_filter_drop {α : Type} (m : SMap α) (p : Nat → Bool) (k : Nat) (h : p k = false) :
    List.lookup k (m.filter fun e => p e.1) = none := by
  induction m with
  | nil => rfl
  | cons e es ih =>
    obtain ⟨a, v⟩ := e
    cases hp : p a
    · simp [hp, ih]
    · have hk : k ≠ a := by rintro rfl; simp [h] at hp
      simp [hp, List.lookup, beq_eq_false_iff_ne.mpr hk, ih]

theorem lookup_append {α : Type} (a b : SMap α) (k : Nat) :
    List.lookup k (a ++ b) = (List.lookup k a).or (List.lookup k b) := by
  induction a with
  | nil => rfl
  | cons e es ih =>
    obtain ⟨c, v⟩ := e
    by_cases hk : k = c
    · subst hk; simp [List.lookup]
    · simp [List.lookup, beq_eq_false_iff_ne.mpr hk, ih]

theorem SMap.find_del_same {α : Type} (m : SMap α) (k : Nat) : SMap.find (SMap.del m k) k = none := by
  unfold SMap.find SMap.del
  rw [lookup_append, lookup_filter_drop m (fun j => decide (j < k)) k (by simp),
    lookup_filter_drop m (fun j => decide (k < j)) k (by simp)]
  rfl

theorem SMap.find_put_same {α : Type} (m : SMap α) (k : Nat) (v : α) : SMap.find (SMap.put m k v) k = some v := by
  unfold SMap.find SMap.put
  rw [lookup_append, lookup_filter_drop m (fun j => decide (j < k)) k (by simp)]
  simp [List.lookup]

theorem SMap.find_del_other {α : Type} (m : SMap α) {j k : Nat} (h : j ≠ k) : SMap.find (SMap.del m k) j = SMap.find m j := by
  unfold SMap.find SMap.del
  rw [lookup_append]
  rcases Nat.lt_or_gt_of_ne h with hl | hl
  · rw [lookup_filter_keep m (fun i => decide (i < k)) j (by simp [hl]),
      lookup_filter_drop m (fun i => decide (k < i)) j (by simp; omega)]
    simp
  · rw [lookup_filter_drop m (fun i => decide (i < k)) j (by simp; omega),
      lookup_filter_keep m (fun i => decide (k < i)) j (by simp [hl])]
    simp

theorem SMap.find_put_other {α : Type} (m : SMap α) {j k : Nat} (v : α) (h : j ≠ k) :
    SMap.find (SMap.put m k v) j = SMap.find m j := by
  have := SMap.find_del_other m h
  unfold SMap.find SMap.del at this
  unfold SMap.find SMap.put
  rw [lookup_append] at this
  rw [lookup_append]
  simpa [List.lookup, beq_eq_false_iff_ne.mpr h] using this

@[simp] theorem SMap.get_set_same {α : Type} [DecidableEq α] (d : α) (m : SMap α) (k : Nat) (v : α) :
    SMap.get d (SMap.set d m k v) k = v := by
  unfold SMap.get SMap.set
  split
  · next h => simp [SMap.find_del_same, h]
  · simp [SMap.find_put_same]

theorem SMap.get_set_other {α : Type} [DecidableEq α] (d e : α) (m : SMap α) {j k : Nat} (v : α) (h : j ≠ k) :
    SMap.get e (SMap.set d m k v) j = SMap.get e m j := by
  unfold SMap.get SMap.set
  split
  · simp [SMap.find_del_other m h]
  · simp [SMap.find_put_other m v h]

@[simp] theorem SMap.get_upd_same {α : Type} [DecidableEq α] (d : α) (m : SMap α) (k : Nat) (f : α → α) :
    SMap.get d (SMap.upd d m k f) k = f (SMap.get d m k) := SMap.get_set_same d m k _

theorem SMap.get_upd_other {α : Type} [DecidableEq α] (d : α) (m : SMap α) {j k : Nat} (f : α → α) (h : j ≠ k) :
    SMap.get d (SMap.upd d m k f) j = SMap.get d m j := SMap.get_set_other d d m _ h

/-! ## The canonical form -/

/-- The canonical form as a proposition. -/
theorem SMap.wf_iff {α : Type} [DecidableEq α] (d : α) (m : SMap α) :
    SMap.wf d m = true ↔ m.Pairwise (fun p q => p.1 < q.1) ∧ ∀ p ∈ m, p.2 ≠ d := by
  simp [SMap.wf]

theorem SMap.wf_nil {α : Type} [DecidableEq α] (d : α) : SMap.wf d ([] : SMap α) = true := by simp [SMap.wf]

/-- A part of a canonical map picked by a test is canonical. -/
theorem SMap.wf_filter {α : Type} [DecidableEq α] (d : α) (m : SMap α) (p : Nat × α → Bool) (h : SMap.wf d m = true) :
    SMap.wf d (m.filter p) = true := by
  rw [SMap.wf_iff] at h ⊢
  exact ⟨h.1.filter _, fun q hq => h.2 q (List.mem_of_mem_filter hq)⟩

/-- Two canonical maps, the first wholly below the second, make one. -/
theorem SMap.wf_append {α : Type} [DecidableEq α] (d : α) (a b : SMap α) (ha : SMap.wf d a = true) (hb : SMap.wf d b = true)
    (hab : ∀ p ∈ a, ∀ q ∈ b, p.1 < q.1) : SMap.wf d (a ++ b) = true := by
  rw [SMap.wf_iff] at *
  refine ⟨List.pairwise_append.mpr ⟨ha.1, hb.1, hab⟩, fun p hp => ?_⟩
  rcases List.mem_append.mp hp with h | h
  · exact ha.2 p h
  · exact hb.2 p h

theorem SMap.wf_del {α : Type} [DecidableEq α] (d : α) (m : SMap α) (k : Nat) (h : SMap.wf d m = true) :
    SMap.wf d (SMap.del m k) = true := by
  refine SMap.wf_append d _ _ (SMap.wf_filter d m _ h) (SMap.wf_filter d m _ h) fun p hp q hq => ?_
  have h1 := (List.mem_filter.mp hp).2
  have h2 := (List.mem_filter.mp hq).2
  simp at h1 h2; omega

theorem SMap.wf_put {α : Type} [DecidableEq α] (d : α) (m : SMap α) (k : Nat) (v : α) (h : SMap.wf d m = true) (hv : v ≠ d) :
    SMap.wf d (SMap.put m k v) = true := by
  have hs : SMap.wf d ((k, v) :: m.filter (k < ·.1)) = true := by
    have := SMap.wf_filter d m (fun p => decide (k < p.1)) h
    rw [SMap.wf_iff] at this ⊢
    refine ⟨List.pairwise_cons.mpr ⟨fun q hq => ?_, this.1⟩, fun p hp => ?_⟩
    · have := (List.mem_filter.mp hq).2
      simpa using this
    · rcases List.mem_cons.mp hp with rfl | h'
      · exact hv
      · exact this.2 p h'
  refine SMap.wf_append d _ _ (SMap.wf_filter d m _ h) hs fun p hp q hq => ?_
  have h1 := (List.mem_filter.mp hp).2
  simp at h1
  rcases List.mem_cons.mp hq with rfl | h'
  · exact h1
  · have h2 := (List.mem_filter.mp h').2
    simp at h2; omega

/-- Setting a key keeps the canonical form: a default value is never listed. -/
theorem SMap.wf_set {α : Type} [DecidableEq α] (d : α) (m : SMap α) (k : Nat) (v : α) (h : SMap.wf d m = true) :
    SMap.wf d (SMap.set d m k v) = true := by
  unfold SMap.set
  split
  · exact SMap.wf_del d m k h
  · next hv => exact SMap.wf_put d m k v h hv

theorem SMap.wf_upd {α : Type} [DecidableEq α] (d : α) (m : SMap α) (k : Nat) (f : α → α) (h : SMap.wf d m = true) :
    SMap.wf d (SMap.upd d m k f) = true := SMap.wf_set d m k _ h

/-! ## Byte maps -/

/-- The cells of some bytes lie at their addresses and are not zero. -/
theorem ByteMap.mem_cells (a : Nat) (bs : List Byte) (p : Nat × Byte) (h : p ∈ ByteMap.cells a bs) :
    a ≤ p.1 ∧ p.1 < a + bs.length ∧ p.2 ≠ 0 := by
  induction bs generalizing a with
  | nil => simp [ByteMap.cells] at h
  | cons b bs ih =>
    unfold ByteMap.cells at h
    split at h
    · have := ih (a + 1) h
      refine ⟨by omega, by simp; omega, this.2.2⟩
    · next hb =>
      rcases List.mem_cons.mp h with rfl | h'
      · exact ⟨Nat.le_refl _, by simp, hb⟩
      · have := ih (a + 1) h'
        exact ⟨by omega, by simp; omega, this.2.2⟩

theorem ByteMap.wf_cells (a : Nat) (bs : List Byte) : Memory.wf (ByteMap.cells a bs) = true := by
  unfold Memory.wf
  induction bs generalizing a with
  | nil => exact SMap.wf_nil 0
  | cons b bs ih =>
    unfold ByteMap.cells
    split
    · exact ih (a + 1)
    · next hb =>
      have := ih (a + 1)
      rw [SMap.wf_iff] at this ⊢
      refine ⟨List.pairwise_cons.mpr ⟨fun q hq => ?_, this.1⟩, fun p hp => ?_⟩
      · have := ByteMap.mem_cells (a + 1) bs q hq
        simp; omega
      · rcases List.mem_cons.mp hp with rfl | h'
        · exact hb
        · exact this.2 p h'

/-- A write keeps the canonical form of a memory. -/
theorem ByteMap.wf_write (m : ByteMap) (a : Nat) (bs : List Byte) (h : Memory.wf m = true) :
    Memory.wf (ByteMap.write m a bs) = true := by
  have hc := ByteMap.wf_cells a bs
  unfold Memory.wf at h hc ⊢
  unfold ByteMap.write
  refine SMap.wf_append 0 _ _ (SMap.wf_append 0 _ _ (SMap.wf_filter 0 m _ h) hc ?_) (SMap.wf_filter 0 m _ h) ?_
  · intro p hp q hq
    have h1 := (List.mem_filter.mp hp).2
    have h2 := ByteMap.mem_cells a bs q hq
    simp at h1; omega
  · intro p hp q hq
    have h2 := (List.mem_filter.mp hq).2
    simp at h2
    rcases List.mem_append.mp hp with h' | h'
    · have h1 := (List.mem_filter.mp h').2
      simp at h1; omega
    · have := ByteMap.mem_cells a bs p h'
      omega

theorem ByteMap.wf_clear (m : ByteMap) (a n : Nat) (h : Memory.wf m = true) : Memory.wf (ByteMap.clear m a n) = true := by
  unfold Memory.wf at h ⊢
  unfold ByteMap.clear
  refine SMap.wf_append 0 _ _ (SMap.wf_filter 0 m _ h) (SMap.wf_filter 0 m _ h) fun p hp q hq => ?_
  have h1 := (List.mem_filter.mp hp).2
  have h2 := (List.mem_filter.mp hq).2
  simp at h1 h2; omega

/-- A byte of a cell list. -/
theorem ByteMap.lookup_cells (a : Nat) (bs : List Byte) (k : Nat) :
    (List.lookup k (ByteMap.cells a bs)).getD 0 = if a ≤ k ∧ k < a + bs.length then (bs[k - a]?).getD 0 else 0 := by
  induction bs generalizing a with
  | nil => simp [ByteMap.cells]
  | cons b bs ih =>
    unfold ByteMap.cells
    by_cases hk : k = a
    · subst hk
      split
      · next hb =>
        rw [ih (k + 1)]
        simp [hb]
      · simp [List.lookup]
    · have hne : (k == a) = false := beq_eq_false_iff_ne.mpr hk
      have hrec := ih (a + 1)
      have goal : (List.lookup k (ByteMap.cells (a + 1) bs)).getD 0
          = if a ≤ k ∧ k < a + (b :: bs).length then (((b :: bs)[k - a]?).getD 0) else 0 := by
        rw [hrec]
        by_cases hin : a ≤ k ∧ k < a + (b :: bs).length
        · have h1 : a + 1 ≤ k ∧ k < a + 1 + bs.length := by simp at hin; omega
          rw [if_pos h1, if_pos hin]
          have : k - a = (k - (a + 1)) + 1 := by omega
          rw [this]; simp
        · have h1 : ¬(a + 1 ≤ k ∧ k < a + 1 + bs.length) := by simp at hin; omega
          rw [if_neg h1, if_neg hin]
      split
      · exact goal
      · simpa [List.lookup, hne] using goal

/-- A byte read after a write: the byte written inside the range, the old one outside (R8). -/
theorem ByteMap.byte_write (m : ByteMap) (a : Nat) (bs : List Byte) (k : Nat) :
    ByteMap.byte (ByteMap.write m a bs) k =
      if a ≤ k ∧ k < a + bs.length then (bs[k - a]?).getD 0 else ByteMap.byte m k := by
  have hcells := ByteMap.lookup_cells a bs k
  unfold ByteMap.byte SMap.get SMap.find ByteMap.write
  rw [lookup_append, lookup_append]
  by_cases hlo : k < a
  · rw [lookup_filter_keep m (fun j => decide (j < a)) k (by simp [hlo]),
      lookup_filter_drop m (fun j => decide (a + bs.length ≤ j)) k (by simp; omega)]
    rw [if_neg (by omega)] at hcells ⊢
    cases hm : List.lookup k m with
    | some v => simp
    | none => simpa using hcells
  · rw [lookup_filter_drop m (fun j => decide (j < a)) k (by simp; omega)]
    by_cases hhi : a + bs.length ≤ k
    · rw [lookup_filter_keep m (fun j => decide (a + bs.length ≤ j)) k (by simp [hhi])]
      rw [if_neg (by omega)]
      have hnone : List.lookup k (ByteMap.cells a bs) = none := by
        cases hc : List.lookup k (ByteMap.cells a bs) with
        | none => rfl
        | some v =>
          have hmem : (k, v) ∈ ByteMap.cells a bs := by
            have := List.lookup_eq_some_iff.mp hc
            obtain ⟨l1, l2, heq, _⟩ := this
            rw [heq]; simp
          have := ByteMap.mem_cells a bs (k, v) hmem
          simp at this; omega
      simp [hnone]
    · rw [lookup_filter_drop m (fun j => decide (a + bs.length ≤ j)) k (by simp; omega)]
      rw [if_pos (by omega)] at hcells ⊢
      simpa using hcells

/-- A run of bytes is its bytes one by one. -/
theorem ByteMap.read_eq (m : ByteMap) (a n : Nat) : ByteMap.read m a n = (List.range n).map fun i => ByteMap.byte m (a + i) := by
  unfold ByteMap.read
  refine List.map_congr_left fun i hi => ?_
  have hi := List.mem_range.mp hi
  unfold ByteMap.byte SMap.get SMap.find
  rw [lookup_filter_keep m (fun j => decide (a ≤ j) && decide (j < a + n)) (a + i) (by simp [hi])]

@[simp] theorem ByteMap.length_read (m : ByteMap) (a n : Nat) : (ByteMap.read m a n).length = n := by simp [ByteMap.read]

/-- Reading the range just written gives the bytes written. -/
theorem ByteMap.read_write_same (m : ByteMap) (a : Nat) (bs : List Byte) :
    ByteMap.read (ByteMap.write m a bs) a bs.length = bs := by
  rw [ByteMap.read_eq]
  apply List.ext_getElem
  · simp
  · intro i h1 h2
    simp only [List.getElem_map, List.getElem_range, ByteMap.byte_write]
    rw [if_pos (by omega)]
    simp [h2]

/-- Reading a range disjoint from the one written gives what it gave before. -/
theorem ByteMap.read_write_other (m : ByteMap) (a : Nat) (bs : List Byte) (b n : Nat)
    (h : b + n ≤ a ∨ a + bs.length ≤ b) : ByteMap.read (ByteMap.write m a bs) b n = ByteMap.read m b n := by
  rw [ByteMap.read_eq, ByteMap.read_eq]
  refine List.map_congr_left fun i hi => ?_
  have hi := List.mem_range.mp hi
  rw [ByteMap.byte_write, if_neg (by omega)]

end Sys2Proof.Machine
end

