-- ==== Sys2Proof/Laws/State.lean ====
section
/-! SUPPORT. The named updates of the state, field by field: each changes its own field and leaves every other one. -/

namespace Sys2Proof.Machine


/-! ### setDie -/

@[simp] theorem setDie_pending (s : State) (d : Nat) (x : DieSt) : (setDie s d x).pending = s.pending := rfl
@[simp] theorem setDie_free (s : State) (d : Nat) (x : DieSt) : (setDie s d x).free = s.free := rfl
@[simp] theorem setDie_resp (s : State) (d : Nat) (x : DieSt) : (setDie s d x).resp = s.resp := rfl
@[simp] theorem setDie_time (s : State) (d : Nat) (x : DieSt) : (setDie s d x).time = s.time := rfl
@[simp] theorem setDie_variant (s : State) (d : Nat) (x : DieSt) : (setDie s d x).variant = s.variant := rfl
@[simp] theorem setDie_weltGen (s : State) (d : Nat) (x : DieSt) : (setDie s d x).weltGen = s.weltGen := rfl
@[simp] theorem setDie_map (s : State) (d : Nat) (x : DieSt) : (setDie s d x).map = s.map := rfl
@[simp] theorem setDie_disc (s : State) (d : Nat) (x : DieSt) : (setDie s d x).disc = s.disc := rfl
@[simp] theorem setDie_copyNet (s : State) (d : Nat) (x : DieSt) : (setDie s d x).copyNet = s.copyNet := rfl
@[simp] theorem setDie_sigNet (s : State) (d : Nat) (x : DieSt) : (setDie s d x).sigNet = s.sigNet := rfl
@[simp] theorem setDie_mem (s : State) (d : Nat) (x : DieSt) : (setDie s d x).mem = s.mem := rfl
@[simp] theorem setDie_grans (s : State) (d : Nat) (x : DieSt) : (setDie s d x).grans = s.grans := rfl
@[simp] theorem setDie_moves (s : State) (d : Nat) (x : DieSt) : (setDie s d x).moves = s.moves := rfl
@[simp] theorem setDie_filling (s : State) (d : Nat) (x : DieSt) : (setDie s d x).filling = s.filling := rfl
@[simp] theorem setDie_sep (s : State) (d : Nat) (x : DieSt) : (setDie s d x).sep = s.sep := rfl
@[simp] theorem setDie_quotas (s : State) (d : Nat) (x : DieSt) : (setDie s d x).quotas = s.quotas := rfl
@[simp] theorem setDie_ctxs (s : State) (d : Nat) (x : DieSt) : (setDie s d x).ctxs = s.ctxs := rfl
@[simp] theorem setDie_jobs (s : State) (d : Nat) (x : DieSt) : (setDie s d x).jobs = s.jobs := rfl
@[simp] theorem setDie_disp (s : State) (d : Nat) (x : DieSt) : (setDie s d x).disp = s.disp := rfl
@[simp] theorem setDie_parts (s : State) (d : Nat) (x : DieSt) : (setDie s d x).parts = s.parts := rfl
@[simp] theorem setDie_iommu (s : State) (d : Nat) (x : DieSt) : (setDie s d x).iommu = s.iommu := rfl
@[simp] theorem setDie_dom (s : State) (d : Nat) (x : DieSt) : (setDie s d x).dom = s.dom := rfl
@[simp] theorem setDie_cluster (s : State) (d : Nat) (x : DieSt) : (setDie s d x).cluster = s.cluster := rfl
@[simp] theorem setDie_lacing (s : State) (d : Nat) (x : DieSt) : (setDie s d x).lacing = s.lacing := rfl
@[simp] theorem setDie_units (s : State) (d : Nat) (x : DieSt) : (setDie s d x).units = s.units := rfl
@[simp] theorem setDie_tunnel (s : State) (d : Nat) (x : DieSt) : (setDie s d x).tunnel = s.tunnel := rfl
@[simp] theorem setDie_host (s : State) (d : Nat) (x : DieSt) : (setDie s d x).host = s.host := rfl
@[simp] theorem setDie_power (s : State) (d : Nat) (x : DieSt) : (setDie s d x).power = s.power := rfl
@[simp] theorem setDie_sec (s : State) (d : Nat) (x : DieSt) : (setDie s d x).sec = s.sec := rfl
@[simp] theorem setDie_dict (s : State) (d : Nat) (x : DieSt) : (setDie s d x).dict = s.dict := rfl
@[simp] theorem setDie_su (s : State) (d : Nat) (x : DieSt) : (setDie s d x).su = s.su := rfl
@[simp] theorem setDie_nv (s : State) (d : Nat) (x : DieSt) : (setDie s d x).nv = s.nv := rfl
@[simp] theorem setDie_ev (s : State) (d : Nat) (x : DieSt) : (setDie s d x).ev = s.ev := rfl
@[simp] theorem setDie_upd (s : State) (d : Nat) (x : DieSt) : (setDie s d x).upd = s.upd := rfl
@[simp] theorem setDie_cal (s : State) (d : Nat) (x : DieSt) : (setDie s d x).cal = s.cal := rfl

/-! ### updDie -/

@[simp] theorem updDie_pending (s : State) (d : Nat) (f : DieSt → DieSt) : (updDie s d f).pending = s.pending := rfl
@[simp] theorem updDie_free (s : State) (d : Nat) (f : DieSt → DieSt) : (updDie s d f).free = s.free := rfl
@[simp] theorem updDie_resp (s : State) (d : Nat) (f : DieSt → DieSt) : (updDie s d f).resp = s.resp := rfl
@[simp] theorem updDie_time (s : State) (d : Nat) (f : DieSt → DieSt) : (updDie s d f).time = s.time := rfl
@[simp] theorem updDie_variant (s : State) (d : Nat) (f : DieSt → DieSt) : (updDie s d f).variant = s.variant := rfl
@[simp] theorem updDie_weltGen (s : State) (d : Nat) (f : DieSt → DieSt) : (updDie s d f).weltGen = s.weltGen := rfl
@[simp] theorem updDie_map (s : State) (d : Nat) (f : DieSt → DieSt) : (updDie s d f).map = s.map := rfl
@[simp] theorem updDie_disc (s : State) (d : Nat) (f : DieSt → DieSt) : (updDie s d f).disc = s.disc := rfl
@[simp] theorem updDie_copyNet (s : State) (d : Nat) (f : DieSt → DieSt) : (updDie s d f).copyNet = s.copyNet := rfl
@[simp] theorem updDie_sigNet (s : State) (d : Nat) (f : DieSt → DieSt) : (updDie s d f).sigNet = s.sigNet := rfl
@[simp] theorem updDie_mem (s : State) (d : Nat) (f : DieSt → DieSt) : (updDie s d f).mem = s.mem := rfl
@[simp] theorem updDie_grans (s : State) (d : Nat) (f : DieSt → DieSt) : (updDie s d f).grans = s.grans := rfl
@[simp] theorem updDie_moves (s : State) (d : Nat) (f : DieSt → DieSt) : (updDie s d f).moves = s.moves := rfl
@[simp] theorem updDie_filling (s : State) (d : Nat) (f : DieSt → DieSt) : (updDie s d f).filling = s.filling := rfl
@[simp] theorem updDie_sep (s : State) (d : Nat) (f : DieSt → DieSt) : (updDie s d f).sep = s.sep := rfl
@[simp] theorem updDie_quotas (s : State) (d : Nat) (f : DieSt → DieSt) : (updDie s d f).quotas = s.quotas := rfl
@[simp] theorem updDie_ctxs (s : State) (d : Nat) (f : DieSt → DieSt) : (updDie s d f).ctxs = s.ctxs := rfl
@[simp] theorem updDie_jobs (s : State) (d : Nat) (f : DieSt → DieSt) : (updDie s d f).jobs = s.jobs := rfl
@[simp] theorem updDie_disp (s : State) (d : Nat) (f : DieSt → DieSt) : (updDie s d f).disp = s.disp := rfl
@[simp] theorem updDie_parts (s : State) (d : Nat) (f : DieSt → DieSt) : (updDie s d f).parts = s.parts := rfl
@[simp] theorem updDie_iommu (s : State) (d : Nat) (f : DieSt → DieSt) : (updDie s d f).iommu = s.iommu := rfl
@[simp] theorem updDie_dom (s : State) (d : Nat) (f : DieSt → DieSt) : (updDie s d f).dom = s.dom := rfl
@[simp] theorem updDie_cluster (s : State) (d : Nat) (f : DieSt → DieSt) : (updDie s d f).cluster = s.cluster := rfl
@[simp] theorem updDie_lacing (s : State) (d : Nat) (f : DieSt → DieSt) : (updDie s d f).lacing = s.lacing := rfl
@[simp] theorem updDie_units (s : State) (d : Nat) (f : DieSt → DieSt) : (updDie s d f).units = s.units := rfl
@[simp] theorem updDie_tunnel (s : State) (d : Nat) (f : DieSt → DieSt) : (updDie s d f).tunnel = s.tunnel := rfl
@[simp] theorem updDie_host (s : State) (d : Nat) (f : DieSt → DieSt) : (updDie s d f).host = s.host := rfl
@[simp] theorem updDie_power (s : State) (d : Nat) (f : DieSt → DieSt) : (updDie s d f).power = s.power := rfl
@[simp] theorem updDie_sec (s : State) (d : Nat) (f : DieSt → DieSt) : (updDie s d f).sec = s.sec := rfl
@[simp] theorem updDie_dict (s : State) (d : Nat) (f : DieSt → DieSt) : (updDie s d f).dict = s.dict := rfl
@[simp] theorem updDie_su (s : State) (d : Nat) (f : DieSt → DieSt) : (updDie s d f).su = s.su := rfl
@[simp] theorem updDie_nv (s : State) (d : Nat) (f : DieSt → DieSt) : (updDie s d f).nv = s.nv := rfl
@[simp] theorem updDie_ev (s : State) (d : Nat) (f : DieSt → DieSt) : (updDie s d f).ev = s.ev := rfl
@[simp] theorem updDie_upd (s : State) (d : Nat) (f : DieSt → DieSt) : (updDie s d f).upd = s.upd := rfl
@[simp] theorem updDie_cal (s : State) (d : Nat) (f : DieSt → DieSt) : (updDie s d f).cal = s.cal := rfl

/-! ### setCtx -/

@[simp] theorem setCtx_pending (s : State) (c : Nat) (x : Context) : (setCtx s c x).pending = s.pending := rfl
@[simp] theorem setCtx_free (s : State) (c : Nat) (x : Context) : (setCtx s c x).free = s.free := rfl
@[simp] theorem setCtx_resp (s : State) (c : Nat) (x : Context) : (setCtx s c x).resp = s.resp := rfl
@[simp] theorem setCtx_time (s : State) (c : Nat) (x : Context) : (setCtx s c x).time = s.time := rfl
@[simp] theorem setCtx_variant (s : State) (c : Nat) (x : Context) : (setCtx s c x).variant = s.variant := rfl
@[simp] theorem setCtx_weltGen (s : State) (c : Nat) (x : Context) : (setCtx s c x).weltGen = s.weltGen := rfl
@[simp] theorem setCtx_map (s : State) (c : Nat) (x : Context) : (setCtx s c x).map = s.map := rfl
@[simp] theorem setCtx_disc (s : State) (c : Nat) (x : Context) : (setCtx s c x).disc = s.disc := rfl
@[simp] theorem setCtx_dies (s : State) (c : Nat) (x : Context) : (setCtx s c x).dies = s.dies := rfl
@[simp] theorem setCtx_copyNet (s : State) (c : Nat) (x : Context) : (setCtx s c x).copyNet = s.copyNet := rfl
@[simp] theorem setCtx_sigNet (s : State) (c : Nat) (x : Context) : (setCtx s c x).sigNet = s.sigNet := rfl
@[simp] theorem setCtx_mem (s : State) (c : Nat) (x : Context) : (setCtx s c x).mem = s.mem := rfl
@[simp] theorem setCtx_grans (s : State) (c : Nat) (x : Context) : (setCtx s c x).grans = s.grans := rfl
@[simp] theorem setCtx_moves (s : State) (c : Nat) (x : Context) : (setCtx s c x).moves = s.moves := rfl
@[simp] theorem setCtx_filling (s : State) (c : Nat) (x : Context) : (setCtx s c x).filling = s.filling := rfl
@[simp] theorem setCtx_sep (s : State) (c : Nat) (x : Context) : (setCtx s c x).sep = s.sep := rfl
@[simp] theorem setCtx_quotas (s : State) (c : Nat) (x : Context) : (setCtx s c x).quotas = s.quotas := rfl
@[simp] theorem setCtx_jobs (s : State) (c : Nat) (x : Context) : (setCtx s c x).jobs = s.jobs := rfl
@[simp] theorem setCtx_disp (s : State) (c : Nat) (x : Context) : (setCtx s c x).disp = s.disp := rfl
@[simp] theorem setCtx_parts (s : State) (c : Nat) (x : Context) : (setCtx s c x).parts = s.parts := rfl
@[simp] theorem setCtx_iommu (s : State) (c : Nat) (x : Context) : (setCtx s c x).iommu = s.iommu := rfl
@[simp] theorem setCtx_dom (s : State) (c : Nat) (x : Context) : (setCtx s c x).dom = s.dom := rfl
@[simp] theorem setCtx_cluster (s : State) (c : Nat) (x : Context) : (setCtx s c x).cluster = s.cluster := rfl
@[simp] theorem setCtx_lacing (s : State) (c : Nat) (x : Context) : (setCtx s c x).lacing = s.lacing := rfl
@[simp] theorem setCtx_units (s : State) (c : Nat) (x : Context) : (setCtx s c x).units = s.units := rfl
@[simp] theorem setCtx_tunnel (s : State) (c : Nat) (x : Context) : (setCtx s c x).tunnel = s.tunnel := rfl
@[simp] theorem setCtx_host (s : State) (c : Nat) (x : Context) : (setCtx s c x).host = s.host := rfl
@[simp] theorem setCtx_power (s : State) (c : Nat) (x : Context) : (setCtx s c x).power = s.power := rfl
@[simp] theorem setCtx_sec (s : State) (c : Nat) (x : Context) : (setCtx s c x).sec = s.sec := rfl
@[simp] theorem setCtx_dict (s : State) (c : Nat) (x : Context) : (setCtx s c x).dict = s.dict := rfl
@[simp] theorem setCtx_su (s : State) (c : Nat) (x : Context) : (setCtx s c x).su = s.su := rfl
@[simp] theorem setCtx_nv (s : State) (c : Nat) (x : Context) : (setCtx s c x).nv = s.nv := rfl
@[simp] theorem setCtx_ev (s : State) (c : Nat) (x : Context) : (setCtx s c x).ev = s.ev := rfl
@[simp] theorem setCtx_upd (s : State) (c : Nat) (x : Context) : (setCtx s c x).upd = s.upd := rfl
@[simp] theorem setCtx_cal (s : State) (c : Nat) (x : Context) : (setCtx s c x).cal = s.cal := rfl

/-! ### updCtx -/

@[simp] theorem updCtx_pending (s : State) (c : Nat) (f : Context → Context) : (updCtx s c f).pending = s.pending := rfl
@[simp] theorem updCtx_free (s : State) (c : Nat) (f : Context → Context) : (updCtx s c f).free = s.free := rfl
@[simp] theorem updCtx_resp (s : State) (c : Nat) (f : Context → Context) : (updCtx s c f).resp = s.resp := rfl
@[simp] theorem updCtx_time (s : State) (c : Nat) (f : Context → Context) : (updCtx s c f).time = s.time := rfl
@[simp] theorem updCtx_variant (s : State) (c : Nat) (f : Context → Context) : (updCtx s c f).variant = s.variant := rfl
@[simp] theorem updCtx_weltGen (s : State) (c : Nat) (f : Context → Context) : (updCtx s c f).weltGen = s.weltGen := rfl
@[simp] theorem updCtx_map (s : State) (c : Nat) (f : Context → Context) : (updCtx s c f).map = s.map := rfl
@[simp] theorem updCtx_disc (s : State) (c : Nat) (f : Context → Context) : (updCtx s c f).disc = s.disc := rfl
@[simp] theorem updCtx_dies (s : State) (c : Nat) (f : Context → Context) : (updCtx s c f).dies = s.dies := rfl
@[simp] theorem updCtx_copyNet (s : State) (c : Nat) (f : Context → Context) : (updCtx s c f).copyNet = s.copyNet := rfl
@[simp] theorem updCtx_sigNet (s : State) (c : Nat) (f : Context → Context) : (updCtx s c f).sigNet = s.sigNet := rfl
@[simp] theorem updCtx_mem (s : State) (c : Nat) (f : Context → Context) : (updCtx s c f).mem = s.mem := rfl
@[simp] theorem updCtx_grans (s : State) (c : Nat) (f : Context → Context) : (updCtx s c f).grans = s.grans := rfl
@[simp] theorem updCtx_moves (s : State) (c : Nat) (f : Context → Context) : (updCtx s c f).moves = s.moves := rfl
@[simp] theorem updCtx_filling (s : State) (c : Nat) (f : Context → Context) : (updCtx s c f).filling = s.filling := rfl
@[simp] theorem updCtx_sep (s : State) (c : Nat) (f : Context → Context) : (updCtx s c f).sep = s.sep := rfl
@[simp] theorem updCtx_quotas (s : State) (c : Nat) (f : Context → Context) : (updCtx s c f).quotas = s.quotas := rfl
@[simp] theorem updCtx_jobs (s : State) (c : Nat) (f : Context → Context) : (updCtx s c f).jobs = s.jobs := rfl
@[simp] theorem updCtx_disp (s : State) (c : Nat) (f : Context → Context) : (updCtx s c f).disp = s.disp := rfl
@[simp] theorem updCtx_parts (s : State) (c : Nat) (f : Context → Context) : (updCtx s c f).parts = s.parts := rfl
@[simp] theorem updCtx_iommu (s : State) (c : Nat) (f : Context → Context) : (updCtx s c f).iommu = s.iommu := rfl
@[simp] theorem updCtx_dom (s : State) (c : Nat) (f : Context → Context) : (updCtx s c f).dom = s.dom := rfl
@[simp] theorem updCtx_cluster (s : State) (c : Nat) (f : Context → Context) : (updCtx s c f).cluster = s.cluster := rfl
@[simp] theorem updCtx_lacing (s : State) (c : Nat) (f : Context → Context) : (updCtx s c f).lacing = s.lacing := rfl
@[simp] theorem updCtx_units (s : State) (c : Nat) (f : Context → Context) : (updCtx s c f).units = s.units := rfl
@[simp] theorem updCtx_tunnel (s : State) (c : Nat) (f : Context → Context) : (updCtx s c f).tunnel = s.tunnel := rfl
@[simp] theorem updCtx_host (s : State) (c : Nat) (f : Context → Context) : (updCtx s c f).host = s.host := rfl
@[simp] theorem updCtx_power (s : State) (c : Nat) (f : Context → Context) : (updCtx s c f).power = s.power := rfl
@[simp] theorem updCtx_sec (s : State) (c : Nat) (f : Context → Context) : (updCtx s c f).sec = s.sec := rfl
@[simp] theorem updCtx_dict (s : State) (c : Nat) (f : Context → Context) : (updCtx s c f).dict = s.dict := rfl
@[simp] theorem updCtx_su (s : State) (c : Nat) (f : Context → Context) : (updCtx s c f).su = s.su := rfl
@[simp] theorem updCtx_nv (s : State) (c : Nat) (f : Context → Context) : (updCtx s c f).nv = s.nv := rfl
@[simp] theorem updCtx_ev (s : State) (c : Nat) (f : Context → Context) : (updCtx s c f).ev = s.ev := rfl
@[simp] theorem updCtx_upd (s : State) (c : Nat) (f : Context → Context) : (updCtx s c f).upd = s.upd := rfl
@[simp] theorem updCtx_cal (s : State) (c : Nat) (f : Context → Context) : (updCtx s c f).cal = s.cal := rfl

/-! ### updQuota -/

@[simp] theorem updQuota_pending (s : State) (c : Nat) (f : Quota → Quota) : (updQuota s c f).pending = s.pending := rfl
@[simp] theorem updQuota_free (s : State) (c : Nat) (f : Quota → Quota) : (updQuota s c f).free = s.free := rfl
@[simp] theorem updQuota_resp (s : State) (c : Nat) (f : Quota → Quota) : (updQuota s c f).resp = s.resp := rfl
@[simp] theorem updQuota_time (s : State) (c : Nat) (f : Quota → Quota) : (updQuota s c f).time = s.time := rfl
@[simp] theorem updQuota_variant (s : State) (c : Nat) (f : Quota → Quota) : (updQuota s c f).variant = s.variant := rfl
@[simp] theorem updQuota_weltGen (s : State) (c : Nat) (f : Quota → Quota) : (updQuota s c f).weltGen = s.weltGen := rfl
@[simp] theorem updQuota_map (s : State) (c : Nat) (f : Quota → Quota) : (updQuota s c f).map = s.map := rfl
@[simp] theorem updQuota_disc (s : State) (c : Nat) (f : Quota → Quota) : (updQuota s c f).disc = s.disc := rfl
@[simp] theorem updQuota_dies (s : State) (c : Nat) (f : Quota → Quota) : (updQuota s c f).dies = s.dies := rfl
@[simp] theorem updQuota_copyNet (s : State) (c : Nat) (f : Quota → Quota) : (updQuota s c f).copyNet = s.copyNet := rfl
@[simp] theorem updQuota_sigNet (s : State) (c : Nat) (f : Quota → Quota) : (updQuota s c f).sigNet = s.sigNet := rfl
@[simp] theorem updQuota_mem (s : State) (c : Nat) (f : Quota → Quota) : (updQuota s c f).mem = s.mem := rfl
@[simp] theorem updQuota_grans (s : State) (c : Nat) (f : Quota → Quota) : (updQuota s c f).grans = s.grans := rfl
@[simp] theorem updQuota_moves (s : State) (c : Nat) (f : Quota → Quota) : (updQuota s c f).moves = s.moves := rfl
@[simp] theorem updQuota_filling (s : State) (c : Nat) (f : Quota → Quota) : (updQuota s c f).filling = s.filling := rfl
@[simp] theorem updQuota_sep (s : State) (c : Nat) (f : Quota → Quota) : (updQuota s c f).sep = s.sep := rfl
@[simp] theorem updQuota_ctxs (s : State) (c : Nat) (f : Quota → Quota) : (updQuota s c f).ctxs = s.ctxs := rfl
@[simp] theorem updQuota_jobs (s : State) (c : Nat) (f : Quota → Quota) : (updQuota s c f).jobs = s.jobs := rfl
@[simp] theorem updQuota_disp (s : State) (c : Nat) (f : Quota → Quota) : (updQuota s c f).disp = s.disp := rfl
@[simp] theorem updQuota_parts (s : State) (c : Nat) (f : Quota → Quota) : (updQuota s c f).parts = s.parts := rfl
@[simp] theorem updQuota_iommu (s : State) (c : Nat) (f : Quota → Quota) : (updQuota s c f).iommu = s.iommu := rfl
@[simp] theorem updQuota_dom (s : State) (c : Nat) (f : Quota → Quota) : (updQuota s c f).dom = s.dom := rfl
@[simp] theorem updQuota_cluster (s : State) (c : Nat) (f : Quota → Quota) : (updQuota s c f).cluster = s.cluster := rfl
@[simp] theorem updQuota_lacing (s : State) (c : Nat) (f : Quota → Quota) : (updQuota s c f).lacing = s.lacing := rfl
@[simp] theorem updQuota_units (s : State) (c : Nat) (f : Quota → Quota) : (updQuota s c f).units = s.units := rfl
@[simp] theorem updQuota_tunnel (s : State) (c : Nat) (f : Quota → Quota) : (updQuota s c f).tunnel = s.tunnel := rfl
@[simp] theorem updQuota_host (s : State) (c : Nat) (f : Quota → Quota) : (updQuota s c f).host = s.host := rfl
@[simp] theorem updQuota_power (s : State) (c : Nat) (f : Quota → Quota) : (updQuota s c f).power = s.power := rfl
@[simp] theorem updQuota_sec (s : State) (c : Nat) (f : Quota → Quota) : (updQuota s c f).sec = s.sec := rfl
@[simp] theorem updQuota_dict (s : State) (c : Nat) (f : Quota → Quota) : (updQuota s c f).dict = s.dict := rfl
@[simp] theorem updQuota_su (s : State) (c : Nat) (f : Quota → Quota) : (updQuota s c f).su = s.su := rfl
@[simp] theorem updQuota_nv (s : State) (c : Nat) (f : Quota → Quota) : (updQuota s c f).nv = s.nv := rfl
@[simp] theorem updQuota_ev (s : State) (c : Nat) (f : Quota → Quota) : (updQuota s c f).ev = s.ev := rfl
@[simp] theorem updQuota_upd (s : State) (c : Nat) (f : Quota → Quota) : (updQuota s c f).upd = s.upd := rfl
@[simp] theorem updQuota_cal (s : State) (c : Nat) (f : Quota → Quota) : (updQuota s c f).cal = s.cal := rfl

/-! ### updGran -/

@[simp] theorem updGran_pending (s : State) (g : Nat) (f : Granule → Granule) : (updGran s g f).pending = s.pending := rfl
@[simp] theorem updGran_free (s : State) (g : Nat) (f : Granule → Granule) : (updGran s g f).free = s.free := rfl
@[simp] theorem updGran_resp (s : State) (g : Nat) (f : Granule → Granule) : (updGran s g f).resp = s.resp := rfl
@[simp] theorem updGran_time (s : State) (g : Nat) (f : Granule → Granule) : (updGran s g f).time = s.time := rfl
@[simp] theorem updGran_variant (s : State) (g : Nat) (f : Granule → Granule) : (updGran s g f).variant = s.variant := rfl
@[simp] theorem updGran_weltGen (s : State) (g : Nat) (f : Granule → Granule) : (updGran s g f).weltGen = s.weltGen := rfl
@[simp] theorem updGran_map (s : State) (g : Nat) (f : Granule → Granule) : (updGran s g f).map = s.map := rfl
@[simp] theorem updGran_disc (s : State) (g : Nat) (f : Granule → Granule) : (updGran s g f).disc = s.disc := rfl
@[simp] theorem updGran_dies (s : State) (g : Nat) (f : Granule → Granule) : (updGran s g f).dies = s.dies := rfl
@[simp] theorem updGran_copyNet (s : State) (g : Nat) (f : Granule → Granule) : (updGran s g f).copyNet = s.copyNet := rfl
@[simp] theorem updGran_sigNet (s : State) (g : Nat) (f : Granule → Granule) : (updGran s g f).sigNet = s.sigNet := rfl
@[simp] theorem updGran_mem (s : State) (g : Nat) (f : Granule → Granule) : (updGran s g f).mem = s.mem := rfl
@[simp] theorem updGran_moves (s : State) (g : Nat) (f : Granule → Granule) : (updGran s g f).moves = s.moves := rfl
@[simp] theorem updGran_filling (s : State) (g : Nat) (f : Granule → Granule) : (updGran s g f).filling = s.filling := rfl
@[simp] theorem updGran_sep (s : State) (g : Nat) (f : Granule → Granule) : (updGran s g f).sep = s.sep := rfl
@[simp] theorem updGran_quotas (s : State) (g : Nat) (f : Granule → Granule) : (updGran s g f).quotas = s.quotas := rfl
@[simp] theorem updGran_ctxs (s : State) (g : Nat) (f : Granule → Granule) : (updGran s g f).ctxs = s.ctxs := rfl
@[simp] theorem updGran_jobs (s : State) (g : Nat) (f : Granule → Granule) : (updGran s g f).jobs = s.jobs := rfl
@[simp] theorem updGran_disp (s : State) (g : Nat) (f : Granule → Granule) : (updGran s g f).disp = s.disp := rfl
@[simp] theorem updGran_parts (s : State) (g : Nat) (f : Granule → Granule) : (updGran s g f).parts = s.parts := rfl
@[simp] theorem updGran_iommu (s : State) (g : Nat) (f : Granule → Granule) : (updGran s g f).iommu = s.iommu := rfl
@[simp] theorem updGran_dom (s : State) (g : Nat) (f : Granule → Granule) : (updGran s g f).dom = s.dom := rfl
@[simp] theorem updGran_cluster (s : State) (g : Nat) (f : Granule → Granule) : (updGran s g f).cluster = s.cluster := rfl
@[simp] theorem updGran_lacing (s : State) (g : Nat) (f : Granule → Granule) : (updGran s g f).lacing = s.lacing := rfl
@[simp] theorem updGran_units (s : State) (g : Nat) (f : Granule → Granule) : (updGran s g f).units = s.units := rfl
@[simp] theorem updGran_tunnel (s : State) (g : Nat) (f : Granule → Granule) : (updGran s g f).tunnel = s.tunnel := rfl
@[simp] theorem updGran_host (s : State) (g : Nat) (f : Granule → Granule) : (updGran s g f).host = s.host := rfl
@[simp] theorem updGran_power (s : State) (g : Nat) (f : Granule → Granule) : (updGran s g f).power = s.power := rfl
@[simp] theorem updGran_sec (s : State) (g : Nat) (f : Granule → Granule) : (updGran s g f).sec = s.sec := rfl
@[simp] theorem updGran_dict (s : State) (g : Nat) (f : Granule → Granule) : (updGran s g f).dict = s.dict := rfl
@[simp] theorem updGran_su (s : State) (g : Nat) (f : Granule → Granule) : (updGran s g f).su = s.su := rfl
@[simp] theorem updGran_nv (s : State) (g : Nat) (f : Granule → Granule) : (updGran s g f).nv = s.nv := rfl
@[simp] theorem updGran_ev (s : State) (g : Nat) (f : Granule → Granule) : (updGran s g f).ev = s.ev := rfl
@[simp] theorem updGran_upd (s : State) (g : Nat) (f : Granule → Granule) : (updGran s g f).upd = s.upd := rfl
@[simp] theorem updGran_cal (s : State) (g : Nat) (f : Granule → Granule) : (updGran s g f).cal = s.cal := rfl

/-! ### updJob -/

@[simp] theorem updJob_pending (s : State) (k : Nat) (f : Job → Job) : (updJob s k f).pending = s.pending := by unfold updJob; split <;> rfl
@[simp] theorem updJob_free (s : State) (k : Nat) (f : Job → Job) : (updJob s k f).free = s.free := by unfold updJob; split <;> rfl
@[simp] theorem updJob_resp (s : State) (k : Nat) (f : Job → Job) : (updJob s k f).resp = s.resp := by unfold updJob; split <;> rfl
@[simp] theorem updJob_time (s : State) (k : Nat) (f : Job → Job) : (updJob s k f).time = s.time := by unfold updJob; split <;> rfl
@[simp] theorem updJob_variant (s : State) (k : Nat) (f : Job → Job) : (updJob s k f).variant = s.variant := by unfold updJob; split <;> rfl
@[simp] theorem updJob_weltGen (s : State) (k : Nat) (f : Job → Job) : (updJob s k f).weltGen = s.weltGen := by unfold updJob; split <;> rfl
@[simp] theorem updJob_map (s : State) (k : Nat) (f : Job → Job) : (updJob s k f).map = s.map := by unfold updJob; split <;> rfl
@[simp] theorem updJob_disc (s : State) (k : Nat) (f : Job → Job) : (updJob s k f).disc = s.disc := by unfold updJob; split <;> rfl
@[simp] theorem updJob_dies (s : State) (k : Nat) (f : Job → Job) : (updJob s k f).dies = s.dies := by unfold updJob; split <;> rfl
@[simp] theorem updJob_copyNet (s : State) (k : Nat) (f : Job → Job) : (updJob s k f).copyNet = s.copyNet := by unfold updJob; split <;> rfl
@[simp] theorem updJob_sigNet (s : State) (k : Nat) (f : Job → Job) : (updJob s k f).sigNet = s.sigNet := by unfold updJob; split <;> rfl
@[simp] theorem updJob_mem (s : State) (k : Nat) (f : Job → Job) : (updJob s k f).mem = s.mem := by unfold updJob; split <;> rfl
@[simp] theorem updJob_grans (s : State) (k : Nat) (f : Job → Job) : (updJob s k f).grans = s.grans := by unfold updJob; split <;> rfl
@[simp] theorem updJob_moves (s : State) (k : Nat) (f : Job → Job) : (updJob s k f).moves = s.moves := by unfold updJob; split <;> rfl
@[simp] theorem updJob_filling (s : State) (k : Nat) (f : Job → Job) : (updJob s k f).filling = s.filling := by unfold updJob; split <;> rfl
@[simp] theorem updJob_sep (s : State) (k : Nat) (f : Job → Job) : (updJob s k f).sep = s.sep := by unfold updJob; split <;> rfl
@[simp] theorem updJob_quotas (s : State) (k : Nat) (f : Job → Job) : (updJob s k f).quotas = s.quotas := by unfold updJob; split <;> rfl
@[simp] theorem updJob_ctxs (s : State) (k : Nat) (f : Job → Job) : (updJob s k f).ctxs = s.ctxs := by unfold updJob; split <;> rfl
@[simp] theorem updJob_disp (s : State) (k : Nat) (f : Job → Job) : (updJob s k f).disp = s.disp := by unfold updJob; split <;> rfl
@[simp] theorem updJob_parts (s : State) (k : Nat) (f : Job → Job) : (updJob s k f).parts = s.parts := by unfold updJob; split <;> rfl
@[simp] theorem updJob_iommu (s : State) (k : Nat) (f : Job → Job) : (updJob s k f).iommu = s.iommu := by unfold updJob; split <;> rfl
@[simp] theorem updJob_dom (s : State) (k : Nat) (f : Job → Job) : (updJob s k f).dom = s.dom := by unfold updJob; split <;> rfl
@[simp] theorem updJob_cluster (s : State) (k : Nat) (f : Job → Job) : (updJob s k f).cluster = s.cluster := by unfold updJob; split <;> rfl
@[simp] theorem updJob_lacing (s : State) (k : Nat) (f : Job → Job) : (updJob s k f).lacing = s.lacing := by unfold updJob; split <;> rfl
@[simp] theorem updJob_units (s : State) (k : Nat) (f : Job → Job) : (updJob s k f).units = s.units := by unfold updJob; split <;> rfl
@[simp] theorem updJob_tunnel (s : State) (k : Nat) (f : Job → Job) : (updJob s k f).tunnel = s.tunnel := by unfold updJob; split <;> rfl
@[simp] theorem updJob_host (s : State) (k : Nat) (f : Job → Job) : (updJob s k f).host = s.host := by unfold updJob; split <;> rfl
@[simp] theorem updJob_power (s : State) (k : Nat) (f : Job → Job) : (updJob s k f).power = s.power := by unfold updJob; split <;> rfl
@[simp] theorem updJob_sec (s : State) (k : Nat) (f : Job → Job) : (updJob s k f).sec = s.sec := by unfold updJob; split <;> rfl
@[simp] theorem updJob_dict (s : State) (k : Nat) (f : Job → Job) : (updJob s k f).dict = s.dict := by unfold updJob; split <;> rfl
@[simp] theorem updJob_su (s : State) (k : Nat) (f : Job → Job) : (updJob s k f).su = s.su := by unfold updJob; split <;> rfl
@[simp] theorem updJob_nv (s : State) (k : Nat) (f : Job → Job) : (updJob s k f).nv = s.nv := by unfold updJob; split <;> rfl
@[simp] theorem updJob_ev (s : State) (k : Nat) (f : Job → Job) : (updJob s k f).ev = s.ev := by unfold updJob; split <;> rfl
@[simp] theorem updJob_upd (s : State) (k : Nat) (f : Job → Job) : (updJob s k f).upd = s.upd := by unfold updJob; split <;> rfl
@[simp] theorem updJob_cal (s : State) (k : Nat) (f : Job → Job) : (updJob s k f).cal = s.cal := by unfold updJob; split <;> rfl

/-! ### updPart -/

@[simp] theorem updPart_pending (s : State) (d : Nat) (f : Partition → Partition) : (updPart s d f).pending = s.pending := rfl
@[simp] theorem updPart_free (s : State) (d : Nat) (f : Partition → Partition) : (updPart s d f).free = s.free := rfl
@[simp] theorem updPart_resp (s : State) (d : Nat) (f : Partition → Partition) : (updPart s d f).resp = s.resp := rfl
@[simp] theorem updPart_time (s : State) (d : Nat) (f : Partition → Partition) : (updPart s d f).time = s.time := rfl
@[simp] theorem updPart_variant (s : State) (d : Nat) (f : Partition → Partition) : (updPart s d f).variant = s.variant := rfl
@[simp] theorem updPart_weltGen (s : State) (d : Nat) (f : Partition → Partition) : (updPart s d f).weltGen = s.weltGen := rfl
@[simp] theorem updPart_map (s : State) (d : Nat) (f : Partition → Partition) : (updPart s d f).map = s.map := rfl
@[simp] theorem updPart_disc (s : State) (d : Nat) (f : Partition → Partition) : (updPart s d f).disc = s.disc := rfl
@[simp] theorem updPart_dies (s : State) (d : Nat) (f : Partition → Partition) : (updPart s d f).dies = s.dies := rfl
@[simp] theorem updPart_copyNet (s : State) (d : Nat) (f : Partition → Partition) : (updPart s d f).copyNet = s.copyNet := rfl
@[simp] theorem updPart_sigNet (s : State) (d : Nat) (f : Partition → Partition) : (updPart s d f).sigNet = s.sigNet := rfl
@[simp] theorem updPart_mem (s : State) (d : Nat) (f : Partition → Partition) : (updPart s d f).mem = s.mem := rfl
@[simp] theorem updPart_grans (s : State) (d : Nat) (f : Partition → Partition) : (updPart s d f).grans = s.grans := rfl
@[simp] theorem updPart_moves (s : State) (d : Nat) (f : Partition → Partition) : (updPart s d f).moves = s.moves := rfl
@[simp] theorem updPart_filling (s : State) (d : Nat) (f : Partition → Partition) : (updPart s d f).filling = s.filling := rfl
@[simp] theorem updPart_sep (s : State) (d : Nat) (f : Partition → Partition) : (updPart s d f).sep = s.sep := rfl
@[simp] theorem updPart_quotas (s : State) (d : Nat) (f : Partition → Partition) : (updPart s d f).quotas = s.quotas := rfl
@[simp] theorem updPart_ctxs (s : State) (d : Nat) (f : Partition → Partition) : (updPart s d f).ctxs = s.ctxs := rfl
@[simp] theorem updPart_jobs (s : State) (d : Nat) (f : Partition → Partition) : (updPart s d f).jobs = s.jobs := rfl
@[simp] theorem updPart_disp (s : State) (d : Nat) (f : Partition → Partition) : (updPart s d f).disp = s.disp := rfl
@[simp] theorem updPart_iommu (s : State) (d : Nat) (f : Partition → Partition) : (updPart s d f).iommu = s.iommu := rfl
@[simp] theorem updPart_dom (s : State) (d : Nat) (f : Partition → Partition) : (updPart s d f).dom = s.dom := rfl
@[simp] theorem updPart_cluster (s : State) (d : Nat) (f : Partition → Partition) : (updPart s d f).cluster = s.cluster := rfl
@[simp] theorem updPart_lacing (s : State) (d : Nat) (f : Partition → Partition) : (updPart s d f).lacing = s.lacing := rfl
@[simp] theorem updPart_units (s : State) (d : Nat) (f : Partition → Partition) : (updPart s d f).units = s.units := rfl
@[simp] theorem updPart_tunnel (s : State) (d : Nat) (f : Partition → Partition) : (updPart s d f).tunnel = s.tunnel := rfl
@[simp] theorem updPart_host (s : State) (d : Nat) (f : Partition → Partition) : (updPart s d f).host = s.host := rfl
@[simp] theorem updPart_power (s : State) (d : Nat) (f : Partition → Partition) : (updPart s d f).power = s.power := rfl
@[simp] theorem updPart_sec (s : State) (d : Nat) (f : Partition → Partition) : (updPart s d f).sec = s.sec := rfl
@[simp] theorem updPart_dict (s : State) (d : Nat) (f : Partition → Partition) : (updPart s d f).dict = s.dict := rfl
@[simp] theorem updPart_su (s : State) (d : Nat) (f : Partition → Partition) : (updPart s d f).su = s.su := rfl
@[simp] theorem updPart_nv (s : State) (d : Nat) (f : Partition → Partition) : (updPart s d f).nv = s.nv := rfl
@[simp] theorem updPart_ev (s : State) (d : Nat) (f : Partition → Partition) : (updPart s d f).ev = s.ev := rfl
@[simp] theorem updPart_upd (s : State) (d : Nat) (f : Partition → Partition) : (updPart s d f).upd = s.upd := rfl
@[simp] theorem updPart_cal (s : State) (d : Nat) (f : Partition → Partition) : (updPart s d f).cal = s.cal := rfl

/-! ### updUnit -/

@[simp] theorem updUnit_pending (s : State) (u : Nat) (f : MemUnit → MemUnit) : (updUnit s u f).pending = s.pending := rfl
@[simp] theorem updUnit_free (s : State) (u : Nat) (f : MemUnit → MemUnit) : (updUnit s u f).free = s.free := rfl
@[simp] theorem updUnit_resp (s : State) (u : Nat) (f : MemUnit → MemUnit) : (updUnit s u f).resp = s.resp := rfl
@[simp] theorem updUnit_time (s : State) (u : Nat) (f : MemUnit → MemUnit) : (updUnit s u f).time = s.time := rfl
@[simp] theorem updUnit_variant (s : State) (u : Nat) (f : MemUnit → MemUnit) : (updUnit s u f).variant = s.variant := rfl
@[simp] theorem updUnit_weltGen (s : State) (u : Nat) (f : MemUnit → MemUnit) : (updUnit s u f).weltGen = s.weltGen := rfl
@[simp] theorem updUnit_map (s : State) (u : Nat) (f : MemUnit → MemUnit) : (updUnit s u f).map = s.map := rfl
@[simp] theorem updUnit_disc (s : State) (u : Nat) (f : MemUnit → MemUnit) : (updUnit s u f).disc = s.disc := rfl
@[simp] theorem updUnit_dies (s : State) (u : Nat) (f : MemUnit → MemUnit) : (updUnit s u f).dies = s.dies := rfl
@[simp] theorem updUnit_copyNet (s : State) (u : Nat) (f : MemUnit → MemUnit) : (updUnit s u f).copyNet = s.copyNet := rfl
@[simp] theorem updUnit_sigNet (s : State) (u : Nat) (f : MemUnit → MemUnit) : (updUnit s u f).sigNet = s.sigNet := rfl
@[simp] theorem updUnit_mem (s : State) (u : Nat) (f : MemUnit → MemUnit) : (updUnit s u f).mem = s.mem := rfl
@[simp] theorem updUnit_grans (s : State) (u : Nat) (f : MemUnit → MemUnit) : (updUnit s u f).grans = s.grans := rfl
@[simp] theorem updUnit_moves (s : State) (u : Nat) (f : MemUnit → MemUnit) : (updUnit s u f).moves = s.moves := rfl
@[simp] theorem updUnit_filling (s : State) (u : Nat) (f : MemUnit → MemUnit) : (updUnit s u f).filling = s.filling := rfl
@[simp] theorem updUnit_sep (s : State) (u : Nat) (f : MemUnit → MemUnit) : (updUnit s u f).sep = s.sep := rfl
@[simp] theorem updUnit_quotas (s : State) (u : Nat) (f : MemUnit → MemUnit) : (updUnit s u f).quotas = s.quotas := rfl
@[simp] theorem updUnit_ctxs (s : State) (u : Nat) (f : MemUnit → MemUnit) : (updUnit s u f).ctxs = s.ctxs := rfl
@[simp] theorem updUnit_jobs (s : State) (u : Nat) (f : MemUnit → MemUnit) : (updUnit s u f).jobs = s.jobs := rfl
@[simp] theorem updUnit_disp (s : State) (u : Nat) (f : MemUnit → MemUnit) : (updUnit s u f).disp = s.disp := rfl
@[simp] theorem updUnit_parts (s : State) (u : Nat) (f : MemUnit → MemUnit) : (updUnit s u f).parts = s.parts := rfl
@[simp] theorem updUnit_iommu (s : State) (u : Nat) (f : MemUnit → MemUnit) : (updUnit s u f).iommu = s.iommu := rfl
@[simp] theorem updUnit_dom (s : State) (u : Nat) (f : MemUnit → MemUnit) : (updUnit s u f).dom = s.dom := rfl
@[simp] theorem updUnit_cluster (s : State) (u : Nat) (f : MemUnit → MemUnit) : (updUnit s u f).cluster = s.cluster := rfl
@[simp] theorem updUnit_lacing (s : State) (u : Nat) (f : MemUnit → MemUnit) : (updUnit s u f).lacing = s.lacing := rfl
@[simp] theorem updUnit_tunnel (s : State) (u : Nat) (f : MemUnit → MemUnit) : (updUnit s u f).tunnel = s.tunnel := rfl
@[simp] theorem updUnit_host (s : State) (u : Nat) (f : MemUnit → MemUnit) : (updUnit s u f).host = s.host := rfl
@[simp] theorem updUnit_power (s : State) (u : Nat) (f : MemUnit → MemUnit) : (updUnit s u f).power = s.power := rfl
@[simp] theorem updUnit_sec (s : State) (u : Nat) (f : MemUnit → MemUnit) : (updUnit s u f).sec = s.sec := rfl
@[simp] theorem updUnit_dict (s : State) (u : Nat) (f : MemUnit → MemUnit) : (updUnit s u f).dict = s.dict := rfl
@[simp] theorem updUnit_su (s : State) (u : Nat) (f : MemUnit → MemUnit) : (updUnit s u f).su = s.su := rfl
@[simp] theorem updUnit_nv (s : State) (u : Nat) (f : MemUnit → MemUnit) : (updUnit s u f).nv = s.nv := rfl
@[simp] theorem updUnit_ev (s : State) (u : Nat) (f : MemUnit → MemUnit) : (updUnit s u f).ev = s.ev := rfl
@[simp] theorem updUnit_upd (s : State) (u : Nat) (f : MemUnit → MemUnit) : (updUnit s u f).upd = s.upd := rfl
@[simp] theorem updUnit_cal (s : State) (u : Nat) (f : MemUnit → MemUnit) : (updUnit s u f).cal = s.cal := rfl

/-! ### updRail -/

@[simp] theorem updRail_pending (s : State) (i : Nat) (f : Rail → Rail) : (updRail s i f).pending = s.pending := rfl
@[simp] theorem updRail_free (s : State) (i : Nat) (f : Rail → Rail) : (updRail s i f).free = s.free := rfl
@[simp] theorem updRail_resp (s : State) (i : Nat) (f : Rail → Rail) : (updRail s i f).resp = s.resp := rfl
@[simp] theorem updRail_time (s : State) (i : Nat) (f : Rail → Rail) : (updRail s i f).time = s.time := rfl
@[simp] theorem updRail_variant (s : State) (i : Nat) (f : Rail → Rail) : (updRail s i f).variant = s.variant := rfl
@[simp] theorem updRail_weltGen (s : State) (i : Nat) (f : Rail → Rail) : (updRail s i f).weltGen = s.weltGen := rfl
@[simp] theorem updRail_map (s : State) (i : Nat) (f : Rail → Rail) : (updRail s i f).map = s.map := rfl
@[simp] theorem updRail_disc (s : State) (i : Nat) (f : Rail → Rail) : (updRail s i f).disc = s.disc := rfl
@[simp] theorem updRail_dies (s : State) (i : Nat) (f : Rail → Rail) : (updRail s i f).dies = s.dies := rfl
@[simp] theorem updRail_copyNet (s : State) (i : Nat) (f : Rail → Rail) : (updRail s i f).copyNet = s.copyNet := rfl
@[simp] theorem updRail_sigNet (s : State) (i : Nat) (f : Rail → Rail) : (updRail s i f).sigNet = s.sigNet := rfl
@[simp] theorem updRail_mem (s : State) (i : Nat) (f : Rail → Rail) : (updRail s i f).mem = s.mem := rfl
@[simp] theorem updRail_grans (s : State) (i : Nat) (f : Rail → Rail) : (updRail s i f).grans = s.grans := rfl
@[simp] theorem updRail_moves (s : State) (i : Nat) (f : Rail → Rail) : (updRail s i f).moves = s.moves := rfl
@[simp] theorem updRail_filling (s : State) (i : Nat) (f : Rail → Rail) : (updRail s i f).filling = s.filling := rfl
@[simp] theorem updRail_sep (s : State) (i : Nat) (f : Rail → Rail) : (updRail s i f).sep = s.sep := rfl
@[simp] theorem updRail_quotas (s : State) (i : Nat) (f : Rail → Rail) : (updRail s i f).quotas = s.quotas := rfl
@[simp] theorem updRail_ctxs (s : State) (i : Nat) (f : Rail → Rail) : (updRail s i f).ctxs = s.ctxs := rfl
@[simp] theorem updRail_jobs (s : State) (i : Nat) (f : Rail → Rail) : (updRail s i f).jobs = s.jobs := rfl
@[simp] theorem updRail_disp (s : State) (i : Nat) (f : Rail → Rail) : (updRail s i f).disp = s.disp := rfl
@[simp] theorem updRail_parts (s : State) (i : Nat) (f : Rail → Rail) : (updRail s i f).parts = s.parts := rfl
@[simp] theorem updRail_iommu (s : State) (i : Nat) (f : Rail → Rail) : (updRail s i f).iommu = s.iommu := rfl
@[simp] theorem updRail_dom (s : State) (i : Nat) (f : Rail → Rail) : (updRail s i f).dom = s.dom := rfl
@[simp] theorem updRail_cluster (s : State) (i : Nat) (f : Rail → Rail) : (updRail s i f).cluster = s.cluster := rfl
@[simp] theorem updRail_lacing (s : State) (i : Nat) (f : Rail → Rail) : (updRail s i f).lacing = s.lacing := rfl
@[simp] theorem updRail_units (s : State) (i : Nat) (f : Rail → Rail) : (updRail s i f).units = s.units := rfl
@[simp] theorem updRail_tunnel (s : State) (i : Nat) (f : Rail → Rail) : (updRail s i f).tunnel = s.tunnel := rfl
@[simp] theorem updRail_host (s : State) (i : Nat) (f : Rail → Rail) : (updRail s i f).host = s.host := rfl
@[simp] theorem updRail_sec (s : State) (i : Nat) (f : Rail → Rail) : (updRail s i f).sec = s.sec := rfl
@[simp] theorem updRail_dict (s : State) (i : Nat) (f : Rail → Rail) : (updRail s i f).dict = s.dict := rfl
@[simp] theorem updRail_su (s : State) (i : Nat) (f : Rail → Rail) : (updRail s i f).su = s.su := rfl
@[simp] theorem updRail_nv (s : State) (i : Nat) (f : Rail → Rail) : (updRail s i f).nv = s.nv := rfl
@[simp] theorem updRail_ev (s : State) (i : Nat) (f : Rail → Rail) : (updRail s i f).ev = s.ev := rfl
@[simp] theorem updRail_upd (s : State) (i : Nat) (f : Rail → Rail) : (updRail s i f).upd = s.upd := rfl
@[simp] theorem updRail_cal (s : State) (i : Nat) (f : Rail → Rail) : (updRail s i f).cal = s.cal := rfl

/-! ### updPartner -/

@[simp] theorem updPartner_pending (s : State) (p : Nat) (f : Partner → Partner) : (updPartner s p f).pending = s.pending := rfl
@[simp] theorem updPartner_free (s : State) (p : Nat) (f : Partner → Partner) : (updPartner s p f).free = s.free := rfl
@[simp] theorem updPartner_resp (s : State) (p : Nat) (f : Partner → Partner) : (updPartner s p f).resp = s.resp := rfl
@[simp] theorem updPartner_time (s : State) (p : Nat) (f : Partner → Partner) : (updPartner s p f).time = s.time := rfl
@[simp] theorem updPartner_variant (s : State) (p : Nat) (f : Partner → Partner) : (updPartner s p f).variant = s.variant := rfl
@[simp] theorem updPartner_weltGen (s : State) (p : Nat) (f : Partner → Partner) : (updPartner s p f).weltGen = s.weltGen := rfl
@[simp] theorem updPartner_map (s : State) (p : Nat) (f : Partner → Partner) : (updPartner s p f).map = s.map := rfl
@[simp] theorem updPartner_disc (s : State) (p : Nat) (f : Partner → Partner) : (updPartner s p f).disc = s.disc := rfl
@[simp] theorem updPartner_dies (s : State) (p : Nat) (f : Partner → Partner) : (updPartner s p f).dies = s.dies := rfl
@[simp] theorem updPartner_copyNet (s : State) (p : Nat) (f : Partner → Partner) : (updPartner s p f).copyNet = s.copyNet := rfl
@[simp] theorem updPartner_sigNet (s : State) (p : Nat) (f : Partner → Partner) : (updPartner s p f).sigNet = s.sigNet := rfl
@[simp] theorem updPartner_mem (s : State) (p : Nat) (f : Partner → Partner) : (updPartner s p f).mem = s.mem := rfl
@[simp] theorem updPartner_grans (s : State) (p : Nat) (f : Partner → Partner) : (updPartner s p f).grans = s.grans := rfl
@[simp] theorem updPartner_moves (s : State) (p : Nat) (f : Partner → Partner) : (updPartner s p f).moves = s.moves := rfl
@[simp] theorem updPartner_filling (s : State) (p : Nat) (f : Partner → Partner) : (updPartner s p f).filling = s.filling := rfl
@[simp] theorem updPartner_sep (s : State) (p : Nat) (f : Partner → Partner) : (updPartner s p f).sep = s.sep := rfl
@[simp] theorem updPartner_quotas (s : State) (p : Nat) (f : Partner → Partner) : (updPartner s p f).quotas = s.quotas := rfl
@[simp] theorem updPartner_ctxs (s : State) (p : Nat) (f : Partner → Partner) : (updPartner s p f).ctxs = s.ctxs := rfl
@[simp] theorem updPartner_jobs (s : State) (p : Nat) (f : Partner → Partner) : (updPartner s p f).jobs = s.jobs := rfl
@[simp] theorem updPartner_disp (s : State) (p : Nat) (f : Partner → Partner) : (updPartner s p f).disp = s.disp := rfl
@[simp] theorem updPartner_parts (s : State) (p : Nat) (f : Partner → Partner) : (updPartner s p f).parts = s.parts := rfl
@[simp] theorem updPartner_iommu (s : State) (p : Nat) (f : Partner → Partner) : (updPartner s p f).iommu = s.iommu := rfl
@[simp] theorem updPartner_dom (s : State) (p : Nat) (f : Partner → Partner) : (updPartner s p f).dom = s.dom := rfl
@[simp] theorem updPartner_cluster (s : State) (p : Nat) (f : Partner → Partner) : (updPartner s p f).cluster = s.cluster := rfl
@[simp] theorem updPartner_units (s : State) (p : Nat) (f : Partner → Partner) : (updPartner s p f).units = s.units := rfl
@[simp] theorem updPartner_tunnel (s : State) (p : Nat) (f : Partner → Partner) : (updPartner s p f).tunnel = s.tunnel := rfl
@[simp] theorem updPartner_host (s : State) (p : Nat) (f : Partner → Partner) : (updPartner s p f).host = s.host := rfl
@[simp] theorem updPartner_power (s : State) (p : Nat) (f : Partner → Partner) : (updPartner s p f).power = s.power := rfl
@[simp] theorem updPartner_sec (s : State) (p : Nat) (f : Partner → Partner) : (updPartner s p f).sec = s.sec := rfl
@[simp] theorem updPartner_dict (s : State) (p : Nat) (f : Partner → Partner) : (updPartner s p f).dict = s.dict := rfl
@[simp] theorem updPartner_su (s : State) (p : Nat) (f : Partner → Partner) : (updPartner s p f).su = s.su := rfl
@[simp] theorem updPartner_nv (s : State) (p : Nat) (f : Partner → Partner) : (updPartner s p f).nv = s.nv := rfl
@[simp] theorem updPartner_ev (s : State) (p : Nat) (f : Partner → Partner) : (updPartner s p f).ev = s.ev := rfl
@[simp] theorem updPartner_upd (s : State) (p : Nat) (f : Partner → Partner) : (updPartner s p f).upd = s.upd := rfl
@[simp] theorem updPartner_cal (s : State) (p : Nat) (f : Partner → Partner) : (updPartner s p f).cal = s.cal := rfl

/-! ### updEye -/

@[simp] theorem updEye_pending (s : State) (e : Nat) (f : Eyelet → Eyelet) : (updEye s e f).pending = s.pending := rfl
@[simp] theorem updEye_free (s : State) (e : Nat) (f : Eyelet → Eyelet) : (updEye s e f).free = s.free := rfl
@[simp] theorem updEye_resp (s : State) (e : Nat) (f : Eyelet → Eyelet) : (updEye s e f).resp = s.resp := rfl
@[simp] theorem updEye_time (s : State) (e : Nat) (f : Eyelet → Eyelet) : (updEye s e f).time = s.time := rfl
@[simp] theorem updEye_variant (s : State) (e : Nat) (f : Eyelet → Eyelet) : (updEye s e f).variant = s.variant := rfl
@[simp] theorem updEye_weltGen (s : State) (e : Nat) (f : Eyelet → Eyelet) : (updEye s e f).weltGen = s.weltGen := rfl
@[simp] theorem updEye_map (s : State) (e : Nat) (f : Eyelet → Eyelet) : (updEye s e f).map = s.map := rfl
@[simp] theorem updEye_disc (s : State) (e : Nat) (f : Eyelet → Eyelet) : (updEye s e f).disc = s.disc := rfl
@[simp] theorem updEye_dies (s : State) (e : Nat) (f : Eyelet → Eyelet) : (updEye s e f).dies = s.dies := rfl
@[simp] theorem updEye_copyNet (s : State) (e : Nat) (f : Eyelet → Eyelet) : (updEye s e f).copyNet = s.copyNet := rfl
@[simp] theorem updEye_sigNet (s : State) (e : Nat) (f : Eyelet → Eyelet) : (updEye s e f).sigNet = s.sigNet := rfl
@[simp] theorem updEye_mem (s : State) (e : Nat) (f : Eyelet → Eyelet) : (updEye s e f).mem = s.mem := rfl
@[simp] theorem updEye_grans (s : State) (e : Nat) (f : Eyelet → Eyelet) : (updEye s e f).grans = s.grans := rfl
@[simp] theorem updEye_moves (s : State) (e : Nat) (f : Eyelet → Eyelet) : (updEye s e f).moves = s.moves := rfl
@[simp] theorem updEye_filling (s : State) (e : Nat) (f : Eyelet → Eyelet) : (updEye s e f).filling = s.filling := rfl
@[simp] theorem updEye_sep (s : State) (e : Nat) (f : Eyelet → Eyelet) : (updEye s e f).sep = s.sep := rfl
@[simp] theorem updEye_quotas (s : State) (e : Nat) (f : Eyelet → Eyelet) : (updEye s e f).quotas = s.quotas := rfl
@[simp] theorem updEye_ctxs (s : State) (e : Nat) (f : Eyelet → Eyelet) : (updEye s e f).ctxs = s.ctxs := rfl
@[simp] theorem updEye_jobs (s : State) (e : Nat) (f : Eyelet → Eyelet) : (updEye s e f).jobs = s.jobs := rfl
@[simp] theorem updEye_disp (s : State) (e : Nat) (f : Eyelet → Eyelet) : (updEye s e f).disp = s.disp := rfl
@[simp] theorem updEye_parts (s : State) (e : Nat) (f : Eyelet → Eyelet) : (updEye s e f).parts = s.parts := rfl
@[simp] theorem updEye_iommu (s : State) (e : Nat) (f : Eyelet → Eyelet) : (updEye s e f).iommu = s.iommu := rfl
@[simp] theorem updEye_dom (s : State) (e : Nat) (f : Eyelet → Eyelet) : (updEye s e f).dom = s.dom := rfl
@[simp] theorem updEye_cluster (s : State) (e : Nat) (f : Eyelet → Eyelet) : (updEye s e f).cluster = s.cluster := rfl
@[simp] theorem updEye_units (s : State) (e : Nat) (f : Eyelet → Eyelet) : (updEye s e f).units = s.units := rfl
@[simp] theorem updEye_tunnel (s : State) (e : Nat) (f : Eyelet → Eyelet) : (updEye s e f).tunnel = s.tunnel := rfl
@[simp] theorem updEye_host (s : State) (e : Nat) (f : Eyelet → Eyelet) : (updEye s e f).host = s.host := rfl
@[simp] theorem updEye_power (s : State) (e : Nat) (f : Eyelet → Eyelet) : (updEye s e f).power = s.power := rfl
@[simp] theorem updEye_sec (s : State) (e : Nat) (f : Eyelet → Eyelet) : (updEye s e f).sec = s.sec := rfl
@[simp] theorem updEye_dict (s : State) (e : Nat) (f : Eyelet → Eyelet) : (updEye s e f).dict = s.dict := rfl
@[simp] theorem updEye_su (s : State) (e : Nat) (f : Eyelet → Eyelet) : (updEye s e f).su = s.su := rfl
@[simp] theorem updEye_nv (s : State) (e : Nat) (f : Eyelet → Eyelet) : (updEye s e f).nv = s.nv := rfl
@[simp] theorem updEye_ev (s : State) (e : Nat) (f : Eyelet → Eyelet) : (updEye s e f).ev = s.ev := rfl
@[simp] theorem updEye_upd (s : State) (e : Nat) (f : Eyelet → Eyelet) : (updEye s e f).upd = s.upd := rfl
@[simp] theorem updEye_cal (s : State) (e : Nat) (f : Eyelet → Eyelet) : (updEye s e f).cal = s.cal := rfl

/-! ### updQueue -/

@[simp] theorem updQueue_pending (s : State) (q : Nat) (f : IngestQueue → IngestQueue) : (updQueue s q f).pending = s.pending := rfl
@[simp] theorem updQueue_free (s : State) (q : Nat) (f : IngestQueue → IngestQueue) : (updQueue s q f).free = s.free := rfl
@[simp] theorem updQueue_resp (s : State) (q : Nat) (f : IngestQueue → IngestQueue) : (updQueue s q f).resp = s.resp := rfl
@[simp] theorem updQueue_time (s : State) (q : Nat) (f : IngestQueue → IngestQueue) : (updQueue s q f).time = s.time := rfl
@[simp] theorem updQueue_variant (s : State) (q : Nat) (f : IngestQueue → IngestQueue) : (updQueue s q f).variant = s.variant := rfl
@[simp] theorem updQueue_weltGen (s : State) (q : Nat) (f : IngestQueue → IngestQueue) : (updQueue s q f).weltGen = s.weltGen := rfl
@[simp] theorem updQueue_map (s : State) (q : Nat) (f : IngestQueue → IngestQueue) : (updQueue s q f).map = s.map := rfl
@[simp] theorem updQueue_disc (s : State) (q : Nat) (f : IngestQueue → IngestQueue) : (updQueue s q f).disc = s.disc := rfl
@[simp] theorem updQueue_dies (s : State) (q : Nat) (f : IngestQueue → IngestQueue) : (updQueue s q f).dies = s.dies := rfl
@[simp] theorem updQueue_copyNet (s : State) (q : Nat) (f : IngestQueue → IngestQueue) : (updQueue s q f).copyNet = s.copyNet := rfl
@[simp] theorem updQueue_sigNet (s : State) (q : Nat) (f : IngestQueue → IngestQueue) : (updQueue s q f).sigNet = s.sigNet := rfl
@[simp] theorem updQueue_mem (s : State) (q : Nat) (f : IngestQueue → IngestQueue) : (updQueue s q f).mem = s.mem := rfl
@[simp] theorem updQueue_grans (s : State) (q : Nat) (f : IngestQueue → IngestQueue) : (updQueue s q f).grans = s.grans := rfl
@[simp] theorem updQueue_moves (s : State) (q : Nat) (f : IngestQueue → IngestQueue) : (updQueue s q f).moves = s.moves := rfl
@[simp] theorem updQueue_filling (s : State) (q : Nat) (f : IngestQueue → IngestQueue) : (updQueue s q f).filling = s.filling := rfl
@[simp] theorem updQueue_sep (s : State) (q : Nat) (f : IngestQueue → IngestQueue) : (updQueue s q f).sep = s.sep := rfl
@[simp] theorem updQueue_quotas (s : State) (q : Nat) (f : IngestQueue → IngestQueue) : (updQueue s q f).quotas = s.quotas := rfl
@[simp] theorem updQueue_ctxs (s : State) (q : Nat) (f : IngestQueue → IngestQueue) : (updQueue s q f).ctxs = s.ctxs := rfl
@[simp] theorem updQueue_jobs (s : State) (q : Nat) (f : IngestQueue → IngestQueue) : (updQueue s q f).jobs = s.jobs := rfl
@[simp] theorem updQueue_disp (s : State) (q : Nat) (f : IngestQueue → IngestQueue) : (updQueue s q f).disp = s.disp := rfl
@[simp] theorem updQueue_parts (s : State) (q : Nat) (f : IngestQueue → IngestQueue) : (updQueue s q f).parts = s.parts := rfl
@[simp] theorem updQueue_iommu (s : State) (q : Nat) (f : IngestQueue → IngestQueue) : (updQueue s q f).iommu = s.iommu := rfl
@[simp] theorem updQueue_dom (s : State) (q : Nat) (f : IngestQueue → IngestQueue) : (updQueue s q f).dom = s.dom := rfl
@[simp] theorem updQueue_cluster (s : State) (q : Nat) (f : IngestQueue → IngestQueue) : (updQueue s q f).cluster = s.cluster := rfl
@[simp] theorem updQueue_lacing (s : State) (q : Nat) (f : IngestQueue → IngestQueue) : (updQueue s q f).lacing = s.lacing := rfl
@[simp] theorem updQueue_units (s : State) (q : Nat) (f : IngestQueue → IngestQueue) : (updQueue s q f).units = s.units := rfl
@[simp] theorem updQueue_tunnel (s : State) (q : Nat) (f : IngestQueue → IngestQueue) : (updQueue s q f).tunnel = s.tunnel := rfl
@[simp] theorem updQueue_power (s : State) (q : Nat) (f : IngestQueue → IngestQueue) : (updQueue s q f).power = s.power := rfl
@[simp] theorem updQueue_sec (s : State) (q : Nat) (f : IngestQueue → IngestQueue) : (updQueue s q f).sec = s.sec := rfl
@[simp] theorem updQueue_dict (s : State) (q : Nat) (f : IngestQueue → IngestQueue) : (updQueue s q f).dict = s.dict := rfl
@[simp] theorem updQueue_su (s : State) (q : Nat) (f : IngestQueue → IngestQueue) : (updQueue s q f).su = s.su := rfl
@[simp] theorem updQueue_nv (s : State) (q : Nat) (f : IngestQueue → IngestQueue) : (updQueue s q f).nv = s.nv := rfl
@[simp] theorem updQueue_ev (s : State) (q : Nat) (f : IngestQueue → IngestQueue) : (updQueue s q f).ev = s.ev := rfl
@[simp] theorem updQueue_upd (s : State) (q : Nat) (f : IngestQueue → IngestQueue) : (updQueue s q f).upd = s.upd := rfl
@[simp] theorem updQueue_cal (s : State) (q : Nat) (f : IngestQueue → IngestQueue) : (updQueue s q f).cal = s.cal := rfl

/-! ### updHart -/

@[simp] theorem updHart_pending (s : State) (h : Nat) (f : Hart → Hart) : (updHart s h f).pending = s.pending := rfl
@[simp] theorem updHart_free (s : State) (h : Nat) (f : Hart → Hart) : (updHart s h f).free = s.free := rfl
@[simp] theorem updHart_resp (s : State) (h : Nat) (f : Hart → Hart) : (updHart s h f).resp = s.resp := rfl
@[simp] theorem updHart_time (s : State) (h : Nat) (f : Hart → Hart) : (updHart s h f).time = s.time := rfl
@[simp] theorem updHart_variant (s : State) (h : Nat) (f : Hart → Hart) : (updHart s h f).variant = s.variant := rfl
@[simp] theorem updHart_weltGen (s : State) (h : Nat) (f : Hart → Hart) : (updHart s h f).weltGen = s.weltGen := rfl
@[simp] theorem updHart_map (s : State) (h : Nat) (f : Hart → Hart) : (updHart s h f).map = s.map := rfl
@[simp] theorem updHart_disc (s : State) (h : Nat) (f : Hart → Hart) : (updHart s h f).disc = s.disc := rfl
@[simp] theorem updHart_dies (s : State) (h : Nat) (f : Hart → Hart) : (updHart s h f).dies = s.dies := rfl
@[simp] theorem updHart_copyNet (s : State) (h : Nat) (f : Hart → Hart) : (updHart s h f).copyNet = s.copyNet := rfl
@[simp] theorem updHart_sigNet (s : State) (h : Nat) (f : Hart → Hart) : (updHart s h f).sigNet = s.sigNet := rfl
@[simp] theorem updHart_mem (s : State) (h : Nat) (f : Hart → Hart) : (updHart s h f).mem = s.mem := rfl
@[simp] theorem updHart_grans (s : State) (h : Nat) (f : Hart → Hart) : (updHart s h f).grans = s.grans := rfl
@[simp] theorem updHart_moves (s : State) (h : Nat) (f : Hart → Hart) : (updHart s h f).moves = s.moves := rfl
@[simp] theorem updHart_filling (s : State) (h : Nat) (f : Hart → Hart) : (updHart s h f).filling = s.filling := rfl
@[simp] theorem updHart_sep (s : State) (h : Nat) (f : Hart → Hart) : (updHart s h f).sep = s.sep := rfl
@[simp] theorem updHart_quotas (s : State) (h : Nat) (f : Hart → Hart) : (updHart s h f).quotas = s.quotas := rfl
@[simp] theorem updHart_ctxs (s : State) (h : Nat) (f : Hart → Hart) : (updHart s h f).ctxs = s.ctxs := rfl
@[simp] theorem updHart_jobs (s : State) (h : Nat) (f : Hart → Hart) : (updHart s h f).jobs = s.jobs := rfl
@[simp] theorem updHart_disp (s : State) (h : Nat) (f : Hart → Hart) : (updHart s h f).disp = s.disp := rfl
@[simp] theorem updHart_parts (s : State) (h : Nat) (f : Hart → Hart) : (updHart s h f).parts = s.parts := rfl
@[simp] theorem updHart_iommu (s : State) (h : Nat) (f : Hart → Hart) : (updHart s h f).iommu = s.iommu := rfl
@[simp] theorem updHart_dom (s : State) (h : Nat) (f : Hart → Hart) : (updHart s h f).dom = s.dom := rfl
@[simp] theorem updHart_lacing (s : State) (h : Nat) (f : Hart → Hart) : (updHart s h f).lacing = s.lacing := rfl
@[simp] theorem updHart_units (s : State) (h : Nat) (f : Hart → Hart) : (updHart s h f).units = s.units := rfl
@[simp] theorem updHart_tunnel (s : State) (h : Nat) (f : Hart → Hart) : (updHart s h f).tunnel = s.tunnel := rfl
@[simp] theorem updHart_host (s : State) (h : Nat) (f : Hart → Hart) : (updHart s h f).host = s.host := rfl
@[simp] theorem updHart_power (s : State) (h : Nat) (f : Hart → Hart) : (updHart s h f).power = s.power := rfl
@[simp] theorem updHart_sec (s : State) (h : Nat) (f : Hart → Hart) : (updHart s h f).sec = s.sec := rfl
@[simp] theorem updHart_dict (s : State) (h : Nat) (f : Hart → Hart) : (updHart s h f).dict = s.dict := rfl
@[simp] theorem updHart_su (s : State) (h : Nat) (f : Hart → Hart) : (updHart s h f).su = s.su := rfl
@[simp] theorem updHart_nv (s : State) (h : Nat) (f : Hart → Hart) : (updHart s h f).nv = s.nv := rfl
@[simp] theorem updHart_ev (s : State) (h : Nat) (f : Hart → Hart) : (updHart s h f).ev = s.ev := rfl
@[simp] theorem updHart_upd (s : State) (h : Nat) (f : Hart → Hart) : (updHart s h f).upd = s.upd := rfl
@[simp] theorem updHart_cal (s : State) (h : Nat) (f : Hart → Hart) : (updHart s h f).cal = s.cal := rfl

/-! ### drew -/

@[simp] theorem drew_pending (s : State) : (drew s).pending = s.pending := rfl
@[simp] theorem drew_resp (s : State) : (drew s).resp = s.resp := rfl
@[simp] theorem drew_time (s : State) : (drew s).time = s.time := rfl
@[simp] theorem drew_variant (s : State) : (drew s).variant = s.variant := rfl
@[simp] theorem drew_weltGen (s : State) : (drew s).weltGen = s.weltGen := rfl
@[simp] theorem drew_map (s : State) : (drew s).map = s.map := rfl
@[simp] theorem drew_disc (s : State) : (drew s).disc = s.disc := rfl
@[simp] theorem drew_dies (s : State) : (drew s).dies = s.dies := rfl
@[simp] theorem drew_copyNet (s : State) : (drew s).copyNet = s.copyNet := rfl
@[simp] theorem drew_sigNet (s : State) : (drew s).sigNet = s.sigNet := rfl
@[simp] theorem drew_mem (s : State) : (drew s).mem = s.mem := rfl
@[simp] theorem drew_grans (s : State) : (drew s).grans = s.grans := rfl
@[simp] theorem drew_moves (s : State) : (drew s).moves = s.moves := rfl
@[simp] theorem drew_filling (s : State) : (drew s).filling = s.filling := rfl
@[simp] theorem drew_sep (s : State) : (drew s).sep = s.sep := rfl
@[simp] theorem drew_quotas (s : State) : (drew s).quotas = s.quotas := rfl
@[simp] theorem drew_ctxs (s : State) : (drew s).ctxs = s.ctxs := rfl
@[simp] theorem drew_jobs (s : State) : (drew s).jobs = s.jobs := rfl
@[simp] theorem drew_disp (s : State) : (drew s).disp = s.disp := rfl
@[simp] theorem drew_parts (s : State) : (drew s).parts = s.parts := rfl
@[simp] theorem drew_iommu (s : State) : (drew s).iommu = s.iommu := rfl
@[simp] theorem drew_dom (s : State) : (drew s).dom = s.dom := rfl
@[simp] theorem drew_cluster (s : State) : (drew s).cluster = s.cluster := rfl
@[simp] theorem drew_lacing (s : State) : (drew s).lacing = s.lacing := rfl
@[simp] theorem drew_units (s : State) : (drew s).units = s.units := rfl
@[simp] theorem drew_tunnel (s : State) : (drew s).tunnel = s.tunnel := rfl
@[simp] theorem drew_host (s : State) : (drew s).host = s.host := rfl
@[simp] theorem drew_power (s : State) : (drew s).power = s.power := rfl
@[simp] theorem drew_sec (s : State) : (drew s).sec = s.sec := rfl
@[simp] theorem drew_dict (s : State) : (drew s).dict = s.dict := rfl
@[simp] theorem drew_su (s : State) : (drew s).su = s.su := rfl
@[simp] theorem drew_nv (s : State) : (drew s).nv = s.nv := rfl
@[simp] theorem drew_ev (s : State) : (drew s).ev = s.ev := rfl
@[simp] theorem drew_upd (s : State) : (drew s).upd = s.upd := rfl
@[simp] theorem drew_cal (s : State) : (drew s).cal = s.cal := rfl

/-! ### answer -/

@[simp] theorem answer_pending (r : Response) (s : State) : (answer r s).pending = s.pending := rfl
@[simp] theorem answer_free (r : Response) (s : State) : (answer r s).free = s.free := rfl
@[simp] theorem answer_time (r : Response) (s : State) : (answer r s).time = s.time := rfl
@[simp] theorem answer_variant (r : Response) (s : State) : (answer r s).variant = s.variant := rfl
@[simp] theorem answer_weltGen (r : Response) (s : State) : (answer r s).weltGen = s.weltGen := rfl
@[simp] theorem answer_map (r : Response) (s : State) : (answer r s).map = s.map := rfl
@[simp] theorem answer_disc (r : Response) (s : State) : (answer r s).disc = s.disc := rfl
@[simp] theorem answer_dies (r : Response) (s : State) : (answer r s).dies = s.dies := rfl
@[simp] theorem answer_copyNet (r : Response) (s : State) : (answer r s).copyNet = s.copyNet := rfl
@[simp] theorem answer_sigNet (r : Response) (s : State) : (answer r s).sigNet = s.sigNet := rfl
@[simp] theorem answer_mem (r : Response) (s : State) : (answer r s).mem = s.mem := rfl
@[simp] theorem answer_grans (r : Response) (s : State) : (answer r s).grans = s.grans := rfl
@[simp] theorem answer_moves (r : Response) (s : State) : (answer r s).moves = s.moves := rfl
@[simp] theorem answer_filling (r : Response) (s : State) : (answer r s).filling = s.filling := rfl
@[simp] theorem answer_sep (r : Response) (s : State) : (answer r s).sep = s.sep := rfl
@[simp] theorem answer_quotas (r : Response) (s : State) : (answer r s).quotas = s.quotas := rfl
@[simp] theorem answer_ctxs (r : Response) (s : State) : (answer r s).ctxs = s.ctxs := rfl
@[simp] theorem answer_jobs (r : Response) (s : State) : (answer r s).jobs = s.jobs := rfl
@[simp] theorem answer_disp (r : Response) (s : State) : (answer r s).disp = s.disp := rfl
@[simp] theorem answer_parts (r : Response) (s : State) : (answer r s).parts = s.parts := rfl
@[simp] theorem answer_iommu (r : Response) (s : State) : (answer r s).iommu = s.iommu := rfl
@[simp] theorem answer_dom (r : Response) (s : State) : (answer r s).dom = s.dom := rfl
@[simp] theorem answer_cluster (r : Response) (s : State) : (answer r s).cluster = s.cluster := rfl
@[simp] theorem answer_lacing (r : Response) (s : State) : (answer r s).lacing = s.lacing := rfl
@[simp] theorem answer_units (r : Response) (s : State) : (answer r s).units = s.units := rfl
@[simp] theorem answer_tunnel (r : Response) (s : State) : (answer r s).tunnel = s.tunnel := rfl
@[simp] theorem answer_host (r : Response) (s : State) : (answer r s).host = s.host := rfl
@[simp] theorem answer_power (r : Response) (s : State) : (answer r s).power = s.power := rfl
@[simp] theorem answer_sec (r : Response) (s : State) : (answer r s).sec = s.sec := rfl
@[simp] theorem answer_dict (r : Response) (s : State) : (answer r s).dict = s.dict := rfl
@[simp] theorem answer_su (r : Response) (s : State) : (answer r s).su = s.su := rfl
@[simp] theorem answer_nv (r : Response) (s : State) : (answer r s).nv = s.nv := rfl
@[simp] theorem answer_ev (r : Response) (s : State) : (answer r s).ev = s.ev := rfl
@[simp] theorem answer_upd (r : Response) (s : State) : (answer r s).upd = s.upd := rfl
@[simp] theorem answer_cal (r : Response) (s : State) : (answer r s).cal = s.cal := rfl
@[simp] theorem answer_resp (r : Response) (s : State) : (answer r s).resp = r := rfl

/-! ### What an index reads as after its update -/

@[simp] theorem dieOf_updDie_same (s : State) (k : Nat) (f : DieSt → DieSt) : dieOf (updDie s k f) k = f (dieOf s k) := by
  simp [dieOf, updDie, setDie]
theorem dieOf_updDie_other (s : State) {j k : Nat} (f : DieSt → DieSt) (h : j ≠ k) : dieOf (updDie s k f) j = dieOf s j := by
  simp [dieOf, updDie, setDie, SMap.get_set_other, h]
@[simp] theorem ctxOf_updCtx_same (s : State) (k : Nat) (f : Context → Context) : ctxOf (updCtx s k f) k = f (ctxOf s k) := by
  simp [ctxOf, updCtx, setCtx]
theorem ctxOf_updCtx_other (s : State) {j k : Nat} (f : Context → Context) (h : j ≠ k) : ctxOf (updCtx s k f) j = ctxOf s j := by
  simp [ctxOf, updCtx, setCtx, SMap.get_set_other, h]
@[simp] theorem quotaOf_updQuota_same (s : State) (k : Nat) (f : Quota → Quota) : quotaOf (updQuota s k f) k = f (quotaOf s k) := by
  simp [quotaOf, updQuota]
theorem quotaOf_updQuota_other (s : State) {j k : Nat} (f : Quota → Quota) (h : j ≠ k) : quotaOf (updQuota s k f) j = quotaOf s j := by
  simp [quotaOf, updQuota, SMap.get_upd_other, h]
@[simp] theorem granOf_updGran_same (s : State) (k : Nat) (f : Granule → Granule) : granOf (updGran s k f) k = f (granOf s k) := by
  simp [granOf, updGran]
theorem granOf_updGran_other (s : State) {j k : Nat} (f : Granule → Granule) (h : j ≠ k) : granOf (updGran s k f) j = granOf s j := by
  simp [granOf, updGran, SMap.get_upd_other, h]
@[simp] theorem partOf_updPart_same (s : State) (k : Nat) (f : Partition → Partition) : partOf (updPart s k f) k = f (partOf s k) := by
  simp [partOf, updPart]
theorem partOf_updPart_other (s : State) {j k : Nat} (f : Partition → Partition) (h : j ≠ k) : partOf (updPart s k f) j = partOf s j := by
  simp [partOf, updPart, SMap.get_upd_other, h]
@[simp] theorem unitOf_updUnit_same (s : State) (k : Nat) (f : MemUnit → MemUnit) : unitOf (updUnit s k f) k = f (unitOf s k) := by
  simp [unitOf, updUnit]
theorem unitOf_updUnit_other (s : State) {j k : Nat} (f : MemUnit → MemUnit) (h : j ≠ k) : unitOf (updUnit s k f) j = unitOf s j := by
  simp [unitOf, updUnit, SMap.get_upd_other, h]
@[simp] theorem railOf_updRail_same (s : State) (k : Nat) (f : Rail → Rail) : railOf (updRail s k f) k = f (railOf s k) := by
  simp [railOf, updRail]
theorem railOf_updRail_other (s : State) {j k : Nat} (f : Rail → Rail) (h : j ≠ k) : railOf (updRail s k f) j = railOf s j := by
  simp [railOf, updRail, SMap.get_upd_other, h]
@[simp] theorem partnerOf_updPartner_same (s : State) (k : Nat) (f : Partner → Partner) : partnerOf (updPartner s k f) k = f (partnerOf s k) := by
  simp [partnerOf, updPartner]
theorem partnerOf_updPartner_other (s : State) {j k : Nat} (f : Partner → Partner) (h : j ≠ k) : partnerOf (updPartner s k f) j = partnerOf s j := by
  simp [partnerOf, updPartner, SMap.get_upd_other, h]
@[simp] theorem eyeOf_updEye_same (s : State) (k : Nat) (f : Eyelet → Eyelet) : eyeOf (updEye s k f) k = f (eyeOf s k) := by
  simp [eyeOf, updEye]
theorem eyeOf_updEye_other (s : State) {j k : Nat} (f : Eyelet → Eyelet) (h : j ≠ k) : eyeOf (updEye s k f) j = eyeOf s j := by
  simp [eyeOf, updEye, SMap.get_upd_other, h]
@[simp] theorem queueOf_updQueue_same (s : State) (k : Nat) (f : IngestQueue → IngestQueue) : queueOf (updQueue s k f) k = f (queueOf s k) := by
  simp [queueOf, updQueue]
theorem queueOf_updQueue_other (s : State) {j k : Nat} (f : IngestQueue → IngestQueue) (h : j ≠ k) : queueOf (updQueue s k f) j = queueOf s j := by
  simp [queueOf, updQueue, SMap.get_upd_other, h]
@[simp] theorem hartOf_updHart_same (s : State) (k : Nat) (f : Hart → Hart) : hartOf (updHart s k f) k = f (hartOf s k) := by
  simp [hartOf, updHart]
theorem hartOf_updHart_other (s : State) {j k : Nat} (f : Hart → Hart) (h : j ≠ k) : hartOf (updHart s k f) j = hartOf s j := by
  simp [hartOf, updHart, SMap.get_upd_other, h]
@[simp] theorem dieOf_setDie_same (s : State) (d : Nat) (x : DieSt) : dieOf (setDie s d x) d = x := by simp [dieOf, setDie]
theorem dieOf_setDie_other (s : State) {j d : Nat} (x : DieSt) (h : j ≠ d) : dieOf (setDie s d x) j = dieOf s j := by
  simp [dieOf, setDie, SMap.get_set_other, h]
theorem jobOf_updJob_same (s : State) (k : Nat) (f : Job → Job) : jobOf (updJob s k f) k = (jobOf s k).map f := by
  unfold updJob jobOf
  cases h : SMap.find s.jobs k <;> simp [h, SMap.find_put_same]
theorem jobOf_updJob_other (s : State) {j k : Nat} (f : Job → Job) (h : j ≠ k) : jobOf (updJob s k f) j = jobOf s j := by
  unfold updJob jobOf
  cases SMap.find s.jobs k <;> simp [SMap.find_put_other, h]

/-! ### An index of another table -/

@[simp] theorem ctxOf_setDie (s : State) (d : Nat) (x : DieSt) (j : Nat) : ctxOf (setDie s d x) j = ctxOf s j := rfl
@[simp] theorem quotaOf_setDie (s : State) (d : Nat) (x : DieSt) (j : Nat) : quotaOf (setDie s d x) j = quotaOf s j := rfl
@[simp] theorem granOf_setDie (s : State) (d : Nat) (x : DieSt) (j : Nat) : granOf (setDie s d x) j = granOf s j := rfl
@[simp] theorem jobOf_setDie (s : State) (d : Nat) (x : DieSt) (j : Nat) : jobOf (setDie s d x) j = jobOf s j := rfl
@[simp] theorem partOf_setDie (s : State) (d : Nat) (x : DieSt) (j : Nat) : partOf (setDie s d x) j = partOf s j := rfl
@[simp] theorem siteOf_setDie (s : State) (d : Nat) (x : DieSt) (j : Nat) : siteOf (setDie s d x) j = siteOf s j := rfl
@[simp] theorem unitMapOf_setDie (s : State) (d : Nat) (x : DieSt) (j : Nat) : unitMapOf (setDie s d x) j = unitMapOf s j := rfl
@[simp] theorem unitOf_setDie (s : State) (d : Nat) (x : DieSt) (j : Nat) : unitOf (setDie s d x) j = unitOf s j := rfl
@[simp] theorem railOf_setDie (s : State) (d : Nat) (x : DieSt) (j : Nat) : railOf (setDie s d x) j = railOf s j := rfl
@[simp] theorem partnerOf_setDie (s : State) (d : Nat) (x : DieSt) (j : Nat) : partnerOf (setDie s d x) j = partnerOf s j := rfl
@[simp] theorem eyeOf_setDie (s : State) (d : Nat) (x : DieSt) (j : Nat) : eyeOf (setDie s d x) j = eyeOf s j := rfl
@[simp] theorem queueOf_setDie (s : State) (d : Nat) (x : DieSt) (j : Nat) : queueOf (setDie s d x) j = queueOf s j := rfl
@[simp] theorem hartOf_setDie (s : State) (d : Nat) (x : DieSt) (j : Nat) : hartOf (setDie s d x) j = hartOf s j := rfl
@[simp] theorem ctxOf_updDie (s : State) (d : Nat) (f : DieSt → DieSt) (j : Nat) : ctxOf (updDie s d f) j = ctxOf s j := rfl
@[simp] theorem quotaOf_updDie (s : State) (d : Nat) (f : DieSt → DieSt) (j : Nat) : quotaOf (updDie s d f) j = quotaOf s j := rfl
@[simp] theorem granOf_updDie (s : State) (d : Nat) (f : DieSt → DieSt) (j : Nat) : granOf (updDie s d f) j = granOf s j := rfl
@[simp] theorem jobOf_updDie (s : State) (d : Nat) (f : DieSt → DieSt) (j : Nat) : jobOf (updDie s d f) j = jobOf s j := rfl
@[simp] theorem partOf_updDie (s : State) (d : Nat) (f : DieSt → DieSt) (j : Nat) : partOf (updDie s d f) j = partOf s j := rfl
@[simp] theorem siteOf_updDie (s : State) (d : Nat) (f : DieSt → DieSt) (j : Nat) : siteOf (updDie s d f) j = siteOf s j := rfl
@[simp] theorem unitMapOf_updDie (s : State) (d : Nat) (f : DieSt → DieSt) (j : Nat) : unitMapOf (updDie s d f) j = unitMapOf s j := rfl
@[simp] theorem unitOf_updDie (s : State) (d : Nat) (f : DieSt → DieSt) (j : Nat) : unitOf (updDie s d f) j = unitOf s j := rfl
@[simp] theorem railOf_updDie (s : State) (d : Nat) (f : DieSt → DieSt) (j : Nat) : railOf (updDie s d f) j = railOf s j := rfl
@[simp] theorem partnerOf_updDie (s : State) (d : Nat) (f : DieSt → DieSt) (j : Nat) : partnerOf (updDie s d f) j = partnerOf s j := rfl
@[simp] theorem eyeOf_updDie (s : State) (d : Nat) (f : DieSt → DieSt) (j : Nat) : eyeOf (updDie s d f) j = eyeOf s j := rfl
@[simp] theorem queueOf_updDie (s : State) (d : Nat) (f : DieSt → DieSt) (j : Nat) : queueOf (updDie s d f) j = queueOf s j := rfl
@[simp] theorem hartOf_updDie (s : State) (d : Nat) (f : DieSt → DieSt) (j : Nat) : hartOf (updDie s d f) j = hartOf s j := rfl
@[simp] theorem dieOf_setCtx (s : State) (c : Nat) (x : Context) (j : Nat) : dieOf (setCtx s c x) j = dieOf s j := rfl
@[simp] theorem quotaOf_setCtx (s : State) (c : Nat) (x : Context) (j : Nat) : quotaOf (setCtx s c x) j = quotaOf s j := rfl
@[simp] theorem granOf_setCtx (s : State) (c : Nat) (x : Context) (j : Nat) : granOf (setCtx s c x) j = granOf s j := rfl
@[simp] theorem jobOf_setCtx (s : State) (c : Nat) (x : Context) (j : Nat) : jobOf (setCtx s c x) j = jobOf s j := rfl
@[simp] theorem partOf_setCtx (s : State) (c : Nat) (x : Context) (j : Nat) : partOf (setCtx s c x) j = partOf s j := rfl
@[simp] theorem siteOf_setCtx (s : State) (c : Nat) (x : Context) (j : Nat) : siteOf (setCtx s c x) j = siteOf s j := rfl
@[simp] theorem unitMapOf_setCtx (s : State) (c : Nat) (x : Context) (j : Nat) : unitMapOf (setCtx s c x) j = unitMapOf s j := rfl
@[simp] theorem unitOf_setCtx (s : State) (c : Nat) (x : Context) (j : Nat) : unitOf (setCtx s c x) j = unitOf s j := rfl
@[simp] theorem railOf_setCtx (s : State) (c : Nat) (x : Context) (j : Nat) : railOf (setCtx s c x) j = railOf s j := rfl
@[simp] theorem partnerOf_setCtx (s : State) (c : Nat) (x : Context) (j : Nat) : partnerOf (setCtx s c x) j = partnerOf s j := rfl
@[simp] theorem eyeOf_setCtx (s : State) (c : Nat) (x : Context) (j : Nat) : eyeOf (setCtx s c x) j = eyeOf s j := rfl
@[simp] theorem queueOf_setCtx (s : State) (c : Nat) (x : Context) (j : Nat) : queueOf (setCtx s c x) j = queueOf s j := rfl
@[simp] theorem hartOf_setCtx (s : State) (c : Nat) (x : Context) (j : Nat) : hartOf (setCtx s c x) j = hartOf s j := rfl
@[simp] theorem dieOf_updCtx (s : State) (c : Nat) (f : Context → Context) (j : Nat) : dieOf (updCtx s c f) j = dieOf s j := rfl
@[simp] theorem quotaOf_updCtx (s : State) (c : Nat) (f : Context → Context) (j : Nat) : quotaOf (updCtx s c f) j = quotaOf s j := rfl
@[simp] theorem granOf_updCtx (s : State) (c : Nat) (f : Context → Context) (j : Nat) : granOf (updCtx s c f) j = granOf s j := rfl
@[simp] theorem jobOf_updCtx (s : State) (c : Nat) (f : Context → Context) (j : Nat) : jobOf (updCtx s c f) j = jobOf s j := rfl
@[simp] theorem partOf_updCtx (s : State) (c : Nat) (f : Context → Context) (j : Nat) : partOf (updCtx s c f) j = partOf s j := rfl
@[simp] theorem siteOf_updCtx (s : State) (c : Nat) (f : Context → Context) (j : Nat) : siteOf (updCtx s c f) j = siteOf s j := rfl
@[simp] theorem unitMapOf_updCtx (s : State) (c : Nat) (f : Context → Context) (j : Nat) : unitMapOf (updCtx s c f) j = unitMapOf s j := rfl
@[simp] theorem unitOf_updCtx (s : State) (c : Nat) (f : Context → Context) (j : Nat) : unitOf (updCtx s c f) j = unitOf s j := rfl
@[simp] theorem railOf_updCtx (s : State) (c : Nat) (f : Context → Context) (j : Nat) : railOf (updCtx s c f) j = railOf s j := rfl
@[simp] theorem partnerOf_updCtx (s : State) (c : Nat) (f : Context → Context) (j : Nat) : partnerOf (updCtx s c f) j = partnerOf s j := rfl
@[simp] theorem eyeOf_updCtx (s : State) (c : Nat) (f : Context → Context) (j : Nat) : eyeOf (updCtx s c f) j = eyeOf s j := rfl
@[simp] theorem queueOf_updCtx (s : State) (c : Nat) (f : Context → Context) (j : Nat) : queueOf (updCtx s c f) j = queueOf s j := rfl
@[simp] theorem hartOf_updCtx (s : State) (c : Nat) (f : Context → Context) (j : Nat) : hartOf (updCtx s c f) j = hartOf s j := rfl
@[simp] theorem dieOf_updQuota (s : State) (c : Nat) (f : Quota → Quota) (j : Nat) : dieOf (updQuota s c f) j = dieOf s j := rfl
@[simp] theorem ctxOf_updQuota (s : State) (c : Nat) (f : Quota → Quota) (j : Nat) : ctxOf (updQuota s c f) j = ctxOf s j := rfl
@[simp] theorem granOf_updQuota (s : State) (c : Nat) (f : Quota → Quota) (j : Nat) : granOf (updQuota s c f) j = granOf s j := rfl
@[simp] theorem jobOf_updQuota (s : State) (c : Nat) (f : Quota → Quota) (j : Nat) : jobOf (updQuota s c f) j = jobOf s j := rfl
@[simp] theorem partOf_updQuota (s : State) (c : Nat) (f : Quota → Quota) (j : Nat) : partOf (updQuota s c f) j = partOf s j := rfl
@[simp] theorem siteOf_updQuota (s : State) (c : Nat) (f : Quota → Quota) (j : Nat) : siteOf (updQuota s c f) j = siteOf s j := rfl
@[simp] theorem unitMapOf_updQuota (s : State) (c : Nat) (f : Quota → Quota) (j : Nat) : unitMapOf (updQuota s c f) j = unitMapOf s j := rfl
@[simp] theorem unitOf_updQuota (s : State) (c : Nat) (f : Quota → Quota) (j : Nat) : unitOf (updQuota s c f) j = unitOf s j := rfl
@[simp] theorem railOf_updQuota (s : State) (c : Nat) (f : Quota → Quota) (j : Nat) : railOf (updQuota s c f) j = railOf s j := rfl
@[simp] theorem partnerOf_updQuota (s : State) (c : Nat) (f : Quota → Quota) (j : Nat) : partnerOf (updQuota s c f) j = partnerOf s j := rfl
@[simp] theorem eyeOf_updQuota (s : State) (c : Nat) (f : Quota → Quota) (j : Nat) : eyeOf (updQuota s c f) j = eyeOf s j := rfl
@[simp] theorem queueOf_updQuota (s : State) (c : Nat) (f : Quota → Quota) (j : Nat) : queueOf (updQuota s c f) j = queueOf s j := rfl
@[simp] theorem hartOf_updQuota (s : State) (c : Nat) (f : Quota → Quota) (j : Nat) : hartOf (updQuota s c f) j = hartOf s j := rfl
@[simp] theorem dieOf_updGran (s : State) (g : Nat) (f : Granule → Granule) (j : Nat) : dieOf (updGran s g f) j = dieOf s j := rfl
@[simp] theorem ctxOf_updGran (s : State) (g : Nat) (f : Granule → Granule) (j : Nat) : ctxOf (updGran s g f) j = ctxOf s j := rfl
@[simp] theorem quotaOf_updGran (s : State) (g : Nat) (f : Granule → Granule) (j : Nat) : quotaOf (updGran s g f) j = quotaOf s j := rfl
@[simp] theorem jobOf_updGran (s : State) (g : Nat) (f : Granule → Granule) (j : Nat) : jobOf (updGran s g f) j = jobOf s j := rfl
@[simp] theorem partOf_updGran (s : State) (g : Nat) (f : Granule → Granule) (j : Nat) : partOf (updGran s g f) j = partOf s j := rfl
@[simp] theorem siteOf_updGran (s : State) (g : Nat) (f : Granule → Granule) (j : Nat) : siteOf (updGran s g f) j = siteOf s j := rfl
@[simp] theorem unitMapOf_updGran (s : State) (g : Nat) (f : Granule → Granule) (j : Nat) : unitMapOf (updGran s g f) j = unitMapOf s j := rfl
@[simp] theorem unitOf_updGran (s : State) (g : Nat) (f : Granule → Granule) (j : Nat) : unitOf (updGran s g f) j = unitOf s j := rfl
@[simp] theorem railOf_updGran (s : State) (g : Nat) (f : Granule → Granule) (j : Nat) : railOf (updGran s g f) j = railOf s j := rfl
@[simp] theorem partnerOf_updGran (s : State) (g : Nat) (f : Granule → Granule) (j : Nat) : partnerOf (updGran s g f) j = partnerOf s j := rfl
@[simp] theorem eyeOf_updGran (s : State) (g : Nat) (f : Granule → Granule) (j : Nat) : eyeOf (updGran s g f) j = eyeOf s j := rfl
@[simp] theorem queueOf_updGran (s : State) (g : Nat) (f : Granule → Granule) (j : Nat) : queueOf (updGran s g f) j = queueOf s j := rfl
@[simp] theorem hartOf_updGran (s : State) (g : Nat) (f : Granule → Granule) (j : Nat) : hartOf (updGran s g f) j = hartOf s j := rfl
@[simp] theorem dieOf_updJob (s : State) (k : Nat) (f : Job → Job) (j : Nat) : dieOf (updJob s k f) j = dieOf s j := by unfold updJob; split <;> rfl
@[simp] theorem ctxOf_updJob (s : State) (k : Nat) (f : Job → Job) (j : Nat) : ctxOf (updJob s k f) j = ctxOf s j := by unfold updJob; split <;> rfl
@[simp] theorem quotaOf_updJob (s : State) (k : Nat) (f : Job → Job) (j : Nat) : quotaOf (updJob s k f) j = quotaOf s j := by unfold updJob; split <;> rfl
@[simp] theorem granOf_updJob (s : State) (k : Nat) (f : Job → Job) (j : Nat) : granOf (updJob s k f) j = granOf s j := by unfold updJob; split <;> rfl
@[simp] theorem partOf_updJob (s : State) (k : Nat) (f : Job → Job) (j : Nat) : partOf (updJob s k f) j = partOf s j := by unfold updJob; split <;> rfl
@[simp] theorem siteOf_updJob (s : State) (k : Nat) (f : Job → Job) (j : Nat) : siteOf (updJob s k f) j = siteOf s j := by unfold updJob; split <;> rfl
@[simp] theorem unitMapOf_updJob (s : State) (k : Nat) (f : Job → Job) (j : Nat) : unitMapOf (updJob s k f) j = unitMapOf s j := by unfold updJob; split <;> rfl
@[simp] theorem unitOf_updJob (s : State) (k : Nat) (f : Job → Job) (j : Nat) : unitOf (updJob s k f) j = unitOf s j := by unfold updJob; split <;> rfl
@[simp] theorem railOf_updJob (s : State) (k : Nat) (f : Job → Job) (j : Nat) : railOf (updJob s k f) j = railOf s j := by unfold updJob; split <;> rfl
@[simp] theorem partnerOf_updJob (s : State) (k : Nat) (f : Job → Job) (j : Nat) : partnerOf (updJob s k f) j = partnerOf s j := by unfold updJob; split <;> rfl
@[simp] theorem eyeOf_updJob (s : State) (k : Nat) (f : Job → Job) (j : Nat) : eyeOf (updJob s k f) j = eyeOf s j := by unfold updJob; split <;> rfl
@[simp] theorem queueOf_updJob (s : State) (k : Nat) (f : Job → Job) (j : Nat) : queueOf (updJob s k f) j = queueOf s j := by unfold updJob; split <;> rfl
@[simp] theorem hartOf_updJob (s : State) (k : Nat) (f : Job → Job) (j : Nat) : hartOf (updJob s k f) j = hartOf s j := by unfold updJob; split <;> rfl
@[simp] theorem dieOf_updPart (s : State) (d : Nat) (f : Partition → Partition) (j : Nat) : dieOf (updPart s d f) j = dieOf s j := rfl
@[simp] theorem ctxOf_updPart (s : State) (d : Nat) (f : Partition → Partition) (j : Nat) : ctxOf (updPart s d f) j = ctxOf s j := rfl
@[simp] theorem quotaOf_updPart (s : State) (d : Nat) (f : Partition → Partition) (j : Nat) : quotaOf (updPart s d f) j = quotaOf s j := rfl
@[simp] theorem granOf_updPart (s : State) (d : Nat) (f : Partition → Partition) (j : Nat) : granOf (updPart s d f) j = granOf s j := rfl
@[simp] theorem jobOf_updPart (s : State) (d : Nat) (f : Partition → Partition) (j : Nat) : jobOf (updPart s d f) j = jobOf s j := rfl
@[simp] theorem siteOf_updPart (s : State) (d : Nat) (f : Partition → Partition) (j : Nat) : siteOf (updPart s d f) j = siteOf s j := rfl
@[simp] theorem unitMapOf_updPart (s : State) (d : Nat) (f : Partition → Partition) (j : Nat) : unitMapOf (updPart s d f) j = unitMapOf s j := rfl
@[simp] theorem unitOf_updPart (s : State) (d : Nat) (f : Partition → Partition) (j : Nat) : unitOf (updPart s d f) j = unitOf s j := rfl
@[simp] theorem railOf_updPart (s : State) (d : Nat) (f : Partition → Partition) (j : Nat) : railOf (updPart s d f) j = railOf s j := rfl
@[simp] theorem partnerOf_updPart (s : State) (d : Nat) (f : Partition → Partition) (j : Nat) : partnerOf (updPart s d f) j = partnerOf s j := rfl
@[simp] theorem eyeOf_updPart (s : State) (d : Nat) (f : Partition → Partition) (j : Nat) : eyeOf (updPart s d f) j = eyeOf s j := rfl
@[simp] theorem queueOf_updPart (s : State) (d : Nat) (f : Partition → Partition) (j : Nat) : queueOf (updPart s d f) j = queueOf s j := rfl
@[simp] theorem hartOf_updPart (s : State) (d : Nat) (f : Partition → Partition) (j : Nat) : hartOf (updPart s d f) j = hartOf s j := rfl
@[simp] theorem dieOf_updUnit (s : State) (u : Nat) (f : MemUnit → MemUnit) (j : Nat) : dieOf (updUnit s u f) j = dieOf s j := rfl
@[simp] theorem ctxOf_updUnit (s : State) (u : Nat) (f : MemUnit → MemUnit) (j : Nat) : ctxOf (updUnit s u f) j = ctxOf s j := rfl
@[simp] theorem quotaOf_updUnit (s : State) (u : Nat) (f : MemUnit → MemUnit) (j : Nat) : quotaOf (updUnit s u f) j = quotaOf s j := rfl
@[simp] theorem granOf_updUnit (s : State) (u : Nat) (f : MemUnit → MemUnit) (j : Nat) : granOf (updUnit s u f) j = granOf s j := rfl
@[simp] theorem jobOf_updUnit (s : State) (u : Nat) (f : MemUnit → MemUnit) (j : Nat) : jobOf (updUnit s u f) j = jobOf s j := rfl
@[simp] theorem partOf_updUnit (s : State) (u : Nat) (f : MemUnit → MemUnit) (j : Nat) : partOf (updUnit s u f) j = partOf s j := rfl
@[simp] theorem siteOf_updUnit (s : State) (u : Nat) (f : MemUnit → MemUnit) (j : Nat) : siteOf (updUnit s u f) j = siteOf s j := rfl
@[simp] theorem unitMapOf_updUnit (s : State) (u : Nat) (f : MemUnit → MemUnit) (j : Nat) : unitMapOf (updUnit s u f) j = unitMapOf s j := rfl
@[simp] theorem railOf_updUnit (s : State) (u : Nat) (f : MemUnit → MemUnit) (j : Nat) : railOf (updUnit s u f) j = railOf s j := rfl
@[simp] theorem partnerOf_updUnit (s : State) (u : Nat) (f : MemUnit → MemUnit) (j : Nat) : partnerOf (updUnit s u f) j = partnerOf s j := rfl
@[simp] theorem eyeOf_updUnit (s : State) (u : Nat) (f : MemUnit → MemUnit) (j : Nat) : eyeOf (updUnit s u f) j = eyeOf s j := rfl
@[simp] theorem queueOf_updUnit (s : State) (u : Nat) (f : MemUnit → MemUnit) (j : Nat) : queueOf (updUnit s u f) j = queueOf s j := rfl
@[simp] theorem hartOf_updUnit (s : State) (u : Nat) (f : MemUnit → MemUnit) (j : Nat) : hartOf (updUnit s u f) j = hartOf s j := rfl
@[simp] theorem dieOf_updRail (s : State) (i : Nat) (f : Rail → Rail) (j : Nat) : dieOf (updRail s i f) j = dieOf s j := rfl
@[simp] theorem ctxOf_updRail (s : State) (i : Nat) (f : Rail → Rail) (j : Nat) : ctxOf (updRail s i f) j = ctxOf s j := rfl
@[simp] theorem quotaOf_updRail (s : State) (i : Nat) (f : Rail → Rail) (j : Nat) : quotaOf (updRail s i f) j = quotaOf s j := rfl
@[simp] theorem granOf_updRail (s : State) (i : Nat) (f : Rail → Rail) (j : Nat) : granOf (updRail s i f) j = granOf s j := rfl
@[simp] theorem jobOf_updRail (s : State) (i : Nat) (f : Rail → Rail) (j : Nat) : jobOf (updRail s i f) j = jobOf s j := rfl
@[simp] theorem partOf_updRail (s : State) (i : Nat) (f : Rail → Rail) (j : Nat) : partOf (updRail s i f) j = partOf s j := rfl
@[simp] theorem siteOf_updRail (s : State) (i : Nat) (f : Rail → Rail) (j : Nat) : siteOf (updRail s i f) j = siteOf s j := rfl
@[simp] theorem unitMapOf_updRail (s : State) (i : Nat) (f : Rail → Rail) (j : Nat) : unitMapOf (updRail s i f) j = unitMapOf s j := rfl
@[simp] theorem unitOf_updRail (s : State) (i : Nat) (f : Rail → Rail) (j : Nat) : unitOf (updRail s i f) j = unitOf s j := rfl
@[simp] theorem partnerOf_updRail (s : State) (i : Nat) (f : Rail → Rail) (j : Nat) : partnerOf (updRail s i f) j = partnerOf s j := rfl
@[simp] theorem eyeOf_updRail (s : State) (i : Nat) (f : Rail → Rail) (j : Nat) : eyeOf (updRail s i f) j = eyeOf s j := rfl
@[simp] theorem queueOf_updRail (s : State) (i : Nat) (f : Rail → Rail) (j : Nat) : queueOf (updRail s i f) j = queueOf s j := rfl
@[simp] theorem hartOf_updRail (s : State) (i : Nat) (f : Rail → Rail) (j : Nat) : hartOf (updRail s i f) j = hartOf s j := rfl
@[simp] theorem dieOf_updPartner (s : State) (p : Nat) (f : Partner → Partner) (j : Nat) : dieOf (updPartner s p f) j = dieOf s j := rfl
@[simp] theorem ctxOf_updPartner (s : State) (p : Nat) (f : Partner → Partner) (j : Nat) : ctxOf (updPartner s p f) j = ctxOf s j := rfl
@[simp] theorem quotaOf_updPartner (s : State) (p : Nat) (f : Partner → Partner) (j : Nat) : quotaOf (updPartner s p f) j = quotaOf s j := rfl
@[simp] theorem granOf_updPartner (s : State) (p : Nat) (f : Partner → Partner) (j : Nat) : granOf (updPartner s p f) j = granOf s j := rfl
@[simp] theorem jobOf_updPartner (s : State) (p : Nat) (f : Partner → Partner) (j : Nat) : jobOf (updPartner s p f) j = jobOf s j := rfl
@[simp] theorem partOf_updPartner (s : State) (p : Nat) (f : Partner → Partner) (j : Nat) : partOf (updPartner s p f) j = partOf s j := rfl
@[simp] theorem siteOf_updPartner (s : State) (p : Nat) (f : Partner → Partner) (j : Nat) : siteOf (updPartner s p f) j = siteOf s j := rfl
@[simp] theorem unitMapOf_updPartner (s : State) (p : Nat) (f : Partner → Partner) (j : Nat) : unitMapOf (updPartner s p f) j = unitMapOf s j := rfl
@[simp] theorem unitOf_updPartner (s : State) (p : Nat) (f : Partner → Partner) (j : Nat) : unitOf (updPartner s p f) j = unitOf s j := rfl
@[simp] theorem railOf_updPartner (s : State) (p : Nat) (f : Partner → Partner) (j : Nat) : railOf (updPartner s p f) j = railOf s j := rfl
@[simp] theorem eyeOf_updPartner (s : State) (p : Nat) (f : Partner → Partner) (j : Nat) : eyeOf (updPartner s p f) j = eyeOf s j := rfl
@[simp] theorem queueOf_updPartner (s : State) (p : Nat) (f : Partner → Partner) (j : Nat) : queueOf (updPartner s p f) j = queueOf s j := rfl
@[simp] theorem hartOf_updPartner (s : State) (p : Nat) (f : Partner → Partner) (j : Nat) : hartOf (updPartner s p f) j = hartOf s j := rfl
@[simp] theorem dieOf_updEye (s : State) (e : Nat) (f : Eyelet → Eyelet) (j : Nat) : dieOf (updEye s e f) j = dieOf s j := rfl
@[simp] theorem ctxOf_updEye (s : State) (e : Nat) (f : Eyelet → Eyelet) (j : Nat) : ctxOf (updEye s e f) j = ctxOf s j := rfl
@[simp] theorem quotaOf_updEye (s : State) (e : Nat) (f : Eyelet → Eyelet) (j : Nat) : quotaOf (updEye s e f) j = quotaOf s j := rfl
@[simp] theorem granOf_updEye (s : State) (e : Nat) (f : Eyelet → Eyelet) (j : Nat) : granOf (updEye s e f) j = granOf s j := rfl
@[simp] theorem jobOf_updEye (s : State) (e : Nat) (f : Eyelet → Eyelet) (j : Nat) : jobOf (updEye s e f) j = jobOf s j := rfl
@[simp] theorem partOf_updEye (s : State) (e : Nat) (f : Eyelet → Eyelet) (j : Nat) : partOf (updEye s e f) j = partOf s j := rfl
@[simp] theorem siteOf_updEye (s : State) (e : Nat) (f : Eyelet → Eyelet) (j : Nat) : siteOf (updEye s e f) j = siteOf s j := rfl
@[simp] theorem unitMapOf_updEye (s : State) (e : Nat) (f : Eyelet → Eyelet) (j : Nat) : unitMapOf (updEye s e f) j = unitMapOf s j := rfl
@[simp] theorem unitOf_updEye (s : State) (e : Nat) (f : Eyelet → Eyelet) (j : Nat) : unitOf (updEye s e f) j = unitOf s j := rfl
@[simp] theorem railOf_updEye (s : State) (e : Nat) (f : Eyelet → Eyelet) (j : Nat) : railOf (updEye s e f) j = railOf s j := rfl
@[simp] theorem partnerOf_updEye (s : State) (e : Nat) (f : Eyelet → Eyelet) (j : Nat) : partnerOf (updEye s e f) j = partnerOf s j := rfl
@[simp] theorem queueOf_updEye (s : State) (e : Nat) (f : Eyelet → Eyelet) (j : Nat) : queueOf (updEye s e f) j = queueOf s j := rfl
@[simp] theorem hartOf_updEye (s : State) (e : Nat) (f : Eyelet → Eyelet) (j : Nat) : hartOf (updEye s e f) j = hartOf s j := rfl
@[simp] theorem dieOf_updQueue (s : State) (q : Nat) (f : IngestQueue → IngestQueue) (j : Nat) : dieOf (updQueue s q f) j = dieOf s j := rfl
@[simp] theorem ctxOf_updQueue (s : State) (q : Nat) (f : IngestQueue → IngestQueue) (j : Nat) : ctxOf (updQueue s q f) j = ctxOf s j := rfl
@[simp] theorem quotaOf_updQueue (s : State) (q : Nat) (f : IngestQueue → IngestQueue) (j : Nat) : quotaOf (updQueue s q f) j = quotaOf s j := rfl
@[simp] theorem granOf_updQueue (s : State) (q : Nat) (f : IngestQueue → IngestQueue) (j : Nat) : granOf (updQueue s q f) j = granOf s j := rfl
@[simp] theorem jobOf_updQueue (s : State) (q : Nat) (f : IngestQueue → IngestQueue) (j : Nat) : jobOf (updQueue s q f) j = jobOf s j := rfl
@[simp] theorem partOf_updQueue (s : State) (q : Nat) (f : IngestQueue → IngestQueue) (j : Nat) : partOf (updQueue s q f) j = partOf s j := rfl
@[simp] theorem siteOf_updQueue (s : State) (q : Nat) (f : IngestQueue → IngestQueue) (j : Nat) : siteOf (updQueue s q f) j = siteOf s j := rfl
@[simp] theorem unitMapOf_updQueue (s : State) (q : Nat) (f : IngestQueue → IngestQueue) (j : Nat) : unitMapOf (updQueue s q f) j = unitMapOf s j := rfl
@[simp] theorem unitOf_updQueue (s : State) (q : Nat) (f : IngestQueue → IngestQueue) (j : Nat) : unitOf (updQueue s q f) j = unitOf s j := rfl
@[simp] theorem railOf_updQueue (s : State) (q : Nat) (f : IngestQueue → IngestQueue) (j : Nat) : railOf (updQueue s q f) j = railOf s j := rfl
@[simp] theorem partnerOf_updQueue (s : State) (q : Nat) (f : IngestQueue → IngestQueue) (j : Nat) : partnerOf (updQueue s q f) j = partnerOf s j := rfl
@[simp] theorem eyeOf_updQueue (s : State) (q : Nat) (f : IngestQueue → IngestQueue) (j : Nat) : eyeOf (updQueue s q f) j = eyeOf s j := rfl
@[simp] theorem hartOf_updQueue (s : State) (q : Nat) (f : IngestQueue → IngestQueue) (j : Nat) : hartOf (updQueue s q f) j = hartOf s j := rfl
@[simp] theorem dieOf_updHart (s : State) (h : Nat) (f : Hart → Hart) (j : Nat) : dieOf (updHart s h f) j = dieOf s j := rfl
@[simp] theorem ctxOf_updHart (s : State) (h : Nat) (f : Hart → Hart) (j : Nat) : ctxOf (updHart s h f) j = ctxOf s j := rfl
@[simp] theorem quotaOf_updHart (s : State) (h : Nat) (f : Hart → Hart) (j : Nat) : quotaOf (updHart s h f) j = quotaOf s j := rfl
@[simp] theorem granOf_updHart (s : State) (h : Nat) (f : Hart → Hart) (j : Nat) : granOf (updHart s h f) j = granOf s j := rfl
@[simp] theorem jobOf_updHart (s : State) (h : Nat) (f : Hart → Hart) (j : Nat) : jobOf (updHart s h f) j = jobOf s j := rfl
@[simp] theorem partOf_updHart (s : State) (h : Nat) (f : Hart → Hart) (j : Nat) : partOf (updHart s h f) j = partOf s j := rfl
@[simp] theorem siteOf_updHart (s : State) (h : Nat) (f : Hart → Hart) (j : Nat) : siteOf (updHart s h f) j = siteOf s j := rfl
@[simp] theorem unitMapOf_updHart (s : State) (h : Nat) (f : Hart → Hart) (j : Nat) : unitMapOf (updHart s h f) j = unitMapOf s j := rfl
@[simp] theorem unitOf_updHart (s : State) (h : Nat) (f : Hart → Hart) (j : Nat) : unitOf (updHart s h f) j = unitOf s j := rfl
@[simp] theorem railOf_updHart (s : State) (h : Nat) (f : Hart → Hart) (j : Nat) : railOf (updHart s h f) j = railOf s j := rfl
@[simp] theorem partnerOf_updHart (s : State) (h : Nat) (f : Hart → Hart) (j : Nat) : partnerOf (updHart s h f) j = partnerOf s j := rfl
@[simp] theorem eyeOf_updHart (s : State) (h : Nat) (f : Hart → Hart) (j : Nat) : eyeOf (updHart s h f) j = eyeOf s j := rfl
@[simp] theorem queueOf_updHart (s : State) (h : Nat) (f : Hart → Hart) (j : Nat) : queueOf (updHart s h f) j = queueOf s j := rfl
@[simp] theorem dieOf_answer (r : Response) (s : State) (j : Nat) : dieOf (answer r s) j = dieOf s j := rfl
@[simp] theorem dieOf_drew (s : State) (j : Nat) : dieOf (drew s) j = dieOf s j := rfl
@[simp] theorem ctxOf_answer (r : Response) (s : State) (j : Nat) : ctxOf (answer r s) j = ctxOf s j := rfl
@[simp] theorem ctxOf_drew (s : State) (j : Nat) : ctxOf (drew s) j = ctxOf s j := rfl
@[simp] theorem quotaOf_answer (r : Response) (s : State) (j : Nat) : quotaOf (answer r s) j = quotaOf s j := rfl
@[simp] theorem quotaOf_drew (s : State) (j : Nat) : quotaOf (drew s) j = quotaOf s j := rfl
@[simp] theorem granOf_answer (r : Response) (s : State) (j : Nat) : granOf (answer r s) j = granOf s j := rfl
@[simp] theorem granOf_drew (s : State) (j : Nat) : granOf (drew s) j = granOf s j := rfl
@[simp] theorem jobOf_answer (r : Response) (s : State) (j : Nat) : jobOf (answer r s) j = jobOf s j := rfl
@[simp] theorem jobOf_drew (s : State) (j : Nat) : jobOf (drew s) j = jobOf s j := rfl
@[simp] theorem partOf_answer (r : Response) (s : State) (j : Nat) : partOf (answer r s) j = partOf s j := rfl
@[simp] theorem partOf_drew (s : State) (j : Nat) : partOf (drew s) j = partOf s j := rfl
@[simp] theorem siteOf_answer (r : Response) (s : State) (j : Nat) : siteOf (answer r s) j = siteOf s j := rfl
@[simp] theorem siteOf_drew (s : State) (j : Nat) : siteOf (drew s) j = siteOf s j := rfl
@[simp] theorem unitMapOf_answer (r : Response) (s : State) (j : Nat) : unitMapOf (answer r s) j = unitMapOf s j := rfl
@[simp] theorem unitMapOf_drew (s : State) (j : Nat) : unitMapOf (drew s) j = unitMapOf s j := rfl
@[simp] theorem unitOf_answer (r : Response) (s : State) (j : Nat) : unitOf (answer r s) j = unitOf s j := rfl
@[simp] theorem unitOf_drew (s : State) (j : Nat) : unitOf (drew s) j = unitOf s j := rfl
@[simp] theorem railOf_answer (r : Response) (s : State) (j : Nat) : railOf (answer r s) j = railOf s j := rfl
@[simp] theorem railOf_drew (s : State) (j : Nat) : railOf (drew s) j = railOf s j := rfl
@[simp] theorem partnerOf_answer (r : Response) (s : State) (j : Nat) : partnerOf (answer r s) j = partnerOf s j := rfl
@[simp] theorem partnerOf_drew (s : State) (j : Nat) : partnerOf (drew s) j = partnerOf s j := rfl
@[simp] theorem eyeOf_answer (r : Response) (s : State) (j : Nat) : eyeOf (answer r s) j = eyeOf s j := rfl
@[simp] theorem eyeOf_drew (s : State) (j : Nat) : eyeOf (drew s) j = eyeOf s j := rfl
@[simp] theorem queueOf_answer (r : Response) (s : State) (j : Nat) : queueOf (answer r s) j = queueOf s j := rfl
@[simp] theorem queueOf_drew (s : State) (j : Nat) : queueOf (drew s) j = queueOf s j := rfl
@[simp] theorem hartOf_answer (r : Response) (s : State) (j : Nat) : hartOf (answer r s) j = hartOf s j := rfl
@[simp] theorem hartOf_drew (s : State) (j : Nat) : hartOf (drew s) j = hartOf s j := rfl

end Sys2Proof.Machine
end

