-- ==== Sys2Proof/Laws/Ops.lean ====
section
/-! SUPPORT. What the shared operations can do: the frame of a command, folds over lists, and posting an event, which changes the
event records, interrupt state of the cluster and MSI-X state of the host port and nothing else. -/

namespace Sys2Proof.Machine

/-! ## The frame of a command -/

/-- A command goes on, whatever its effect, and leaves the queue as it found it. -/
theorem command_next (f : State → State) (s : State) :
    command f s = .next { f { s with pending := [] } with pending := s.pending } := rfl

/-! ## Folds -/

@[simp] theorem each_nil {α : Type} (f : α → State → State) (s : State) : each [] f s = s := rfl
@[simp] theorem each_cons {α : Type} (a : α) (l : List α) (f : α → State → State) (s : State) :
    each (a :: l) f s = each l f (f a s) := rfl

/-- What every element's step keeps, the whole fold keeps. -/
theorem each_keeps {α : Type} (P : State → Prop) (l : List α) (f : α → State → State)
    (h : ∀ a ∈ l, ∀ s, P s → P (f a s)) (s : State) (hs : P s) : P (each l f s) := by
  induction l generalizing s with
  | nil => exact hs
  | cons a l ih =>
    exact ih (fun b hb => h b (List.mem_cons_of_mem _ hb)) _ (h a (List.mem_cons_self ..) s hs)

/-- A part of the state that every element's step leaves alone, the whole fold leaves alone. -/
theorem each_same {α β : Type} (g : State → β) (l : List α) (f : α → State → State)
    (h : ∀ a ∈ l, ∀ s, g (f a s) = g s) (s : State) : g (each l f s) = g s :=
  each_keeps (fun t => g t = g s) l f (fun a ha t ht => (h a ha t).trans ht) s rfl

@[simp] theorem guarded_true (f : State → State) (s : State) : guarded true f s = f s := rfl
@[simp] theorem guarded_false (f : State → State) (s : State) : guarded false f s = s := rfl

/-! ## Interrupts -/

@[simp] theorem setPendingId_pending (key eiid : Nat) (s : State) : (setPendingId key eiid s).pending = s.pending := rfl
@[simp] theorem setPendingId_free (key eiid : Nat) (s : State) : (setPendingId key eiid s).free = s.free := rfl
@[simp] theorem setPendingId_resp (key eiid : Nat) (s : State) : (setPendingId key eiid s).resp = s.resp := rfl
@[simp] theorem setPendingId_time (key eiid : Nat) (s : State) : (setPendingId key eiid s).time = s.time := rfl
@[simp] theorem setPendingId_variant (key eiid : Nat) (s : State) : (setPendingId key eiid s).variant = s.variant := rfl
@[simp] theorem setPendingId_weltGen (key eiid : Nat) (s : State) : (setPendingId key eiid s).weltGen = s.weltGen := rfl
@[simp] theorem setPendingId_map (key eiid : Nat) (s : State) : (setPendingId key eiid s).map = s.map := rfl
@[simp] theorem setPendingId_disc (key eiid : Nat) (s : State) : (setPendingId key eiid s).disc = s.disc := rfl
@[simp] theorem setPendingId_dies (key eiid : Nat) (s : State) : (setPendingId key eiid s).dies = s.dies := rfl
@[simp] theorem setPendingId_copyNet (key eiid : Nat) (s : State) : (setPendingId key eiid s).copyNet = s.copyNet := rfl
@[simp] theorem setPendingId_sigNet (key eiid : Nat) (s : State) : (setPendingId key eiid s).sigNet = s.sigNet := rfl
@[simp] theorem setPendingId_mem (key eiid : Nat) (s : State) : (setPendingId key eiid s).mem = s.mem := rfl
@[simp] theorem setPendingId_grans (key eiid : Nat) (s : State) : (setPendingId key eiid s).grans = s.grans := rfl
@[simp] theorem setPendingId_moves (key eiid : Nat) (s : State) : (setPendingId key eiid s).moves = s.moves := rfl
@[simp] theorem setPendingId_filling (key eiid : Nat) (s : State) : (setPendingId key eiid s).filling = s.filling := rfl
@[simp] theorem setPendingId_sep (key eiid : Nat) (s : State) : (setPendingId key eiid s).sep = s.sep := rfl
@[simp] theorem setPendingId_quotas (key eiid : Nat) (s : State) : (setPendingId key eiid s).quotas = s.quotas := rfl
@[simp] theorem setPendingId_ctxs (key eiid : Nat) (s : State) : (setPendingId key eiid s).ctxs = s.ctxs := rfl
@[simp] theorem setPendingId_jobs (key eiid : Nat) (s : State) : (setPendingId key eiid s).jobs = s.jobs := rfl
@[simp] theorem setPendingId_disp (key eiid : Nat) (s : State) : (setPendingId key eiid s).disp = s.disp := rfl
@[simp] theorem setPendingId_parts (key eiid : Nat) (s : State) : (setPendingId key eiid s).parts = s.parts := rfl
@[simp] theorem setPendingId_iommu (key eiid : Nat) (s : State) : (setPendingId key eiid s).iommu = s.iommu := rfl
@[simp] theorem setPendingId_dom (key eiid : Nat) (s : State) : (setPendingId key eiid s).dom = s.dom := rfl
@[simp] theorem setPendingId_lacing (key eiid : Nat) (s : State) : (setPendingId key eiid s).lacing = s.lacing := rfl
@[simp] theorem setPendingId_units (key eiid : Nat) (s : State) : (setPendingId key eiid s).units = s.units := rfl
@[simp] theorem setPendingId_tunnel (key eiid : Nat) (s : State) : (setPendingId key eiid s).tunnel = s.tunnel := rfl
@[simp] theorem setPendingId_host (key eiid : Nat) (s : State) : (setPendingId key eiid s).host = s.host := rfl
@[simp] theorem setPendingId_power (key eiid : Nat) (s : State) : (setPendingId key eiid s).power = s.power := rfl
@[simp] theorem setPendingId_sec (key eiid : Nat) (s : State) : (setPendingId key eiid s).sec = s.sec := rfl
@[simp] theorem setPendingId_dict (key eiid : Nat) (s : State) : (setPendingId key eiid s).dict = s.dict := rfl
@[simp] theorem setPendingId_su (key eiid : Nat) (s : State) : (setPendingId key eiid s).su = s.su := rfl
@[simp] theorem setPendingId_nv (key eiid : Nat) (s : State) : (setPendingId key eiid s).nv = s.nv := rfl
@[simp] theorem setPendingId_ev (key eiid : Nat) (s : State) : (setPendingId key eiid s).ev = s.ev := rfl
@[simp] theorem setPendingId_upd (key eiid : Nat) (s : State) : (setPendingId key eiid s).upd = s.upd := rfl
@[simp] theorem setPendingId_cal (key eiid : Nat) (s : State) : (setPendingId key eiid s).cal = s.cal := rfl
@[simp] theorem writeFile_pending (hart file eiid : Nat) (s : State) : (writeFile hart file eiid s).pending = s.pending := by unfold writeFile; split <;> rfl
@[simp] theorem writeFile_free (hart file eiid : Nat) (s : State) : (writeFile hart file eiid s).free = s.free := by unfold writeFile; split <;> rfl
@[simp] theorem writeFile_resp (hart file eiid : Nat) (s : State) : (writeFile hart file eiid s).resp = s.resp := by unfold writeFile; split <;> rfl
@[simp] theorem writeFile_time (hart file eiid : Nat) (s : State) : (writeFile hart file eiid s).time = s.time := by unfold writeFile; split <;> rfl
@[simp] theorem writeFile_variant (hart file eiid : Nat) (s : State) : (writeFile hart file eiid s).variant = s.variant := by unfold writeFile; split <;> rfl
@[simp] theorem writeFile_weltGen (hart file eiid : Nat) (s : State) : (writeFile hart file eiid s).weltGen = s.weltGen := by unfold writeFile; split <;> rfl
@[simp] theorem writeFile_map (hart file eiid : Nat) (s : State) : (writeFile hart file eiid s).map = s.map := by unfold writeFile; split <;> rfl
@[simp] theorem writeFile_disc (hart file eiid : Nat) (s : State) : (writeFile hart file eiid s).disc = s.disc := by unfold writeFile; split <;> rfl
@[simp] theorem writeFile_dies (hart file eiid : Nat) (s : State) : (writeFile hart file eiid s).dies = s.dies := by unfold writeFile; split <;> rfl
@[simp] theorem writeFile_copyNet (hart file eiid : Nat) (s : State) : (writeFile hart file eiid s).copyNet = s.copyNet := by unfold writeFile; split <;> rfl
@[simp] theorem writeFile_sigNet (hart file eiid : Nat) (s : State) : (writeFile hart file eiid s).sigNet = s.sigNet := by unfold writeFile; split <;> rfl
@[simp] theorem writeFile_mem (hart file eiid : Nat) (s : State) : (writeFile hart file eiid s).mem = s.mem := by unfold writeFile; split <;> rfl
@[simp] theorem writeFile_grans (hart file eiid : Nat) (s : State) : (writeFile hart file eiid s).grans = s.grans := by unfold writeFile; split <;> rfl
@[simp] theorem writeFile_moves (hart file eiid : Nat) (s : State) : (writeFile hart file eiid s).moves = s.moves := by unfold writeFile; split <;> rfl
@[simp] theorem writeFile_filling (hart file eiid : Nat) (s : State) : (writeFile hart file eiid s).filling = s.filling := by unfold writeFile; split <;> rfl
@[simp] theorem writeFile_sep (hart file eiid : Nat) (s : State) : (writeFile hart file eiid s).sep = s.sep := by unfold writeFile; split <;> rfl
@[simp] theorem writeFile_quotas (hart file eiid : Nat) (s : State) : (writeFile hart file eiid s).quotas = s.quotas := by unfold writeFile; split <;> rfl
@[simp] theorem writeFile_ctxs (hart file eiid : Nat) (s : State) : (writeFile hart file eiid s).ctxs = s.ctxs := by unfold writeFile; split <;> rfl
@[simp] theorem writeFile_jobs (hart file eiid : Nat) (s : State) : (writeFile hart file eiid s).jobs = s.jobs := by unfold writeFile; split <;> rfl
@[simp] theorem writeFile_disp (hart file eiid : Nat) (s : State) : (writeFile hart file eiid s).disp = s.disp := by unfold writeFile; split <;> rfl
@[simp] theorem writeFile_parts (hart file eiid : Nat) (s : State) : (writeFile hart file eiid s).parts = s.parts := by unfold writeFile; split <;> rfl
@[simp] theorem writeFile_iommu (hart file eiid : Nat) (s : State) : (writeFile hart file eiid s).iommu = s.iommu := by unfold writeFile; split <;> rfl
@[simp] theorem writeFile_dom (hart file eiid : Nat) (s : State) : (writeFile hart file eiid s).dom = s.dom := by unfold writeFile; split <;> rfl
@[simp] theorem writeFile_lacing (hart file eiid : Nat) (s : State) : (writeFile hart file eiid s).lacing = s.lacing := by unfold writeFile; split <;> rfl
@[simp] theorem writeFile_units (hart file eiid : Nat) (s : State) : (writeFile hart file eiid s).units = s.units := by unfold writeFile; split <;> rfl
@[simp] theorem writeFile_tunnel (hart file eiid : Nat) (s : State) : (writeFile hart file eiid s).tunnel = s.tunnel := by unfold writeFile; split <;> rfl
@[simp] theorem writeFile_host (hart file eiid : Nat) (s : State) : (writeFile hart file eiid s).host = s.host := by unfold writeFile; split <;> rfl
@[simp] theorem writeFile_power (hart file eiid : Nat) (s : State) : (writeFile hart file eiid s).power = s.power := by unfold writeFile; split <;> rfl
@[simp] theorem writeFile_sec (hart file eiid : Nat) (s : State) : (writeFile hart file eiid s).sec = s.sec := by unfold writeFile; split <;> rfl
@[simp] theorem writeFile_dict (hart file eiid : Nat) (s : State) : (writeFile hart file eiid s).dict = s.dict := by unfold writeFile; split <;> rfl
@[simp] theorem writeFile_su (hart file eiid : Nat) (s : State) : (writeFile hart file eiid s).su = s.su := by unfold writeFile; split <;> rfl
@[simp] theorem writeFile_nv (hart file eiid : Nat) (s : State) : (writeFile hart file eiid s).nv = s.nv := by unfold writeFile; split <;> rfl
@[simp] theorem writeFile_ev (hart file eiid : Nat) (s : State) : (writeFile hart file eiid s).ev = s.ev := by unfold writeFile; split <;> rfl
@[simp] theorem writeFile_upd (hart file eiid : Nat) (s : State) : (writeFile hart file eiid s).upd = s.upd := by unfold writeFile; split <;> rfl
@[simp] theorem writeFile_cal (hart file eiid : Nat) (s : State) : (writeFile hart file eiid s).cal = s.cal := by unfold writeFile; split <;> rfl
@[simp] theorem deliverSource_pending (i : Nat) (s : State) : (deliverSource i s).pending = s.pending := by unfold deliverSource; dsimp only; split <;> simp
@[simp] theorem deliverSource_free (i : Nat) (s : State) : (deliverSource i s).free = s.free := by unfold deliverSource; dsimp only; split <;> simp
@[simp] theorem deliverSource_resp (i : Nat) (s : State) : (deliverSource i s).resp = s.resp := by unfold deliverSource; dsimp only; split <;> simp
@[simp] theorem deliverSource_time (i : Nat) (s : State) : (deliverSource i s).time = s.time := by unfold deliverSource; dsimp only; split <;> simp
@[simp] theorem deliverSource_variant (i : Nat) (s : State) : (deliverSource i s).variant = s.variant := by unfold deliverSource; dsimp only; split <;> simp
@[simp] theorem deliverSource_weltGen (i : Nat) (s : State) : (deliverSource i s).weltGen = s.weltGen := by unfold deliverSource; dsimp only; split <;> simp
@[simp] theorem deliverSource_map (i : Nat) (s : State) : (deliverSource i s).map = s.map := by unfold deliverSource; dsimp only; split <;> simp
@[simp] theorem deliverSource_disc (i : Nat) (s : State) : (deliverSource i s).disc = s.disc := by unfold deliverSource; dsimp only; split <;> simp
@[simp] theorem deliverSource_dies (i : Nat) (s : State) : (deliverSource i s).dies = s.dies := by unfold deliverSource; dsimp only; split <;> simp
@[simp] theorem deliverSource_copyNet (i : Nat) (s : State) : (deliverSource i s).copyNet = s.copyNet := by unfold deliverSource; dsimp only; split <;> simp
@[simp] theorem deliverSource_sigNet (i : Nat) (s : State) : (deliverSource i s).sigNet = s.sigNet := by unfold deliverSource; dsimp only; split <;> simp
@[simp] theorem deliverSource_mem (i : Nat) (s : State) : (deliverSource i s).mem = s.mem := by unfold deliverSource; dsimp only; split <;> simp
@[simp] theorem deliverSource_grans (i : Nat) (s : State) : (deliverSource i s).grans = s.grans := by unfold deliverSource; dsimp only; split <;> simp
@[simp] theorem deliverSource_moves (i : Nat) (s : State) : (deliverSource i s).moves = s.moves := by unfold deliverSource; dsimp only; split <;> simp
@[simp] theorem deliverSource_filling (i : Nat) (s : State) : (deliverSource i s).filling = s.filling := by unfold deliverSource; dsimp only; split <;> simp
@[simp] theorem deliverSource_sep (i : Nat) (s : State) : (deliverSource i s).sep = s.sep := by unfold deliverSource; dsimp only; split <;> simp
@[simp] theorem deliverSource_quotas (i : Nat) (s : State) : (deliverSource i s).quotas = s.quotas := by unfold deliverSource; dsimp only; split <;> simp
@[simp] theorem deliverSource_ctxs (i : Nat) (s : State) : (deliverSource i s).ctxs = s.ctxs := by unfold deliverSource; dsimp only; split <;> simp
@[simp] theorem deliverSource_jobs (i : Nat) (s : State) : (deliverSource i s).jobs = s.jobs := by unfold deliverSource; dsimp only; split <;> simp
@[simp] theorem deliverSource_disp (i : Nat) (s : State) : (deliverSource i s).disp = s.disp := by unfold deliverSource; dsimp only; split <;> simp
@[simp] theorem deliverSource_parts (i : Nat) (s : State) : (deliverSource i s).parts = s.parts := by unfold deliverSource; dsimp only; split <;> simp
@[simp] theorem deliverSource_iommu (i : Nat) (s : State) : (deliverSource i s).iommu = s.iommu := by unfold deliverSource; dsimp only; split <;> simp
@[simp] theorem deliverSource_dom (i : Nat) (s : State) : (deliverSource i s).dom = s.dom := by unfold deliverSource; dsimp only; split <;> simp
@[simp] theorem deliverSource_lacing (i : Nat) (s : State) : (deliverSource i s).lacing = s.lacing := by unfold deliverSource; dsimp only; split <;> simp
@[simp] theorem deliverSource_units (i : Nat) (s : State) : (deliverSource i s).units = s.units := by unfold deliverSource; dsimp only; split <;> simp
@[simp] theorem deliverSource_tunnel (i : Nat) (s : State) : (deliverSource i s).tunnel = s.tunnel := by unfold deliverSource; dsimp only; split <;> simp
@[simp] theorem deliverSource_host (i : Nat) (s : State) : (deliverSource i s).host = s.host := by unfold deliverSource; dsimp only; split <;> simp
@[simp] theorem deliverSource_power (i : Nat) (s : State) : (deliverSource i s).power = s.power := by unfold deliverSource; dsimp only; split <;> simp
@[simp] theorem deliverSource_sec (i : Nat) (s : State) : (deliverSource i s).sec = s.sec := by unfold deliverSource; dsimp only; split <;> simp
@[simp] theorem deliverSource_dict (i : Nat) (s : State) : (deliverSource i s).dict = s.dict := by unfold deliverSource; dsimp only; split <;> simp
@[simp] theorem deliverSource_su (i : Nat) (s : State) : (deliverSource i s).su = s.su := by unfold deliverSource; dsimp only; split <;> simp
@[simp] theorem deliverSource_nv (i : Nat) (s : State) : (deliverSource i s).nv = s.nv := by unfold deliverSource; dsimp only; split <;> simp
@[simp] theorem deliverSource_ev (i : Nat) (s : State) : (deliverSource i s).ev = s.ev := by unfold deliverSource; dsimp only; split <;> simp
@[simp] theorem deliverSource_upd (i : Nat) (s : State) : (deliverSource i s).upd = s.upd := by unfold deliverSource; dsimp only; split <;> simp
@[simp] theorem deliverSource_cal (i : Nat) (s : State) : (deliverSource i s).cal = s.cal := by unfold deliverSource; dsimp only; split <;> simp
@[simp] theorem raiseSource_pending (i : Nat) (s : State) : (raiseSource i s).pending = s.pending := by unfold raiseSource; split <;> simp
@[simp] theorem raiseSource_free (i : Nat) (s : State) : (raiseSource i s).free = s.free := by unfold raiseSource; split <;> simp
@[simp] theorem raiseSource_resp (i : Nat) (s : State) : (raiseSource i s).resp = s.resp := by unfold raiseSource; split <;> simp
@[simp] theorem raiseSource_time (i : Nat) (s : State) : (raiseSource i s).time = s.time := by unfold raiseSource; split <;> simp
@[simp] theorem raiseSource_variant (i : Nat) (s : State) : (raiseSource i s).variant = s.variant := by unfold raiseSource; split <;> simp
@[simp] theorem raiseSource_weltGen (i : Nat) (s : State) : (raiseSource i s).weltGen = s.weltGen := by unfold raiseSource; split <;> simp
@[simp] theorem raiseSource_map (i : Nat) (s : State) : (raiseSource i s).map = s.map := by unfold raiseSource; split <;> simp
@[simp] theorem raiseSource_disc (i : Nat) (s : State) : (raiseSource i s).disc = s.disc := by unfold raiseSource; split <;> simp
@[simp] theorem raiseSource_dies (i : Nat) (s : State) : (raiseSource i s).dies = s.dies := by unfold raiseSource; split <;> simp
@[simp] theorem raiseSource_copyNet (i : Nat) (s : State) : (raiseSource i s).copyNet = s.copyNet := by unfold raiseSource; split <;> simp
@[simp] theorem raiseSource_sigNet (i : Nat) (s : State) : (raiseSource i s).sigNet = s.sigNet := by unfold raiseSource; split <;> simp
@[simp] theorem raiseSource_mem (i : Nat) (s : State) : (raiseSource i s).mem = s.mem := by unfold raiseSource; split <;> simp
@[simp] theorem raiseSource_grans (i : Nat) (s : State) : (raiseSource i s).grans = s.grans := by unfold raiseSource; split <;> simp
@[simp] theorem raiseSource_moves (i : Nat) (s : State) : (raiseSource i s).moves = s.moves := by unfold raiseSource; split <;> simp
@[simp] theorem raiseSource_filling (i : Nat) (s : State) : (raiseSource i s).filling = s.filling := by unfold raiseSource; split <;> simp
@[simp] theorem raiseSource_sep (i : Nat) (s : State) : (raiseSource i s).sep = s.sep := by unfold raiseSource; split <;> simp
@[simp] theorem raiseSource_quotas (i : Nat) (s : State) : (raiseSource i s).quotas = s.quotas := by unfold raiseSource; split <;> simp
@[simp] theorem raiseSource_ctxs (i : Nat) (s : State) : (raiseSource i s).ctxs = s.ctxs := by unfold raiseSource; split <;> simp
@[simp] theorem raiseSource_jobs (i : Nat) (s : State) : (raiseSource i s).jobs = s.jobs := by unfold raiseSource; split <;> simp
@[simp] theorem raiseSource_disp (i : Nat) (s : State) : (raiseSource i s).disp = s.disp := by unfold raiseSource; split <;> simp
@[simp] theorem raiseSource_parts (i : Nat) (s : State) : (raiseSource i s).parts = s.parts := by unfold raiseSource; split <;> simp
@[simp] theorem raiseSource_iommu (i : Nat) (s : State) : (raiseSource i s).iommu = s.iommu := by unfold raiseSource; split <;> simp
@[simp] theorem raiseSource_dom (i : Nat) (s : State) : (raiseSource i s).dom = s.dom := by unfold raiseSource; split <;> simp
@[simp] theorem raiseSource_lacing (i : Nat) (s : State) : (raiseSource i s).lacing = s.lacing := by unfold raiseSource; split <;> simp
@[simp] theorem raiseSource_units (i : Nat) (s : State) : (raiseSource i s).units = s.units := by unfold raiseSource; split <;> simp
@[simp] theorem raiseSource_tunnel (i : Nat) (s : State) : (raiseSource i s).tunnel = s.tunnel := by unfold raiseSource; split <;> simp
@[simp] theorem raiseSource_host (i : Nat) (s : State) : (raiseSource i s).host = s.host := by unfold raiseSource; split <;> simp
@[simp] theorem raiseSource_power (i : Nat) (s : State) : (raiseSource i s).power = s.power := by unfold raiseSource; split <;> simp
@[simp] theorem raiseSource_sec (i : Nat) (s : State) : (raiseSource i s).sec = s.sec := by unfold raiseSource; split <;> simp
@[simp] theorem raiseSource_dict (i : Nat) (s : State) : (raiseSource i s).dict = s.dict := by unfold raiseSource; split <;> simp
@[simp] theorem raiseSource_su (i : Nat) (s : State) : (raiseSource i s).su = s.su := by unfold raiseSource; split <;> simp
@[simp] theorem raiseSource_nv (i : Nat) (s : State) : (raiseSource i s).nv = s.nv := by unfold raiseSource; split <;> simp
@[simp] theorem raiseSource_ev (i : Nat) (s : State) : (raiseSource i s).ev = s.ev := by unfold raiseSource; split <;> simp
@[simp] theorem raiseSource_upd (i : Nat) (s : State) : (raiseSource i s).upd = s.upd := by unfold raiseSource; split <;> simp
@[simp] theorem raiseSource_cal (i : Nat) (s : State) : (raiseSource i s).cal = s.cal := by unfold raiseSource; split <;> simp
@[simp] theorem raiseVector_pending (v : Nat) (s : State) : (raiseVector v s).pending = s.pending := by unfold raiseVector; split <;> (try split) <;> rfl
@[simp] theorem raiseVector_free (v : Nat) (s : State) : (raiseVector v s).free = s.free := by unfold raiseVector; split <;> (try split) <;> rfl
@[simp] theorem raiseVector_resp (v : Nat) (s : State) : (raiseVector v s).resp = s.resp := by unfold raiseVector; split <;> (try split) <;> rfl
@[simp] theorem raiseVector_time (v : Nat) (s : State) : (raiseVector v s).time = s.time := by unfold raiseVector; split <;> (try split) <;> rfl
@[simp] theorem raiseVector_variant (v : Nat) (s : State) : (raiseVector v s).variant = s.variant := by unfold raiseVector; split <;> (try split) <;> rfl
@[simp] theorem raiseVector_weltGen (v : Nat) (s : State) : (raiseVector v s).weltGen = s.weltGen := by unfold raiseVector; split <;> (try split) <;> rfl
@[simp] theorem raiseVector_map (v : Nat) (s : State) : (raiseVector v s).map = s.map := by unfold raiseVector; split <;> (try split) <;> rfl
@[simp] theorem raiseVector_disc (v : Nat) (s : State) : (raiseVector v s).disc = s.disc := by unfold raiseVector; split <;> (try split) <;> rfl
@[simp] theorem raiseVector_dies (v : Nat) (s : State) : (raiseVector v s).dies = s.dies := by unfold raiseVector; split <;> (try split) <;> rfl
@[simp] theorem raiseVector_copyNet (v : Nat) (s : State) : (raiseVector v s).copyNet = s.copyNet := by unfold raiseVector; split <;> (try split) <;> rfl
@[simp] theorem raiseVector_sigNet (v : Nat) (s : State) : (raiseVector v s).sigNet = s.sigNet := by unfold raiseVector; split <;> (try split) <;> rfl
@[simp] theorem raiseVector_mem (v : Nat) (s : State) : (raiseVector v s).mem = s.mem := by unfold raiseVector; split <;> (try split) <;> rfl
@[simp] theorem raiseVector_grans (v : Nat) (s : State) : (raiseVector v s).grans = s.grans := by unfold raiseVector; split <;> (try split) <;> rfl
@[simp] theorem raiseVector_moves (v : Nat) (s : State) : (raiseVector v s).moves = s.moves := by unfold raiseVector; split <;> (try split) <;> rfl
@[simp] theorem raiseVector_filling (v : Nat) (s : State) : (raiseVector v s).filling = s.filling := by unfold raiseVector; split <;> (try split) <;> rfl
@[simp] theorem raiseVector_sep (v : Nat) (s : State) : (raiseVector v s).sep = s.sep := by unfold raiseVector; split <;> (try split) <;> rfl
@[simp] theorem raiseVector_quotas (v : Nat) (s : State) : (raiseVector v s).quotas = s.quotas := by unfold raiseVector; split <;> (try split) <;> rfl
@[simp] theorem raiseVector_ctxs (v : Nat) (s : State) : (raiseVector v s).ctxs = s.ctxs := by unfold raiseVector; split <;> (try split) <;> rfl
@[simp] theorem raiseVector_jobs (v : Nat) (s : State) : (raiseVector v s).jobs = s.jobs := by unfold raiseVector; split <;> (try split) <;> rfl
@[simp] theorem raiseVector_disp (v : Nat) (s : State) : (raiseVector v s).disp = s.disp := by unfold raiseVector; split <;> (try split) <;> rfl
@[simp] theorem raiseVector_parts (v : Nat) (s : State) : (raiseVector v s).parts = s.parts := by unfold raiseVector; split <;> (try split) <;> rfl
@[simp] theorem raiseVector_iommu (v : Nat) (s : State) : (raiseVector v s).iommu = s.iommu := by unfold raiseVector; split <;> (try split) <;> rfl
@[simp] theorem raiseVector_dom (v : Nat) (s : State) : (raiseVector v s).dom = s.dom := by unfold raiseVector; split <;> (try split) <;> rfl
@[simp] theorem raiseVector_cluster (v : Nat) (s : State) : (raiseVector v s).cluster = s.cluster := by unfold raiseVector; split <;> (try split) <;> rfl
@[simp] theorem raiseVector_lacing (v : Nat) (s : State) : (raiseVector v s).lacing = s.lacing := by unfold raiseVector; split <;> (try split) <;> rfl
@[simp] theorem raiseVector_units (v : Nat) (s : State) : (raiseVector v s).units = s.units := by unfold raiseVector; split <;> (try split) <;> rfl
@[simp] theorem raiseVector_tunnel (v : Nat) (s : State) : (raiseVector v s).tunnel = s.tunnel := by unfold raiseVector; split <;> (try split) <;> rfl
@[simp] theorem raiseVector_power (v : Nat) (s : State) : (raiseVector v s).power = s.power := by unfold raiseVector; split <;> (try split) <;> rfl
@[simp] theorem raiseVector_sec (v : Nat) (s : State) : (raiseVector v s).sec = s.sec := by unfold raiseVector; split <;> (try split) <;> rfl
@[simp] theorem raiseVector_dict (v : Nat) (s : State) : (raiseVector v s).dict = s.dict := by unfold raiseVector; split <;> (try split) <;> rfl
@[simp] theorem raiseVector_su (v : Nat) (s : State) : (raiseVector v s).su = s.su := by unfold raiseVector; split <;> (try split) <;> rfl
@[simp] theorem raiseVector_nv (v : Nat) (s : State) : (raiseVector v s).nv = s.nv := by unfold raiseVector; split <;> (try split) <;> rfl
@[simp] theorem raiseVector_ev (v : Nat) (s : State) : (raiseVector v s).ev = s.ev := by unfold raiseVector; split <;> (try split) <;> rfl
@[simp] theorem raiseVector_upd (v : Nat) (s : State) : (raiseVector v s).upd = s.upd := by unfold raiseVector; split <;> (try split) <;> rfl
@[simp] theorem raiseVector_cal (v : Nat) (s : State) : (raiseVector v s).cal = s.cal := by unfold raiseVector; split <;> (try split) <;> rfl

/-! ## Events -/

@[simp] theorem postBy_pending (cowbell : Bool) (code site : Nat) (payload : List Nat) (s : State) : (postBy cowbell code site payload s).pending = s.pending := by unfold postBy; dsimp only; split <;> simp
@[simp] theorem postBy_free (cowbell : Bool) (code site : Nat) (payload : List Nat) (s : State) : (postBy cowbell code site payload s).free = s.free := by unfold postBy; dsimp only; split <;> simp
@[simp] theorem postBy_resp (cowbell : Bool) (code site : Nat) (payload : List Nat) (s : State) : (postBy cowbell code site payload s).resp = s.resp := by unfold postBy; dsimp only; split <;> simp
@[simp] theorem postBy_time (cowbell : Bool) (code site : Nat) (payload : List Nat) (s : State) : (postBy cowbell code site payload s).time = s.time := by unfold postBy; dsimp only; split <;> simp
@[simp] theorem postBy_variant (cowbell : Bool) (code site : Nat) (payload : List Nat) (s : State) : (postBy cowbell code site payload s).variant = s.variant := by unfold postBy; dsimp only; split <;> simp
@[simp] theorem postBy_weltGen (cowbell : Bool) (code site : Nat) (payload : List Nat) (s : State) : (postBy cowbell code site payload s).weltGen = s.weltGen := by unfold postBy; dsimp only; split <;> simp
@[simp] theorem postBy_map (cowbell : Bool) (code site : Nat) (payload : List Nat) (s : State) : (postBy cowbell code site payload s).map = s.map := by unfold postBy; dsimp only; split <;> simp
@[simp] theorem postBy_disc (cowbell : Bool) (code site : Nat) (payload : List Nat) (s : State) : (postBy cowbell code site payload s).disc = s.disc := by unfold postBy; dsimp only; split <;> simp
@[simp] theorem postBy_dies (cowbell : Bool) (code site : Nat) (payload : List Nat) (s : State) : (postBy cowbell code site payload s).dies = s.dies := by unfold postBy; dsimp only; split <;> simp
@[simp] theorem postBy_copyNet (cowbell : Bool) (code site : Nat) (payload : List Nat) (s : State) : (postBy cowbell code site payload s).copyNet = s.copyNet := by unfold postBy; dsimp only; split <;> simp
@[simp] theorem postBy_sigNet (cowbell : Bool) (code site : Nat) (payload : List Nat) (s : State) : (postBy cowbell code site payload s).sigNet = s.sigNet := by unfold postBy; dsimp only; split <;> simp
@[simp] theorem postBy_mem (cowbell : Bool) (code site : Nat) (payload : List Nat) (s : State) : (postBy cowbell code site payload s).mem = s.mem := by unfold postBy; dsimp only; split <;> simp
@[simp] theorem postBy_grans (cowbell : Bool) (code site : Nat) (payload : List Nat) (s : State) : (postBy cowbell code site payload s).grans = s.grans := by unfold postBy; dsimp only; split <;> simp
@[simp] theorem postBy_moves (cowbell : Bool) (code site : Nat) (payload : List Nat) (s : State) : (postBy cowbell code site payload s).moves = s.moves := by unfold postBy; dsimp only; split <;> simp
@[simp] theorem postBy_filling (cowbell : Bool) (code site : Nat) (payload : List Nat) (s : State) : (postBy cowbell code site payload s).filling = s.filling := by unfold postBy; dsimp only; split <;> simp
@[simp] theorem postBy_sep (cowbell : Bool) (code site : Nat) (payload : List Nat) (s : State) : (postBy cowbell code site payload s).sep = s.sep := by unfold postBy; dsimp only; split <;> simp
@[simp] theorem postBy_quotas (cowbell : Bool) (code site : Nat) (payload : List Nat) (s : State) : (postBy cowbell code site payload s).quotas = s.quotas := by unfold postBy; dsimp only; split <;> simp
@[simp] theorem postBy_ctxs (cowbell : Bool) (code site : Nat) (payload : List Nat) (s : State) : (postBy cowbell code site payload s).ctxs = s.ctxs := by unfold postBy; dsimp only; split <;> simp
@[simp] theorem postBy_jobs (cowbell : Bool) (code site : Nat) (payload : List Nat) (s : State) : (postBy cowbell code site payload s).jobs = s.jobs := by unfold postBy; dsimp only; split <;> simp
@[simp] theorem postBy_disp (cowbell : Bool) (code site : Nat) (payload : List Nat) (s : State) : (postBy cowbell code site payload s).disp = s.disp := by unfold postBy; dsimp only; split <;> simp
@[simp] theorem postBy_parts (cowbell : Bool) (code site : Nat) (payload : List Nat) (s : State) : (postBy cowbell code site payload s).parts = s.parts := by unfold postBy; dsimp only; split <;> simp
@[simp] theorem postBy_iommu (cowbell : Bool) (code site : Nat) (payload : List Nat) (s : State) : (postBy cowbell code site payload s).iommu = s.iommu := by unfold postBy; dsimp only; split <;> simp
@[simp] theorem postBy_dom (cowbell : Bool) (code site : Nat) (payload : List Nat) (s : State) : (postBy cowbell code site payload s).dom = s.dom := by unfold postBy; dsimp only; split <;> simp
@[simp] theorem postBy_lacing (cowbell : Bool) (code site : Nat) (payload : List Nat) (s : State) : (postBy cowbell code site payload s).lacing = s.lacing := by unfold postBy; dsimp only; split <;> simp
@[simp] theorem postBy_units (cowbell : Bool) (code site : Nat) (payload : List Nat) (s : State) : (postBy cowbell code site payload s).units = s.units := by unfold postBy; dsimp only; split <;> simp
@[simp] theorem postBy_tunnel (cowbell : Bool) (code site : Nat) (payload : List Nat) (s : State) : (postBy cowbell code site payload s).tunnel = s.tunnel := by unfold postBy; dsimp only; split <;> simp
@[simp] theorem postBy_power (cowbell : Bool) (code site : Nat) (payload : List Nat) (s : State) : (postBy cowbell code site payload s).power = s.power := by unfold postBy; dsimp only; split <;> simp
@[simp] theorem postBy_sec (cowbell : Bool) (code site : Nat) (payload : List Nat) (s : State) : (postBy cowbell code site payload s).sec = s.sec := by unfold postBy; dsimp only; split <;> simp
@[simp] theorem postBy_dict (cowbell : Bool) (code site : Nat) (payload : List Nat) (s : State) : (postBy cowbell code site payload s).dict = s.dict := by unfold postBy; dsimp only; split <;> simp
@[simp] theorem postBy_nv (cowbell : Bool) (code site : Nat) (payload : List Nat) (s : State) : (postBy cowbell code site payload s).nv = s.nv := by unfold postBy; dsimp only; split <;> simp
@[simp] theorem postBy_upd (cowbell : Bool) (code site : Nat) (payload : List Nat) (s : State) : (postBy cowbell code site payload s).upd = s.upd := by unfold postBy; dsimp only; split <;> simp
@[simp] theorem postBy_cal (cowbell : Bool) (code site : Nat) (payload : List Nat) (s : State) : (postBy cowbell code site payload s).cal = s.cal := by unfold postBy; dsimp only; split <;> simp
@[simp] theorem post_pending (code site : Nat) (payload : List Nat) (s : State) : (post code site payload s).pending = s.pending := by simp [post]
@[simp] theorem post_free (code site : Nat) (payload : List Nat) (s : State) : (post code site payload s).free = s.free := by simp [post]
@[simp] theorem post_resp (code site : Nat) (payload : List Nat) (s : State) : (post code site payload s).resp = s.resp := by simp [post]
@[simp] theorem post_time (code site : Nat) (payload : List Nat) (s : State) : (post code site payload s).time = s.time := by simp [post]
@[simp] theorem post_variant (code site : Nat) (payload : List Nat) (s : State) : (post code site payload s).variant = s.variant := by simp [post]
@[simp] theorem post_weltGen (code site : Nat) (payload : List Nat) (s : State) : (post code site payload s).weltGen = s.weltGen := by simp [post]
@[simp] theorem post_map (code site : Nat) (payload : List Nat) (s : State) : (post code site payload s).map = s.map := by simp [post]
@[simp] theorem post_disc (code site : Nat) (payload : List Nat) (s : State) : (post code site payload s).disc = s.disc := by simp [post]
@[simp] theorem post_dies (code site : Nat) (payload : List Nat) (s : State) : (post code site payload s).dies = s.dies := by simp [post]
@[simp] theorem post_copyNet (code site : Nat) (payload : List Nat) (s : State) : (post code site payload s).copyNet = s.copyNet := by simp [post]
@[simp] theorem post_sigNet (code site : Nat) (payload : List Nat) (s : State) : (post code site payload s).sigNet = s.sigNet := by simp [post]
@[simp] theorem post_mem (code site : Nat) (payload : List Nat) (s : State) : (post code site payload s).mem = s.mem := by simp [post]
@[simp] theorem post_grans (code site : Nat) (payload : List Nat) (s : State) : (post code site payload s).grans = s.grans := by simp [post]
@[simp] theorem post_moves (code site : Nat) (payload : List Nat) (s : State) : (post code site payload s).moves = s.moves := by simp [post]
@[simp] theorem post_filling (code site : Nat) (payload : List Nat) (s : State) : (post code site payload s).filling = s.filling := by simp [post]
@[simp] theorem post_sep (code site : Nat) (payload : List Nat) (s : State) : (post code site payload s).sep = s.sep := by simp [post]
@[simp] theorem post_quotas (code site : Nat) (payload : List Nat) (s : State) : (post code site payload s).quotas = s.quotas := by simp [post]
@[simp] theorem post_ctxs (code site : Nat) (payload : List Nat) (s : State) : (post code site payload s).ctxs = s.ctxs := by simp [post]
@[simp] theorem post_jobs (code site : Nat) (payload : List Nat) (s : State) : (post code site payload s).jobs = s.jobs := by simp [post]
@[simp] theorem post_disp (code site : Nat) (payload : List Nat) (s : State) : (post code site payload s).disp = s.disp := by simp [post]
@[simp] theorem post_parts (code site : Nat) (payload : List Nat) (s : State) : (post code site payload s).parts = s.parts := by simp [post]
@[simp] theorem post_iommu (code site : Nat) (payload : List Nat) (s : State) : (post code site payload s).iommu = s.iommu := by simp [post]
@[simp] theorem post_dom (code site : Nat) (payload : List Nat) (s : State) : (post code site payload s).dom = s.dom := by simp [post]
@[simp] theorem post_lacing (code site : Nat) (payload : List Nat) (s : State) : (post code site payload s).lacing = s.lacing := by simp [post]
@[simp] theorem post_units (code site : Nat) (payload : List Nat) (s : State) : (post code site payload s).units = s.units := by simp [post]
@[simp] theorem post_tunnel (code site : Nat) (payload : List Nat) (s : State) : (post code site payload s).tunnel = s.tunnel := by simp [post]
@[simp] theorem post_power (code site : Nat) (payload : List Nat) (s : State) : (post code site payload s).power = s.power := by simp [post]
@[simp] theorem post_sec (code site : Nat) (payload : List Nat) (s : State) : (post code site payload s).sec = s.sec := by simp [post]
@[simp] theorem post_dict (code site : Nat) (payload : List Nat) (s : State) : (post code site payload s).dict = s.dict := by simp [post]
@[simp] theorem post_nv (code site : Nat) (payload : List Nat) (s : State) : (post code site payload s).nv = s.nv := by simp [post]
@[simp] theorem post_upd (code site : Nat) (payload : List Nat) (s : State) : (post code site payload s).upd = s.upd := by simp [post]
@[simp] theorem post_cal (code site : Nat) (payload : List Nat) (s : State) : (post code site payload s).cal = s.cal := by simp [post]

/-- An event not of the Cowbell's own changes nothing of the start-up state. -/
@[simp] theorem post_su (code site : Nat) (payload : List Nat) (s : State) : (post code site payload s).su = s.su := by
  unfold post postBy; dsimp only; split <;> simp

/-- Posting counts one record. -/
@[simp] theorem post_number (code site : Nat) (payload : List Nat) (s : State) :
    (post code site payload s).ev.number = s.ev.number + 1 := by
  unfold post postBy; dsimp only; split <;> (simp; try split) <;> (try split) <;> simp

/-- The record posted is the newest of the Cowbell's copy of the last 32 (R417, R427). -/
theorem post_last (code site : Nat) (payload : List Nat) (s : State) :
    (post code site payload s).ev.tail.getLast? = some (mkEvent s code site false payload) := by
  have key : ∀ (l : List Event) (r : Event), ((l ++ [r]).drop (l.length - 31)).getLast? = some r := by
    intro l r
    rw [List.getLast?_drop]
    simp
  unfold post postBy
  dsimp only
  split <;> (simp only [raiseSource_ev, raiseVector_ev]) <;> split <;> (try split) <;> exact key _ _


end Sys2Proof.Machine
end

