-- ==== Sys2Proof/Laws/Kill.lean ====
section
/-! SUPPORT. Posting and killing, said once: what a posted record is, and what a kill leaves on every die of a gang. -/

namespace Sys2Proof.Machine

/-! ## Posted records -/

@[simp] theorem dairymanUp_post (code site : Nat) (p : List Nat) (s : State) : dairymanUp (post code site p s) = dairymanUp s := by
  simp [dairymanUp]

/-- Posting an event posts its record. -/
theorem posted_post (code site : Nat) (p : List Nat) (s : State) : Posted s (post code site p s) code site p := by
  refine ⟨mkEvent s code site false p, rfl, rfl, rfl, rfl, ?_⟩
  unfold post postBy
  dsimp only
  cases hd : dairymanUp s <;> simp only [Bool.false_eq_true, if_false, if_true]
  · by_cases hl : s.ev.cowbell.length < 64 <;> split <;> simp
  · split <;> simp

/-- What the event records of a state hold, the records after another event hold. -/
theorem posted_after {s t : State} {code site : Nat} {p : List Nat} (h : Posted s t code site p) (hd : dairymanUp t = dairymanUp s)
    (c2 s2 : Nat) (p2 : List Nat) : Posted s (post c2 s2 p2 t) code site p := by
  obtain ⟨r, h1, h2, h3, h4, h5⟩ := h
  refine ⟨r, h1, h2, h3, h4, ?_⟩
  unfold post postBy
  dsimp only
  cases hs : dairymanUp s <;> rw [hs] at h5 hd <;> simp only [hd, Bool.false_eq_true, if_false, if_true] at h5 ⊢
  · by_cases hl : t.ev.cowbell.length < 64 <;> split <;> simp <;> rcases h5 with h5 | h5 <;>
      first | (left; exact .inl h5) | (right; omega) | (left; exact h5)
  · split <;> simp [h5]

/-- A part of the state that holds neither event records nor start-up changes no record. -/
theorem posted_of_ev {s t u : State} {code site : Nat} {p : List Nat} (h : Posted s t code site p) (he : u.ev = t.ev) :
    Posted s u code site p := by
  obtain ⟨r, h1, h2, h3, h4, h5⟩ := h
  exact ⟨r, h1, h2, h3, h4, by rw [he]; exact h5⟩

/-! ## What a kill leaves alone -/

@[simp] theorem transmit_dies (p n : Nat) (w : List Byte) (s : State) : (transmit p n w s).dies = s.dies := by
  unfold transmit; split <;> rfl
@[simp] theorem transmit_jobs (p n : Nat) (w : List Byte) (s : State) : (transmit p n w s).jobs = s.jobs := by
  unfold transmit; split <;> rfl
@[simp] theorem transmit_mem (p n : Nat) (w : List Byte) (s : State) : (transmit p n w s).mem = s.mem := by
  unfold transmit; split <;> rfl
@[simp] theorem transmit_ev (p n : Nat) (w : List Byte) (s : State) : (transmit p n w s).ev = s.ev := by
  unfold transmit; split <;> rfl
@[simp] theorem transmit_su (p n : Nat) (w : List Byte) (s : State) : (transmit p n w s).su = s.su := by
  unfold transmit; split <;> rfl

/-- Sending a lace packet changes no die, job, byte of memory or start-up register. -/
theorem sendLace_frame (p ty aux tag cmd oper : Nat) (data : List Byte) (s : State) :
    let t := sendLace p ty aux tag cmd oper data s
    t.dies = s.dies ∧ t.jobs = s.jobs ∧ t.mem = s.mem ∧ t.su = s.su := by
  unfold sendLace
  dsimp only
  split
  · simp
  · split
    · simp
    · split <;> simp

/-- Sending a lace packet loses no event record. -/
theorem posted_sendLace {s t : State} {code site : Nat} {q : List Nat} (h : Posted s t code site q)
    (hd : dairymanUp t = dairymanUp s) (p ty aux tag cmd oper : Nat) (data : List Byte) :
    Posted s (sendLace p ty aux tag cmd oper data t) code site q := by
  unfold sendLace
  dsimp only
  split
  · exact posted_after h hd _ _ _
  · split
    · exact h
    · refine posted_of_ev h ?_
      split <;> simp

/-- One partner's ABORT. -/
theorem abortOne_frame (p : Nat) (s : State) (c : LaceCmd) :
    let t := sendLace p ptAbort 0 0 c.cmd.toNat 0 [] (updPartner s p (fun e => { e with cmds := e.cmds.filter (fun x => x.cmd != c.cmd) }))
    t.dies = s.dies ∧ t.jobs = s.jobs ∧ t.mem = s.mem ∧ t.su = s.su :=
  sendLace_frame p ptAbort 0 0 c.cmd.toNat 0 [] (updPartner s p (fun e => { e with cmds := e.cmds.filter (fun x => x.cmd != c.cmd) }))

/-- ABORTs change no die, job, byte of memory or start-up register. -/
theorem abortFor_frame (d : Nat) (s : State) :
    let t := abortFor d s
    t.dies = s.dies ∧ t.jobs = s.jobs ∧ t.mem = s.mem ∧ t.su = s.su := by
  unfold abortFor
  refine each_keeps (fun t => t.dies = s.dies ∧ t.jobs = s.jobs ∧ t.mem = s.mem ∧ t.su = s.su) _ _ ?_ s ⟨rfl, rfl, rfl, rfl⟩
  intro a _ t ht
  cases hc : laceCmdOf t d a with
  | none => exact ht
  | some c =>
    have h := abortOne_frame a t c
    exact ⟨h.1.trans ht.1, h.2.1.trans ht.2.1, h.2.2.1.trans ht.2.2.1, h.2.2.2.trans ht.2.2.2⟩

/-- ABORTs lose no event record. -/
theorem posted_abortFor {s t : State} {code site : Nat} {q : List Nat} (h : Posted s t code site q) (hs : t.su = s.su) (d : Nat) :
    Posted s (abortFor d t) code site q := by
  unfold abortFor
  refine (each_keeps (fun u => Posted s u code site q ∧ u.su = s.su) _ _ ?_ t ⟨h, hs⟩).1
  intro a _ u hu
  cases hc : laceCmdOf u d a with
  | none => exact hu
  | some c =>
    dsimp only
    have h1 : Posted s (updPartner u a (fun e => { e with cmds := e.cmds.filter (fun x => x.cmd != c.cmd) })) code site q :=
      posted_of_ev hu.1 rfl
    have h2 : dairymanUp (updPartner u a (fun e => { e with cmds := e.cmds.filter (fun x => x.cmd != c.cmd) })) = dairymanUp s := by
      have := hu.2
      simp [dairymanUp, this]
    exact ⟨posted_sendLace h1 h2 a ptAbort 0 0 c.cmd.toNat 0 [], (abortOne_frame a u c).2.2.2.trans hu.2⟩

/-- Steps 1 to 4 of R184 on one die change that die, its lace state and its messages, and lose no event record. -/
theorem killDie_frame (d : Nat) (s : State) :
    let t := killDie d s
    t.jobs = s.jobs ∧ t.mem = s.mem ∧ t.su = s.su ∧ (∀ e, e ≠ d → dieOf t e = dieOf s e) ∧
      ∃ u p n, dieOf t d = stopDie u s.time p n (dieOf s d) := by
  obtain ⟨h1, h2, h3, h4⟩ := abortFor_frame d (retireTags d s)
  have hd : ∀ e, dieOf (dropNets d (abortFor d (retireTags d s))) e = dieOf s e := by
    intro e; show SMap.get {} (abortFor d (retireTags d s)).dies e = _; rw [h1]; rfl
  let t := dropNets d (abortFor d (retireTags d s))
  refine ⟨h2, h3, h4, fun e he => ?_, unitMapOf t d, (lineOf t d).pausedAt, t.free, ?_⟩
  · unfold killDie
    dsimp only
    rw [dieOf_updDie_other _ _ he]
    exact hd e
  · unfold killDie
    dsimp only
    rw [dieOf_updDie_same]
    exact congrArg (stopDie (unitMapOf t d) s.time (lineOf t d).pausedAt t.free) (hd d)

theorem posted_killDie {s t : State} {code site : Nat} {q : List Nat} (h : Posted s t code site q) (hs : t.su = s.su) (d : Nat) :
    Posted s (killDie d t) code site q :=
  posted_of_ev (posted_abortFor (t := retireTags d t) (posted_of_ev h rfl) hs d) rfl

/-- Steps 1 to 4 of R184 on every die of a job. -/
theorem killAll_frame (dies : List Nat) (s : State) :
    let t := each dies (fun d s => updDie (killDie d s) d orphanRequests) s
    t.jobs = s.jobs ∧ t.mem = s.mem ∧ t.su = s.su ∧ (∀ e, e ∉ dies → dieOf t e = dieOf s e) ∧
      ∀ d ∈ dies, (dieOf t d).seq.state = .killing ∧ (dieOf t d).log = [] ∧ (dieOf t d).passes = [] ∧ (dieOf t d).loads = [] := by
  induction dies generalizing s with
  | nil => simp
  | cons a l ih =>
    simp only [each_cons]
    obtain ⟨h1, h2, h3, h4, h5⟩ := killDie_frame a s
    obtain ⟨i1, i2, i3, i4, i5⟩ := ih (updDie (killDie a s) a orphanRequests)
    obtain ⟨u, p, n, h5⟩ := h5
    have ha : dieOf (updDie (killDie a s) a orphanRequests) a = orphanRequests (stopDie u s.time p n (dieOf s a)) := by
      rw [dieOf_updDie_same, h5]
    refine ⟨i1.trans h1, i2.trans h2, i3.trans h3, fun e he => ?_, fun d hd => ?_⟩
    · simp only [List.mem_cons, not_or] at he
      rw [i4 e he.2, dieOf_updDie_other _ _ he.1, h4 e he.1]
    · by_cases hl : d ∈ l
      · exact i5 d hl
      · have hda : d = a := by simpa [hl] using hd
        subst hda
        rw [i4 d hl, ha]
        simp [orphanRequests, stopDie]

theorem posted_killAll {s t : State} {code site : Nat} {q : List Nat} (h : Posted s t code site q) (hs : t.su = s.su) (dies : List Nat) :
    Posted s (each dies (fun d s => updDie (killDie d s) d orphanRequests) t) code site q :=
  (each_keeps (fun u => Posted s u code site q ∧ u.su = s.su) dies (fun d s => updDie (killDie d s) d orphanRequests)
    (fun a _ u hu => ⟨posted_of_ev (posted_killDie hu.1 hu.2 a) rfl, (killDie_frame a u).2.2.1.trans hu.2⟩) t ⟨h, hs⟩).1

/-- The update of one job, where the job is there. -/
theorem updJob_some {s : State} {k : Nat} {j : Job} (h : jobOf s k = some j) (f : Job → Job) :
    updJob s k f = { s with jobs := SMap.put s.jobs k (f j) } := by
  unfold jobOf at h
  simp only [updJob, h]

/-- Steps 1 to 4 of R184 on a job's gang. -/
theorem startKill_spec (k : Nat) (s : State) (j : Job) (hj : jobOf s k = some j) :
    let t := startKill k s
    jobOf t k = some { j with stage := .killing, awaiting := outstanding s k j.dies } ∧ t.mem = s.mem ∧ t.su = s.su ∧
      (∀ e, e ∉ j.dies → dieOf t e = dieOf s e) ∧
      ∀ d ∈ j.dies, (dieOf t d).seq.state = .killing ∧ (dieOf t d).log = [] ∧ (dieOf t d).passes = [] ∧ (dieOf t d).loads = [] := by
  obtain ⟨f1, f2, f3, f4, f5⟩ := killAll_frame j.dies s
  have hj2 : jobOf (each j.dies (fun d s => updDie (killDie d s) d orphanRequests) s) k = some j := by
    unfold jobOf; rw [f1]; exact hj
  have key : startKill k s = { each j.dies (fun d s => updDie (killDie d s) d orphanRequests) s with
      jobs := SMap.put (each j.dies (fun d s => updDie (killDie d s) d orphanRequests) s).jobs k
        { j with stage := .killing, awaiting := outstanding s k j.dies } } := by
    simp only [startKill, hj]
    exact updJob_some hj2 _
  dsimp only
  rw [key]
  exact ⟨SMap.find_put_same _ _ _, f2, f3, f4, f5⟩

/-- A kill that starts: its cause is recorded, every die of the gang reads KILLING, no byte of memory changes, every die outside the
gang is as it was (R183, R184). -/
theorem beginKill_spec (k : Nat) (c : KillCause) (s : State) (j : Job) (hj : jobOf s k = some j) (hst : j.stage = .running)
    (hd : draining s j = false) :
    let t := beginKill k c s
    KillBegun s t k c ∧ t.mem = s.mem ∧ t.su = s.su ∧ (∀ e, e ∉ j.dies → dieOf t e = dieOf s e) := by
  have hu := updJob_some hj (fun j => { j with causes := j.causes ++ [c] })
  have hj2 : jobOf { s with jobs := SMap.put s.jobs k { j with causes := j.causes ++ [c] } } k
      = some { j with causes := j.causes ++ [c] } := SMap.find_put_same _ _ _
  have key : beginKill k c s = (if draining s j && !(endsJob c && stepHeld s j) then { s with jobs := SMap.put s.jobs k { j with causes := j.causes ++ [c] } }
      else startKill k { s with jobs := SMap.put s.jobs k { j with causes := j.causes ++ [c] } }) := by
    simp only [beginKill, hj, hst, hu]
    rfl
  rw [if_neg (by simp [hd])] at key
  have h := startKill_spec k _ _ hj2
  dsimp only at h ⊢
  rw [key]
  exact ⟨⟨j, _, hj, h.1, rfl, rfl, h.2.2.2.2⟩, h.2.1, h.2.2.1, h.2.2.2.1⟩

theorem posted_startKill {s t : State} {code site : Nat} {q : List Nat} (h : Posted s t code site q) (hs : t.su = s.su) (k : Nat) :
    Posted s (startKill k t) code site q := by
  unfold startKill
  cases hj : jobOf t k with
  | none => exact h
  | some j =>
    refine posted_of_ev (posted_killAll h hs j.dies) ?_
    unfold updJob
    dsimp only
    split <;> rfl

theorem posted_beginKill {s t : State} {code site : Nat} {q : List Nat} (h : Posted s t code site q) (hs : t.su = s.su)
    (k : Nat) (c : KillCause) (j : Job) (hj : jobOf t k = some j) (hst : j.stage = .running) :
    Posted s (beginKill k c t) code site q := by
  have key : beginKill k c t = (if draining t j && !(endsJob c && stepHeld t j) then { t with jobs := SMap.put t.jobs k { j with causes := j.causes ++ [c] } }
      else startKill k { t with jobs := SMap.put t.jobs k { j with causes := j.causes ++ [c] } }) := by
    simp only [beginKill, hj, hst, updJob_some hj]
    rfl
  rw [key]
  split
  · exact posted_of_ev h rfl
  · exact posted_startKill (t := { t with jobs := SMap.put t.jobs k { j with causes := j.causes ++ [c] } }) (posted_of_ev h rfl) hs k

/-- Posting an event of a die leaves its job, stage and drain as they were. -/
theorem postDie_frame (code d : Nat) (p : List Nat) (s : State) :
    let t := postDie code d p s
    t.jobs = s.jobs ∧ t.mem = s.mem ∧ t.su = s.su ∧ (∀ e, (dieOf t e).job = (dieOf s e).job ∧ (dieOf t e).drain = (dieOf s e).drain ∧
      (dieOf t e).boundary = (dieOf s e).boundary) ∧ ∀ e, e ≠ d → dieOf t e = dieOf s e := by
  unfold postDie
  dsimp only
  split
  · refine ⟨by simp, by simp, by simp, fun e => ?_, fun e he => ?_⟩
    · by_cases he : e = d
      · subst he; rw [dieOf_updDie_same]; simp [noteSeq, dieOf]
      · rw [dieOf_updDie_other _ _ he]; simp [dieOf]
    · rw [dieOf_updDie_other _ _ he]; simp [dieOf]
  · exact ⟨by simp, by simp, by simp, fun e => by simp [dieOf], fun e _ => by simp [dieOf]⟩

/-- A record of class 0x06 names the job first (R124). -/
theorem posted_postDie (code d : Nat) (p : List Nat) (s : State) :
    Posted s (postDie code d p s) code d (if code / 256 = 6 then jobIdOn s d :: p else p) := by
  unfold postDie
  split
  · exact posted_of_ev (posted_post code d _ s) rfl
  · exact posted_post code d _ s

/-- An event of a die and the kill it starts (R183). -/
theorem postKill_spec (d k code : Nat) (p : List Nat) (c : KillCause) (s : State) (h : Killable s d k) :
    let t := killOn d c (postDie code d p s)
    Posted s t code d (if code / 256 = 6 then jobIdOn s d :: p else p) ∧ KillBegun s t k c ∧ t.mem = s.mem := by
  obtain ⟨hd, j, hj, hst, hdr, hmem⟩ := h
  obtain ⟨f1, f2, f3, f4, f5⟩ := postDie_frame code d p s
  have hj2 : jobOf (postDie code d p s) k = some j := by unfold jobOf; rw [f1]; exact hj
  have hd2 : jobOn (postDie code d p s) d = some k := by unfold jobOn; rw [(f4 d).1]; exact hd
  have hdr2 : draining (postDie code d p s) j = false := by
    rw [← hdr]; simp only [draining, (f4 _).2.1, (f4 _).2.2]
  have key : killOn d c (postDie code d p s) = beginKill k c (postDie code d p s) := by simp only [killOn, hd2]
  dsimp only
  rw [key]
  obtain ⟨b1, b2, b3, b4⟩ := beginKill_spec k c _ j hj2 hst hdr2
  refine ⟨posted_beginKill (posted_postDie code d p s) f3 k c j hj2 hst, ?_, b2.trans f2⟩
  obtain ⟨j1, i1, e1, e2, e3, e4, e5⟩ := b1
  have : j1 = j := by rw [hj2] at e1; exact (Option.some.inj e1).symm
  subst this
  exact ⟨j1, i1, hj, e2, e3, e4, e5⟩

/-- A program fault: its event is posted and the command killed (R125, R183). -/
theorem stopWith_program (d k code : Nat) (p : List Nat) (s : State) (h : Killable s d k) :
    let t := stopWith d (.program code p) s
    Posted s t code d (if code / 256 = 6 then jobIdOn s d :: p else p) ∧ KillBegun s t k (.program (BitVec.ofNat 16 code)) ∧
      t.mem = s.mem := postKill_spec d k code p _ s h

/-- A contained fault (R183). -/
theorem stopWith_contained (d k code : Nat) (p : List Nat) (s : State) (h : Killable s d k) :
    let t := stopWith d (.contained code p) s
    Posted s t code d (if code / 256 = 6 then jobIdOn s d :: p else p) ∧ KillBegun s t k (.fault (BitVec.ofNat 16 code)) ∧
      t.mem = s.mem := postKill_spec d k code p _ s h

/-- A failing error (R183). -/
theorem stopWith_failing (d k code : Nat) (p : List Nat) (s : State) (h : Killable s d k) :
    let t := stopWith d (.failing code p) s
    Posted s t code d (if code / 256 = 6 then jobIdOn s d :: p else p) ∧ KillBegun s t k (.failing (BitVec.ofNat 16 code)) ∧
      t.mem = s.mem := postKill_spec d k code p _ s h

end Sys2Proof.Machine
end

