-- ==== Sys2Proof/Laws/Memory.lean ====
section
/-! SUPPORT. Memory: every operation that writes it keeps the canonical form, and a line's store leaves every other line alone. -/

namespace Sys2Proof.Machine

@[simp] theorem length_mergeLine (mask : BitVec 64) (a b : LineData) : (mergeLine mask a b).length = 64 := by
  simp [mergeLine]

@[simp] theorem length_memLine (s : State) (l : Nat) : (memLine s l).length = 64 := by
  unfold memLine
  split
  · simp [zeros]
  · split <;> simp

/-- State.reset lists no byte of memory. -/
theorem reset_memory_wf : Memory.wf State.reset.mem = true := by decide

/-- 0x0907 changes no byte. -/
@[simp] theorem noKey_mem (a : Nat) (s : State) : (noKey a s).mem = s.mem := by
  unfold noKey
  dsimp only
  split <;> simp

/-- A line's store keeps the canonical form. -/
theorem memStoreLine_wf (l : Nat) (mask : BitVec 64) (data : LineData) (s : State) (h : Memory.wf s.mem = true) :
    Memory.wf (memStoreLine l mask data s).mem = true := by
  unfold memStoreLine
  split
  · simpa using h
  · exact ByteMap.wf_write _ _ _ h

/-- A line's store leaves the bytes of every other line alone. -/
theorem memStoreLine_other (l : Nat) (mask : BitVec 64) (data : LineData) (s : State) (a : Nat) (h : a / 64 ≠ l) :
    ByteMap.byte (memStoreLine l mask data s).mem a = ByteMap.byte s.mem a := by
  unfold memStoreLine
  split
  · simp
  · simp only [ByteMap.byte_write, length_mergeLine]
    rw [if_neg (by omega)]

theorem memRewrite_wf (l : Nat) (data : LineData) (s : State) (h : Memory.wf s.mem = true) :
    Memory.wf (memRewrite l data s).mem = true := memStoreLine_wf l _ data s h

/-- Zero-filling a granule keeps the canonical form. -/
theorem zeroGranule_wf (g : Nat) (s : State) (h : Memory.wf s.mem = true) : Memory.wf (zeroGranule g s).mem = true :=
  ByteMap.wf_clear _ _ _ h

/-- Re-encrypting a granule keeps the canonical form. -/
theorem rekeyGranule_wf (g : Nat) (c : BitVec 12) (s : State) (h : Memory.wf s.mem = true) :
    Memory.wf (rekeyGranule g c s).mem = true := ByteMap.wf_write _ _ _ h

end Sys2Proof.Machine
end

