-- ==== Sys2Proof/Laws/Virtual.lean ====
section
/-! SUPPORT. What reads and writes of virtual memory give in a quiet state: translation is Bare, and no line of the first granules is cached,
busy, poisoned, moving or under another key. -/

namespace Sys2Proof.Machine

theorem ByteMap.read_append (m : ByteMap) (a n k : Nat) : ByteMap.read m a n ++ ByteMap.read m (a + n) k = ByteMap.read m a (n + k) := by
  simp [ByteMap.read_eq, List.range_add, Nat.add_assoc]

theorem ByteMap.read_part (m : ByteMap) (a n i k : Nat) (h : i + k ≤ n) :
    ((ByteMap.read m a n).drop i).take k = ByteMap.read m (a + i) k := by
  apply List.ext_getElem
  · simp; omega
  · intro j h1 h2
    simp [ByteMap.read_eq, Nat.add_assoc]

theorem ByteMap.byte_cons (x : Nat) (v : Byte) (m : ByteMap) (a : Nat) :
    ByteMap.byte ((x, v) :: m) a = if a = x then v else ByteMap.byte m a := by
  by_cases h : a = x
  · simp [ByteMap.byte, SMap.get, SMap.find, List.lookup, h]
  · simp [ByteMap.byte, SMap.get, SMap.find, List.lookup, h, beq_eq_false_iff_ne.mpr h]

theorem ByteMap.byte_small (m : ByteMap) (a : Nat) (h : ∀ p ∈ m, a < p.1) : ByteMap.byte m a = 0 := by
  induction m with
  | nil => rfl
  | cons p m ih =>
    have := h p (by simp)
    rw [ByteMap.byte_cons, if_neg (by omega), ih (fun q hq => h q (by simp [hq]))]

theorem ByteMap.read_succ (m : ByteMap) (a n : Nat) : ByteMap.read m a (n + 1) = ByteMap.byte m a :: ByteMap.read m (a + 1) n := by
  have := (ByteMap.read_append m a 1 n).symm
  rw [Nat.add_comm 1 n] at this
  rw [this]
  simp [ByteMap.read_eq]

theorem ByteMap.cells_read_above (n : Nat) : ∀ (m : ByteMap) (k a : Nat), m.Pairwise (fun p q => p.1 < q.1) → (∀ p ∈ m, p.2 ≠ 0) → (∀ p ∈ m, a ≤ p.1) →
    ByteMap.cells k (ByteMap.read m a n) = (m.filter fun p => p.1 < a + n).map fun p => (p.1 - a + k, p.2) := by
  induction n with
  | zero =>
    intro m k a _ _ lo
    have e : (m.filter fun p => decide (p.1 < a + 0)) = [] := List.filter_eq_nil_iff.mpr fun p h => by simpa using lo p h
    rw [e]
    rfl
  | succ n ih =>
    intro m k a so nz lo
    rw [ByteMap.read_succ, ByteMap.cells]
    rcases m with _ | ⟨⟨x, v⟩, r⟩
    · rw [if_pos (show ByteMap.byte [] a = 0 from rfl), ih [] (k + 1) (a + 1) List.Pairwise.nil (by simp) (by simp)]
      rfl
    · have so' := List.pairwise_cons.mp so
      by_cases e : x = a
      · subst e
        have far : ∀ j, ByteMap.byte ((x, v) :: r) (x + 1 + j) = ByteMap.byte r (x + 1 + j) := fun j => by
          rw [ByteMap.byte_cons, if_neg (by omega)]
        have same : ByteMap.read ((x, v) :: r) (x + 1) n = ByteMap.read r (x + 1) n := by simp [ByteMap.read_eq, far]
        rw [ByteMap.byte_cons, if_pos rfl, if_neg (nz (x, v) (by simp)), same,
          ih r (k + 1) (x + 1) so'.2 (fun p h => nz p (by simp [h])) (fun p h => so'.1 p h)]
        rw [List.filter_cons_of_pos (by simp), List.map_cons]
        congr 1
        · simp
        · rw [show x + (n + 1) = x + 1 + n by omega]
          refine List.map_congr_left fun p h => ?_
          have := so'.1 p (List.mem_of_mem_filter h)
          simp only [Prod.mk.injEq, and_true]
          omega
      · have above : ∀ p ∈ (x, v) :: r, a + 1 ≤ p.1 := by
          intro p h
          have := lo (x, v) (by simp)
          rcases List.mem_cons.mp h with rfl | h
          · simp only [] at *; omega
          · have := so'.1 p h; simp only [] at *; omega
        rw [ByteMap.byte_small _ _ (fun p h => above p h), if_pos rfl, ih _ (k + 1) (a + 1) so nz above, show a + (n + 1) = a + 1 + n by omega]
        refine List.map_congr_left fun p h => ?_
        have := above p (List.mem_of_mem_filter h)
        simp only [Prod.mk.injEq, and_true]
        omega

/-- The bytes read from a memory in canonical form list the memory's own cells there. -/
theorem ByteMap.cells_read (m : ByteMap) (a n : Nat) (w : Memory.wf m = true) : ByteMap.cells 0 (ByteMap.read m a n) = ByteMap.slice m a n := by
  obtain ⟨so, nz⟩ := (SMap.wf_iff 0 m).mp w
  have keep : ByteMap.read m a n = ByteMap.read (m.filter fun p => a ≤ p.1) a n := by
    simp only [ByteMap.read_eq]
    refine List.map_congr_left fun i _ => ?_
    simp only [ByteMap.byte, SMap.get, SMap.find]
    rw [lookup_filter_keep m (fun x => decide (a ≤ x)) (a + i) (by simp)]
  rw [keep, ByteMap.cells_read_above n _ 0 a (so.filter _) (fun p h => nz p (List.mem_of_mem_filter h)) (fun p h => by simpa using (List.mem_filter.mp h).2)]
  rw [List.filter_filter]
  simp only [ByteMap.slice, Nat.add_zero]
  congr 1
  refine List.filter_congr fun p _ => ?_
  rw [Bool.and_comm]

/-- A state whose first n granules are quiet. -/
structure Quiet (s : State) (n : Nat) : Prop where
  bare : bits (ddtp s) 0 4 = 1
  fits : n * 65536 ≤ unifiedLen s
  grans : ∀ g, g < n → (granOf s g).state = .hbm ∧ SMap.upd {} s.grans g (fun x => { x with ref := true }) = s.grans ∧ stackLost s g = false
  keys : s.sec.memKeys = [] ∧ s.sec.mode = 0 ∧ s.sec.lineKey = [] ∧ s.sec.granKey = []
  home : s.dom.poison = [] ∧ s.dom.out = [] ∧ s.dom.busy = [] ∧ s.dom.l3 = [] ∧ s.dom.dir = []
  edges : ∀ p ∈ s.dies, p.2.edge = []
  still : s.filling = [] ∧ s.moves = []
  unseen : s.cluster.monEvents = []

/-- A quiet state stays so whatever memory holds. -/
theorem Quiet.withMem {s : State} {n : Nat} (q : Quiet s n) (m : ByteMap) : Quiet { s with mem := m } n :=
  ⟨q.bare, q.fits, q.grans, q.keys, q.home, q.edges, q.still, q.unseen⟩

section
variable {s : State} {n l : Nat}

theorem gran_of_line (lo : 2 ^ 32 ≤ 64 * l) (hi : 64 * l < 2 ^ 32 + n * 65536) : granuleOf (64 * l) < n := by
  unfold granuleOf unifiedBase granBytes
  omega

theorem Quiet.inUnified (q : Quiet s n) (lo : 2 ^ 32 ≤ 64 * l) (hi : 64 * l < 2 ^ 32 + n * 65536) : inUnified s (64 * l) 1 = true := by
  have := q.fits
  have b : unifiedBase = 2 ^ 32 := rfl
  simp only [Machine.inUnified, Bool.and_eq_true, decide_eq_true_eq, b]
  omega

theorem Quiet.translate (q : Quiet s n) (lo : 2 ^ 32 ≤ 64 * l) (hi : 64 * l < 2 ^ 32 + n * 65536) (d c : Nat) (w : Bool) :
    translate d c (64 * l) w s = (.ok (64 * l) false, s) := by
  simp [Machine.translate, q.bare, q.inUnified lo hi]

theorem Quiet.touch (q : Quiet s n) (lo : 2 ^ 32 ≤ 64 * l) (hi : 64 * l < 2 ^ 32 + n * 65536) (d c : Nat) :
    touchGranule (granuleOf (64 * l)) c (some d) s = .ok s := by
  obtain ⟨a, b, -⟩ := q.grans _ (gran_of_line lo hi)
  have e : updGran s (granuleOf (64 * l)) (fun x => { x with ref := true }) = s := congrArg (fun z => ({ s with grans := z } : State)) b
  have z : settleGranule (granuleOf (64 * l)) s = s := by simp [settleGranule, q.still, SMap.find]
  simp only [touchGranule, z, a, e]

theorem Quiet.key (q : Quiet s n) (g : Nat) : keyOf s g = some [] := by
  obtain ⟨a, b, -, -⟩ := q.keys
  simp [keyOf, a, b, SMap.find]

theorem Quiet.stored (q : Quiet s n) (l : Nat) : storedKey s l = [] := by
  obtain ⟨-, -, a, b⟩ := q.keys
  simp [storedKey, a, b, SMap.get, SMap.find]

theorem Quiet.clean (q : Quiet s n) (lo : 2 ^ 32 ≤ 64 * l) (hi : 64 * l < 2 ^ 32 + n * 65536) : poisoned s l = false := by
  obtain ⟨a, b, -⟩ := q.home
  simp [poisoned, a, b, (q.grans _ (gran_of_line lo hi)).2.2]

/-- Where no monitor has an event, traffic is not counted. -/
theorem noteTraffic_unseen (h : s.cluster.monEvents = []) (t : ReqTag) (w : Bool) (k l : Nat) : noteTraffic t w k l s = s := by
  simp only [noteTraffic, h, SMap.get, SMap.find]
  cases storageOf s (granuleOf (64 * l)) <;> cases w <;> rfl

theorem Quiet.line (q : Quiet s n) (l : Nat) : cohLine s l = ByteMap.read s.mem (64 * l) 64 := by
  obtain ⟨-, -, a, b, -⟩ := q.home
  simp [cohLine, a, SMap.find, heldLine, l3Line, b, memLine, q.key, q.stored]

/-- A write of a line changes memory alone. -/
theorem Quiet.store (q : Quiet s n) (l : Nat) (mask : BitVec 64) (data : LineData) : ∃ m, cohStoreLine l mask data s = { s with mem := m } := by
  obtain ⟨po, -, bu, l3, dir⟩ := q.home
  obtain ⟨-, -, lk, gk⟩ := q.keys
  have dies : (s.dies.map fun (p : Nat × DieSt) => (p.1, queueInval l s.time p.2)) = s.dies := by
    conv_rhs => rw [← List.map_id s.dies]
    refine List.map_congr_left fun p h => ?_
    simp [queueInval, q.edges p h, SMap.find]
  have calm : recallLine l s = s := by
    have b0 : (busyOf s l).isNone = true := by simp [busyOf, bu, SMap.find]
    have l0 : ∀ m, l3Line s m l = none := by simp [l3Line, l3, SMap.find]
    have d0 : SMap.del s.dom.dir l = s.dom.dir := by simp [dir, SMap.del]
    simp only [recallLine, settleLine, b0, if_true, l0, dies, d0]
  refine ⟨ByteMap.write s.mem (64 * l) (mergeLine mask data (memLine s l)), ?_⟩
  have e1 : SMap.set none s.sec.lineKey l (if ([] : List Byte) = SMap.get [] s.sec.granKey (granuleOf (64 * l)) then none else some []) = s.sec.lineKey := by
    simp [gk, lk, SMap.get, SMap.find, SMap.set, SMap.del]
  have e2 : (if mask = BitVec.allOnes 64 then s.dom.poison.filter (· != l) else s.dom.poison) = s.dom.poison := by simp [po]
  simp only [cohStoreLine, calm, memStoreLine, q.key, e1, e2]

end

/-- A loop that appends the bytes of one line after another. -/
theorem foldl_lines (f : VRead × State → Nat → VRead × State) (first n : Nat) (s : State)
    (h : ∀ i b, i < n → f (.ok b, s) i = (.ok (b ++ ByteMap.read s.mem (64 * (first + i)) 64), s)) :
    (List.range n).foldl f (.ok [], s) = (.ok (ByteMap.read s.mem (64 * first) (64 * n)), s) := by
  induction n with
  | zero => simp [ByteMap.read]
  | succ n ih =>
    rw [List.range_succ, List.foldl_append, ih (fun i b a => h i b (by omega)), List.foldl_cons, List.foldl_nil, h n _ (by omega),
      show 64 * (first + n) = 64 * first + 64 * n by omega, ByteMap.read_append]
    rfl

/-- A loop that changes memory alone. -/
theorem foldl_stores (f : VRead × State → Nat → VRead × State) (n : Nat) (s : State)
    (h : ∀ i m, i < n → ∃ k, f (.ok [], { s with mem := m }) i = (.ok [], { s with mem := k })) :
    ∃ m, (List.range n).foldl f (.ok [], s) = (.ok [], { s with mem := m }) := by
  induction n with
  | zero => exact ⟨s.mem, rfl⟩
  | succ n ih =>
    obtain ⟨m, e⟩ := ih (fun i m a => h i m (by omega))
    rw [List.range_succ, List.foldl_append, e]
    exact h n m (by omega)

section
variable {s : State} {N : Nat} (q : Quiet s N)
include q

/-- A read in quiet granules gives their bytes and changes nothing. -/
theorem Quiet.vread (d c va n : Nat) (lo : 2 ^ 32 ≤ va) (hi : va + n ≤ 2 ^ 32 + N * 65536) :
    vread d c false va n s = (.ok (ByteMap.read s.mem va n), s) := by
  simp only [Machine.vread]
  rw [foldl_lines _ (va / 64) _ s]
  · simp only []
    rw [ByteMap.read_part _ _ _ _ _ (by omega), show 64 * (va / 64) + va % 64 = va by omega]
  · intro i b h
    have a1 : 2 ^ 32 ≤ 64 * (va / 64 + i) := by omega
    have a2 : 64 * (va / 64 + i) < 2 ^ 32 + N * 65536 := by omega
    have dv : 64 * (va / 64 + i) / 64 = va / 64 + i := by omega
    simp only [q.translate a1 a2, q.touch a1 a2, q.key, Option.isNone_some, dv, q.clean a1 a2, Bool.false_and, Bool.false_eq_true, if_false, q.line, noteTraffic_unseen q.unseen]

theorem Quiet.readVirtual (d c va n : Nat) (lo : 2 ^ 32 ≤ va) (hi : va + n ≤ 2 ^ 32 + N * 65536) :
    readVirtual d c false va n s = (.ok (ByteMap.read s.mem va n), s) := by
  simp [Machine.readVirtual, q.vread d c va n lo hi]

/-- A write in quiet granules succeeds and changes memory alone. -/
theorem Quiet.vwrite (d c va : Nat) (bs : List Byte) (lo : 2 ^ 32 ≤ va) (hi : va + bs.length ≤ 2 ^ 32 + N * 65536) :
    ∃ m, vwrite d c va bs s = (.ok [], { s with mem := m }) := by
  simp only [Machine.vwrite]
  refine foldl_stores _ _ s fun i m h => ?_
  have a1 : 2 ^ 32 ≤ 64 * (va / 64 + i) := by omega
  have a2 : 64 * (va / 64 + i) < 2 ^ 32 + N * 65536 := by omega
  have dv : 64 * (va / 64 + i) / 64 = va / 64 + i := by omega
  have q' := q.withMem m
  simp only [q'.translate a1 a2, q'.touch a1 a2, dv, noteTraffic_unseen q'.unseen]
  obtain ⟨k, e⟩ := q'.store (va / 64 + i) (lineMask (if i = 0 then va % 64 else 0)
    ((bs.drop (64 * (va / 64 + i) + (if i = 0 then va % 64 else 0) - va)).take (64 - (if i = 0 then va % 64 else 0))).length)
    (zeros (if i = 0 then va % 64 else 0) ++ (bs.drop (64 * (va / 64 + i) + (if i = 0 then va % 64 else 0) - va)).take (64 - (if i = 0 then va % 64 else 0)))
  exact ⟨k, by rw [e]⟩

theorem Quiet.buildRead (n va len : Nat) (lo : 2 ^ 32 ≤ va) (hi : va + len ≤ 2 ^ 32 + N * 65536) :
    buildRead n va len s = (.ok (ByteMap.read s.mem va len), s) := by
  simp [Machine.buildRead, q.readVirtual n _ va len lo hi]

end

/-! ## The step builder -/

theorem build_none (f : State → Builder) (s : State) : build f (none, s) = f s := rfl

theorem buildPart_none (n : Nat) (f : Partition → Partition) (s : State) : buildPart n f (none, s) = (none, updPart s n f) := rfl

theorem tableThen_ok (f : List (Nat × Stream) → State → Builder) (l : List (Nat × Stream)) (s : State) : tableThen f (.ok l, s) = f l s := rfl

/-- What is done with a table that can be read. -/
theorem withTable_ok (n : Nat) (f : List (Nat × Stream) → State → Builder) (s t : State) (l : List (Nat × Stream)) (h : tableStreams n s = (.ok l, t)) :
    withTable n f (none, s) = f l t := by
  rw [withTable, build_none, h, tableThen_ok]

theorem selectSet_ok (n : Nat) (s t : State) (l : List (Nat × Stream)) (h : tableStreams n s = (.ok l, t)) :
    selectSet n false (none, s) = selectFrom n (.ok l, t) := by
  rw [selectSet, if_neg (by simp), h]

theorem selectFrom_none (n : Nat) (s : State) (l : List (Nat × Stream)) (h : pickOrder l = []) : selectFrom n (.ok l, s) = (noPick, (none, s)) := by
  simp only [selectFrom, h, List.foldl_nil]

theorem selectFrom_one (n i : Nat) (s : State) (l : List (Nat × Stream)) (k : Pick) (b : Builder) (h : pickOrder l = [i])
    (e : pickStream n i (noPick, (none, s)) = (k, b)) : selectFrom n (.ok l, s) = (k, b) := by
  simp only [selectFrom, h, List.foldl_cons, List.foldl_nil, e]

end Sys2Proof.Machine
end

