-- ==== Sys2Proof/Tests/Slice0.lean ====
section
/-! SUPPORT. The model's own tests: ill-formed commands, results worked out from the spec, and for each statement states and operands
that meet the hypotheses of its clauses. -/

namespace Sys2Proof.Tests

open Sys2Proof Sys2Proof.Machine

set_option Elab.async false

/-! ## Small states -/

/-- Table bytes: the number v in n bytes at entry i. -/
def entry (i n v : Nat) (m : ByteMap) : ByteMap := ByteMap.write m (n * i) (leBytes n v)

/-- An image: pan 1 job-persistent, pan 2 command-local, tokens 1 and 2 over them, a wait limit of 5 ticks, every unit used. -/
def img : Image := {
  sect := ByteMap.write (ByteMap.write [] 12 (leBytes 4 5)) 56 [0xFF, 0xFF, 0xFF, 1, 1, 0]
  stream := [], words := 4
  pans := entry 1 16 (1000 * 2 ^ 24 + 2 ^ 48) (entry 2 16 (2000 + 1000 * 2 ^ 24) [])
  tokens := entry 1 16 (1 + 64 * 2 ^ 36) (entry 2 16 (2 + 64 * 2 ^ 36) [])
  vatDesc := [], movDesc := [], churnDesc := [], round := [] }

/-- A job of context 1 on die 0. -/
def job : Job := {
  ctx := 1, desc := [], jobId := 77, gang := 1, dies := [0], stage := .running, checked := [0], causes := [], faultKills := 0,
  rerunDue := false, reruns := 0, commands := 0, flagWord := 0, preemptions := 0, energyNj := 0, duration := 0, stall := 0,
  firstDie := 0, placedAt := 0, unmetered := false, updates := 0, saves := [], awaiting := [] }

/-- A die whose command runs. -/
def die : DieSt := { seq := { state := .running }, image := some img, job := some 3 }

/-- A package in service whose die 0 runs job 3; die states given. -/
def onDies (l : List (Nat × DieSt)) : State := {
  dies := l, jobs := [(3, job)], time := 100
  su := { phase := .running, supervisor := 1, dairyman := true, pwrgood := true, pinsDriven := true } }

def base : State := onDies [(0, die)]

/-- Base with die 0 changed. -/
def withDie (f : DieSt → DieSt) : State := onDies [(0, f die)]

theorem base_runs : (dieOf base 0).image = some img ∧ running base 0 = true := by decide

theorem base_killable : Killable base 0 3 := ⟨by decide, job, by decide, by decide, by decide, by decide⟩

/-! ## Witnesses: the control slot -/

theorem witness_ControlSlotScalarsAndBranches :
    ((dieOf base 0).image = some img ∧ running base 0 = true) ∧
    (∃ (a : ScalarMem) (x : DieSt) (b : List Byte) (y : DieSt), scalarFits img a = true ∧ (tokOf (dieOf base 0) a.token.toNat).lent = none ∧
      settleAll img (jobWord base 0) a.token.toNat (dieOf base 0) = .ok x ∧ readPan x (panEnt img 1) a.token.toNat 8 8 = .ok b ∧
      writePan (panEnt img 1) 8 (leBytes 8 (svOf x a.sv.toNat).toNat) x = .ok y) ∧
    (∃ a : ScalarMem, scalarFits img a = true ∧ a.idx = true ∧ 64 * (64 : Int) < 8 * (a.offset.toNat : Int) + 8) :=
  ⟨base_runs,
   ⟨⟨0, false, 0, 1, 1⟩, die, zeros 8, ((writePan (panEnt img 1) 8 (leBytes 8 0) die).toOption.getD die), by decide, by decide, by rfl, by rfl, by rfl⟩,
   ⟨⟨0, true, 0, 1, 1000⟩, by decide, by decide, by decide⟩⟩

/-- A die that waits for a count its token has reached, and one that has waited 6 ticks for a count it has not. -/
def waitDie (n : Nat) : State := withDie fun x =>
  { x with seq := { x.seq with state := .waiting }, wait := some ⟨1, BitVec.ofNat 32 n, 94, 0⟩, tokens := [(1, { count := 2 })] }

theorem witness_TokensOrderAndLend_waits :
    ((dieOf (waitDie 2) 0).wait = some ⟨1, 2, 94, 0⟩ ∧ (dieOf (waitDie 2) 0).seq.state = .waiting ∧ paused (waitDie 2) 0 = false ∧
      (2 : BitVec 32).toNat ≤ (tokOf (dieOf (waitDie 2) 0) 1).count.toNat) ∧
    ((imageSect img).waitLimit ≠ 0 ∧ (imageSect img).waitLimit < ((waitDie 3).time - 94).toNat ∧ Killable (waitDie 3) 0 3) :=
  ⟨by decide, by decide, by decide, by decide, job, by decide, by decide, by decide, by decide⟩

/-- A job on dies 0 and 1 whose rank 1 is die 1. -/
def gangState : State := { onDies [(0, { die with seq := { die.seq with gang := 2 } }), (1, { die with seq := { die.seq with rank := 1, gang := 2 } })] with
  jobs := [(3, { job with gang := 2, dies := [0, 1] })] }

def signalState : State := { gangState with sigNet := [⟨1, 1, 0, 1, 5, 0, []⟩] }

theorem witness_TokensOrderAndLend_signals :
    (∃ x, dieOfRank gangState 0 0 = some 0 ∧
      (let y := { dieOf gangState 0 with actSeq := (dieOf gangState 0).actSeq + 1, sent := SMap.upd 0 (dieOf gangState 0).sent 1 (· + 5) }
       deliverable (setDie gangState 0 y) ⟨(dieOf gangState 0).actSeq, 0, 0, 1, 5, (dieOf gangState 0).barrier, []⟩ = true ∧
        settleAll img (jobWord gangState 0) 1 y = .ok x ∧ x.seq.state ≠ .killing ∧ x.heldCopies = [])) ∧
    (let s : State := withDie fun x => { x with getTokens := [(1, 0)] }
     deliverable s ⟨1, 0, 0, 1, 5, 0, []⟩ = false) ∧
    (dieOfRank gangState 0 1 = some 1) ∧
    (nextSignal signalState 0 = some (⟨1, 1, 0, 1, 5, 0, []⟩, signalState) ∧ paused signalState 0 = false ∧
      (dieOf signalState 0).heldCopies = []) :=
  ⟨⟨_, by decide, by decide, by rfl, by decide, by decide⟩, by decide, by decide, by decide⟩

/-- A COPY of sequence number 4 on its way to a token LENT with limit 8. -/
def copyState (count : Nat) : State := { withDie (fun x => { x with tokens := [(1, { count := BitVec.ofNat 32 count, lent := some 8 })] }) with
  copyNet := [⟨1, 1, 1, 0, 1, 4, 0, [zeros 64]⟩] }

theorem witness_TokensOrderAndLend_lent :
    ((settleAll img (jobWord base 0) 1 (dieOf base 0)).isOk = true ∧ die.heldCopies = []) ∧
    (nextCopy (copyState 3) 0 = some (⟨1, 1, 1, 0, 1, 4, 0, [zeros 64]⟩, copyState 3) ∧ paused (copyState 3) 0 = false ∧
      (tokOf (dieOf (copyState 3) 0) 1).count ≠ 4) ∧
    ((tokOf (dieOf (copyState 4) 0) 1).count = 4 ∧ (writePan (panEnt img 1) 0 (zeros 64) (dieOf (copyState 4) 0)).isOk = true) := by decide

theorem witness_FencesAndHorizons :
    (actsHeld (dieOf base 0) = false ∧ (dieOf base 0).getTokens = [] ∧ (dieOf base 0).deferred = [] ∧ copiesOut base 0 (dieOf base 0).actSeq = [] ∧ (dieOf base 0).passes = []) ∧
    (∃ s : State, (dieOf s 0).hintEnd = some 0 ∧ 0 ≤ (dieOf s 0).seq.nextStep) ∧
    (∃ s : State, (railOf s 8).horizonEnd = some 7 ∧ 7 ≤ s.time.toNat) :=
  ⟨by decide, ⟨withDie fun x => { x with hintEnd := some 0 }, by decide, by decide⟩,
   ⟨{ base with power := { rails := [(8, { horizonEnd := some 7 })] } }, by decide, by decide⟩⟩

theorem witness_HintPhaseChangesNoResult : (dieOf base 0).image = some img ∧ running base 0 = true := base_runs

theorem witness_FaultPostsItsCode : ((dieOf base 0).image = some img ∧ running base 0 = true) ∧ Killable base 0 3 := ⟨base_runs, base_killable⟩

def lentState : State := withDie fun x => { x with tokens := [(1, { lent := some 8 })] }
def drainState : State := withDie fun x =>
  { x with seq := { x.seq with state := .committing }, commit := some (false, false), drain := some ⟨false, false, [], false⟩ }

theorem witness_CommandsCommitAndDrain :
    (∃ s : State, (dieOf s 0).image = some img ∧ running s 0 = true ∧ jobOn s 0 = some 3 ∧ (∀ p ∈ (dieOf s 0).tokens, p.2.lent = none) ∧
      ∃ j, jobOf s 3 = some j ∧ ∃ e ∈ j.dies, e ≠ 0 ∧ (dieOf s e).commit = none) ∧
    (jobOf base 3 = some job ∧ job.stage = .running ∧ job.dies = [0] ∧ (dieOf base 0).drain = none ∧ quiet base 0 = true ∧
      lacePartners (dieOf base 0) = []) ∧
    (∃ tk ∈ (dieOf lentState 0).tokens, tk.2.lent.isSome = true) ∧ Killable lentState 0 3 ∧
    (jobOn drainState 0 = some 3 ∧ jobOf drainState 3 = some job ∧ job.causes = [] ∧
      (dieOf drainState 0).drain = some ⟨false, false, [], false⟩ ∧ paused drainState 0 = false ∧ (dieOf drainState 0).log = [] ∧
      (dieOf drainState 0).spareClaim = none ∧ roundCount (dieOf drainState 0) = 0 ∧ servedBy drainState 3 = none ∧
      drainState.iommu.fence = none) :=
  ⟨⟨gangState, by decide, by decide, by decide, by decide, { job with gang := 2, dies := [0, 1] }, by decide, 1, by decide, by decide, by decide⟩,
   by decide, by decide, ⟨by decide, job, by decide, by decide, by decide, by decide⟩, by decide⟩


/-! ## Witnesses: the step stream -/

/-- Word 0 is a bundle whose control slot at word 1 is NOP; word 2 is a bundle with a PASS for vat 0 at word 3. -/
def streamImg : Image := { img with
  stream := entry 0 8 (2 ^ 24 + 2 * 2 ^ 25 + 2 ^ 48) (entry 2 8 (1 + 2 * 2 ^ 25 + 2 ^ 48) (entry 3 8 (2 ^ 28) [])) }

def streamState (pos : Nat) (occ : SMap Nat) : State := withDie fun x =>
  { x with image := some streamImg, occ := occ, seq := { x.seq with pos := pos, fetchedTo := 4 } }

/-- The die after the header of the bundle at word 0 has counted. -/
def counted (s : State) : State := updDie s 0 fun x => { x with seq := { x.seq with
  step := BitVec.ofNat 64 x.seq.nextStep, bundles := x.seq.bundles + 1, issued := true, nextStep := x.seq.nextStep + 1,
  fetchedWords := x.seq.fetchedWords + BitVec.ofNat 64 (2 - 4) } }

theorem witness_BundlesIssueAndFetch :
    (let s := streamState 0 []
     let b := bundleAt streamImg 0
     (dieOf s 0).image = some streamImg ∧ running s 0 = true ∧ s.pending = [] ∧ jobLoadHeld (dieOf s 0) = false ∧ b.length = 2 ∧ b.skip = 0 ∧
       (dieOf s 0).deferred = [] ∧ (dieOf s 0).seq.ctlHeld = false ∧ (slotsOf streamImg b).filter (·.unit < 24) = [] ∧
       running (counted s) 0 = true ∧
       (∃ k, (slotsOf streamImg b).find? (·.unit == 24) = some k ∧ ctlTarget k.code (dieOf (counted s) 0) = none ∧
         ctlAct 0 streamImg k.code 2 (counted s) = some (counted s)) ∧
       (dieOf (counted s) 0).seq.state ≠ .killing ∧ (dieOf (counted s) 0).job = (dieOf s 0).job) ∧
    (let s := counted (withDie fun x => { x with getTokens := [(1, 0)] })
     running s 0 = true ∧ ctlAct 0 streamImg (0x12 * 2 ^ 56 + 2 ^ 32) 2 s = none) ∧
    (let s := streamState 2 []
     ∀ k ∈ slotsOf streamImg (bundleAt streamImg 2), k.unit ≠ 24 ∧ running s 0 = true) ∧
    (let s := streamState 2 [(0, 5)]
     (∃ u ∈ slotsOf streamImg (bundleAt streamImg 2), isHold u = false ∧ u.unit < 24 ∧
       (dieOf s 0).seq.nextStep < SMap.get 0 (dieOf s 0).occ u.unit) ∧ jobOn s 0 = some 3 ∧ jobOf s 3 = some job ∧ draining s job = false) ∧
    (working (streamState 0 []) 0 = true) := by decide +kernel

/-! ## Witnesses: the vats -/

/-- Pan and token 3 are 4,000 lines; vat descriptor 0 is a pass of INT8 activations and weights to INT32, 1 a load of INT8 weights. -/
def vatImg : Image := { img with
  pans := entry 3 16 (4000 * 2 ^ 24 + 2 ^ 48) img.pans
  tokens := entry 3 16 (3 + 4000 * 2 ^ 36) img.tokens
  vatDesc := entry 0 32 (3 + 3 * 2 ^ 12 + 3 * 2 ^ 25 + 3 * 2 ^ 37 + 100 * 2 ^ 88 + 4 * 2 ^ 128 + 16 * 2 ^ 152 + 8 * 2 ^ 192 + 8 * 2 ^ 196 + 0xB * 2 ^ 200)
    (entry 1 32 (3 + 3 * 2 ^ 12 + 4 * 2 ^ 128 + 8 * 2 ^ 196) []) }

/-- Weights of an INT8 load, and a slot of vat 0 that holds them. -/
def weights : SlotData := ⟨0, 8, [], [], [], [], []⟩
def filled : Slot := { kind := .command, data := some weights, tag := some 0 }

def vatState : State := withDie fun x => { x with image := some vatImg, slots := [(0, filled)] }

/-- A pass of descriptor 0 in flight on vat 0, and a load of slot 1. -/
def passFlight : PassFlight := ⟨0, 0, 0, 0, 0, BitVec.ofNat 256 (vatDescAt vatImg 0), [zeros 256], some weights, none, none, false, 100⟩
def flightState (last : Option (BitVec 64)) : State := withDie fun x =>
  { x with image := some vatImg, slots := [(0, filled), (1, { filled with loading := true })], passes := [passFlight], loads := [⟨1, 0, 0, 1, 0⟩],
           actSeq := 2, pvats := [(0, { mismatches := 1, last := last })] }

/-- What a pass's or a load's reads leave. -/
theorem ok_of_isOk {α : Type} {r : Act α} (h : r.isOk = true) : ∃ a, r = .ok a := by
  cases r with
  | ok a => exact ⟨a, rfl⟩
  | error e => cases h

theorem witness_VatSlotsStartPassesAndLoads :
    (dieOf vatState 0).image = some vatImg ∧ running vatState 0 = true ∧ vatNamed vatImg 0 = true ∧ (dieOf vatState 0).held = [] ∧
    (dieOf vatState 0).deferred = [] ∧ tokenBusy vatImg (dieOf vatState 0) [3] = false ∧
    passOk vatImg 0 0 = true ∧ loadOk vatImg 1 1 = true ∧ passldOk vatImg 0 0 1 1 = true ∧
    (tokOf (dieOf vatState 0) 3).lent = none ∧ settle vatImg (jobWord vatState 0) [3] (dieOf vatState 0) = .ok (dieOf vatState 0) ∧
    waitsFor (dieOf vatState 0) 0 (slotSpan 0 0) = none ∧ waitsFor (dieOf vatState 0) 0 (slotSpan 0 1) = none ∧
    meetSlot (dieOf vatState 0) 0 0 0 (vatDesc (vatDescAt vatImg 0)) = .ok (weights, none) ∧
    (∃ acts, (List.range 1).mapM (fun n => readPan (dieOf vatState 0) (panEnt vatImg 3) 3 (64 * (0 + n * 4)) (actBytes 8)) = .ok acts) ∧
    (∃ rows, (List.range 256).mapM (fun n => readPan (dieOf vatState 0) (panEnt vatImg 3) 3 (64 * (0 + n * 4)) (rowBytes 0 8)) = .ok rows) ∧
    scaleBytes 0 8 = 0 ∧ ((vatDesc (vatDescAt vatImg 0)).srcToken, (vatDesc (vatDescAt vatImg 0)).dstToken) = (3, 3) :=
  by repeat' (first | decide | rfl | exact ok_of_isOk (by decide +kernel) | apply And.intro)

theorem witness_VatFaultsAndMismatches :
    ((passOk vatImg 2 0 = true ∧ (slotNow (dieOf vatState 0) 0 2).kind = .empty ∧ waitsFor (dieOf vatState 0) 0 (slotSpan 0 2) = none) ∧
      Killable vatState 0 3) ∧
    ((∀ l, (dieOf (flightState l) 0).passes.find? (fun f => f.phys == 0 && f.entry.isNone) = some passFlight ∧ working (flightState l) 0 = true) ∧
      0 < (passDesc passFlight).count ∧ (∀ l, Killable (flightState l) 0 3)) ∧
    ((pvatOf (dieOf (flightState none) 0) 0).last = none) ∧
    (let s := { flightState (some 60) with map := { units := [(0, { spareFree := true })] } }
     (pvatOf (dieOf s 0) 0).last = some 60 ∧ (s.time - 60).toNat ≤ 1000000000 ∧ (unitMapOf s 0).spareFree = true ∧
      (dieOf s 0).spareClaim = none) :=
  ⟨⟨by decide, ⟨by decide, job, by decide, by decide, by decide, by decide⟩⟩,
   ⟨fun _ => ⟨rfl, rfl⟩, by decide, fun _ => ⟨rfl, job, rfl, rfl, rfl, by decide⟩⟩, by decide, by decide⟩

theorem witness_PassesAndLoadsComplete :
    working (flightState none) 0 = true ∧ jobOn (flightState none) 0 = some 3 ∧ jobOf (flightState none) 3 = some job ∧ 0 ∈ job.dies ∧
      (dieOf (flightState none) 0).commit = none ∧
    ((dieOf (flightState none) 0).image = some vatImg ∧ (dieOf (flightState none) 0).passes.find? (·.vat == 0) = some passFlight ∧
      (finishPass vatImg (jobWord (flightState none) 0) passFlight (dieOf (flightState none) 0)).isOk = true) ∧
    ((dieOf (flightState none) 0).passes.find? (fun f => f.vat == 0 && !f.fed) = some passFlight ∧ passFlight.entry = none ∧
      behindLoad (dieOf (flightState none) 0) passFlight = false) ∧
    ((dieOf (flightState none) 0).loads.find? (·.vat == 0) = some ⟨1, 0, 0, 1, 0⟩ ∧
      (∀ l ∈ (dieOf (flightState none) 0).loads, l.id ≠ 1 → l.phys = 0 → 1 ∉ slotSpan l.wmode l.slot) ∧
      1 ∉ slotSpan (passDesc passFlight).wmode passFlight.slot) := by decide +kernel

/-! ## Witnesses: the Churn -/

/-- A register slot with every field zero but the type and IMM. -/
def reg (ty : BitVec 4) (imm : BitVec 16) : ChurnReg := ⟨ty, 0, 0, 0, 0, 0, false, false, false, false, false, 0, false, imm⟩

/-- A type and an IMM that an operation admits. -/
def slotOf (op : Nat) : ChurnReg :=
  if op = 0x58 || op = 0x59 || op = 0x5A || op = 0x60 then reg 0xB 2
  else if 0x20 ≤ op && op ≤ 0x25 || op = 0x33 then reg 0xB 0 else reg 0 0

theorem ready {op : Nat} {a : ChurnReg} (h : regSlotValid op a = true) : ChurnReady base 0 0 op a :=
  ⟨by decide, by decide, h, img, by decide, by decide⟩

theorem witness_ChurnElementwiseLanes : ∀ op ∈ [0x10, 0x11, 0x12, 0x14, 0x15, 0x20, 0x21, 0x22, 0x23, 0x24, 0x25, 0x16, 0x17, 0x31, 0x40, 0x41,
    0x42, 0x43, 0x44, 0x45, 0x46, 0x13, 0x33, 0x68], ChurnReady base 0 0 op (slotOf op) := fun op h =>
  ready ((by decide +kernel : ∀ op ∈ [0x10, 0x11, 0x12, 0x14, 0x15, 0x20, 0x21, 0x22, 0x23, 0x24, 0x25, 0x16, 0x17, 0x31, 0x40, 0x41, 0x42, 0x43, 0x44, 0x45,
    0x46, 0x13, 0x33, 0x68], regSlotValid op (slotOf op) = true) op h)

theorem witness_IntegerArithmeticWrapsOrClamps : ∀ op ∈ [0x10, 0x11, 0x12, 0x13, 0x17, 0x16], ∀ ty ∈ [(8 : BitVec 4), 9, 0xB], ∀ sat : Bool,
    ChurnReady base 0 0 op { reg ty 0 with sat := sat } := fun op h ty k sat =>
  ready ((by decide +kernel : ∀ op ∈ [0x10, 0x11, 0x12, 0x13, 0x17, 0x16], ∀ ty ∈ [(8 : BitVec 4), 9, 0xB], ∀ sat : Bool,
    regSlotValid op { reg ty 0 with sat := sat } = true) op h ty k sat)

theorem witness_ChurnMasksSelectionAndCompression :
    ∀ op ∈ [0x28, 0x2C, 0x2D, 0x2E, 0x2F, 0x30, 0x32, 0x50, 0x51], ChurnReady base 0 0 op (slotOf op) := fun op h =>
  ready ((by decide +kernel : ∀ op ∈ [0x28, 0x2C, 0x2D, 0x2E, 0x2F, 0x30, 0x32, 0x50, 0x51], regSlotValid op (slotOf op) = true) op h)

/-- FP32 to INT8, MX8 to FP32 and FP32 to MX8. -/
theorem witness_ChurnConversions :
    (ChurnReady base 0 0 0x38 (reg 8 0) ∧ isPacked 8 = false ∧ isPacked 0 = false) ∧ (ChurnReady base 0 0 0x38 (reg 0 6) ∧ isPacked 6 = true) ∧
    (ChurnReady base 0 0 0x38 { reg 6 0 with vd := 1, vc := 2 } ∧ isPacked 6 = true ∧ (2 : BitVec 5) ≠ 1) :=
  ⟨⟨ready (by decide), by decide⟩, ⟨ready (by decide), by decide⟩, ready (by decide), by decide⟩

theorem witness_ChurnReductionsAndRanks :
    (∀ op ∈ [0x58, 0x59, 0x5A, 0x60], ChurnReady base 0 0 op { slotOf op with vd := 1 }) ∧ (slotOf 0x58).ty.toNat = 0xB ∧ (slotOf 0x58).sat = false ∧
      (slotOf 0x60).vc ≠ 1 :=
  ⟨fun op h => ready ((by decide +kernel : ∀ op ∈ [0x58, 0x59, 0x5A, 0x60], regSlotValid op { slotOf op with vd := 1 } = true) op h), by decide⟩

/-- Churn descriptor 1: eight elements of pan 1, one after the other; descriptor 2: the same element eight times. -/
def churnImg : Image := { img with churnDesc := entry 1 16 (1 + 2 ^ 64 + 7 * 2 ^ 96) (entry 2 16 (1 + 7 * 2 ^ 96) []) }
def churnState : State := withDie fun x => { x with image := some churnImg }

theorem witness_ChurnPanAccesses : ∀ n ∈ [(1 : BitVec 12), 2],
    (dieOf churnState 0).image = some churnImg ∧ running churnState 0 = true ∧ unitNamed churnImg 0 = true ∧
    churnMemValid churnImg ⟨0, 3, n, 1, 0, false⟩ = true ∧ (tokOf (dieOf churnState 0) 1).lent = none ∧
    (settle churnImg (jobWord churnState 0) [1] (dieOf churnState 0)).isOk = true ∧ (panEnt churnImg 1).persistent = true ∧
    logCount (dieOf churnState 0) + 8 ≤ maxLogEntries := by decide +kernel

/-! ## Witnesses: the movers -/

/-- A state with stack 0 and a 64 GiB module in D0 in place and bare translation. -/
def withMem (s : State) : State := { s with
  units := [(0, { mtype := 1 }), (16, { mtype := 2 })]
  su := { s.su with board := { s.su.board with modules := [(0, ⟨.rdimm, 1, 2, true, true, 64, 16, [4800]⟩)] } }
  iommu := { s.iommu with regs := ByteMap.write [] 0x10 (leBytes 8 1) } }

/-- Mover descriptor 1: two lines of pan 1 and the bottom of unified memory; 2: one line to pan 2 of the die; 3: one line to rank 1;
4 to 7: LACE PUT, GET, REDUCE and SIGNAL at partner 5. -/
def movImg : Image := { img with
  sect := ByteMap.write img.sect 59 [2]
  movDesc := entry 1 32 (1 + 2 ^ 12 + 2 * 2 ^ 64 + 2 ^ 32 * 2 ^ 128) (entry 2 32 (1 + 2 ^ 12 + 2 ^ 64 + (0xF + 2 * 2 ^ 4 + 2 * 2 ^ 16) * 2 ^ 128)
    (entry 3 32 (1 + 2 ^ 12 + 2 ^ 64 + (1 + 2 * 2 ^ 4 + 2 * 2 ^ 16) * 2 ^ 128) (entry 4 32 (1 + 2 ^ 12 + 2 ^ 64 + 5 * 2 ^ 128)
      (entry 5 32 (1 + 2 ^ 12 + 2 ^ 64 + (5 + 2 ^ 13) * 2 ^ 128) (entry 6 32 (1 + 2 ^ 12 + 2 ^ 64 + (5 + 2 * 2 ^ 13) * 2 ^ 128)
        (entry 7 32 ((5 + 3 * 2 ^ 13 + 2 ^ 33) * 2 ^ 128) [])))))) }

def movState : State := { withMem (withDie fun x => { x with image := some movImg, seq := { x.seq with gang := 2 } }) with
  jobs := [(3, { job with gang := 2, dies := [0, 1] })], grans := [(0, { state := .hbm })] }

/-- What one action of descriptor 1 leaves of the die. -/
def movBegun : State := setDie movState 0 (occupy 20 1 { dieOf movState 0 with actSeq := (dieOf movState 0).actSeq + 1 })

theorem witness_GetReadsMemoryIntoAPan :
    (dieOf movState 0).image = some movImg ∧ running movState 0 = true ∧ moverNamed movImg 0 = true ∧ moverOk movImg 1 1 = true ∧
    ordersBehind movImg (dieOf movState 0) false (2 ^ 32) 128 = false ∧ (tokOf (dieOf movState 0) 1).lent = none ∧
    (settle movImg (jobWord movState 0) [1] (dieOf movState 0)).isOk = true ∧
    (match movLines 0 (ctxOn movState 0) (2 ^ 32) 2 false movBegun with
     | (.ok ls, w) => (match movRead 0 (ctxOn movState 0) ls w with
       | (.ok b, v) => (writePan (panEnt movImg 1) 0 b (dieOf v 0)).isOk
       | _ => false)
     | _ => false) = true := by decide +kernel

theorem witness_PutsAndCopiesStoreLines :
    ((dieOf movState 0).image = some movImg ∧ running movState 0 = true ∧ moverNamed movImg 0 = true ∧ moverOk movImg 2 1 = true ∧
      moverOk movImg 4 1 = true ∧ ordersBehind movImg (dieOf movState 0) true (2 ^ 32) 128 = false ∧
      (match movLines 0 (ctxOn movState 0) (2 ^ 32) 2 true movBegun with
       | (.ok ls, w) => decide (ls.map MovLine.line).Nodup && (readPan (dieOf w 0) (panEnt movImg 1) 1 0 128).isOk &&
           decide (logCount (dieOf w 0) + 2 ≤ maxLogEntries)
       | _ => false) = true) ∧
    (moverOk movImg 3 2 = true ∧ (copyTarget (movDesc movImg 2).target).rank = 0xF ∧
      (match settle movImg (jobWord movState 0) [1, 2] (dieOf movState 0) with
       | .ok y => (readPan y (panEnt movImg 1) 1 0 64).isOk && (writePan (panEnt movImg 2) 0 (zeros 64) y).isOk
       | _ => false) = true) ∧
    (moverOk movImg 3 3 = true ∧ (copyTarget (movDesc movImg 3).target).rank = 1 ∧ releaseClear movState 0 = true ∧
      dieOfRank movState 0 1 = some 1 ∧ (tokEnt movImg 2).source = rankOf movState 0) ∧
    (let s := { updDie movState 0 (fun x => { x with barrier := 3 }) with copyNet := [⟨2, 0, 0, 1, 2, 0, 0, []⟩] }
     releaseClear s 0 = false ∧ running s 0 = true ∧ (dieOf s 0).deferred = []) := by decide +kernel

/-- Package 4 with a lace to package 5, keyed for context 1. -/
def laceState : State := { movState with
  lacing := { memb := { pkgId := 4 }, partners := [(5, { valid := true, keySlot := 2, rxContext := 1 })] }
  sec := { laceKeys := [(2, { key := zeros 32, tenant := [], ctx := 1 })] } }

theorem witness_LaceOperationsSendPackets :
    (∀ row ∈ [((0 : Nat), (4 : BitVec 12)), (1, 5), (2, 6), (3, 7)], LaceReady laceState 0 0 ⟨row.2, false, 0, false⟩ movImg row.1) ∧
    ordersBehind movImg (dieOf laceState 0) false 0 0 = false ∧
    (settle movImg (jobWord laceState 0) [1] (dieOf laceState 0)).isOk = true ∧ logCount (dieOf laceState 0) < maxLogEntries ∧
    (readPan (dieOf laceState 0) (panEnt movImg 1) 1 0 64).isOk = true ∧ SMap.get [] laceState.lacing.tags (tagKey 0 5) = [] ∧
    (moverOk movImg 5 4 = true ∧ laceOp (movDesc movImg 4).target = 0 ∧ releaseClear movState 0 = true ∧
      (partnerOf movState 5).valid = false ∧ Killable movState 0 3) := by
  have dying : Killable movState 0 3 := ⟨by decide, { job with gang := 2, dies := [0, 1] }, by decide⟩
  refine ⟨?_, by decide, by decide, by decide, by decide, by decide, ⟨?_, ?_, ?_, ?_, dying⟩⟩
  rotate_left
  all_goals try decide
  unfold LaceReady
  decide

/-! ## Witnesses: contexts and jobs -/

/-- Context 1 with rings of 16 entries at the bottom of unified memory, one descriptor waiting. -/
def ctx1 : Context := { sqLog2 := 4, sqBase := 0x100000, cqLog2 := 4, cqBase := 0x100001, sqTail := 1 }

theorem witness_ContextRegisters :
    (let s := withMem { base with ctxs := [(1, ctx1)] }
     (ctxOf s 1).state = .free ∧ (ctxOf s 1).sqLog2.toNat = 4 ∧ inUnified s ((ctxOf s 1).sqBase.toNat * 4096) (64 * 2 ^ 4) = true ∧
       inUnified s ((ctxOf s 1).cqBase.toNat * 4096) (64 * 2 ^ 4) = true ∧ sharedPermits s 1 = true) ∧
    (ctxOf base 1).state = .free ∧ ¬4 ≤ (ctxOf base 1).sqLog2.toNat ∧
    (let s := { base with disp := { base.disp with msis := [1, 2] } }
     s.disp.msis = (1 : CtxId) :: [2] ∧ s.disp.sent = [] ∧ (ctxOf s 1).eiid = 0) ∧
    (let s := { base with disp := { base.disp with sent := [(1, 5)] } }
     s.disp.sent = (1, 5) :: []) := by decide +kernel

theorem witness_PreemptionAndContextReset :
    (jobOf base 3 = some job ∧ job.ctx = 1 ∧ job.stage = .running ∧ draining base job = false ∧ jobOn base 0 = some 3 ∧
      (1 : BitVec 8).getLsbD 0 = true) ∧ (jobsOf base 2 = []) ∧ (jobsOf base 1 = [3] ∧ job.dies ≠ []) := by decide

/-- One descriptor in the ring of context 1, whose image lies 8 KiB above it and asks for one die; die 0 is in service. -/
def ringState (gang : Nat) : State := withMem { base with
  dies := [], jobs := [], ctxs := [(1, { ctx1 with state := .active })], grans := [(0, { state := .hbm })]
  map := { sites := [(0, { state := 1 })], units := [(0, { seq := true })] }
  mem := ByteMap.write (ByteMap.write (ByteMap.write [] (2 ^ 32 + 8) (leBytes 8 (2 ^ 32 + 0x2000))) (2 ^ 32 + 36) [1]) (2 ^ 32 + 0x2000 + 59)
    [BitVec.ofNat 8 gang] }

/-- The head job of context 1 can be placed, and die 0 is free for it. -/
def headPlaces (s : State) (free : Bool) : Bool :=
  match headJob s 1 with
  | some (.fresh b, w) =>
    let r := readGang 1 b w
    recordFree w 1 none && (placeable r.2.2 b r.1 r.2.1 == free) && (!free || decide (r.1 ≤ (freeDies r.2.2 (fieldAt b 36 1)).length))
  | _ => false

/-- A job of one die under kill, with a cause and kills before it. -/
def killState (c : KillCause) (n : Nat) : State := { withDie fun x => { x with
    seq := { x.seq with state := .killing, issued := true }
    start := some ⟨0, 0, [], [], [], [], [], [], [], [], [], []⟩ } with
  jobs := [(3, { job with stage := .killing, causes := [c], faultKills := n })] }

theorem killed_facts (c : KillCause) (n : Nat) : jobOn (killState c n) 0 = some 3 ∧
    (jobOf (killState c n) 3 = some { job with stage := .killing, causes := [c], faultKills := n }) ∧ (dieOf (killState c n) 0).spareClaim = none ∧
    (dieOf (killState c n) 0).start = some ⟨0, 0, [], [], [], [], [], [], [], [], [], []⟩ ∧ roundCount (dieOf (killState c n) 0) = 0 ∧
    servedBy (killState c n) 3 = none ∧ (killState c n).iommu.fence = none ∧ (dieOf (killState c n) 0).seq.issued = true :=
  ⟨rfl, rfl, rfl, rfl, rfl, rfl, rfl, rfl⟩

theorem witness_KillsEndInReRunSaveOrEnd : (job.dies = [0] ∧ job.saves = []) ∧ (0 + 1 < 3 ∧ 3 ≤ 2 + 1) ∧
    ∀ c ∈ [KillCause.fault 0x0501, .program 0x0601, .failing 0x0715, .contextReset, .preempt], ∀ n ∈ [0, 2],
      jobOn (killState c n) 0 = some 3 ∧ (dieOf (killState c n) 0).start = some ⟨0, 0, [], [], [], [], [], [], [], [], [], []⟩ ∧
      servedBy (killState c n) 3 = none :=
  ⟨by decide, by decide, fun c _ n _ => ⟨(killed_facts c n).1, (killed_facts c n).2.2.2.1, (killed_facts c n).2.2.2.2.2.1⟩⟩

theorem witness_DieResetClearsEngines : (0xA5 : BitVec 8) = 0xA5 ∧ (0 : BitVec 8) ≠ 0xA5 ∧ (1 : BitVec 8) = BitVec.ofNat 8 (2 ^ 0) ∧
    jobOn base 1 = none ∧ Killable base 0 3 := ⟨by decide, by decide, by decide, by decide, base_killable⟩

theorem witness_DispatcherPlacesJobsNewAndSaved_place :
    ((ringState 1).dom.halted = false ∧ (ringState 1).su.phase = .running ∧ heldStops (ringState 1) = false ∧ contextOrder (ringState 1) = [1]) ∧
    headPlaces (ringState 1) true = true ∧ headPlaces (ringState 0) false = true ∧ contextOrder (ringState 0) = [1] := by decide +kernel

/-! ## Witnesses: the Separator -/

/-- A descriptor in the first place of the ring, about granule 1. -/
def sepCmd (op ctx tier : Nat) : SepDesc := ⟨2 ^ 32, op, ctx, tier, 2 ^ 32 + 65536, 1, false⟩

/-- The ring at the bottom of unified memory in granule 0, with that descriptor; granule 1 as given. -/
def sepState (op ctx tier : Nat) (x : Granule) : State := { withMem base with
  grans := [(0, { state := .hbm }), (1, x)], sep := { logEntries := 4, cqBase := 0x100000, tail := 1, usedHbm := [0, 1] }
  mem := ByteMap.write [] (2 ^ 32) (leBytes 32 (op + ctx * 2 ^ 16 + tier * 2 ^ 28 + (2 ^ 32 + 65536) * 2 ^ 64 + 2 ^ 128)) }

/-- Granule 1 of context 1 in a stack or in a far module. -/
def inHbm : Granule := { state := .hbm, owner := 1, location := 1 }
def inFar : Granule := { state := .far, owner := 1, location := 1 }

theorem witness_SeparatorCommands :
    (∀ op ∈ [3, 4, 5, 6], LoneDesc (sepState op 1 0 inHbm) (sepCmd op 1 0) op) ∧
    ((sepCmd 1 1 0).count = 1 ∧ granuleOf (sepCmd 1 1 0).addr ≠ granuleOf (sepCmd 1 1 0).pos) ∧
    ((sepHead (sepState 1 1 0 {})).all (fun z => 1 ≤ z.op && z.op ≤ 8) = true) ∧
    (LoneDesc (sepState 1 1 0 {}) (sepCmd 1 1 0) 1 ∧ (granOf (sepState 1 1 0 {}) 1).state = .unplaced ∧
      (moveRoom (sepState 1 1 0 {}) 1 true true).isOk = true) ∧
    (let s := { sepState 1 1 0 {} with quotas := [(1, { hbmQuota := 0 })] }
     LoneDesc s (sepCmd 1 1 0) 1 ∧ (match moveRoom s 1 true true with | .error .quota => true | _ => false) = true) ∧
    (LoneDesc (sepState 2 1 0 { inHbm with pin := true }) (sepCmd 2 1 0) 2 ∧ (granOf (sepState 2 1 0 { inHbm with pin := true }) 1).pinned = true) ∧
    (LoneDesc (sepState 2 1 0 inHbm) (sepCmd 2 1 0) 2 ∧ (granOf (sepState 2 1 0 inHbm) 1).pinned = false) ∧
    (LoneDesc (sepState 7 1 1 inHbm) (sepCmd 7 1 1) 7 ∧ (moveRoom (sepState 7 1 1 inHbm) 1 false true).isOk = true) ∧
    (LoneDesc (sepState 8 2 0 inHbm) (sepCmd 8 2 0) 8 ∧ atQuota (sepState 8 2 0 inHbm) 2 true = false ∧
      (sepState 8 2 0 inHbm).sec.memKeys = []) ∧
    (let s := { sepState 8 2 0 inHbm with sec := { memKeys := [(2, { key := [1], tenant := [] })] } }
     LoneDesc s (sepCmd 8 2 0) 8 ∧ (pickFree s true none).isSome = true) := by
  unfold LoneDesc
  repeat' apply And.intro
  all_goals decide +kernel

/-- A move of granule 1 from a stack to far memory under way since tick 0, at a later time. -/
def moveState (now : BitVec 64) : State := { sepState 3 1 0 { inHbm with state := .moving } with
  moves := [(1, ⟨.demote, true, 1, false, 0, 0, []⟩)], time := now }

/-- Context 1 over its stack quota, owning granule 1 alone. -/
def overState (ref : Bool) : State := { sepState 3 1 0 { inHbm with ref := ref } with
  quotas := [(1, { hbmQuota := 0, hbmUse := 1, overHbm := true })], time := 1000000 }

theorem witness_MovesQuotasAndScans :
    (SMap.find (moveState 10).moves 1 = some ⟨.demote, true, 1, false, 0, 0, []⟩ ∧ (moveState 10).sep.prog = 0) ∧
    (100000 < ((moveState 100001).time - 0).toNat) ∧
    ((quotaOf (overState false) 1).overHbm = true ∧ (windowOpen (overState false) (quotaOf (overState false) 1)).1 = true ∧
      scanOrder (overState false) 1 = [1] ∧ isPinned (overState false) 1 = false ∧ (granOf (overState false) 1).ref = false ∧
      (moveRoom (overState false) 1 false true).isOk = true) ∧
    (scanOrder (overState true) 1 = [1] ∧ (granOf (overState true) 1).ref = true ∧ (windowOpen (overState true) (quotaOf (overState true) 1)).1 = true) ∧
    (let s := { sepState 3 1 0 inHbm with filling := [(1, [.access ⟨.io, 2 ^ 32 + 65536, .load 8, .clean, .pma, .m, false⟩])] }
     SMap.find s.filling 1 = some [.access ⟨.io, 2 ^ 32 + 65536, .load 8, .clean, .pma, .m, false⟩] ∧ (keyOf s 1).isSome = true ∧ s.dom.poison = []) := by decide +kernel

/-! ## Witnesses: the milk round and serving -/

/-- A round list of one entry for vat 0: 256 rows of INT4 weights at the bottom of unified memory, into a round pan of 600 lines. -/
def roundImg1 : Image := { img with
  sect := ByteMap.write img.sect 61 [1]
  round := ByteMap.write (ByteMap.write [] 0 (leBytes 14 (2 ^ 32 + 600 * 2 ^ 88))) 64 (leBytes 32 (2 ^ 32 + 2 * 2 ^ 64 + 9 * 2 ^ 110)) }

def roundState (r : RoundSt) : State := { withMem (withDie fun x => { x with image := some roundImg1, round := { r with nearLead := 1, hbmLead := 1 } }) with
  grans := [(0, { state := .hbm })] }

theorem witness_RoundEngineFetchesAndLoads :
    (working (roundState {}) 0 = true ∧
      (let w := promote 0 (roundState {})
       (dieOf w 0).round.fetching = none ∧ roundHeld (dieOf w 0) = false ∧ fetchNext (dieOf w 0) = some 0 ∧
         (match freeFor (entryLines (dieOf w 0) 0) (roundHead (roundImg (dieOf w 0))).size (victims (dieOf w 0) 0) (dieOf w 0) with
          | some y => (readTile 0 0 (setDie w 0 y)).1.isOk
          | none => false) = true)) ∧
    (working (roundState { fetching := some 0 }) 0 = true ∧ (dieOf (roundState { fetching := some 0 }) 0).round.fetching ≠ none) ∧
    (let s := roundState { opened := [0], promoted := 1, tiles := [(0, [])] }
     working s 0 = true ∧ loadable (dieOf s 0) 0 = some 0 ∧ 0 < (dieOf s 0).round.promoted ∧
       (writeEntryLoad s.time (physOf s 0 0) 0 0 (dieOf s 0)).isOk = true) := by decide +kernel

def partState (p : Partition) : State := { base with parts := [(0, p)] }

theorem witness_PartitionsAndBoundaries_registers :
    (partOf (partState { enable := true }) 0).enable = true ∧
    ((partOf (partState { bind := 1, aqLog2 := 4, poolLog2 := 4, gatherLog2 := 10 }) 0).enable = false ∧
      badField (partState { bind := 1, aqLog2 := 4, poolLog2 := 4, gatherLog2 := 10 }) 0 = none) ∧
    ((partOf base 0).enable = false ∧ badField base 0 = some 0) ∧ servingPlaced base 0 = false ∧ (partOf base 0).holding = false ∧
    (let s := { partState { enable := true, context := 1, bind := 1 } with jobs := [(3, { job with desc := zeros 36 ++ [1] ++ zeros 27 })] }
     servingPlaced s 0 = true) := by decide

/-! ## Witnesses: the translation agent -/

/-- A request of job 3, or of none, in slot 5 of die 0, whose wait budget of 10 ticks began at tick 80. -/
def pageState (p : Option Nat) : State := withDie fun x => { x with pageSlots := [(5, ⟨1, 0, 4096, true, false, some 80, 10, p⟩)] }

theorem witness_PageRequestsAreAnswered :
    (SMap.find (dieOf (pageState (some 3)) 0).pageSlots 5 = some ⟨1, 0, 4096, true, false, some 80, 10, some 3⟩ ∧
      10 ≤ ((pageState (some 3)).time - 80).toNat) ∧ Killable (pageState (some 3)) 0 3 ∧
    cqStopped (pageState (some 3)) = false ∧ SMap.find (dieOf base 0).pageSlots 5 = none ∧
    ((pageState (some 3)).iommu.fence = none ∧ (pageState (some 3)).iommu.waiting = [] ∧ (dieOf (pageState (some 3)) 0).walkWait = [] ∧
      (dieOf base 0).walkWait = []) ∧
    (((SMap.find (dieOf (pageState (some 3)) 0).pageSlots 5).filter fun p => p.did == 1 && p.pid == 0).isSome = true ∧
      ∀ h ∈ (dieOf (pageState (some 3)) 0).held, h.1.toNat ≠ 5) ∧
    (let j := { job with stage := .waitingOs, awaiting := [(0, 5)] }
     let s := { pageState none with jobs := [(3, j)] }
     awaiter s 0 5 = some (3, j) ∧ jobOf s 3 = some j ∧ cqStopped s = false) :=
  ⟨by decide, ⟨by decide, job, by decide, by decide, by decide, by decide⟩, by decide, by decide, by decide, by decide, by decide⟩

/-- Die 0 with one IOTLB entry of GSCID 4 and a staged line translated under it. -/
def tlbState : State := withDie fun x => { x with
  iotlb := [⟨4, 0, 16, 12, 2 ^ 32, true, true, true, true, true, false, 12⟩], walkCache := [⟨false, 4, 0, 0, 0, 2 ^ 32⟩],
  log := [⟨.put, 0x4000000, zeros 64, allMask, some ⟨4, 0, 16, 12, 12⟩⟩] }

theorem witness_AgentCommands :
    cqStopped tlbState = false ∧ Killable tlbState 0 3 ∧ (∀ p ∈ tlbState.dies, p.2.job = some 3 → p.1 = 0) ∧
    ((∃ e ∈ (dieOf tlbState 0).iotlb, e.gscid = 4) ∧ ∃ e ∈ (dieOf tlbState 0).log, e.key = some ⟨4, 0, 16, 12, 12⟩) ∧
    (tlbState.iommu.fence = none ∧ tlbState.iommu.waiting = []) ∧
    (cqStopped drainState = false ∧ drainsNow drainState = [0]) ∧
    (let s := { base with iommu := { base.iommu with fence := some ⟨⟨false, false, false, false, 0, 0⟩, [3], []⟩ } }
     cqStopped s = false ∧ s.iommu.fence.isSome = true) ∧
    (let s := sepState 3 1 0 inHbm
     killsNow s = [] ∧ drainsNow s = [] ∧ s.iommu.fence = none ∧ s.iommu.waiting = [] ∧ SMap.find s.filling 0 = none ∧ SMap.find s.moves 0 = none ∧ cqStopped s = false ∧ inUnified s (2 ^ 32 + 4) 4 = true ∧ (granOf s 0).state = .hbm ∧
       (keyOf s 0).isSome = true ∧ busyOf s (0x4000000) = none ∧ l3Line s 0 (0x4000000) = none ∧ l3Line s 1 (0x4000000) = none) :=
  ⟨by decide, ⟨by decide, job, by decide, by decide, by decide, by decide⟩, by decide, by decide, by decide, by decide +kernel⟩

/-! ## Witnesses: coherence -/

/-- A domain state beside the bottom of unified memory, whose first line is 2^26. -/
def cohState (d : Domain) : State := { withMem base with grans := [(0, { state := .hbm })], dom := d }

/-- The line held: by the L3 of m = 0 alone, shared by it and edge cache 3, or owned by it and shared. -/
def owned (st : CacheState) : Domain := { dir := [(0x4000000, { st := .em, owner := 8 })], l3 := [(0x8000000, ⟨st, zeros 64, {}⟩)] }
def shared : Domain := { dir := [(0x4000000, { st := .s, sharers := 0x108 })], l3 := [(0x8000000, ⟨.s, zeros 64, {}⟩)] }

theorem open_of {d : Domain} (h : domainUp (cohState d) = true ∧ inUnified (cohState d) (64 * 0x4000000) 64 = true ∧
    engineHeld (cohState d) (homeOf (cohState d) (64 * 0x4000000)) = false ∧ Settled (cohState d) (granuleOf (64 * 0x4000000)) ∧
    busyOf (cohState d) (0x4000000) = none ∧ SMap.get [] (cohState d).dom.queue (0x4000000) = []) : HomeOpen (cohState d) (0x4000000) := h

theorem witness_HomesServeRequests :
    (HomeOpen (cohState {}) (0x4000000) ∧ HomeOpen (cohState (owned .m)) (0x4000000) ∧ HomeOpen (cohState shared) (0x4000000)) ∧
    (keyOf (cohState {}) (granuleOf (64 * 0x4000000))).isSome = true ∧ dirOf (cohState {}) (0x4000000) = {} ∧
    (ownerOf (dirOf (cohState (owned .m)) (0x4000000)) = some 8 ∧ l3At (cohState (owned .m)) 8 (0x4000000) = some ⟨.m, zeros 64, {}⟩ ∧
      sharersOf (dirOf (cohState (owned .m)) (0x4000000)) = []) ∧
    (ownerOf (dirOf (cohState shared) (0x4000000)) = none ∧ sharersOf (dirOf (cohState shared) (0x4000000)) = [3, 8] ∧
      l3At (cohState shared) 8 (0x4000000) = some ⟨.s, zeros 64, {}⟩) ∧
    l3HasRoom (cohState {}) 8 0x4000000 {} = true ∧ (isL3 8 = true ∧ isL3 9 = true ∧ homeOf (cohState {}) (64 * 0x4000000) < 10 ∧ dairymanUp (cohState {}) = true) :=
  ⟨⟨open_of (by decide +kernel), open_of (by decide +kernel), open_of (by decide +kernel)⟩, by decide +kernel, by decide +kernel, by decide +kernel,
   by decide +kernel, by decide +kernel, by decide +kernel⟩

/-- A message for the line under way, beside a domain state. -/
def sent (k : MsgKind) (src dst : Nat) (d : Domain) : State := cohState { d with net := [⟨k, src, dst, 0x4000000⟩] }

theorem arrives_of {k : MsgKind} {src dst site : Nat} {d : Domain} {pick : ShankMsg → Bool} (h : domainUp (sent k src dst d) = true ∧
    inUnified (sent k src dst d) (64 * 0x4000000) 64 = true ∧ dst = site ∧ engineWaits (sent k src dst d) ⟨k, src, dst, 0x4000000⟩ = false ∧
    laneTo (sent k src dst d) ⟨k, src, dst, 0x4000000⟩ = [⟨k, src, dst, 0x4000000⟩] ∧
    (sent k src dst d).dom.net.find? (fun m => m.line == 0x4000000 && pick m) = some ⟨k, src, dst, 0x4000000⟩) :
    Arrives (sent k src dst d) site (0x4000000) pick ⟨k, src, dst, 0x4000000⟩ := h

/-- A transaction that holds the line BUSY: of the L3 of m = 1, or the IO die's write. -/
def busyBy (src : Nat) (q : CohReq) (waits : List Nat) (granted : Bool) (d : Domain) : Domain :=
  { d with busy := [(0x4000000, ⟨src, q, waits, none, granted, some 0⟩)] }

theorem witness_CoherenceMessages :
    (Arrives (sent (.fwdShared 9) 0 8 (owned .m)) 8 (0x4000000) (fun m => m.dst == 8 && isFwdShared m.kind) ⟨.fwdShared 9, 0, 8, 0x4000000⟩ ∧
      l3At (sent (.fwdShared 9) 0 8 (owned .m)) 8 (0x4000000) = some ⟨.m, zeros 64, {}⟩) ∧
    (Arrives (sent (.fwdUnique 9) 0 8 (owned .m)) 8 (0x4000000) (fun m => m.dst == 8 && isFwdUnique m.kind) ⟨.fwdUnique 9, 0, 8, 0x4000000⟩ ∧
      l3At (sent (.fwdUnique 9) 0 8 (owned .m)) 8 (0x4000000) = some ⟨.m, zeros 64, {}⟩) ∧
    (∀ site ∈ [3, 8], Arrives (sent .invalidate 0 site shared) site (0x4000000) (fun m => m.dst == site && m.kind == .invalidate)
        ⟨.invalidate, 0, site, 0x4000000⟩ ∧ invalidateFull (sent .invalidate 0 site shared) site (0x4000000) = false) ∧
    (∀ d ∈ [owned .m, owned .e, ({} : Domain)], Arrives (sent .recall 0 8 d) 8 (0x4000000) (fun m => m.dst == 8 && m.kind == .recall)
      ⟨.recall, 0, 8, 0x4000000⟩ ∧ invalidateFull (sent .recall 0 8 d) 8 (0x4000000) = false) ∧
    (∀ site ∈ [8, 3, 10], Arrives (sent (.data (zeros 64) .s) 0 site {}) site (0x4000000) (fun m => m.dst == site && isData m.kind)
      ⟨.data (zeros 64) .s, 0, site, 0x4000000⟩) ∧
    (Arrives (sent .writeAck 0 8 (busyBy 8 .cleanUnique [] true shared)) 8 (0x4000000) (fun m => m.dst == 8 && m.kind == .writeAck)
        ⟨.writeAck, 0, 8, 0x4000000⟩ ∧ busyOf (sent .writeAck 0 8 (busyBy 8 .cleanUnique [] true shared)) (0x4000000) = some ⟨8, .cleanUnique, [], none, true, some 0⟩ ∧
      busyOf (sent .writeAck 0 8 shared) (0x4000000) = none ∧
      busyOf (sent .writeAck 0 8 (busyBy 8 .evictClean [] true shared)) (0x4000000) = some ⟨8, .evictClean, [], none, true, some 0⟩) ∧
    Arrives (sent (.atomicResult 7) 0 8 {}) 8 (0x4000000) (fun m => m.dst == 8 && isResult m.kind) ⟨.atomicResult 7, 0, 8, 0x4000000⟩ ∧
    (homeOf (cohState {}) (64 * 0x4000000) = 0 ∧ SMap.get [] (sent .invAck 3 0 (busyBy 8 .cleanUnique [3] false shared)).dom.queue (0x4000000) = []) ∧
    (∀ waits ∈ [[3], [3, 9]], Arrives (sent .invAck 3 0 (busyBy 8 .cleanUnique waits false shared)) 0 (0x4000000)
        (fun m => m.src == 3 && m.kind == .invAck) ⟨.invAck, 3, 0, 0x4000000⟩ ∧
      busyOf (sent .invAck 3 0 (busyBy 8 .cleanUnique waits false shared)) (0x4000000) = some ⟨8, .cleanUnique, waits, none, false, some 0⟩) ∧
    (Arrives (sent (.recallData (zeros 64)) 8 0 (busyBy 10 (.writeLine (zeros 64) 1) [8] false (owned .m))) 0 (0x4000000)
        (fun m => m.src == 8 && isRecallData m.kind) ⟨.recallData (zeros 64), 8, 0, 0x4000000⟩) ∧
    (Arrives (sent .invAck 3 0 (busyBy 0 .evictClean [3] false shared)) 0 (0x4000000) (fun m => m.src == 3 && m.kind == .invAck)
      ⟨.invAck, 3, 0, 0x4000000⟩) ∧
    (Arrives (sent (.recallData (zeros 64)) 8 0 (busyBy 0 .evictClean [8] false (owned .m))) 0 (0x4000000)
        (fun m => m.src == 8 && isRecallData m.kind) ⟨.recallData (zeros 64), 8, 0, 0x4000000⟩) ∧
    Arrives (sent .compAck 8 0 (busyBy 8 .cleanUnique [] true shared)) 0 (0x4000000) (fun m => m.src == 8 && m.kind == .compAck)
      ⟨.compAck, 8, 0, 0x4000000⟩ := by
  refine ⟨⟨arrives_of (by decide +kernel), by decide +kernel⟩, ⟨arrives_of (by decide +kernel), by decide +kernel⟩, ?_, ?_, ?_,
    ⟨arrives_of (by decide +kernel), by decide +kernel, by decide +kernel, by decide +kernel⟩, arrives_of (by decide +kernel), by decide +kernel, ?_,
    arrives_of (by decide +kernel), arrives_of (by decide +kernel), arrives_of (by decide +kernel), arrives_of (by decide +kernel)⟩
  all_goals
    simp only [List.forall_mem_cons, List.not_mem_nil, false_imp_iff, implies_true, and_true]
  · exact ⟨⟨arrives_of (by decide +kernel), by decide +kernel⟩, arrives_of (by decide +kernel), by decide +kernel⟩
  · exact ⟨⟨arrives_of (by decide +kernel), by decide +kernel⟩, ⟨arrives_of (by decide +kernel), by decide +kernel⟩,
      arrives_of (by decide +kernel), by decide +kernel⟩
  · exact ⟨arrives_of (by decide +kernel), arrives_of (by decide +kernel), arrives_of (by decide +kernel)⟩
  · exact ⟨⟨arrives_of (by decide +kernel), by decide +kernel⟩, arrives_of (by decide +kernel), by decide +kernel⟩

theorem witness_CoherenceFaultsAndEdgeCaches :
    (let s := withDie fun x => { x with invQueue := [(0x4000000, 90)] }
     (dieOf s 0).invQueue = [(0x4000000, 90)]) ∧
    (∀ d ∈ [owned .m, shared], HomeOpen (cohState d) (0x4000000) ∧ 8 ∈ holdersOf (dirOf (cohState d) (0x4000000)) ∧
      engineHeld (cohState d) 8 = false ∧ invalidateFull (cohState d) 8 (0x4000000) = false ∧
      (cohState d).dom.net = []) ∧
    (∀ now ∈ [10, 200000],
      let s := { cohState (busyBy 8 .cleanUnique [3] false shared) with time := BitVec.ofNat 64 now }
      busyOf s (0x4000000) = some ⟨8, .cleanUnique, [3], none, false, some 0⟩ ∧ domainUp s = true ∧ homeOf s (64 * 0x4000000) < 10 ∧ dairymanUp s = true) ∧
    (let s := { cohState { shankFails := [(4, 8)] } with map := { sites := [(4, { state := 1 }), (5, { state := 1 })] } }
     siteUp s 4 = true ∧ siteUp s 5 = true ∧ siteUp s 6 = false ∧ domainUp s = true ∧ SMap.get 0 s.dom.shankFails 4 = 8 ∧ SMap.get 0 s.dom.shankFails 5 = 0 ∧ dairymanUp s = true) := by
  refine ⟨by decide +kernel, ?_, by decide +kernel, by decide +kernel⟩
  simp only [List.forall_mem_cons, List.not_mem_nil, false_imp_iff, implies_true, and_true]
  exact ⟨⟨open_of (by decide +kernel), by decide +kernel⟩, open_of (by decide +kernel), by decide +kernel⟩

/-! ## Witnesses: the cluster and the power manager -/

/-- Core C8 in service with core 0, whose hart 0 has reached its compares. -/
def hartState (x : HartState) : State := { base with
  map := { sites := [(8, { state := 1 })], cores := [(0, 1)] }
  cluster := { harts := [(0, { state := x, mtimecmp := 50, stimecmp := 50, vstimecmp := 50 })] } }

theorem witness_HartsAndFirmwareCalls :
    (hartPresent (hartState .started) (0 : HartId).toNat = true ∧ (hartOf (hartState .started) 0).mtimecmp.toNat ≤ (hartState .started).time.toNat ∧
      (hartOf (hartState .started) 0).stimecmp.toNat ≤ (hartState .started).time.toNat ∧
      (hartOf (hartState .started) 0).vstimecmp.toNat ≤ (hartState .started).time.toNat ∧ (hartOf (hartState .started) 0).state = .started) ∧
    hartPresent base 0 = false ∧
    (let s := { hartState .started with
       map := { sites := [(8, { state := 1 })], cores := [(0, 3)] }
       cluster := { harts := [(0, { state := .started })] } }
     hartPresent s 0 = true ∧ (hartOf s 0).state = .started ∧ hartPresent s 1 = true ∧ (hartOf s 1).state = .stopped ∧
       (0x53555350 : Nat) ∉ [0x10, 0x54494D45, 0x735049, 0x52464E43, 0x48534D, 0x53525354, 0x504D55, 0x4442434E, 0x09514B00] ∧
       inUnified (withMem s) (2 ^ 32) 1 = true) ∧
    (otherBlocks base 12 1 + 819 ≤ 819 ∧ 819 < otherBlocks base 12 1 + 820) ∧
    dairymanUp base = true ∧ dairymanUp { base with su := { base.su with dairyman := false } } = false := by decide

/-- The package running with its die and stack rails on. -/
def powerState (p : Power) : State := { base with power := { p with off := false } }
def railsOn : SMap Rail := [(0, { state := .on, setpoint := 700 }), (16, { state := .on })]

/-- A cap of 1 W on die 0 and a trim at which any leakage exceeds it: whether something leaks is the hardware's, so it is a premise. -/
theorem witness_of_an_excess (leaks : 0 < Config.leakage 0 0 0) (m : PowerMeter) (hm : m = ⟨0, 0, [], []⟩) :
    let s := { powerState { trim := 100000000 } with dict := { values := [(objKey 0x2001 1, [1])] } }
    let u := noteMeter m s
    ∃ c rest, (caps u).filter (fun c => decide (c.2 < capLoad u (measMv u) c.1)) = c :: rest := by
  subst hm
  intro s u
  have member : (some 0, 1000) ∈ (caps u).filter (fun c => decide (c.2 < capLoad u (measMv u) c.1)) := by
    refine List.mem_filter.2 ⟨by decide, ?_⟩
    have load : capLoad u (measMv u) (some 0) = (dynMw u 0 0 + Config.leakage 0 0 0) * 100000000 / 10000 := rfl
    simp only [load, decide_eq_true_eq]
    omega
  exact List.exists_cons_of_ne_nil (List.ne_nil_of_mem member)

theorem witness_PowerAndThermalControl :
    (base.power.off = true ∧ (powerState {}).power.off = false ∧ (powerState {}).power.capped = false) ∧
    (base.power.secondNj = 0 ∧ (powerState { secondNj := 5 }).power.secondNj ≠ 0 ∧ dairymanUp base = true) ∧
    (let s := { powerState { secondNj := 5 } with time := 100000000 }
     s.power.intervals < s.time.toNat / 200 ∧ s.power.seconds < s.time.toNat / 100000000 ∧ s.power.off = false ∧ dairymanUp s = true ∧
       ¬ (s.power.intervals < ({ s with time := 199 } : State).time.toNat / 200)) ∧
    (railOf (powerState { rails := [(3, { slewing := true })] }) 3).slewing = true ∧
    (let s := powerState { rails := railsOn }
     railOn s (.logic 0) = true ∧ railOn s (.memory 0) = true ∧ railOn s (.stack 0) = true ∧ paused s 0 = false) ∧
    (let s := { powerState { rails := railsOn, lines := [(0, { pausedAt := some 90 }), (16, { pausedAt := some 90 })] } with time := 10090 }
     railOn s (.logic 0) = true ∧ (lineOf s 0).pausedAt = some 90 ∧ (lineOf s 16).pausedAt = some 90 ∧ 10000 ≤ (s.time - 90).toNat ∧
       (railOf s 0).lastDroop = none) ∧
    base.power.excursion = false ∧
    (let s := powerState { rails := railsOn }
     (railOf s 0).hot = false ∧ thermalLimit s ≤ (hottest [95]).2 ∧ (railOf s 0).setpoint.toNat ≠ 450) ∧
    (let s := powerState { rails := [(0, { state := .on, setpoint := 700, hot := true })] }
     (railOf s 0).hot = true ∧ (hottest [93]).2 + 2 ≤ thermalLimit s ∧ thermalLimit s < (hottest [94]).2 + 2 ∧
       (railOf s 0).lastCool = none) := by decide

/-! ## Witnesses: memory units, the log, the ledger and the clock -/

/-- Granule 1 in the first granule of stack 0. -/
def scrubState : State := { withMem base with grans := [(1, { state := .hbm })] }

theorem witness_MemoryUnitsLogLedgerAndClock :
    ((unitCap scrubState 0 ≠ 0 ∧ scrubLineOf scrubState 0 = 0 ∧ 0 < unitCap scrubState 0 * 1024 ∧ granuleAt scrubState 0 0 = some 1 ∧
        ownedDirty scrubState ((2 ^ 32 + 65536) / 64) = false) ∧
      (inUnified scrubState (2 ^ 32 + 65536) 65536 = true ∧ inUnified scrubState 0 65536 = false ∧ storageOf scrubState 1 = some (true, 0) ∧
        unitAt true 0 = (0, 0) ∧ (pickFree (withdraw 0 0 scrubState) true none).isSome = true ∧ dairymanUp scrubState = true ∧
        listFull scrubState 0 = false ∧ retireBegun scrubState 1 = false ∧
        (let s := { scrubState with moves := [(1, ⟨.retire 2, true, 0, true, 1, 0, []⟩)] }
         SMap.find s.moves 1 = some ⟨.retire 2, true, 0, true, 1, 0, []⟩ ∧ (s.time - 0).toNat ≤ 100000 ∧ s.sep.prog = 0 ∧ s.sep.owed = [] ∧
           unitAt true 0 = (0, 0))) ∧
      (let s := { scrubState with sep := { retiring := [(1, 2)] } }
       waitingRetire s 0 0 = some (1, 2) ∧ s.sep.prog = 0 ∧ s.sep.owed = [] ∧
         (pickFree (withdraw 0 0 s) true none).isSome = true)) ∧
    (batchDue base = false ∧
      (let s := { base with ev := { pendingRecs := [⟨0x0601, 0, 0, 0, 0, 0, []⟩], oldest := some 0 }, time := 1000000 }
       batchDue s = true ∧ s.ev.pendingRecs.take 63 ≠ [] ∧ storeUp s = true ∧ dairymanUp s = true ∧
         s.nv.logEnd + recordBytes (64 * 1) ≤ s.nv.logStart + 96 * 2 ^ 20 ∧ s.nv.device0Bad = false ∧ s.nv.device1Bad = false ∧
         s.su.board.progFail = [] ∧ storeUp { s with nv := { s.nv with device1Bad := true } } = true ∧
         (∀ d : Fin 2, let f := { s with su := { s.su with board := { base.su.board with progFail := [d.val] } } }
           batchDue f = true ∧ storeUp f = true ∧ dairymanUp f = true ∧ f.nv.device0Bad = false ∧ f.nv.device1Bad = false ∧
             f.su.board.progFail = [d.val])) ∧
      (let s := { base with time := 100000000 }
       s.time.toNat % 100000000 = 0 ∧ s.nv.ledger = [] ∧ s.nv.ledger.length < ledgerMax ∧ s.su.board.progFail = [] ∧ dairymanUp s = true ∧ storeUp s = true ∧
         s.cal.time.toNat / 2 ^ 24 % 86400 = 0) ∧
      (let s := { base with dict := { values := [(objKey 0x7000 2, [1])] } }
       dairymanUp s = true ∧ objNat s 0x7000 2 0 = 1 ∧ (5 : Int).natAbs ≤ 16777 ∧ 16777 < (-16778 : Int).natAbs)) := by decide +kernel

/-! ## Witnesses: eyelets, laces and membership -/

/-- Eyelet 0 and the two inlets of its half. -/
def eyeState (x : Eyelet) (inlet0 inlet1 : SiteState) : State := { base with
  lacing := { eyes := [(0, x)] }, map := { sites := [(80, inlet0), (81, inlet1)] } }
def lit : SiteState := { state := 1 }
def dark : SiteState := { state := 2, reason := 6 }
def goodFlit : List Byte := flitOf 0 0 0 false (zeros 248)

theorem witness_EyeletsLanesFlitsAndInlets :
    ((eyeOf (eyeState {} lit lit) 0).state ≠ .absent ∧ (dirOfEye (eyeOf (eyeState {} lit lit) 0) true).lost.getLsbD 3 = false ∧
      (dirOfEye (eyeOf (eyeState {} lit lit) 0) true).spareUsed = false) ∧
    (let s := eyeState { state := .up, tx := ⟨4, 0x0F, true, false⟩ } lit lit
     (dirOfEye (eyeOf s 0) true).lost.getLsbD 5 = false ∧ (dirOfEye (eyeOf s 0) true).spareUsed = true ∧
       ((dirOfEye (eyeOf s 0) true).active - 1).toNat < 4) ∧
    (let s := eyeState { state := .up, tx := ⟨8, 0x08, true, false⟩ } lit lit
     (dirOfEye (eyeOf s 0) true).lost.getLsbD 3 = true ∧ ((8 : BitVec 9) &&& ~~~8).toNat % 256 = 0 ∧ (dirOfEye (eyeOf s 0) false).lost = 0) ∧
    (dirOfEye (eyeOf (eyeState { tx := ⟨7, 0x08, false, true⟩ } lit lit) 0) true).substituting = true ∧
    ((eyeOf (eyeState { state := .up } lit lit) 0).state = .up ∧ goodFlit.length = 256 ∧
      (crc32c (goodFlit.take 252)).toNat = fieldAt goodFlit 252 4 ∧ bits (fieldAt goodFlit 2 2) 13 3 = 0 ∧
      bits (fieldAt goodFlit 0 2) 0 12 = (eyeOf (eyeState { state := .up } lit lit) 0).rxSeq.toNat ∧ (zeros 5).length ≠ 256) ∧
    (let s := eyeState { state := .up, replay := [goodFlit] } lit lit
     (eyeOf s 0).txq = [] ∧ (0 - (eyeOf s 0).acked).toNat ≤ (eyeOf s 0).replay.length) ∧
    (siteUp (eyeState {} lit lit) 80 = true ∧ siteUp (eyeState {} lit lit) 81 = true ∧ siteUp (eyeState {} lit dark) 81 = false) ∧
    (let s := { eyeState { tx := ⟨8, 0, false, false⟩, rx := ⟨8, 0, false, false⟩ } dark dark with map := { sites := [(48, dark), (80, dark)] } }
     (siteOf s 80).state = 2 ∧ (siteOf s 80).reason = 6 ∧ (eyeOf s 0).state = .down ∧ wideEnough (eyeOf s 0) = true ∧ (siteOf s 48).reason = 6) := by
  decide +kernel

/-- A packet of package 5's command 9 for package 4, under the lace key. -/
def packet (ty : Nat) (aux : BitVec 8) (tag : BitVec 16) (oper : BitVec 64) (data : List Byte) : Packet :=
  let k : Packet := ⟨4, 5, false, false, 0, 0, 0, aux, tag, 9, oper, data, []⟩
  { k with mac := Config.packetMac (zeros 32) (packetBytes ty k) }

/-- Package 4, whose partner 5 has a window on the granule at the bottom of unified memory and a staging region. -/
def inState (e : Partner) (st : SMap Staging) : State := { laceState with lacing := { laceState.lacing with
  memb := { laceState.lacing.memb with stageSize := 1 }, staging := st
  partners := [(5, { e with valid := true, keySlot := 2, rxContext := 1, winBase := 65536, winGranules := 1 })] } }

theorem in_of (e : Partner) (st : SMap Staging) (ty : Nat) (aux : BitVec 8) (tag : BitVec 16) (oper : BitVec 64) (data : List Byte)
    (h : (0 : BitVec 32) = e.lseqRx ∧ e.reorder = []) : PacketIn (inState e st) ty (packet ty aux tag oper data) :=
  ⟨show Variant.whole ≠ Variant.skim by decide, rfl, rfl, rfl, rfl, h.1, h.2, { key := zeros 32, tenant := [], ctx := 1 }, rfl, by decide, rfl⟩

/-- A command of die 0 at partner 5, not committed and committed at tick 10. -/
def laceCmd (c : Option (BitVec 64)) : LaceCmd := ⟨9, 0, 1, c, 20, 30, 0⟩

/-- One PUT of one line at the window's start, staged. -/
def putStaged : SMap Staging := [(stageAt 5 9, { entries := [(1, packet 1 0 0 0 (zeros 64))], bytes := 64 })]

theorem witness_LacePacketsAct :
    ((∀ ty ∈ [1, 2, 3, 4, 5, 8, 9, 10, 11, 12, 13, 16], ∀ oper, PacketIn (inState {} []) ty (packet ty 0 0 oper (zeros 64))) ∧
      inWindow (inState {} []) 5 (operOffset 0) (operLines 0) = true ∧ inWindow (inState {} []) 5 (operOffset 5000) (operLines 5000) = false ∧
      stagedTotal (inState {} []) + 64 ≤ stageCapacity (inState {} []) ∧ stageCapacity laceState < stagedTotal laceState + 64) ∧
    (Settled (inState {} []) (granuleOf (64 * windowLine (inState {} []) 5 0)) ∧
      busyOf (inState {} []) (windowLine (inState {} []) 5 0) = none ∧ poisoned (inState {} []) (windowLine (inState {} []) 5 0) = false ∧
      (keyOf (inState {} []) (granuleOf (64 * windowLine (inState {} []) 5 0))).isSome = true) ∧
    ((SMap.get [] (inState {} []).lacing.tags (tagKey 0 5)).find? (fun g => g.tag == 0 && g.retired.isNone && g.epoch == 0) = none ∧
      (let s := { inState {} [] with lacing := { (inState {} []).lacing with tags := [(tagKey 0 5, [⟨0, 1, 1, 0, 1, 0, 0, none⟩])] } }
       PacketIn s 3 (packet 3 0 0 0 (zeros 64)) ∧
         (SMap.get [] s.lacing.tags (tagKey 0 5)).find? (fun g => g.tag == 0 && g.retired.isNone && g.epoch == 0) = some ⟨0, 1, 1, 0, 1, 0, 0, none⟩ ∧
         (dieOf s 0).image = some movImg ∧ 0 + operLines 0 = 1 ∧ (writePan (panEnt movImg 1) 0 (zeros 64) (dieOf s 0)).isOk = true)) ∧
    ((partnerOf (inState {} putStaged) 5).heldCommits = [] ∧ (partnerOf (inState {} putStaged) 5).applied = [] ∧
      (partnerOf (inState { applied := [9] } []) 5).applied.contains 9 = true ∧ stagingOf (inState {} []) 5 9 = none ∧
      (partnerOf (inState { epochGone := [9] } []) 5).epochGone.contains 9 = true ∧ (partnerOf (inState {} []) 5).epochGone.contains 9 = false ∧
      (stagingOf (inState {} putStaged) 5 9).map (·.entries) = some [(1, packet 1 0 0 0 (zeros 64))] ∧ bits (1 : BitVec 64).toNat 0 32 = 1) ∧
    ((partnerOf (inState { cmds := [laceCmd (some 10)] } []) 5).cmds.find? (fun c => c.cmd == 9 && c.committed.isSome) = some (laceCmd (some 10)) ∧
      (partnerOf (inState { cmds := [laceCmd none] } []) 5).cmds.find? (·.cmd == 9) = some (laceCmd none) ∧
      (stagingOf (inState {} putStaged) 5 9).isSome = true ∧ ∀ e st, Killable (inState e st) 0 3) := by
  refine ⟨⟨fun ty _ oper => in_of {} [] ty 0 0 oper (zeros 64) ⟨rfl, rfl⟩, by decide +kernel, by decide +kernel, by decide +kernel,
    by decide +kernel⟩, by decide +kernel, ⟨by decide +kernel, ?_⟩, ⟨rfl, rfl, by decide, by decide, by decide, by decide, rfl, by decide⟩, by decide +kernel,
    by decide +kernel, rfl, fun e st => ⟨rfl, { job with gang := 2, dies := [0, 1] }, rfl, rfl, rfl, by decide⟩⟩
  exact ⟨⟨by decide, rfl, rfl, rfl, rfl, rfl, rfl, { key := zeros 32, tenant := [], ctx := 1 }, rfl, by decide, rfl⟩, rfl, rfl, rfl, by decide +kernel⟩

/-- A state of partner 5 at a later time. -/
def timed (now : BitVec 64) (e : Partner) (st : SMap Staging) : State := { inState e st with time := now }

theorem witness_LaceTimersAct :
    (∀ now e st, LaceKeyed (timed now e st) 5) ∧
    (let z := laceCmd none
     let s := timed 10000000 { cmds := [z] } []
     (partnerOf s 5).cmds = [z] ∧ z.committed = none ∧ z.packets ≠ 0 ∧ 100000 * objNat s 0x5000 3 100 ≤ 4 * (s.time - z.renewAt).toNat) ∧
    (let z := laceCmd (some 10)
     let s := timed 20000000 { cmds := [z] } []
     (partnerOf s 5).cmds = [z] ∧ z.epoch = s.lacing.memb.epoch ∧ 1000000 ≤ (s.time - z.repeatAt).toNat ∧ 100000 * objNat s 0x5000 3 100 ≤ (s.time - 10).toNat) ∧
    (let st : SMap Staging := [(stageAt 5 9, { lease := 0 })]
     stagingOf (timed 5 {} st) 5 9 = some { lease := 0 } ∧ (5 : BitVec 64).toNat < 100000 * objNat (timed 5 {} st) 0x5000 3 100 ∧
       100000 * objNat (timed 5 {} st) 0x5000 3 100 ≤ (20000000 : BitVec 64).toNat) ∧
    ((partnerOf (timed 5 { ackDue := some 3 } []) 5).ackDue.isSome = true) ∧
    (let s := timed 20000000 { lstate := 1, downSince := some 7 } []
     (partnerOf s 5).valid = true ∧ (partnerOf s 5).lstate ≠ 2 ∧ (partnerOf s 5).downSince = some 7 ∧
       100000 * objNat s 0x5000 6 10 ≤ (s.time - 7).toNat ∧ upEyes s (partnerOf s 5) = []) ∧
    (let s := { timed 20000000 {} [] with lacing := { (inState {} []).lacing with tags := [(tagKey 0 5, [⟨0, 1, 1, 0, 1, 0, 0, some 9⟩])] } }
     (SMap.get [] s.lacing.tags (tagKey 0 5)).find? (·.tag == 0) = some ⟨0, 1, 1, 0, 1, 0, 0, some 9⟩ ∧ 1000000 ≤ (s.time - 9).toNat) :=
  ⟨fun now e st => ⟨{ key := zeros 32, tenant := [], ctx := 1 }, rfl, by decide⟩, by decide +kernel, by decide +kernel, by decide +kernel,
   by decide +kernel, by decide +kernel, by decide +kernel⟩

/-- Member 4 of the voters 4, 5 and 6. -/
def membState (m : Membership) (e : Partner) : State := { laceState with
  lacing := { memb := { m with pkgId := 4, voters := [4, 5, 6] }, partners := [(5, { e with valid := true })] }
  sec := { membKey := some (zeros 32) }, time := 20000000 }

/-- A membership packet of package 5 with an epoch. -/
def membPacket (ty : Nat) (epoch : BitVec 64) : Packet :=
  let k : Packet := ⟨4, 5, true, true, 0, 0, 0, 0, 0, 0, epoch, [], []⟩
  { k with mac := Config.packetMac (zeros 32) (packetBytes ty k) }

theorem memb_in (m : Membership) (e : Partner) (h : m.mstate = .member ∧ m.membNonce = 0) (ty : Nat) (epoch : BitVec 64) :
    MembIn (membState m e) ty (membPacket ty epoch) := by
  refine ⟨?_, rfl, rfl, ?_, zeros 32, rfl, rfl⟩
  · have on : membershipOn (membState m e) = true := rfl
    have st : (membState m e).lacing.memb.mstate = .member := h.1
    simp only [membershipActs, on, st]
    decide
  · have n : (membState m e).lacing.memb.membNonce = 0 := h.2
    rw [n]
    decide

theorem witness_MembershipFollowsItsQuorum :
    (membershipActs (membState { mstate := .member } {}) = true ∧ (membState { mstate := .member } {}).lacing.memb.helloSent = none) ∧
    (∀ ty epoch, MembIn (membState { mstate := .member } {}) ty (membPacket ty epoch)) ∧
    (let s := membState { mstate := .member } { helloAt := some 0 }
     (partnerOf s 5).helloAt = some 0 ∧ 500000 ≤ (s.time - 0).toNat) ∧
    ((membState { mstate := .member } {}).lacing.memb.voters.contains 4 = true ∧ (0 : BitVec 32).toNat < (membEpoch (membPacket 0x21 3)).toNat) ∧
    (let m : Membership := { mstate := .member, proposal := some (3, [4, 5]) }
     MembIn (membState m {}) 0x22 (membPacket 0x22 3) ∧ (membState m {}).lacing.memb.proposal = some (membEpoch (membPacket 0x22 3), [4, 5]) ∧
       (membState m {}).lacing.memb.accepts.contains 5 = false ∧ isQuorum [4, 5, 6] ([] ++ [5]) = false ∧ isQuorum [4, 5, 6] ([4] ++ [5]) = true) ∧
    (let s := membState { mstate := .member } {}
     (noteQuorum s).lacing.memb.lastQuorum = none ∧ isQuorum s.lacing.memb.voters (votersReached s) = false) :=
  ⟨by decide, fun ty epoch => memb_in _ _ ⟨rfl, rfl⟩ ty epoch, by decide, by decide,
   ⟨memb_in _ _ ⟨rfl, rfl⟩ 0x22 3, by decide, by decide, by decide, by decide⟩, by decide⟩

/-! ## Witnesses: the host port -/

theorem witness_HostLinksAndResets :
    (portOf base .portA).up = false ∧ endpointA base = true ∧ endpointA { base with host := { portA := { root := true } } } = false ∧
    (let s := { base with host := { portA := { up := true }, portB := { root := true }, queues := [(7, { state := .run })] } }
     (portOf s .portA).up = true ∧ (portOf s .portB).root = true ∧ (portOf s .portA).root = false ∧ endpointA s = true ∧ (queueOf s 7).state = .run) ∧
    base.cluster.wires.getLsbD 6 = false ∧
    (let s := { base with cluster := { wires := 64, aplic := ByteMap.write (ByteMap.write [] 0 (leBytes 4 256)) (4 * 6) (leBytes 4 6) } }
     s.cluster.wires.getLsbD 6 = true ∧ sourceMode s 6 = 6 ∧ sourceDomain s 6 = 0 ∧ bits (aplicReg s 0 0) 8 1 = 1) := by decide +kernel

/-- Queue 7 in RUN whose ring starts with a record: its header and body, of which the dwords named have landed, and a doorbell. -/
def pailQueue (landed bytes : Nat) : IngestQueue :=
  { enable := true, jobEn := true, context := 1, ringBase := 0x4000, winBase := 65544, winGranules := 1, state := .run, hcqLog2 := 4,
    landed := List.range landed, bytes := BitVec.ofNat 40 bytes }
def pailState (x : IngestQueue) (ty flags len : Nat) (body : List Byte) : State := { withMem base with
  grans := [(0, { state := .hbm }), (8, { state := .hbm })], host := { queues := [(7, x)] }, time := 100000000
  ctxs := [(1, { ctx1 with state := .active, sqBase := 0x100080, sqTail := 0 })]
  mem := ByteMap.write (ByteMap.write [] (2 ^ 32) (leBytes 16 (ty + 256 * flags + 2 ^ 32 * len))) (2 ^ 32 + 16) body }

/-- n bytes within one line of the first granule or of the one with the window. -/
theorem plain_of {s : State} {a n l : Nat} (line : a / 64 = l ∧ (a + n - 1) / 64 = l) (h : inUnified s a n = true ∧
    Settled s (granuleOf (64 * l)) ∧ keyOf s (granuleOf (64 * l)) = some (storedKey s l) ∧ busyOf s l = none ∧
    l3Line s 0 l = none ∧ l3Line s 1 l = none) : PlainBytes s a n := by
  refine ⟨h.1, fun m h1 h2 => ?_⟩
  have e : m = l := by omega
  subst e
  exact h.2

theorem witness_IngestQueuesTakeStreams :
    (endpointA (pailState (pailQueue 0 0) 0 0 0 []) = true ∧ (0x700000 : BitVec 28).toNat / 0x100000 = 7 ∧
      (queueOf (pailState (pailQueue 0 0) 0 0 0 []) 7).state = .run ∧
      (queueOf (pailState (pailQueue 0 0) 0 0 0 []) 7).curSeq.toNat % 4 = (0x700000 : BitVec 28).toNat / 0x40000 % 4 ∧
      (queueOf (pailState (pailQueue 0 0) 0 0 0 []) 7).landed.contains 0 = false ∧ (queueOf (pailState (pailQueue 4 0) 0 0 0 []) 7).landed.contains 0 = true ∧
      (queueOf (pailState { pailQueue 0 0 with state := .discard } 0 0 0 []) 7).state ≠ .run) ∧
    PlainBytes (pailState (pailQueue 0 0) 0 0 0 []) (0x4000 * 2 ^ 18 + 4 * 0) 4 ∧
    ((16 : BitVec 40).toNat % 16 = 0 ∧ arrived { pailQueue 4 0 with bytes := 16 } 16 = true ∧ arrived { pailQueue 0 0 with bytes := 16 } 16 = false ∧
      headFault { pailQueue 4 0 with bytes := 16 } (headOf (pailState (pailQueue 4 0) 3 0 0 []) 7) = none ∧
      headFault { pailQueue 4 0 with bytes := 16 } (headOf (pailState (pailQueue 4 0) 0 0 0 []) 7) = some 3) ∧
    ((queueOf (pailState (pailQueue 0 0) 0 0 0 []) 7).curSeq + 1 = 1 ∧ idleDue (pailState (pailQueue 0 0) 0 0 0 []) 7 = false ∧
      idleDue (pailState (pailQueue 4 32) 1 0 16 []) 7 = true) :=
  ⟨by decide +kernel, plain_of (l := 0x4000000) (by decide) (by decide +kernel), by decide +kernel, by decide +kernel⟩

/-- A RETURN of no bytes that waits, for job 9 when it is AFTER_JOB. -/
def waiting (job : Option (BitVec 64)) : WaitRet := ⟨0, 0, 0, 0, job, none⟩

theorem witness_IngestRecordsAct :
    (∀ ty ∈ [1, 2, 3, 4], atRecord (pailState (pailQueue 0 0) 0 0 0 []) 7 ty = false) ∧
    (atRecord (pailState (pailQueue 8 32) 1 0 16 [5]) 7 1 = true ∧ PlainBytes (pailState (pailQueue 8 32) 1 0 16 [5]) (65544 * granBytes + 0) 16) ∧
    (atRecord (pailState (pailQueue 20 80) 2 0 64 [5]) 7 2 = true ∧ ringOpen (ctxOf (pailState (pailQueue 20 80) 2 0 64 [5]) 1) = true ∧
      PlainBytes (pailState (pailQueue 20 80) 2 0 64 [5]) (0x100080 * 4096 + 64 * 0) 64 ∧ ringOpen ({} : Context) = false) ∧
    atRecord (pailState (pailQueue 4 16) 3 0 0 []) 7 3 = true ∧
    (∀ body ∈ [([] : List Byte), [1], zeros 16 ++ [0, 0, 128]], atRecord (pailState (pailQueue 12 48) 4 0 32 body) 7 4 = true) ∧
    (∀ jobs ∈ [([] : List (BitVec 64 × Nat × Option (BitVec 8))), [(0, 5, none)], [(0, 5, some 1)]],
      atRecord (pailState { pailQueue 12 48 with jobs := jobs } 4 1 32 []) 7 4 = true) ∧
    (windowLen (pailQueue 12 48) = 65536 ∧ hcqFull (pailQueue 12 48) = false ∧ hcqFull { pailQueue 12 48 with hcqHead := 1 } = true) ∧
    ((pailQueue 0 0).waiting = none ∧ hostJob { pailQueue 0 0 with jobs := [(9, 5, none)] } 9 = some none ∧
      hostJob { pailQueue 0 0 with jobs := [(9, 5, some 0)] } 9 = some (some 0) ∧ (waiting (some 9)).afterJob = some 9 ∧
      (waiting none).afterJob = none ∧ hcqFull { pailQueue 0 0 with hcqHead := 0 } = false) :=
  ⟨by decide +kernel, ⟨by decide +kernel, plain_of (l := 0x4000000 + 8 * 1024) (by decide) (by decide +kernel)⟩,
   ⟨by decide +kernel, by decide +kernel, plain_of (l := 0x4000000 + 8 * 1024) (by decide) (by decide +kernel), by decide⟩,
   by decide +kernel, by decide +kernel, by decide +kernel, by decide +kernel, by decide +kernel⟩

/-! ## Witnesses: the dictionary -/

/-- Session 5 of field source 7 at level 3, with one subscription, and a request frame in it under its key. -/
def session : Session := ⟨0, 7, 3, zeros 32, 0, 0, 0, 0, [⟨3, 1000000, 50, []⟩]⟩
def dictState : State := { base with dict := { sessions := [(5, session)] } }
def frameIn (op : Nat) (payload : List Byte) : List Byte := sealFrame (some (zeros 32)) (frameBody op 0 0 5 1 payload)

/-- Reads, writes, many reads, subscriptions and a close: an object that may be written is 0x2000:04, one that may not 0x1000:01. -/
def requests : List (Nat × List Byte) := [(1, [0, 0x20, 4, 0, 0, 0, 0, 0]), (2, [0, 0x20, 4, 1, 1, 0, 0, 0, 80]),
  (3, [1, 0, 0, 0, 0, 0x20, 4, 0]), (4, [10, 0, 0, 0, 0, 1, 0, 0, 0, 0x20, 4, 0]), (6, [])]

theorem frames_in_session : ∀ r ∈ requests, reqOp (frameIn r.1 r.2) = r.1 ∧ reqForm (frameIn r.1 r.2) = true ∧
    sessionOf dictState (.field 7) (reqSess (frameIn r.1 r.2)) = some session ∧ passes session (frameIn r.1 r.2) = true := by decide +kernel

theorem witness_DictionaryRequestsAnswer :
    (∀ r ∈ requests, InSession dictState (.field 7) (frameIn r.1 r.2) r.1 session) ∧
    (∀ r ∈ requests, reqPayload (frameIn r.1 r.2) = r.2) ∧
    (∃ v, readObject dictState 3 0 0x2000 4 = (0, 1, v) ∧ 0 ≤ v.length) ∧
    (checkWrite dictState 3 0x2000 4 1 [80] = 0 ∧ (objRow 0x2000 4).map (·.acc) = some .rwp ∧ storeUp dictState = true ∧
      (actionObject ⟨0, 5, 3⟩ 0x2000 4 [80]).isNone = true ∧ checkWrite dictState 3 0x1000 1 2 [0, 0] ≠ 0) ∧
    (session.subs.length < 4 ∧ ∃ y ∈ session.subs, y.id.toNat = fieldAt [0, 0, 0, 0, 3, 0, 0, 0] 4 1) ∧
    (let s := { dictState with su := { dictState.su with dairyman := false } }
     anyoneServes s = true ∧ cowbellServes s = true ∧ cowbellObjects.contains (0x2000, 4) = false) :=
  ⟨fun r h => ⟨by decide, by decide, (frames_in_session r h).1, (frames_in_session r h).2.1, (frames_in_session r h).2.2.1,
    (frames_in_session r h).2.2.2⟩, by decide +kernel, ⟨[95], by decide +kernel, by decide⟩, by decide +kernel, by decide +kernel, by decide +kernel⟩

/-- A SESSION_OPEN at level 2 on the mirror mailbox, whose factory credential is zeros. -/
def openFrame : List Byte := sealFrame none (frameBody 5 0 0 0 1 ([2] ++ zeros 19))

theorem witness_DictionarySessions :
    (anyoneServes dictState = true ∧ cowbellServes dictState = false ∧ reqOp openFrame = 5 ∧ reqForm openFrame = true ∧ reqMac openFrame = zeros 16 ∧
      reqSess openFrame = 0 ∧ (reqPayload openFrame).length = 20 ∧ fieldAt (reqPayload openFrame) 1 3 = 0 ∧ fieldAt (reqPayload openFrame) 0 1 = 2) ∧
    (lockedOut dictState .mirror = false ∧ credentialOf dictState .mirror 2 ≠ [] ∧ sessionsOn dictState .mirror < sessionLimit .mirror) ∧
    lockedOut { dictState with dict := { lockout := [(2, 500)] } } .mirror = true ∧
    (∀ op ∈ [1, 2, 3, 4, 6], reqOp (frameBody op 0 0 6 1 []) = op ∧ sessionOf dictState (.field 7) (reqSess (frameBody op 0 0 6 1 [])) = none) ∧
    (let s := { dictState with dict := { drops := [(srcKey (.field 7), List.replicate 15 90)] } }
     15 ≤ ((SMap.get [] s.dict.drops (srcKey (.field 7))).filter fun t => since s t < 6000000000).length) ∧
    (∀ op ∈ [1, 2, 3, 4, 5, 6],
      let s := { dictState with dict := { mbox0 := { request := ByteMap.write [] 0 [1, BitVec.ofNat 8 op] } } }
      s.dict.mbox0.state ≠ 1 ∧ s.host.portA.root = false ∧
        reqOp (ByteMap.read s.dict.mbox0.request 0 (min 2048 (32 + ByteMap.num s.dict.mbox0.request 12 2))) = op) ∧
    (sessionOf dictState (.field 7) 5 = some session ∧ since dictState session.validAt < 6000000000 ∧
      6000000000 ≤ since { dictState with time := 6000000000 } session.validAt) ∧
    (session.subs.find? (fun y => y.id.toNat = 3) = some ⟨3, 1000000, 50, []⟩ ∧ (50 : BitVec 64).toNat ≤ dictState.time.toNat ∧
      { dictState with time := 10 }.time.toNat < (50 : BitVec 64).toNat) := by decide +kernel

/-- A state in which each of the objects written has something to act on. -/
def writeState (status : BitVec 8) : State := { dictState with
  nv := { failedDies := 2, retiredVats := [(0, 1)] }, sec := { tenancy := 1 }, upd := { target := 1, status := status }
  dict := { sessions := [(5, session)], values := [(objKey 0x1040 1, [1])] } }

theorem witness_ObjectWritesAndRepairTunnel_writes :
    (∀ n ∈ [0, 3], anyoneServes (writeState (BitVec.ofNat 8 n)) = true ∧ cowbellServes (writeState (BitVec.ofNat 8 n)) = false ∧
      storeUp (writeState (BitVec.ofNat 8 n)) = true ∧ sessionOf (writeState (BitVec.ofNat 8 n)) (.field 7) 5 = some session) ∧
    (∀ w ∈ ([(0x4002, 1, 1, [1]), (0x4002, 2, 2, [0, 0]), (0x3303, 1, 1, [4]), (0x1020, 1, 1, [0]), (0x7000, 1, 9, zeros 8), (0x6000, 3, 1, [1]),
        (0x6000, 5, 1, [1]), (0x1040, 3, 1, [1])] : List (Nat × Nat × Nat × List Byte)), checkWrite (writeState 0) 3 w.1 w.2.1 w.2.2.1 w.2.2.2 = 0) ∧
    (∀ w ∈ ([(0x1040, 2, 8, [7]), (0x1040, 3, 1, [2]), (0x1040, 3, 1, [3])] : List (Nat × Nat × Nat × List Byte)),
      checkWrite (writeState 3) 3 w.1 w.2.1 w.2.2.1 w.2.2.2 = 0) ∧
    (checkWrite (writeState 0) 3 0x1040 2 8 [7] ≠ 0 ∧ checkWrite (writeState 0) 0 0x4002 1 1 [1] ≠ 0 ∧ resettable (writeState 0) = true) := by
  decide +kernel

theorem witness_ObjectWritesAndRepairTunnel_tunnel :
    (∀ n ∈ [1, 2, 3], checkWrite dictState 3 0xF030 2 1 [BitVec.ofNat 8 n] = 0) ∧ storeUp dictState = true ∧ dictState.su.phase ≠ .held ∧
    (let s := { dictState with su := { dictState.su with phase := .held } }
     anyoneServes s = true ∧ cowbellServes s = false ∧ sessionOf s (.field 7) 5 = some session ∧ checkWrite s 3 0xF030 2 1 [1] = 0) := by decide +kernel

/-! ## Witnesses: attestation and keys -/

/-- The field responder has an open session 0 and secured sessions 1 to 3, that of number 1 by tenant T. -/
def tenantT : List Byte := zeros 48
def spdmState (mode : BitVec 8) (sole owner : List Byte) : State := { base with
  sec := { mode := mode, spdm := [(4, ⟨false, none, 0⟩), (5, ⟨true, some tenantT, 0⟩), (6, ⟨true, none, 0⟩)] }
  dict := { values := SMap.put [(objKey 0x6000 2, sole)] (objKey 0x6000 11) owner } }

theorem witness_SpdmRespondersAnswer :
    (∀ r ∈ [SpdmPort.doe, .field], responderUp base r = true) ∧ responderUp State.reset .doe = false ∧
    (∀ n, n < 4 → (∀ m, m < n → (SMap.find [((4 : Nat), ())] (4 + m)).isSome) → n ≤ 1) ∧
    (let s := spdmState 0 [] []
     (∀ m, m < 3 → (SMap.find s.sec.spdm (4 * responder .field + m)).isSome) ∧ SMap.find s.sec.spdm (4 * responder .field + 3) = none ∧
     spdmOf s .field 0 = some ⟨false, none, 0⟩ ∧ spdmOf s .field 1 = some ⟨true, some tenantT, 0⟩ ∧ spdmOf s .field 3 = none) ∧
    (let s := { base with sec := { spdm := (List.range 4).map fun n => (4 + n, ⟨true, none, 0⟩) } }
     ∀ n, n < 4 → (SMap.find s.sec.spdm (4 * responder .field + n)).isSome) ∧
    ∀ r : SpdmPort, 0 ≤ (chainOf r base).length := by
  refine ⟨by decide, by decide, ?_, by decide, by decide, fun _ => Nat.zero_le _⟩
  intro n h w
  by_cases k : n ≤ 1
  · exact k
  · exact absurd (w 1 (by omega)) (by decide)

/-- A delivery in session 1 of the field port. -/
def delivery (slot : BitVec 16) : KeyReq := { port := .field, sess := 1, slot := slot, ctx := 0, key := zeros 64, reserved := false }

theorem witness_KeysAreDelivered :
    (let s := spdmState 0 [] []
     spdmOf s .field 1 = some ⟨true, some tenantT, 0⟩ ∧ keyCheck .memSet (delivery 9) ⟨true, some tenantT, 0⟩ s = 0 ∧ s.sec.mode = 0 ∧
       soleTenant s = [] ∧ keyCheck .laceSet (delivery 9) ⟨true, some tenantT, 0⟩ s ≠ 0) ∧
    (let s := spdmState 0 tenantT tenantT
     spdmOf s .field 1 = some ⟨true, some tenantT, 0⟩ ∧ resettable s = true ∧
     (∀ o ∈ [KeyOp.memSet, .memDestroy, .laceSet, .laceDestroy], keyCheck o (delivery 9) ⟨true, some tenantT, 0⟩ s = 0) ∧
     (∀ o ∈ [KeyOp.endTenancy, .membSet], keyCheck o (delivery 0) ⟨true, some tenantT, 0⟩ s = 0) ∧
     (∀ o ∈ [KeyOp.memSet, .laceSet, .membSet], isSet o = true) ∧
     (∀ o ∈ [KeyOp.memSet, .memDestroy, .laceSet, .laceDestroy, .endTenancy, .membSet], keyCheck o (delivery 9) ⟨true, none, 0⟩ s ≠ 0)) ∧
    (let s := { base with su := { base.su with phase := .running, pkgResetLow := true } }
     s.su.phase ≠ .dark ∧ s.sec.debug = false ∧ TestInstr.riscvDebug ≠ .bypass) := by decide +kernel

/-! ## Witnesses: discovery, start-up, resets, power loss -/

/-- A frame whose first bytes are given, with its CRC. -/
def portFrame (first : List Byte) : List Byte :=
  let b := fit 60 first
  b ++ leBytes 4 (crc32c b).toNat

/-- A whole compute die of level 1, link version 1. -/
def wholeDie : IdFrame := ⟨1, 1, 1, 1, 1, 0, 0x3FF01FFFF, 0⟩

/-- A Skim package in a phase, 5 s after its step began; the given ports have delivered frames. -/
def starting (phase : SuPhase) (ports : List Nat) : State := { State.reset with
  variant := .skim, time := 500000000
  disc := { opened := some 0, frames := ports.map fun p => (p, wholeDie) }
  su := { State.reset.su with phase := phase, dairyman := true } }

/-- The same, ready to configure or to ramp with the sites given in service. -/
def inService (phase : SuPhase) (sites : List Nat) : State :=
  let s := each sites (fun p s => setSite p 1 0 s) (starting phase [])
  { s with disc := { s.disc with sentAt := sites.map fun p => (p, 0), config := [(0, ⟨0, 0, 0, 0⟩)] } }

theorem witness_DiscoveryAndSoftStarts_frames :
    (let s := starting .discovery [0, 1, 2, 3, 10]
     s.su.phase = .discovery ∧ dairymanUp s = true ∧ isFitted s 8 = true ∧ frameGood 1 (portFrame [1, 1, 1]) = true ∧ frameGood 1 [] = false ∧
       isFitted s 9 = false ∧ (SMap.find s.disc.config 8).isNone = true) ∧
    allFrames { starting .discovery [0, 1, 2, 3, 10] with disc := { (starting .discovery [0, 1, 2, 3, 10]).disc with
      frames := SMap.put (starting .discovery [0, 1, 2, 3, 10]).disc.frames 8 (parseIdentity (portFrame [1, 1, 1, 1, 1, 0, 1])) } } = true ∧
    allFrames { starting .discovery [0] with disc := { (starting .discovery [0]).disc with
      frames := SMap.put (starting .discovery [0]).disc.frames 8 (parseIdentity (portFrame [1, 1, 1, 1, 1, 0, 1])) } } = false ∧
    (let u := { starting .discovery [0, 1, 2, 3, 10] with disc := { (starting .discovery [0, 1, 2, 3, 10]).disc with
       frames := SMap.put (starting .discovery [0, 1, 2, 3, 10]).disc.frames 8 (parseIdentity (portFrame [1, 1, 1, 1, 1, 0, 1])) } }
     ioBlMask u ≠ 0 ∧ pinNow u = 0 ∧ configured (writeMap u) ≠ []) := by decide +kernel

theorem witness_DiscoveryAndSoftStarts_window :
    (let s := starting .discovery [0]
     s.disc.opened = some 0 ∧ 4000000 ≤ since s 0 ∧ SMap.find s.disc.frames 10 = none) ∧
    ioBlMask { starting .discovery [10] with disc := { (starting .discovery [10]).disc with frames := [(10, { wholeDie with blMask := 0 })] } } = 0 ∧
    (let s := { starting .discovery [10] with dict := { values := [(objKey 0x1020 1, [2])] } }
     ioBlMask s ≠ 0 ∧ pinNow s ≠ 0 ∧ (ioBlMask s).testBit (pinNow s - 1) = false) ∧
    (let s := starting .discovery [0, 10]
     ioBlMask s ≠ 0 ∧ pinNow s = 0 ∧ configured (writeMap s) ≠ []) := by decide +kernel

theorem witness_DiscoveryAndSoftStarts_config :
    frameGood 2 (portFrame [2]) = true ∧ frameGood 3 (portFrame [3]) = true ∧
    (let s := inService .config [0, 8]
     s.su.phase = .config ∧ s.disc.sentAt ≠ [] ∧ (SMap.find s.disc.sentAt 0).isSome = true ∧ dairymanUp s = true ∧ s.disc.acked.contains 0 = false ∧
     siteUp s 0 = true ∧ (SMap.find s.disc.config 0).isSome = true ∧ 500000 ≤ since s 0 ∧ since { s with time := 0 } 0 < 500000 ∧
     (∃ q ∈ s.disc.sentAt, q.1 ≠ 0 ∧ s.disc.acked.contains q.1 = false ∧ siteUp s q.1 = true)) ∧
    ¬ ∃ q ∈ (inService .config [0]).disc.sentAt, q.1 ≠ 0 := by decide +kernel

theorem witness_DiscoveryAndSoftStarts_rails :
    (let s := inService .softStart [0, 8]
     s.su.phase = .softStart ∧ railWanted s (.memory 0) = true ∧ railGood s (.memory 0) = false ∧ (lineOf s (railKey (.memory 0))).retryAt = none ∧
       railBefore (.memory 0) = [] ∧ (lineOf s (railKey (.memory 0))).attempts + 1 < 3 ∧
       ∃ i, ∃ b ∈ railsOf i, i < 10 ∧ siteUp s i = true ∧ railWanted s b = true ∧ railGood s b = false ∧ b ≠ .memory 0) ∧
    (let s := updLine (railKey (.memory 0)) (fun l => { l with attempts := 2, retryAt := none }) (inService .softStart [0, 8])
     railWanted s (.memory 0) = true ∧ railGood s (.memory 0) = false ∧ 3 ≤ (lineOf s (railKey (.memory 0))).attempts + 1) ∧
    (let s := updLine (railKey (.memory 0)) (fun l => { l with retryAt := some 7 }) (inService .softStart [0, 8])
     (lineOf s (railKey (.memory 0))).retryAt = some 7 ∧ (RailId.memory 0) ∈ railsOf 0) :=
  ⟨⟨by decide +kernel, by decide +kernel, by decide +kernel, by decide +kernel, rfl, by decide +kernel,
    ⟨8, .memory 8, by decide, by decide, by decide +kernel, by decide +kernel, by decide +kernel, by decide⟩⟩,
   by decide +kernel, by decide +kernel⟩

/-- A board with one module and no fault. -/
def board : Board := State.reset.su.board

theorem witness_StartsAndResets :
    (board.baseShort = false ∧ { board with baseShort := true }.baseShort = true) ∧
    (dairyAccepted base base.nv.dairyA = true ∧
      (let s := { base with nv := { base.nv with dairyA := ⟨false, 1, true, []⟩, dairyB := ⟨false, 1, true, []⟩ } }
       dairyAccepted s s.nv.dairyA = false ∧ dairyAccepted s s.nv.dairyB = false)) ∧
    (resettable base = true ∧ base.su.phase = .running ∧ base.su.pkgResetLow = false) ∧
    (∀ p ∈ [SuPhase.dark, .shed, .tripped, .step2], resettable { base with su := { base.su with phase := p } } = false) ∧
    (starting .step2 []).su.phase = .step2 ∧
    (let s := starting .held []
     s.su.phase = .held ∧ s.su.heldByRecord = false ∧ dairymanUp s = true ∧ moduleIn s 0 = none ∧ s.su.board.slowStep = 0 ∧
       { s.su.board with slowStep := 6 }.slowStep = 6) ∧
    (∀ p ∈ [SuPhase.discovery, .config, .softStart], (stepBound p).isSome = true) ∧ stepBound .softStart = some (5, 25000000) ∧
    (25000000 + 100000000 < since (starting .softStart []) (starting .softStart []).su.stepStart ∧ since { starting .softStart [] with time := 0 } 0 ≤ 25000000) ∧
    (let s := { starting .zeroFill [] with sec := { fillStart := some 5 } }
     s.su.phase = .zeroFill ∧ s.sec.fillStart = some 5) := by decide +kernel

theorem witness_SupervisorsAndPower :
    (watched base = true ∧ base.su.restarts.toNat < 2 ∧ base.ev.cowbell.length < 64 ∧ 3000000 ≤ since { base with time := 3000000 } base.su.heartbeat ∧
      since base base.su.heartbeat < 3000000 ∧ jobOf base 3 = some job ∧ placed job = true) ∧
    (let s := { base with power := { rails := [(0, { state := .on, setpoint := 800 })] } }
     (railOf s 0).state = .on ∧ min 550 (railOf s 0).setpoint.toNat = 550) ∧
    (let s := { base with su := { base.su with down := true, restarting := true } }
     s.su.down = true ∧ s.su.restarting = true ∧ s.su.dairyman = true ∧ dairyAccepted s s.nv.dairyA = true ∧
       since s s.su.failedAt ≤ 40000000 ∧ 40000000 < since { s with time := 40000001 } s.su.failedAt) ∧
    (base.su.phase ≠ .dark ∧ base.su.phase ≠ .shed ∧ base.su.phase ≠ .tripped) ∧
    ((hottest [40, 116]).2 < 115 ∧ 115 ≤ (hottest [110, 116]).2) ∧
    (let s := { base with su := { base.su with phase := .shed } }
     s.su.phase = .shed) ∧
    (let s := { base with upd := { status := 1 } }
     s.upd.status = 1 ∧ dairymanUp s = true) := by decide +kernel

/-! ## Witnesses: accesses and registers -/

/-- Hart 0 is started, granule 1 lies in a stack and granule 2 is UNPLACED; with quotas of context 0. -/
def reachState (quotas : SMap Quota) : State := { sepState 3 1 0 inHbm with
  map := { (withMem base).map with cores := [(0, 1)], sites := SMap.put (withMem base).map.sites 8 { state := 1 } }
  cluster := { harts := [(0, { state := .started })] }, quotas := quotas }

theorem witness_UnifiedAccesses_memory :
    (agentThere (reachState []) .io = true ∧ agentThere (reachState []) (.hart 0) = true ∧ agentThere (reachState []) (.hart 5) = false) ∧
    (inUnified (reachState []) (2 ^ 32 + 65536) 8 = true ∧ (2 ^ 32 + 65536) % 65536 + 8 ≤ 65536 ∧
      accessLen (.load 8) = 8 ∧ accessLen (.store (zeros 8)) = 8) ∧
    PlainBytes (reachState []) (2 ^ 32 + 65536) 8 ∧ (SMap.find (reachState []).filling (granuleOf (2 ^ 32 + 65536)) = none ∧
      SMap.find (reachState []).moves (granuleOf (2 ^ 32 + 65536)) = none ∧ deviceFits (2 ^ 32 + 65536) 8 = true ∧
      homeOf (reachState []) (2 ^ 32 + 65536) < 10 ∧ dairymanUp (reachState []) = true ∧ deviceFits (2 ^ 32 + 65537) 8 = false ∧
      (2 ^ 32 + 65536) % 8 = 0) ∧
    (∀ l, (2 ^ 32 + 65536) / 64 ≤ l → l ≤ (2 ^ 32 + 65536 + 8 - 1) / 64 → poisoned (reachState []) l = false) ∧
    (storageOf (reachState []) (granuleOf (2 ^ 32 + 65536))).isSome = true ∧
    (inUnified (reachState []) (2 ^ 32 + 65537) (accessLen (.amo ⟨.add, true, 0, 0⟩)) = true ∧ (2 ^ 32 + 65537) % 8 ≠ 0 ∧
      l3HasRoom (reachState []) 8 (2 ^ 26 + 1024) (accessAsker (reachState []) { who := .hart 0, addr := 2 ^ 32 + 65536, kind := .load 8 } 0) = true) := by
  refine ⟨by decide +kernel, by decide +kernel, plain_of (l := 2 ^ 26 + 1024) (by decide) (by decide +kernel), by decide +kernel, fun l h1 h2 => ?_,
    by decide +kernel, by decide +kernel⟩
  have e : l = 2 ^ 26 + 1024 := by omega
  subst e
  decide +kernel

/-- Functions behind Port B: one under Bare translation, and one that the empty device directory does not know. -/
def funcState (ddtp : Nat) : State := { reachState [] with
  host := { (reachState []).host with portB := { root := true, up := true } }, iommu := { regs := ByteMap.write [] 0x10 (leBytes 8 ddtp) } }

theorem witness_UnifiedAccesses_functions :
    agentThere (funcState 1) (.func .portB 8) = true ∧ bits (ddtp (funcState 1)) 0 4 = 1 ∧
    inUnified (funcState 1) (2 ^ 32 + 65536) 8 = true ∧ (2 ^ 32 + 65536) % 4096 + 8 ≤ 4096 ∧
    (match translateFunc (functionId .portB 8) (2 ^ 32) false (funcState 0) with | (.fault 256 0, _) => true | _ => false) = true ∧
    agentThere (funcState 0) (.func .portB 8) = true := by decide +kernel

theorem witness_UnifiedAccesses_placing :
    (inUnified (reachState []) (2 ^ 32 + 131072) 8 = true ∧ granuleOf (2 ^ 32 + 131072) = 2 ∧ (granOf (reachState []) 2).state = .unplaced ∧
      SMap.find (reachState []).filling 2 = none ∧ SMap.find (reachState []).moves 2 = none) ∧
    (placeGranule 2 0 none (reachState [])).isOk = true ∧
    (match placeGranule 2 0 none (reachState [(0, { hbmQuota := 0, farQuota := 0 })]) with | .error .quota => true | _ => false) = true ∧
    (match placeGranule 2 0 none { reachState [(0, { hbmQuota := 0 })] with units := [(0, { mtype := 1 })] } with | .error .storage => true | _ => false) = true := by decide +kernel

theorem witness_UnifiedAccesses_devices :
    (inUnified (reachState []) 0x100000 8 = false ∧ ¬ bar0Base ≤ 2 ^ 40 * 8 ∧ inUnified (reachState []) (2 ^ 40 * 8) 8 = false) ∧
    (deviceFits 0x10003 4 = false ∧ deviceFits 0x10008 8 = true ∧ openCounter 0x10008 = false ∧ deviceFits 0x10040018 8 = true ∧ openCounter 0x10040018 = true) := by decide +kernel

theorem test_uncorrectable_load_traps :
    (match exec (.unifiedAccess { who := .io, addr := 2 ^ 32 + 65536, kind := .load 8, ecc := .uncorrectable }) (reachState []) with
     | .next t => t.resp == .trap 19 && t.dom.poison == [2 ^ 26 + 1024] | _ => false) = true := by decide +kernel

theorem witness_RegisterWrites :
    deviceFits 0x100021 8 = false ∧ (deviceFits 0x02000000 8 = true ∧ hartRuns (hartState .started) (0 : HartId).toNat = true) ∧
    ((ctxOf { base with ctxs := [(1, { ctx1 with state := .active })] } 1).state = .active ∧ (ctxOf base 2).state ≠ .active ∧ bits (0 : BitVec 64).toNat 2 1 = 0) ∧
    ((queueOf { base with host := { queues := [(7, { enable := true })] } } 7).enable = true ∧ (queueOf base 7).enable = false) ∧
    (endpointA { base with host := { base.host with portA := { base.host.portA with root := true } } } = false ∧
      endpointA (pailState (pailQueue 0 0) 0 0 0 []) = true) ∧
    ((partnerOf { base with lacing := { base.lacing with partners := [(9, { valid := true })] } } 9).valid = true ∧ (partnerOf base 9).valid = false) ∧
    ((partOf { base with parts := [(0, { enable := true })] } 0).enable = true ∧ (partOf base 0).enable = false) := by decide +kernel

/-! ## Witnesses: the machine -/

theorem witness_StepRunsTheFrontCommand : { base with pending := [.bundleIssue 0] }.pending = .bundleIssue 0 :: [] := rfl

theorem witness_EmptyQueueLetsOneTickPass :
    (base.pending = [] ∧ base.su.phase ≠ .dark ∧ base.iommu.waiting = [] ∧ base.dom.stops = [] ∧ State.reset.pending = [] ∧ State.reset.su.phase = .dark) ∧
    ∀ d, dieWaits (dieOf State.reset d) = false := ⟨by decide, fun _ => rfl⟩

theorem witness_MemoryKeepsItsForm : Safe.memory State.reset ∧ ∃ t, step State.reset = .next t := ⟨reset_memory_wf, _, rfl⟩

theorem witness_FusesNeverChange : ∃ t, step base = .next t := ⟨_, rfl⟩

/-! ## Witnesses: reads and writes of virtual memory -/

/-- Forty granules in a stack, used of late, under Bare translation. -/
def quietState (j : Job) (x : DieSt) (m : ByteMap) : State := { withMem base with
  grans := (List.range 40).map fun g => (g, { state := .hbm, ref := true }), mem := m
  map := { units := [(0, { seq := true })] }, dies := [(0, x)], jobs := [(3, j)], ctxs := [(1, { ctx1 with state := .active })] }

theorem quiet (j : Job) (x : DieSt) (m : ByteMap) (h : x.edge = []) : Quiet (quietState j x m) 40 := by
  have z : Quiet (quietState job {} []) 40 :=
    by constructor <;> decide +kernel
  refine ⟨z.bare, z.fits, z.grans, z.keys, z.home, ?_, z.still, z.unseen⟩
  intro p hp
  obtain rfl : p = (0, x) := by simpa [quietState] using hp
  exact h

theorem num_nil (a n : Nat) : ByteMap.num [] a n = 0 := by
  induction n generalizing a with
  | zero => rfl
  | succ n ih =>
    have e := ih (a + 1)
    unfold ByteMap.num at e ⊢
    rw [ByteMap.read_succ, leNat, e]
    rfl

theorem panEnt_nil {i : Image} (h : i.pans = []) (p : Nat) : panEnt i p = ⟨0, 0, false⟩ := by
  simp [panEnt, h, num_nil, bits]

/-- A job of one die whose save area lies at the bottom of unified memory. -/
def savingJob (stage : JobStage) (saves : List CmdStart) : Job := { job with stage := stage, saves := saves, desc := zeros 24 ++ leBytes 8 (2 ^ 32) ++ zeros 32 }
def startRec : CmdStart := ⟨0, 0, [], [], [], [], [], [], [], [], [], []⟩
def plainImg : Image := { img with pans := [] }
def savingDie : DieSt := { die with image := some plainImg, start := some startRec }

theorem no_persistent : persistentPans plainImg = [] := by
  unfold persistentPans
  rw [List.filterMap_eq_nil_iff]
  intro p h
  obtain ⟨i, -, rfl⟩ := List.mem_map.mp h
  rw [panEnt_nil (i := plainImg) rfl]
  rfl

theorem no_pans (x : DieSt) : panArea plainImg x = [] := by rw [panArea, no_persistent]; rfl

theorem length_le (n v : Nat) : (leBytes n v).length = n := by
  induction n generalizing v with
  | zero => rfl
  | succ n ih => rw [leBytes, List.length_cons, ih]

theorem length_flat {α β : Type} (l : List α) (f : α → List β) (k : Nat) (h : ∀ x, (f x).length = k) : (l.flatMap f).length = l.length * k := by
  induction l with
  | nil => simp
  | cons a l ih => rw [List.flatMap_cons, List.length_append, h, ih, List.length_cons, Nat.add_mul, Nat.one_mul, Nat.add_comm]

theorem length_churn (r : CmdStart) : (churnArea r).length = 0x42000 := by
  unfold churnArea
  refine (length_flat _ _ 0x10800 fun u => ?_).trans (by rw [List.length_range])
  rw [List.length_append, ByteMap.length_read, length_flat _ _ 256 fun m => length_le 256 _, List.length_range]

theorem quiet_write {z : State} (q : Quiet z 40) (f : Nat) (c va : Nat) (bs : List Byte) (hv : va = 2 ^ 32) (hl : bs.length ≤ 0x63000) :
    ∃ w, vwrite 0 c va bs { z with free := f } = (.ok [], w) ∧ w.jobs = z.jobs ∧ w.dies = z.dies := by
  have q' : Quiet { z with free := f } 40 := ⟨q.bare, q.fits, q.grans, q.keys, q.home, q.edges, q.still, q.unseen⟩
  obtain ⟨m, e⟩ := q'.vwrite 0 c va bs (by omega) (by omega)
  exact ⟨_, e, rfl, rfl⟩

theorem witness_DispatcherPlacesJobsNewAndSaved_save : ∃ z w : State,
    jobOn z 0 = some 3 ∧ jobOf z 3 = some (savingJob .saving []) ∧ (dieOf z 0).image = some plainImg ∧ (dieOf z 0).start = some startRec ∧
    vwrite 0 (savingJob .saving []).ctx.toNat (fieldAt (savingJob .saving []).desc 24 8)
      (freeBytes z.free 0x21000 ++ churnArea startRec ++ panArea plainImg (dieOf z 0)) { z with free := z.free + 0x21000 } = (.ok [], w) ∧
    w.jobs = z.jobs ∧ (dieOf w 0).job = some 3 ∧ (dieOf w 0).round.pins = [] := by
  have va : fieldAt (savingJob .saving []).desc 24 8 = 2 ^ 32 := by decide
  have q := quiet (savingJob .saving []) savingDie [] rfl
  have on : (dieOf (quietState (savingJob .saving []) savingDie []) 0) = savingDie := by decide
  have jo : jobOn (quietState (savingJob .saving []) savingDie []) 0 = some 3 ∧ jobOf (quietState (savingJob .saving []) savingDie []) 3 = some (savingJob .saving []) := by decide
  generalize quietState (savingJob .saving []) savingDie [] = z at *
  obtain ⟨w, e, h1, h2⟩ := quiet_write q (z.free + 0x21000) (savingJob .saving []).ctx.toNat (fieldAt (savingJob .saving []).desc 24 8)
    (freeBytes z.free 0x21000 ++ churnArea startRec ++ panArea plainImg (dieOf z 0)) va (by
      rw [no_pans, List.length_append, List.length_append, length_churn, freeBytes, List.length_map, List.length_range, List.length_nil])
  have same : dieOf w 0 = savingDie := by rw [← on]; unfold dieOf; rw [h2]
  exact ⟨z, w, jo.1, jo.2, by rw [on]; rfl, by rw [on]; rfl, e, h1, by rw [same]; rfl, by rw [same]; rfl⟩

theorem witness_DispatcherPlacesJobsNewAndSaved_restore :
    let z := quietState (savingJob .restoring [startRec]) savingDie []
    jobOn z 0 = some 3 ∧ jobOf z 3 = some (savingJob .restoring [startRec]) ∧ (dieOf z 0).image = some plainImg ∧
    ∃ b w, vread 0 (savingJob .restoring [startRec]).ctx.toNat false (fieldAt (savingJob .restoring [startRec]).desc 24 8)
        (saveSize plainImg) z = (.ok b, w) ∧
      w.jobs = z.jobs ∧ (dieOf w 0).image = some plainImg ∧ (dieOf w 0).spareClaim = none ∧ roundCount (dieOf w 0) = 0 ∧ servedBy w 3 = none := by
  refine ⟨by decide, by decide, by decide, ?_⟩
  have va : fieldAt (savingJob .restoring [startRec]).desc 24 8 = 2 ^ 32 := by decide
  have sz : saveSize plainImg = 0x63000 := by rw [saveSize, no_persistent]; rfl
  exact ⟨_, _, by rw [va, sz]; exact (quiet (savingJob .restoring [startRec]) savingDie [] rfl).vread 0 1 _ _ (by omega) (by omega),
    rfl, rfl, rfl, by decide, by decide⟩

/-! ## Witnesses: the load-time check -/

theorem tokEnt_nil {i : Image} (h : i.tokens = []) (t : Nat) : tokEnt i t = ⟨0, 0, 0, 0⟩ := by
  simp [tokEnt, h, num_nil, bits]

theorem tables_nil {i : Image} (h : i.pans = []) (k : i.tokens = []) : panTableOk i = true ∧ tokenTableOk i = true := by
  constructor
  · unfold panTableOk
    have u : (((List.range 4096).map fun p => (p, panEnt i p)).filter fun e => decide (e.2.size ≠ 0)) = [] := by
      refine List.filter_eq_nil_iff.mpr fun e he => ?_
      obtain ⟨p, -, rfl⟩ := List.mem_map.mp he
      simp [panEnt_nil h]
    simp only [u, h, num_nil]
    rw [List.all_eq_true.mpr fun p _ => by simp [bits]]
    rfl
  · unfold tokenTableOk
    have u : (((List.range 8192).map (tokEnt i)).filter fun t => decide (t.pan ≠ 0) && decide (t.length ≠ 0)) = [] := by
      refine List.filter_eq_nil_iff.mpr fun e he => ?_
      obtain ⟨p, -, rfl⟩ := List.mem_map.mp he
      simp [tokEnt_nil k]
    have every : ∀ q : TokEnt → Bool, q ⟨0, 0, 0, 0⟩ = true → (((List.range 8192).map (tokEnt i)).all q) = true := fun q hq => by
      refine List.all_eq_true.mpr fun e he => ?_
      obtain ⟨p, -, rfl⟩ := List.mem_map.mp he
      rwa [tokEnt_nil k]
    simp only [u, k, num_nil]
    rw [List.all_eq_true.mpr fun p _ => by simp [bits], every _ (by decide), every _ (by simp), List.all_eq_true.mpr fun p _ => by simp [disjoint]]
    rfl

/-- A stream section at the bottom of unified memory, a bundle with a COMMIT that ends the job at byte 64 and empty tables after it. -/
def sectBytes (words : Nat) : List Byte :=
  leBytes 8 (2 ^ 32 + 64) ++ leBytes 4 words ++ leBytes 4 0 ++ leBytes 8 (2 ^ 32 + 0x10000) ++ leBytes 8 (2 ^ 32 + 0x20000) ++
    leBytes 8 (2 ^ 32 + 0x40000) ++ leBytes 8 (2 ^ 32 + 0x60000) ++ leBytes 8 (2 ^ 32 + 0x80000) ++ [0, 0, 0, 1, 0, 0, 0, 0]
def imageBytes (words : Nat) : List Byte := sectBytes words ++ leBytes 8 (2 ^ 24 + 2 ^ 26 + 2 ^ 48) ++ leBytes 8 (0x20 * 2 ^ 56 + 1)
def imageMem (words : Nat) : ByteMap := ByteMap.write [] (2 ^ 32) (imageBytes words)
def checkingJob : Job := { job with stage := .checking, checked := [], desc := zeros 8 ++ leBytes 8 (2 ^ 32) ++ zeros 48 }
def loaded (words : Nat) : Image := { emptyImage with
  sect := ByteMap.cells 0 (sectBytes words), words := words, stream := ByteMap.slice (imageMem words) (2 ^ 32 + 64) (8 * words) }

theorem piece {z : State} (q : Quiet z 40) (w : Memory.wf z.mem = true) (va n : Nat) (l : List ByteMap) (m : ByteMap) (lo : 2 ^ 32 ≤ va)
    (hi : va + n ≤ 2 ^ 32 + 40 * 65536) (pos : n ≠ 0) (e : ByteMap.slice z.mem va n = m) : readPiece 0 1 va n (.ok l, z) = (.ok (l ++ [m]), z) := by
  simp only [readPiece, if_neg pos, q.readVirtual 0 1 va n lo hi, ByteMap.cells_read _ _ _ w, e]

theorem image_read (n : Nat) (h : n = 2 ∨ n = 3) :
    readImage 0 1 checkingJob.desc (quietState checkingJob die (imageMem n)) = (.ok (loaded n), quietState checkingJob die (imageMem n)) := by
  have q := quiet checkingJob die (imageMem n) rfl
  have w : Memory.wf (imageMem n) = true := ByteMap.wf_write _ _ _ (by decide)
  have m : (quietState checkingJob die (imageMem n)).mem = imageMem n := rfl
  have va : fieldAt checkingJob.desc 8 8 = 2 ^ 32 := by decide
  have b : ByteMap.read (imageMem n) (2 ^ 32) 64 = sectBytes n := by rcases h with rfl | rfl <;> decide +kernel
  have s : section87 (sectBytes n) = ⟨2 ^ 32 + 64, n, 0, 2 ^ 32 + 0x10000, 2 ^ 32 + 0x20000, 2 ^ 32 + 0x40000, 2 ^ 32 + 0x60000, 2 ^ 32 + 0x80000,
      0, 0, 1, 0, 0, 0⟩ := by rcases h with rfl | rfl <;> decide +kernel
  have far : ∀ x k, x ∈ [0x10000, 0x20000, 0x40000, 0x60000, 0x80000] → ByteMap.slice (imageMem n) (2 ^ 32 + x) k = [] := by
    intro x k hx
    have top : ∀ p ∈ imageMem n, p.1 < 2 ^ 32 + 0x10000 := by rcases h with rfl | rfl <;> decide +kernel
    have : 0x10000 ≤ x := by simp at hx; omega
    unfold ByteMap.slice
    rw [List.filter_eq_nil_iff.mpr fun p hp => ?_]
    · rfl
    · have := top p hp
      simp
      omega
  have so : sectionOk (section87 (sectBytes n)) = true := by rcases h with rfl | rfl <;> decide +kernel
  unfold readImage
  simp only [va, q.readVirtual 0 1 (2 ^ 32) 64 (by omega) (by omega), m, b]
  rw [s] at so
  simp only [s, so, if_true, zero_ne_one, if_false]
  rw [piece q w (2 ^ 32 + 64) (8 * n) [] _ (by omega) (by omega) (by omega) rfl,
    piece q w (2 ^ 32 + 0x10000) 65536 _ [] (by omega) (by omega) (by omega) (far _ _ (by decide)),
    piece q w (2 ^ 32 + 0x20000) 131072 _ [] (by omega) (by omega) (by omega) (far _ _ (by decide)),
    piece q w (2 ^ 32 + 0x40000) 131072 _ [] (by omega) (by omega) (by omega) (far _ _ (by decide)),
    piece q w (2 ^ 32 + 0x60000) 131072 _ [] (by omega) (by omega) (by omega) (far _ _ (by decide)),
    piece q w (2 ^ 32 + 0x80000) 65536 _ [] (by omega) (by omega) (by omega) (far _ _ (by decide))]
  rfl

theorem witness_LoadTimeCheckRefusesOrStarts :
    (∀ n, n = 2 ∨ n = 3 → let z := quietState checkingJob die (imageMem n)
     jobOn z 0 = some 3 ∧ jobOf z 3 = some checkingJob ∧ checkingJob.stage = .checking ∧ jobLoadHeld (dieOf z 0) = false ∧ paused z 0 = false ∧
     readImage 0 checkingJob.ctx.toNat checkingJob.desc z = (.ok (loaded n), z) ∧ servedBy z 3 = none ∧ checkingJob.saves = [] ∧
     (imageSect (loaded n)).roundUsed = 0 ∧ (dieOf z 0).spareClaim = none) ∧
    loadFailure (quietState checkingJob die (imageMem 2)) 0 (loaded 2) = none ∧
    loadFailure (quietState checkingJob die (imageMem 3)) 0 (loaded 3) = some (2, 2) := by
  refine ⟨fun n h => ⟨by rcases h with rfl | rfl <;> decide, by rcases h with rfl | rfl <;> decide, rfl, by rcases h with rfl | rfl <;> decide,
    by rcases h with rfl | rfl <;> decide, image_read n h, by rcases h with rfl | rfl <;> decide, rfl, ?_, by rcases h with rfl | rfl <;> decide⟩, ?_, ?_⟩
  · rcases h with rfl | rfl <;> decide +kernel
  · obtain ⟨a, b⟩ := tables_nil (i := loaded 2) rfl rfl
    simp only [loadFailure, a, b]
    decide +kernel
  · obtain ⟨a, b⟩ := tables_nil (i := loaded 3) rfl rfl
    simp only [loadFailure, a, b]
    decide +kernel

/-! ## Witnesses: step boundaries -/

/-- A job that serves partition 0 on die 0, at a boundary. -/
def servingJob : Job := { job with desc := zeros 36 ++ [1] ++ zeros 27 }
def servingDie : DieSt := { die with boundary := true }

/-- The partition: its table lies at the bottom of unified memory, its rings and lists above it. -/
def servingPart (stop : Bool) (active : BitVec 32) : Partition := {
  enable := true, stop := stop, bind := 1, context := 1, tableVa := 0x100000, aqLog2 := 4, aqBase := 0x100200, gatherLog2 := 10, gatherVa := 0x100210
  active := active }

def servingState (stop : Bool) (active : BitVec 32) (m : ByteMap) : State := { quietState servingJob servingDie m with parts := [(0, servingPart stop active)] }

theorem serving_quiet (stop : Bool) (active : BitVec 32) (m : ByteMap) : Quiet (servingState stop active m) 40 :=
  let q := quiet servingJob servingDie m rfl
  ⟨q.bare, q.fits, q.grans, q.keys, q.home, q.edges, q.still, q.unseen⟩

/-- One ACTIVE stream in entry 0: a prompt of one token, one page held, a directory and an output ring above the table. -/
def streamMem : ByteMap := ByteMap.write [] (2 ^ 32) ([2, 0, 0, 0] ++ leBytes 4 0 ++ leBytes 4 20 ++ leBytes 4 0 ++ zeros 8 ++
  leBytes 8 (2 ^ 32 + 0x220000) ++ leBytes 8 (2 ^ 32 + 0x230000) ++ [4, 0, 0, 0] ++ leBytes 4 1 ++ zeros 16 ++ leBytes 4 1)

theorem byte_none (m : ByteMap) (a : Nat) (h : ∀ p ∈ m, p.1 ≠ a) : ByteMap.byte m a = 0 := by
  induction m with
  | nil => rfl
  | cons p m ih =>
    rw [ByteMap.byte_cons, if_neg (fun e => h p (by simp) e.symm), ih (fun q hq => h q (by simp [hq]))]

theorem read_none (m : ByteMap) (a n : Nat) (h : ∀ p ∈ m, p.1 < a ∨ a + n ≤ p.1) : ByteMap.read m a n = zeros n := by
  induction n generalizing a with
  | zero => rfl
  | succ n ih =>
    rw [ByteMap.read_succ, byte_none m a (fun p hp => by have := h p hp; omega), ih (a + 1) (fun p hp => by have := h p hp; omega)]
    rfl

/-- The table as the builder reads it: of its entries only entry 0 lists bytes. -/
def tableOf (m : ByteMap) : List (Nat × Stream) := (List.range 16384).map fun i => (i, streamOf (ByteMap.read m (2 ^ 32 + 128 * i) 128))

theorem table_read (stop : Bool) (active : BitVec 32) (m : ByteMap) :
    tableStreams 0 (servingState stop active m) = (.ok (tableOf m), servingState stop active m) := by
  have va : entryVa (servingState stop active m) 0 0 = 2 ^ 32 := by
    show (0x100000 : BitVec 52).toNat * 4096 + 128 * 0 = 2 ^ 32
    decide
  have b := (serving_quiet stop active m).buildRead 0 (2 ^ 32) (16384 * 128) (by omega) (by omega)
  have e : ((List.range 16384).map fun i => (i, streamOf (((ByteMap.read m (2 ^ 32) (16384 * 128)).drop (128 * i)).take 128))) = tableOf m := by
    refine List.map_congr_left fun i h => ?_
    have := List.mem_range.mp h
    rw [ByteMap.read_part _ _ _ _ _ (by omega)]
  rw [tableStreams, va, b, streamsRead]
  have hm : (servingState stop active m).mem = m := rfl
  simp only [hm, e]

/-- Entries other than entry 0 are idle. -/
theorem table_filter (m : ByteMap) (top : ∀ p ∈ m, p.1 < 2 ^ 32 + 128) (f : Nat × Stream → Bool) (idle : ∀ i, f (i, streamOf (zeros 128)) = false) :
    (tableOf m).filter f = if f (0, streamOf (ByteMap.read m (2 ^ 32) 128)) then [(0, streamOf (ByteMap.read m (2 ^ 32) 128))] else [] := by
  have rest : ((List.map Nat.succ (List.range 16383)).map fun i => (i, streamOf (ByteMap.read m (2 ^ 32 + 128 * i) 128))).filter f = [] := by
    refine List.filter_eq_nil_iff.mpr fun e he => ?_
    obtain ⟨i, hi, rfl⟩ := List.mem_map.mp he
    obtain ⟨j, -, rfl⟩ := List.mem_map.mp hi
    rw [read_none m _ 128 fun p hp => Or.inl (by have := top p hp; omega), idle]
    decide
  have e : tableOf m = (0, streamOf (ByteMap.read m (2 ^ 32) 128)) ::
      (List.map Nat.succ (List.range 16383)).map fun i => (i, streamOf (ByteMap.read m (2 ^ 32 + 128 * i) 128)) := by
    unfold tableOf
    rw [show (16384 : Nat) = 16383 + 1 from rfl, List.range_succ_eq_map, List.map_cons, Nat.mul_zero, Nat.add_zero]
  rw [e, List.filter_cons, rest]

/-- A table with nothing in it, or with the one stream. -/
def small (m : ByteMap) (active : BitVec 32) : Prop := (m = [] ∧ active = 0) ∨ (m = streamMem ∧ active = 1)

theorem stream_top {m : ByteMap} {a : BitVec 32} (h : small m a) : ∀ p ∈ m, p.1 < 2 ^ 32 + 128 := by
  rcases h with ⟨rfl, -⟩ | ⟨rfl, -⟩ <;> decide +kernel

/-- The members of a small table in a state: the stream when it is ACTIVE that is asked for. -/
theorem small_filter {m : ByteMap} {a : BitVec 32} (h : small m a) (n : Nat) (hn : n = 1 ∨ n = 2 ∨ n = 3) :
    ((tableOf m).filter fun e => e.2.state = n).map (·.1) = if n = 2 ∧ a = 1 then [0] else [] := by
  rw [table_filter m (stream_top h) _ fun _ => by
    rcases hn with rfl | rfl | rfl
    · exact (by decide : decide ((streamOf (zeros 128)).state = 1) = false)
    · exact (by decide : decide ((streamOf (zeros 128)).state = 2) = false)
    · exact (by decide : decide ((streamOf (zeros 128)).state = 3) = false)]
  rcases h with ⟨rfl, rfl⟩ | ⟨rfl, rfl⟩ <;> rcases hn with rfl | rfl | rfl <;> decide +kernel

theorem results_none (stop : Bool) (active : BitVec 32) (m : ByteMap) :
    takeResults 0 [] (servingState stop active m) = ([], servingState stop active m) := by
  have e : SMap.upd {} (servingState stop active m).dies 0 (fun x => x) = (servingState stop active m).dies := by
    show SMap.upd {} [(0, servingDie)] 0 (fun x => x) = [(0, servingDie)]
    decide
  have s : updDie (servingState stop active m) 0 (fun x => x) = servingState stop active m :=
    congrArg (fun d => ({ servingState stop active m with dies := d } : State)) e
  exact Prod.ext rfl s

theorem admissions_none (stop : Bool) (active : BitVec 32) (m : ByteMap) :
    readAdmissions 0 256 (none, servingState stop active m) = (none, servingState stop active m) := rfl

theorem leaves_none {stop : Bool} {active : BitVec 32} {m : ByteMap} (h : small m active) :
    applyLeaves 0 (none, servingState stop active m) = (none, servingState stop active m) := by
  have e : SMap.upd {} [((0 : Nat), servingPart stop active)] 0 (fun p => { p with cancels := [] }) = [(0, servingPart stop active)] := by
    cases stop <;> simp [SMap.upd, SMap.get, SMap.find, SMap.set, servingPart, SMap.put]
  have s : updPart (servingState stop active m) 0 (fun p => { p with cancels := [] }) = servingState stop active m :=
    congrArg (fun d => ({ servingState stop active m with parts := d } : State)) e
  have c : (partOf (servingState stop active m) 0).cancels = [] := rfl
  have none' : ((tableOf m).filter fun e => e.2.state = stDraining).map (·.1) = [] := small_filter h 3 (by simp)
  have tab := table_read stop active m
  rw [applyLeaves, c]
  simp only [buildEach, List.foldl_nil]
  rw [buildPart_none, s, withTable_ok _ _ _ _ _ tab, none', List.foldl_nil]

theorem joins_none {stop : Bool} {active : BitVec 32} {m : ByteMap} (h : small m active) :
    admitStreams 0 (none, servingState stop active m) = (none, servingState stop active m) := by
  have tab := table_read stop active m
  have pend : ((tableOf m).filter fun e => e.2.state = stPending).map (·.1) = [] := small_filter h 1 (by simp)
  have act := small_filter h 2 (by simp)
  have len : ((tableOf m).filter fun e => e.2.state = stActive).length = active.toNat := by
    have := congrArg List.length act
    rw [List.length_map] at this
    refine this.trans ?_
    rcases h with ⟨-, rfl⟩ | ⟨-, rfl⟩ <;> rfl
  have j : (partOf (servingState stop active m) 0).joined = [] := rfl
  have e : SMap.upd {} [((0 : Nat), servingPart stop active)] 0 (fun p => { p with
      joined := p.joined.filter fun i => !([] : List Nat).contains i, active := BitVec.ofNat 32 active.toNat, pendingJoin := BitVec.ofNat 32 0 }) =
      [(0, servingPart stop active)] := by
    rcases h with ⟨-, rfl⟩ | ⟨-, rfl⟩ <;> cases stop <;> simp [SMap.upd, SMap.get, SMap.find, SMap.set, servingPart, SMap.put]
  have s : updPart (servingState stop active m) 0 (fun p => { p with
      joined := p.joined.filter fun i => !([] : List Nat).contains i, active := BitVec.ofNat 32 active.toNat, pendingJoin := BitVec.ofNat 32 0 }) =
      servingState stop active m := congrArg (fun d => ({ servingState stop active m with parts := d } : State)) e
  rw [admitStreams, withTable_ok _ _ _ _ _ tab]
  simp only [pend, len, j, List.filter_nil, List.nil_append, List.take_nil, buildEach, List.foldl_nil, List.length_nil, Nat.add_zero, Nat.sub_zero,
    buildPart_none, s]

/-- Whether a pick chose slots whose gather list can be written, the job as before. -/
def gathered (b : Builder) : Bool := match b with | (none, v) => decide (jobOf v 3 = some servingJob) | _ => false
def picksOk (r : Pick × Builder) : Bool :=
  match r with
  | (k, (none, u)) => !k.slots.isEmpty && decide (jobOf u 3 = some servingJob) && gathered (buildEach k.slots (gatherSlot 0) (none, u))
  | _ => false

theorem pick_of (r : Pick × Builder) (h : picksOk r = true) : ∃ k u v, r = (k, (none, u)) ∧ k.slots ≠ [] ∧ jobOf u 3 = some servingJob ∧
    buildEach k.slots (gatherSlot 0) (none, u) = (none, v) ∧ jobOf v 3 = some servingJob := by
  obtain ⟨k, f, u⟩ := r
  cases f with
  | some a => exact absurd h (by simp [picksOk])
  | none =>
    simp only [picksOk, Bool.and_eq_true, decide_eq_true_eq] at h
    obtain ⟨⟨h1, h2⟩, h3⟩ := h
    generalize e : buildEach k.slots (gatherSlot 0) (none, u) = b at h3
    obtain ⟨f, v⟩ := b
    cases f with
    | some a => exact absurd h3 (by simp [gathered])
    | none => exact ⟨k, u, v, rfl, by simpa using h1, h2, e, by simpa [gathered] using h3⟩

theorem picked : ∃ k u v, pickStream 0 0 (noPick, (none, servingState false 1 streamMem)) = (k, (none, u)) ∧
    k.slots ≠ [] ∧ jobOf u 3 = some servingJob ∧ buildEach k.slots (gatherSlot 0) (none, u) = (none, v) ∧ jobOf v 3 = some servingJob :=
  pick_of _ (by decide +kernel)

theorem witness_PartitionsAndBoundaries_boundary :
    (∀ stop active m, small m active → let z := servingState stop active m
      jobOn z 0 = some 3 ∧ servedBy z 3 = some 0 ∧ jobOf z 3 = some servingJob ∧ (dieOf z 0).boundary = true ∧ (∀ e ∈ servingJob.dies, paused z e = false) ∧
      (partOf z 0).holding = false ∧ takeResults 0 ((partOf z 0).slots.getD []) z = ([], z) ∧ (partOf z 0).stop = stop ∧
      admitStreams 0 (applyLeaves 0 (readAdmissions 0 (partOf z 0).joinLimit.toNat (none, z))) = (none, z) ∧ servingJob.causes = [] ∧ servingJob.dies.Nodup) ∧
    selectSet 0 false (none, servingState false 0 []) = (noPick, (none, servingState false 0 [])) ∧ (noPick.slots = [] ∧ noPick.full = false) ∧
    ∃ q u v, selectSet 0 false (none, servingState false 1 streamMem) = (q, (none, u)) ∧ q.slots ≠ [] ∧ jobOf u 3 = some servingJob ∧
      buildEach q.slots (gatherSlot 0) (none, u) = (none, v) ∧ jobOf v 3 = some servingJob := by
  refine ⟨fun stop active m h => ?_, ?_, ⟨rfl, rfl⟩, ?_⟩
  · refine ⟨rfl, ?_, rfl, rfl, ?_, rfl, results_none stop active m, rfl, ?_, rfl, by decide⟩
    · have j : jobOf (servingState stop active m) 3 = some servingJob := rfl
      have p : partOf (servingState stop active m) 0 = servingPart stop active := rfl
      have s0 : servesJob (servingState stop active m) 0 servingJob = true := by
        simp only [servesJob, p, servingPart]
        decide
      rw [servedBy, j]
      exact List.find?_cons_of_pos (l := [1, 2, 3, 4, 5, 6, 7]) s0
    · show ∀ e ∈ [0], _
      simp
      rfl
    · have l : (partOf (servingState stop active m) 0).joinLimit.toNat = 256 := rfl
      rw [l, admissions_none, leaves_none h, joins_none h]
  · have none' : (tableOf []).filter (fun e => decide (e.2.state = stActive)) = [] :=
      List.map_eq_nil_iff.mp (small_filter (a := 0) (Or.inl ⟨rfl, rfl⟩) 2 (by simp))
    have order : pickOrder (tableOf []) = [] := by rw [pickOrder, none']; rfl
    exact (selectSet_ok _ _ _ _ (table_read false 0 [])).trans (selectFrom_none _ _ _ order)
  · have one : ((tableOf streamMem).filter fun e => decide (e.2.state = stActive)) = [(0, streamOf (ByteMap.read streamMem (2 ^ 32) 128))] := by
      rw [table_filter streamMem (stream_top (a := 1) (Or.inr ⟨rfl, rfl⟩)) _ fun _ => (by decide : decide ((streamOf (zeros 128)).state = 2) = false)]
      rfl
    have order : pickOrder (tableOf streamMem) = [0] := by
      rw [pickOrder, one]
      rfl
    obtain ⟨k, u, v, e, h2, h3, h4, h5⟩ := picked
    exact ⟨k, u, v, (selectSet_ok _ _ _ _ (table_read false 1 streamMem)).trans (selectFrom_one _ _ _ _ _ _ order e), h2, h3, h4, h5⟩

/-! ## Ill-formed commands, one for each check -/

/-- Refused. -/
def bad (l : List Instr) : Bool := l.all fun i => !i.wellFormed

def rawPacket (data mac : Nat) : Packet := ⟨0, 0, false, false, 0, 0, 0, 0, 0, 0, 0, zeros data, zeros mac⟩
def packetRows (p : Packet) : List Instr := [.putPacket p, .reducePacket p, .signalPacket p, .getReq p, .getRsp p, .commitPacket p, .commitAck p, .commitNak p,
  .abort p, .renew p, .stageRefused p, .e2eAck p, .hello p, .propose p, .accept p, .viewPkt p]

theorem test_illformed_packets : bad (packetRows (rawPacket 1025 16)) = true ∧ bad (packetRows (rawPacket 0 15)) = true := by decide +kernel

theorem test_illformed_access : bad [.unifiedAccess ⟨.io, 0, .load 0, .clean, .pma, .m, false⟩, .unifiedAccess ⟨.io, 0, .store [], .clean, .pma, .m, false⟩,
    .registerWrite (.at 4) 8 0, .registerWrite (.at 0) 3 0, .registerWrite (.x 144 1) 8 0, .hartGetStatus (.call { caller := 144, eid := 0, fid := 0 }), .pailWrite 0 [] true] = true := by decide

theorem test_illformed_coherence : bad ([.readShared ⟨11, 0⟩ 0, .readUnique ⟨0, 0⟩ lineLimit, .cleanUnique ⟨11, 0⟩ 0, .readShared ⟨8, 72⟩ 0, .writeLine 0 0 (zeros 63) 0, .writeBack 0 0 (zeros 65),
    .evictClean 0 lineLimit, .atomicReq ⟨0, 0⟩ 0 ⟨.swap, false, 0, 2⟩, .reduce 0 0 0 (zeros 1), .homeTimeout lineLimit, .shankCrcFail 11] ++
    [11, 12].flatMap fun w => [.fwdShared w 0, .fwdUnique w 0, .invalidate w 0, .recall w 0, .dataMsg w 0, .invAck w 0, .recallData w 0, .writeAck w 0,
      .atomicResult w 0, .compAck w 0]) = true := by decide +kernel

theorem test_illformed_memory : bad [.migrationCopyDone granuleLimit, .migrationTimeout granuleLimit, .granuleZeroFilled granuleLimit, .edgeCacheEvict 0 lineLimit,
    .patrolScrub 32 .clean, .retirementMoveDone 32 0, .atsPrgr (2 ^ 24) 0 0 .success, .iodirInvalDdt true (2 ^ 24), .iodirInvalPdt (2 ^ 24) 0] = true := by decide +kernel

theorem test_illformed_dies : bad [.streamFetchAhead 0 0, .streamFetchAhead 0 131073, .hintHorizonEnd 10, .vatCheckMismatch 0 17 0 0, .timerCompare 144 .machine,
    .hgatpVmidWrite 144 0, .hartSuspend 144 true, .qkCorePhase 144 0 0, .cbqriAllocRequest ⟨44, 0, false, 0, 0⟩, .laneLost 0 true 9, .laneRejoined 0 true 9,
    .flitReceived 0 (zeros 255)] = true := by decide +kernel

theorem test_illformed_frames (f : List Byte) (long : frameLimit < f.length) :
    bad [.readOp .bar0 f, .writeOp .bar0 f, .readMulti .bar0 f, .subscribe .bar0 f, .sessionOpen .bar0 f, .sessionClose .bar0 f, .imageChunk ⟨.bar0, 0⟩ f] = true := by
  have no : decide (f.length ≤ frameLimit) = false := decide_eq_false (by omega)
  have no' : decide (f.length ≤ 4096) = false := decide_eq_false (by unfold frameLimit at long; omega)
  change (!decide (f.length ≤ frameLimit) && (!decide (f.length ≤ frameLimit) && (!decide (f.length ≤ frameLimit) && (!decide (f.length ≤ frameLimit) &&
    (!decide (f.length ≤ frameLimit) && (!decide (f.length ≤ frameLimit) && (!decide (f.length ≤ 4096) && true))))))) = true
  rw [no, no']
  rfl

theorem test_illformed_security : bad ([.challenge .doe 0 (zeros 31), .getMeasurements .doe 0 (zeros 33)] ++
    (let k : KeyReq := ⟨.doe, 0, 0, 0, zeros 63, false⟩
     [.memKeySet k, .memKeyDestroy k, .laceKeySet k, .laceKeyDestroy k, .endTenancy k, .membKeySet k])) = true := by decide

theorem test_illformed_power : bad ([.estimatorInterval ⟨0, 65536, [], []⟩, .estimatorInterval ⟨0, 0, [(32, 0)], []⟩, .estimatorInterval ⟨0, 0, [], [(0, 32, 0)]⟩,
    .slewComplete 10, .softStartRetry 10, .tjLimit 32 [], .thermalStep 32 [], .hardTrip 32 [], .inputRange 65536, .calendarMidnight 65536] ++
    [RailId.logic 10, .memory 10, .stack 16].flatMap fun r => [.droopPause r, .droopPauseEnd r, .memoryDroopTrip r, .railOvercurrentTrip r,
      .softStartRampEnd r true]) = true := by decide

theorem test_illformed_start : bad [.coldStart { board with modules := [(16, ⟨.rdimm, 1, 2, true, true, 64, 16, []⟩)] }, .coldStart { board with trainFail := [64] },
    .coldStart { board with badLanes := [⟨16, 0, 0, 0⟩] }, .coldStart { board with vbatMv := 65536 }, .identityFrameRepeat 11, .identityFrame 0 (zeros 63),
    .configFrame 11 (zeros 64), .configAck 0 (zeros 65), .configAckTimeout 11] = true := by decide

/-! ## Results worked out in the spec -/

/-- The worked example of two stages of rounding (03): 4.05810546875 in FP32, inexact, then 0x4082 in BF16; stochastic rounding writes 0x4081
just below r = 0x2400_0000. -/
theorem test_two_stages_of_rounding :
    finiteColumn false [some (-8), some (-11), some (-35)] [some (-4), some (-5), some (-4)] [1, 1, 1] [11246, 86016, 1548] = (0x4081DC00, fInexact) ∧
    (convertF 1 .nearest false (decodeF 0 0x4081DC00)).1 = 0x4082 ∧ (convertF 1 (.stochastic 0x24000000) false (decodeF 0 0x4081DC00)).1 = 0x4082 ∧
    (convertF 1 (.stochastic 0x23FFFFFF) false (decodeF 0 0x4081DC00)).1 = 0x4081 := by decide +kernel

/-- Columns 7 and 8 of the worked example of special terms (03), in E4M3 with SAT 1 and 0. -/
theorem test_special_terms :
    ((({} : Special).term (some .pinf) none 0 0).term (some .ninf) none 0 0).result = (some 0x7FC00000, fInvalid) ∧
    ((({} : Special).term (some .pinf) none 0 (-32)).term (some .ninf) none 0 48).result = (some 0xFF800000, 0) ∧
    convertF 3 .nearest true (.inf true) = (0xFE, fOverflow ||| fInexact) ∧ convertF 3 .nearest false (.inf true) = (0xFF, fOverflow ||| fInexact) := by
  decide +kernel

/-- EXP2(3) = 8 and LOG2(1) = +0, with no flag (05); LOG2(+0) is -Inf with divide-by-zero (R139). -/
theorem test_exact_functions : specialFn 0x40 0 false 0x40400000 = (0x41000000, 0) ∧ specialFn 0x41 0 false 0x3F800000 = (0, 0) ∧
    specialFn 0x41 0 false 0 = (0xFF800000, fDivZero) := by decide +kernel

/-- The frames of the worked example of a mixed-generation Half package (01), whose C2 has a recorded retirement of VAT5. -/
def mixed : State := { State.reset with
  variant := .half
  nv := { State.reset.nv with retiredVats := [(2, 2 ^ 5)] }
  disc := { frames := [(0, ⟨1, 2, 2, 4, 3, 7, 0x3FF01FFFF, 0⟩), (1, ⟨1, 2, 2, 4, 3, 7, 0x3FF01FFFF, 0⟩), (2, ⟨1, 1, 1, 3, 1, 6, 0x3FF01FFFF, 0⟩),
    (3, ⟨1, 1, 1, 3, 1, 6, 0x3FF01FFFF, 0⟩), (8, ⟨2, 1, 1, 3, 1, 6, 2 ^ 72 - 1, 0⟩), (10, ⟨3, 1, 1, 3, 1, 6, 0, 0⟩)] } }

theorem test_mixed_generation_map : (let t := writeMap mixed
    controlRead t 0x8000 = 0x0000000101030201 ∧ controlRead t 0x8100 = 0x20101 ∧ controlRead t 0x8110 = 0x10105 ∧ controlRead t 0x8120 = 0 ∧
      controlRead t 0x8420 = 0x53FF0FFFF) := by decide +kernel

/-- CRC-32C of the nine digits, as its specification gives it. -/
theorem test_crc32c : crc32c [0x31, 0x32, 0x33, 0x34, 0x35, 0x36, 0x37, 0x38, 0x39] = 0xE3069283 := by decide +kernel

end Sys2Proof.Tests
end

/-! PROOFS. What is fused (O5).

No function of the model writes the variant, the Welt generation or the fused minimum security version. That is said once for each of
them, in the order of the model's files: `fuses_f` where f answers a state, `fuses_of_f` where the state stands in what f answers, with a
result or only on some of its ways. A command and a tick are then made of functions that keep what is fused. -/

namespace Sys2Proof.Machine

/-- What is fused: the variant, the Welt generation and the fused minimum security version. -/
def fuses (s : State) : Variant × BitVec 8 × BitVec 16 := (s.variant, s.weltGen, s.su.fusedMin)

@[simp] theorem fuses_eta (s : State) : (s.variant, s.weltGen, s.su.fusedMin) = fuses s := by rfl

@[simp] theorem fuses_mk (pending free resp time variant weltGen map disc dies copyNet sigNet mem grans moves filling sep quotas ctxs jobs disp parts
    iommu dom cluster lacing units tunnel host power sec dict su nv ev upd cal) :
    fuses ⟨pending, free, resp, time, variant, weltGen, map, disc, dies, copyNet, sigNet, mem, grans, moves, filling, sep, quotas, ctxs, jobs, disp,
      parts, iommu, dom, cluster, lacing, units, tunnel, host, power, sec, dict, su, nv, ev, upd, cal⟩ = (variant, weltGen, su.fusedMin) := by rfl

@[simp] theorem fuses_ite (c : Prop) [Decidable c] (s t : State) :
    fuses (if c then s else t) = if c then fuses s else fuses t := apply_ite ..

@[simp] theorem fuses_each {α : Type} (l : List α) (f : α → State → State) (h : ∀ a s, fuses (f a s) = fuses s) (s : State) :
    fuses (each l f s) = fuses s := each_same fuses l f (fun a _ => h a) s

theorem foldl_same {α β γ : Type} (g : β → γ) (l : List α) (f : β → α → β) (h : ∀ a b, g (f b a) = g b) (b : β) : g (l.foldl f b) = g b := by
  induction l generalizing b with
  | nil => rfl
  | cons a l ih => exact (ih _).trans (h a b)

@[simp] theorem fuses_foldl_snd {α β : Type} (l : List α) (f : β × State → α → β × State) (h : ∀ a b, fuses (f b a).2 = fuses b.2) (b : β × State) :
    fuses (l.foldl f b).2 = fuses b.2 := foldl_same (fun b => fuses b.2) l f h b

@[simp] theorem fuses_guarded (b : Bool) (f : State → State) (h : ∀ s, fuses (f s) = fuses s) (s : State) :
    fuses (guarded b f s) = fuses s := by
  cases b with
  | true => exact h s
  | false => rfl

/-- A fold whose steps may stop with an error: the state it ends in, when each step that goes on leaves the fuses alone. -/
theorem fuses_of_foldl_ok {α ε : Type} {f : Except ε State → α → Except ε State}
    (h : ∀ r a t, f r a = .ok t → ∃ u, r = .ok u ∧ fuses t = fuses u) {l : List α} {s t : State} (e : l.foldl f (.ok s) = .ok t) :
    fuses t = fuses s := by
  have key : ∀ (l : List α) r, l.foldl f r = .ok t → ∃ u, r = .ok u ∧ fuses t = fuses u := by
    intro l
    induction l with
    | nil => exact fun r e => ⟨t, e, rfl⟩
    | cons a l ih =>
      intro r e
      obtain ⟨u, hu, ht⟩ := ih _ e
      obtain ⟨v, hv, hw⟩ := h _ _ _ hu
      exact ⟨v, hv, ht.trans hw⟩
  obtain ⟨u, hu, ht⟩ := key l _ e
  cases hu
  exact ht

/-- From the frame of a result's state to the same frame where the pair is taken apart. -/
theorem fuses_of_snd {α : Type} {p : α × State} {a : α} {s t : State} (k : fuses p.2 = fuses s) (h : p = (a, t)) : fuses t = fuses s := by
  rw [← k, h]

/-! ### Machine/Ops -/

@[simp] theorem fuses_drew (s : State) : fuses (drew s) = fuses s := by rfl
@[simp] theorem fuses_linksGood (a b : Nat) (s : State) : fuses (linksGood a b s) = fuses s := by rfl
@[simp] theorem fuses_setDie (s : State) (d : Nat) (x : DieSt) : fuses (setDie s d x) = fuses s := by rfl
@[simp] theorem fuses_updDie (s : State) (d : Nat) (f : DieSt → DieSt) : fuses (updDie s d f) = fuses s := by rfl
@[simp] theorem fuses_updCtx (s : State) (c : Nat) (f : Context → Context) : fuses (updCtx s c f) = fuses s := by rfl
@[simp] theorem fuses_updQuota (s : State) (c : Nat) (f : Quota → Quota) : fuses (updQuota s c f) = fuses s := by rfl
@[simp] theorem fuses_updGran (s : State) (g : Nat) (f : Granule → Granule) : fuses (updGran s g f) = fuses s := by rfl

@[simp] theorem fuses_updJob (s : State) (k : Nat) (f : Job → Job) : fuses (updJob s k f) = fuses s := by
  unfold updJob
  split <;> simp

@[simp] theorem fuses_updPart (s : State) (d : Nat) (f : Partition → Partition) : fuses (updPart s d f) = fuses s := by rfl
@[simp] theorem fuses_updUnit (s : State) (u : Nat) (f : MemUnit → MemUnit) : fuses (updUnit s u f) = fuses s := by rfl
@[simp] theorem fuses_updRail (s : State) (i : Nat) (f : Rail → Rail) : fuses (updRail s i f) = fuses s := by rfl
@[simp] theorem fuses_updPartner (s : State) (p : Nat) (f : Partner → Partner) : fuses (updPartner s p f) = fuses s := by rfl
@[simp] theorem fuses_updEye (s : State) (e : Nat) (f : Eyelet → Eyelet) : fuses (updEye s e f) = fuses s := by rfl
@[simp] theorem fuses_updQueue (s : State) (q : Nat) (f : IngestQueue → IngestQueue) : fuses (updQueue s q f) = fuses s := by rfl
@[simp] theorem fuses_updHart (s : State) (h : Nat) (f : Hart → Hart) : fuses (updHart s h f) = fuses s := by rfl
@[simp] theorem fuses_setPendingId (key eiid : Nat) (s : State) : fuses (setPendingId key eiid s) = fuses s := by rfl
@[simp] theorem fuses_writeFile (hart file eiid : Nat) (s : State) : fuses (writeFile hart file eiid s) = fuses s := by simp [writeFile]
@[simp] theorem fuses_deliverSource (i : Nat) (s : State) : fuses (deliverSource i s) = fuses s := by simp [deliverSource]
@[simp] theorem fuses_raiseSource (i : Nat) (s : State) : fuses (raiseSource i s) = fuses s := by simp [raiseSource]
@[simp] theorem fuses_raiseVector (v : Nat) (s : State) : fuses (raiseVector v s) = fuses s := by simp [raiseVector]

@[simp] theorem fuses_postBy (cowbell : Bool) (code site : Nat) (payload : List Nat) (s : State) :
    fuses (postBy cowbell code site payload s) = fuses s := by simp [postBy]

@[simp] theorem fuses_setSupervisor (v : Nat) (s : State) : fuses (setSupervisor v s) = fuses s := by rfl
@[simp] theorem fuses_post (code site : Nat) (payload : List Nat) (s : State) : fuses (post code site payload s) = fuses s := by simp [post]

@[simp] theorem fuses_postCowbell (code : Nat) (payload : List Nat) (s : State) :
    fuses (postCowbell code payload s) = fuses s := by simp [postCowbell]

@[simp] theorem fuses_answer (r : Response) (s : State) : fuses (answer r s) = fuses s := by rfl

/-! ### Machine/Memory -/

@[simp] theorem fuses_takeLoc (s : State) (hbm : Bool) (loc : Nat) : fuses (takeLoc s hbm loc) = fuses s := by simp [takeLoc]
@[simp] theorem fuses_freeLoc (s : State) (hbm : Bool) (loc : Nat) : fuses (freeLoc s hbm loc) = fuses s := by simp [freeLoc]
@[simp] theorem fuses_noKey (a : Nat) (s : State) : fuses (noKey a s) = fuses s := by simp [noKey]

@[simp] theorem fuses_memStoreLine (l : Nat) (mask : BitVec 64) (data : LineData) (s : State) :
    fuses (memStoreLine l mask data s) = fuses s := by
  unfold memStoreLine
  split <;> simp

@[simp] theorem fuses_noteTraffic (t : ReqTag) (write : Bool) (n l : Nat) (s : State) : fuses (noteTraffic t write n l s) = fuses s := by
  unfold noteTraffic
  split <;> simp

@[simp] theorem fuses_noteBytes (t : ReqTag) (write : Bool) (a n : Nat) (s : State) :
    fuses (noteBytes t write a n s) = fuses s := by simp [noteBytes]

/-! ### Machine/CohCore -/

@[simp] theorem fuses_memRewrite (l : Nat) (data : LineData) (s : State) : fuses (memRewrite l data s) = fuses s := by simp [memRewrite]
@[simp] theorem fuses_updHome (h : Nat) (f : Home → Home) (s : State) : fuses (updHome h f s) = fuses s := by rfl
@[simp] theorem fuses_setDir (l : Nat) (e : DirEnt) (s : State) : fuses (setDir l e s) = fuses s := by rfl
@[simp] theorem fuses_sendMsg (k : MsgKind) (src dst l : Nat) (s : State) : fuses (sendMsg k src dst l s) = fuses s := by rfl
@[simp] theorem fuses_putBusy (l : Nat) (b : Busy) (s : State) : fuses (putBusy l b s) = fuses s := by rfl
@[simp] theorem fuses_endBusy (l : Nat) (s : State) : fuses (endBusy l s) = fuses s := by rfl
@[simp] theorem fuses_dropL3 (a l : Nat) (s : State) : fuses (dropL3 a l s) = fuses s := by rfl
@[simp] theorem fuses_evictL3 (a l : Nat) (x : L3Line) (s : State) : fuses (evictL3 a l x s) = fuses s := by simp [evictL3]

@[simp] theorem fuses_l3Room (a l : Nat) (k : Asker) (s : State) : fuses (l3Room a l k s).2 = fuses s := by
  unfold l3Room
  dsimp only
  (repeat' split) <;> simp

@[simp] theorem fuses_putL3 (a l : Nat) (x : L3Line) (s : State) : fuses (putL3 a l x s) = fuses s := by
  unfold putL3
  dsimp only
  (repeat' split) <;> simp

@[simp] theorem fuses_noteAsker (a l : Nat) (k : Asker) (s : State) : fuses (noteAsker a l k s) = fuses s := by simp [noteAsker]

@[simp] theorem fuses_updPlace (a l : Nat) (f : LinePlace → LinePlace) (s : State) : fuses (updPlace a l f s) = fuses s := by
  unfold updPlace
  split <;> simp

@[simp] theorem fuses_fitCache (a l core ways sets : Nat) (held : LinePlace → BitVec 72) (drop : LinePlace → LinePlace) (s : State) :
    fuses (fitCache a l core ways sets held drop s) = fuses s := by
  unfold fitCache
  dsimp only
  (repeat' split) <;> simp

@[simp] theorem fuses_touchCore (a l core : Nat) (code store : Bool) (s : State) :
    fuses (touchCore a l core code store s) = fuses s := by simp [touchCore]

@[simp] theorem fuses_proceed (l : Nat) (s : State) : fuses (proceed l s) = fuses s := by
  unfold proceed
  dsimp only
  (repeat' split) <;> simp

@[simp] theorem fuses_openTxn (l src : Nat) (req : CohReq) (inval owners : List Nat) (s : State) :
    fuses (openTxn l src req inval owners s) = fuses s := by simp [openTxn]

@[simp] theorem fuses_acceptReq (l src : Nat) (req : CohReq) (s : State) : fuses (acceptReq l src req s) = fuses s := by
  unfold acceptReq
  dsimp only
  (repeat' split) <;> simp

@[simp] theorem fuses_serveQueue (l n : Nat) (s : State) : fuses (serveQueue l n s) = fuses s := by
  induction n generalizing s with
  | zero => rfl
  | succ n ih =>
    unfold serveQueue
    split
    · rfl
    · split <;> simp [ih]

@[simp] theorem fuses_nextReq (l : Nat) (s : State) : fuses (nextReq l s) = fuses s := by simp [nextReq]
@[simp] theorem fuses_queueReq (l src : Nat) (req : CohReq) (s : State) : fuses (queueReq l src req s) = fuses s := by rfl

@[simp] theorem fuses_answered (l a : Nat) (data : Option LineData) (s : State) : fuses (answered l a data s) = fuses s := by
  unfold answered
  split <;> simp

@[simp] theorem fuses_deliver (m : ShankMsg) (s : State) : fuses (deliver m s) = fuses s := by
  unfold deliver
  dsimp only
  (repeat' split) <;> simp

@[simp] theorem fuses_takeMsg (m : ShankMsg) (s : State) : fuses (takeMsg m s) = fuses s := by rfl
@[simp] theorem fuses_arriveMsg (m : ShankMsg) (s : State) : fuses (arriveMsg m s) = fuses s := by simp [arriveMsg]

@[simp] theorem fuses_settleLoop (l n : Nat) (s : State) : fuses (settleLoop l n s) = fuses s := by
  induction n generalizing s with
  | zero => rfl
  | succ n ih => unfold settleLoop; split <;> simp [ih]

@[simp] theorem fuses_settleLine (l : Nat) (s : State) : fuses (settleLine l s) = fuses s := by simp [settleLine]

@[simp] theorem fuses_recallLine (l : Nat) (s : State) : fuses (recallLine l s) = fuses s := by
  unfold recallLine
  dsimp only
  (repeat' split) <;> simp

@[simp] theorem fuses_cohStoreLine (l : Nat) (mask : BitVec 64) (data : LineData) (s : State) :
    fuses (cohStoreLine l mask data s) = fuses s := by simp [cohStoreLine]

@[simp] theorem fuses_cohWrite (a : Nat) (bs : List Byte) (s : State) : fuses (cohWrite a bs s) = fuses s := by simp [cohWrite]
@[simp] theorem fuses_cohPut (a n v : Nat) (s : State) : fuses (cohPut a n v s) = fuses s := by simp [cohPut]
@[simp] theorem fuses_sharedCopy (src l : Nat) (s : State) : fuses (sharedCopy src l s).2.2 = fuses s := by simp [sharedCopy]
@[simp] theorem fuses_uniqueCopy (m l : Nat) (s : State) : fuses (uniqueCopy m l s).2 = fuses s := by simp [uniqueCopy]

theorem fuses_of_edgeRead {d c l : Nat} {s t : State} {x} (h : edgeRead d c l s = (x, t)) : fuses t = fuses s := by
  unfold edgeRead at h
  split at h <;> cases h <;> simp

@[simp] theorem fuses_reduceLine (op l : Nat) (data : LineData) (s : State) :
    fuses (reduceLine op l data s) = fuses s := by simp [reduceLine]

@[simp] theorem fuses_atomicAtHome (l : Nat) (op : AtomicOp) (s : State) : fuses (atomicAtHome l op s).2 = fuses s := by simp [atomicAtHome]

/-! ### Machine/Ecc -/

@[simp] theorem fuses_corrected (u g : Nat) (uni : Option Nat) (s : State) : fuses (corrected u g uni s) = fuses s := by
  unfold corrected
  dsimp only
  (repeat' split) <;> simp

@[simp] theorem fuses_uncorrectable (u i : Nat) (uni : Option Nat) (s : State) : fuses (uncorrectable u i uni s) = fuses s := by
  unfold uncorrectable
  split <;> simp

@[simp] theorem fuses_copyError (m l : Nat) (x : L3Line) (e : LineError) (s : State) : fuses (copyError m l x e s) = fuses s := by
  unfold copyError
  split <;> simp

@[simp] theorem fuses_controllerRead (a : Access) (s : State) : fuses (controllerRead a s) = fuses s := by
  unfold controllerRead
  dsimp only
  (repeat' split) <;> simp

/-! ### Machine/Tiers -/

@[simp] theorem fuses_charge (c : Nat) (hbm : Bool) (s : State) : fuses (charge c hbm s) = fuses s := by rfl
@[simp] theorem fuses_uncharge (c : Nat) (hbm : Bool) (s : State) : fuses (uncharge c hbm s) = fuses s := by simp [uncharge]
@[simp] theorem fuses_recallGranule (g : Nat) (s : State) : fuses (recallGranule g s) = fuses s := by simp [recallGranule]
@[simp] theorem fuses_zeroGranule (g : Nat) (s : State) : fuses (zeroGranule g s) = fuses s := by rfl
@[simp] theorem fuses_rekeyGranule (g : Nat) (newOwner : BitVec 12) (s : State) : fuses (rekeyGranule g newOwner s) = fuses s := by rfl
@[simp] theorem fuses_putIn (g c : Nat) (hbm : Bool) (loc : Nat) (s : State) : fuses (putIn g c hbm loc s) = fuses s := by simp [putIn]

theorem fuses_of_placeGranule {g c : Nat} {die : Option Nat} {s t : State} (h : placeGranule g c die s = .ok t) : fuses t = fuses s := by
  simp only [placeGranule] at h
  split at h <;> cases h
  simp

@[simp] theorem fuses_postNoRoom (e : NoRoom) (c a : Nat) (s : State) : fuses (postNoRoom e c a s) = fuses s := by
  unfold postNoRoom
  split <;> simp

@[simp] theorem fuses_startMove (g : Nat) (kind : MoveKind) (toHbm : Bool) (target : Nat) (queued : List Waiter) (s : State) :
    fuses (startMove g kind toHbm target queued s) = fuses s := by simp [startMove]

@[simp] theorem fuses_undoMove (g : Nat) (m : Move) (s : State) : fuses (undoMove g m s) = fuses s := by simp [undoMove]

@[simp] theorem fuses_completeMove (g : Nat) (m : Move) (s : State) : fuses (completeMove g m s) = fuses s := by
  unfold completeMove
  dsimp only
  (repeat' split) <;> simp

@[simp] theorem fuses_loadLine (m : Option Nat) (l : Nat) (s : State) : fuses (loadLine m l s).2 = fuses s := by
  unfold loadLine
  split <;> simp

@[simp] theorem fuses_loadBytes (m : Option Nat) (p n : Nat) (s : State) : fuses (loadBytes m p n s).2 = fuses s := by simp [loadBytes]

@[simp] theorem fuses_storeL3 (m p : Nat) (bs : List Byte) (s : State) : fuses (storeL3 m p bs s) = fuses s := by
  refine fuses_each _ _ (fun i t => ?_) s
  dsimp only
  split <;> simp

@[simp] theorem fuses_consumePoison (a : Access) (s : State) : fuses (consumePoison a s) = fuses s := by
  unfold consumePoison
  split <;> simp

@[simp] theorem fuses_askLine (a : Access) (m : Option Nat) (l : Nat) (s : State) : fuses (askLine a m l s) = fuses s := by
  unfold askLine
  split <;> simp

@[simp] theorem fuses_useLines (a : Access) (m : Option Nat) (s : State) : fuses (useLines a m s) = fuses s := by
  unfold useLines
  split <;> simp

@[simp] theorem fuses_performAccess (a : Access) (s : State) : fuses (performAccess a s) = fuses s := by
  unfold performAccess
  dsimp only
  (repeat' split) <;> simp

@[simp] theorem fuses_letIn (w : Waiter) (s : State) : fuses (letIn w s) = fuses s := by
  unfold letIn
  split <;> simp

@[simp] theorem fuses_serveAll (q : List Waiter) (s : State) : fuses (serveAll q s) = fuses s := by simp [serveAll]
@[simp] theorem fuses_retireLater (g cause : Nat) (s : State) : fuses (retireLater g cause s) = fuses s := by rfl

@[simp] theorem fuses_abandonMove (g : Nat) (m : Move) (s : State) : fuses (abandonMove g m s) = fuses s := by
  unfold abandonMove
  split <;> simp

@[simp] theorem fuses_finishMove (g : Nat) (m : Move) (s : State) : fuses (finishMove g m s) = fuses s := by simp [finishMove]

/-- The state an arrival ends in, whichever way it goes. -/
def Arrival.state : Arrival → State
  | .goes s => s
  | .held s => s
  | .refused _ s => s

theorem fuses_of_arriveAt {g c : Nat} {die : Option Nat} {w : Waiter} {s : State} {r} (h : arriveAt g c die w s = r) :
    fuses r.state = fuses s := by
  subst h
  unfold arriveAt
  dsimp only
  split
  · simp [Arrival.state]
  · simp [Arrival.state]
  · split
    · rfl
    · simp [Arrival.state, fuses_of_placeGranule ‹_›]
  · split
    · split <;> simp [Arrival.state]
    · simp [Arrival.state]
  · simp [Arrival.state]

@[simp] theorem fuses_settleGranule (g : Nat) (s : State) : fuses (settleGranule g s) = fuses s := by
  unfold settleGranule
  split <;> simp

theorem fuses_of_touchGranule {g c : Nat} {die : Option Nat} {s t : State} (h : touchGranule g c die s = .ok t) : fuses t = fuses s := by
  simp only [touchGranule] at h
  split at h
  · cases hp : placeGranule g c die (settleGranule g s) with
    | error e => simp [hp, Except.map] at h
    | ok u =>
      simp only [hp, Except.map, Except.ok.injEq] at h
      simp [← h, fuses_of_placeGranule hp]
  · split at h
    · split at h <;> cases h <;> simp
    · cases h
      simp
  · cases h
    simp

theorem fuses_of_touchRange {a n c : Nat} {die : Option Nat} {s t : State} (h : touchRange a n c die s = .ok t) : fuses t = fuses s := by
  refine fuses_of_foldl_ok (fun r i t e => ?_) h
  split at e
  · cases e
  · split at e <;> cases e
    exact ⟨_, rfl, fuses_of_touchGranule ‹_›⟩

/-- The two ways an access of an I/O agent to its bytes ends: they lie in a tier, or none takes one of their granules. -/
theorem touchIo_cases {P : State → Prop} {a n : Nat} {s : State} (ok : ∀ t, touchRange a n 0 none s = .ok t → P t)
    (error : ∀ e b, touchRange a n 0 none s = .error (e, b) → P (postNoRoom e 0 b s)) : P (touchIo a n s) := by
  generalize hf : touchIo = f
  delta touchIo at hf
  subst hf
  beta_reduce
  split
  · exact ok _ ‹_›
  · exact error _ _ ‹_›

@[simp] theorem fuses_touchIo (a n : Nat) (s : State) : fuses (touchIo a n s) = fuses s :=
  touchIo_cases (P := fun t => fuses t = fuses s) (fun _ => fuses_of_touchRange) (by simp)

@[simp] theorem fuses_ioWrite (a : Nat) (bs : List Byte) (s : State) : fuses (ioWrite a bs s) = fuses s := by simp [ioWrite]
@[simp] theorem fuses_ioPut (a n v : Nat) (s : State) : fuses (ioPut a n v s) = fuses s := by simp [ioPut]

/-! ### Machine/LaceCore -/

@[simp] theorem fuses_transmit (p n : Nat) (wire : List Byte) (s : State) : fuses (transmit p n wire s) = fuses s := by simp [transmit]

@[simp] theorem fuses_sendLace (p ty aux tag cmd oper : Nat) (data : List Byte) (s : State) :
    fuses (sendLace p ty aux tag cmd oper data s) = fuses s := by
  unfold sendLace
  split <;> simp

@[simp] theorem fuses_sendMemb (p ty oper : Nat) (data : List Byte) (s : State) : fuses (sendMemb p ty oper data s) = fuses s := by
  unfold sendMemb
  split <;> simp

@[simp] theorem fuses_abortFor (d : Nat) (s : State) : fuses (abortFor d s) = fuses s := by
  refine fuses_each _ _ (fun p t => ?_) s
  split <;> simp

@[simp] theorem fuses_retireTags (d : Nat) (s : State) : fuses (retireTags d s) = fuses s := by rfl

/-! ### Machine/PowerCore -/

@[simp] theorem fuses_setPoint (site mv : Nat) (s : State) : fuses (setPoint site mv s) = fuses s := by simp [setPoint]

@[simp] theorem fuses_throttleFor (c : Option Nat × Nat) (load : Nat) (s : State) :
    fuses (throttleFor c load s) = fuses s := by simp [throttleFor]

@[simp] theorem fuses_coverSlews (s : State) : fuses (coverSlews s) = fuses s := by simp [coverSlews]
@[simp] theorem fuses_lowerBorrowers (site : Nat) (s : State) : fuses (lowerBorrowers site s) = fuses s := by simp [lowerBorrowers]
@[simp] theorem fuses_moveToLevel (site want : Nat) (s : State) : fuses (moveToLevel site want s) = fuses s := by simp [moveToLevel]
@[simp] theorem fuses_setLevel (site level : Nat) (s : State) : fuses (setLevel site level s) = fuses s := by simp [setLevel]
@[simp] theorem fuses_levelPlaced (d : Nat) (s : State) : fuses (levelPlaced d s) = fuses s := by simp [levelPlaced]
@[simp] theorem fuses_levelIdle (d : Nat) (s : State) : fuses (levelIdle d s) = fuses s := by simp [levelIdle]

/-! ### Machine/JobEnd -/

@[simp] theorem fuses_releaseRpin (demote : Bool) (g : Nat) (s : State) : fuses (releaseRpin demote g s) = fuses s := by
  unfold releaseRpin
  dsimp only
  (repeat' split) <;> simp

@[simp] theorem fuses_releasePins (d : Nat) (s : State) : fuses (releasePins d s) = fuses s := by simp [releasePins]
@[simp] theorem fuses_requestMsi (c : Nat) (s : State) : fuses (requestMsi c s) = fuses s := by simp [requestMsi]
@[simp] theorem fuses_hostJobEnded (serial status : Nat) (s : State) : fuses (hostJobEnded serial status s) = fuses s := by rfl
@[simp] theorem fuses_hostJobRead (c slot serial : Nat) (s : State) : fuses (hostJobRead c slot serial s) = fuses s := by rfl
@[simp] theorem fuses_hostJobsLost (c : Nat) (s : State) : fuses (hostJobsLost c s) = fuses s := by rfl

@[simp] theorem fuses_writeRecord (j : Job) (serial status event : Nat) (msi : Bool) (s : State) :
    fuses (writeRecord j serial status event msi s) = fuses s := by simp [writeRecord]

@[simp] theorem fuses_takeStall (d : Nat) (k : Nat) (s : State) : fuses (takeStall d k s) = fuses s := by simp [takeStall]

@[simp] theorem fuses_releaseDies (k : Nat) (s : State) : fuses (releaseDies k s) = fuses s := by
  unfold releaseDies
  split <;> simp

@[simp] theorem fuses_dropCtxKeys (c : Nat) (s : State) : fuses (dropCtxKeys c s) = fuses s := by simp [dropCtxKeys]
@[simp] theorem fuses_settleReset (c : Nat) (s : State) : fuses (settleReset c s) = fuses s := by simp [settleReset]

@[simp] theorem fuses_finishJob (k status event : Nat) (msi : Bool) (s : State) : fuses (finishJob k status event msi s) = fuses s := by
  unfold finishJob
  dsimp only
  (repeat' split) <;> simp

/-! ### Machine/Translation -/

theorem fuses_of_readEntry {c pa : Nat} {s t : State} {r} (h : readEntry c pa s = (r, t)) : fuses t = fuses s := by
  unfold readEntry at h
  split at h
  · split at h <;> cases h
    · exact fuses_of_touchGranule ‹_›
    · rfl
  · cases h
    rfl

@[simp] theorem fuses_writeEntry (pa v : Nat) (s : State) : fuses (writeEntry pa v s) = fuses s := by simp [writeEntry]

theorem fuses_walk {c : Nat} {k : Walking} (he : ∀ {a w s r t}, k.entry a w s = (r, t) → fuses t = fuses s)
    (hn : ∀ l a g s, fuses (k.note l a g s) = fuses s)
    (level table : Nat) (glob : Bool) (s : State) : fuses (walk c k level table glob s).2 = fuses s := by
  induction level generalizing table glob s with
  | zero =>
    rw [walk]
    dsimp only
    (repeat' split) <;> grind only [→ fuses_of_readEntry, fuses_writeEntry]
  | succ l ih =>
    rw [walk]
    dsimp only
    (repeat' split) <;> grind only [→ fuses_of_readEntry, fuses_writeEntry]

theorem fuses_of_samePa {a : Nat} {w : Bool} {s t : State} {r} (h : samePa a w s = (r, t)) : fuses t = fuses s := by
  cases h
  rfl

theorem fuses_of_walkStage {c : Nat} {die : Option Nat} {x : TrCtx} {g : Bool} {entry : Nat → Bool → State → Except TrFault Nat × State}
    (he : ∀ {a w s r t}, entry a w s = (r, t) → fuses t = fuses s) {ade write : Bool} {index : Nat → Nat} {addr root table : Nat} {s t : State} {r}
    (h : walkStage c die x g entry ade write index addr root table s = (r, t)) : fuses t = fuses s := by
  refine (congrArg (fuses ·.2) h).symm.trans (fuses_walk he (fun l a glob u => ?_) _ _ _ _)
  cases die <;> simp

theorem fuses_of_gStage {c : Nat} {die : Option Nat} {x : TrCtx} {gpa : Nat} {write : Bool} {s t : State} {r}
    (h : gStage c die x gpa write s = (r, t)) : fuses t = fuses s := by
  unfold gStage at h
  grind only [→ fuses_of_walkStage, → fuses_of_samePa]

theorem fuses_of_viaG {c : Nat} {die : Option Nat} {x : TrCtx} {gpa : Nat} {write : Bool} {s t : State} {r}
    (h : viaG c die x gpa write s = (r, t)) : fuses t = fuses s := by
  unfold viaG at h
  grind only [→ fuses_of_gStage]

theorem fuses_of_sStage {c : Nat} {die : Option Nat} {x : TrCtx} {va : Nat} {write : Bool} {s t : State} {r}
    (h : sStage c die x va write s = (r, t)) : fuses t = fuses s := by
  unfold sStage at h
  grind only [→ fuses_of_walkStage, → fuses_of_viaG]

theorem fuses_of_overG {c : Nat} {die : Option Nat} {x : TrCtx} {va : Nat} {write : Bool} {l : Leaf} {s t : State} {r}
    (h : overG c die x va write l s = (r, t)) : fuses t = fuses s := by
  unfold overG at h
  grind only [→ fuses_of_gStage]

theorem fuses_of_bothStages {c : Nat} {die : Option Nat} {x : TrCtx} {va : Nat} {write : Bool} {s t : State} {r}
    (h : bothStages c die x va write s = (r, t)) : fuses t = fuses s := by
  unfold bothStages at h
  grind only [→ fuses_of_sStage, → fuses_of_overG]

@[simp] theorem fuses_setIommuReg (off n v : Nat) (s : State) : fuses (setIommuReg off n v s) = fuses s := by rfl

theorem fuses_of_ddtWalk {did c level table : Nat} {s t : State} {r} (h : ddtWalk did c level table s = (r, t)) : fuses t = fuses s := by
  induction level generalizing table s with
  | zero =>
    unfold ddtWalk at h
    grind only [fuses_touchIo]
  | succ l ih =>
    unfold ddtWalk at h
    grind only [→ fuses_of_readEntry]

theorem fuses_of_deviceCtx {did c : Nat} {s t : State} {r} (h : deviceCtx did c s = (r, t)) : fuses t = fuses s := by
  unfold deviceCtx at h
  grind only [→ fuses_of_ddtWalk, fuses]

theorem fuses_of_pdtWalk {pid c : Nat} {die : Option Nat} {x : TrCtx} {level table : Nat} {s t : State} {r}
    (h : pdtWalk pid c die x level table s = (r, t)) : fuses t = fuses s := by
  induction level generalizing table s with
  | zero =>
    rw [pdtWalk] at h
    dsimp only at h
    (repeat' split at h) <;> grind only [→ fuses_of_viaG, → fuses_of_readEntry]
  | succ l ih =>
    rw [pdtWalk] at h
    dsimp only at h
    (repeat' split at h) <;> grind only [→ fuses_of_viaG, → fuses_of_readEntry]

theorem fuses_of_processCtx {did pid c : Nat} {die : Option Nat} {dc : List W64} {s t : State} {r}
    (h : processCtx did pid c die dc s = (r, t)) : fuses t = fuses s := by
  unfold processCtx at h
  grind only [→ fuses_of_pdtWalk, fuses]

theorem fuses_of_trCtx {did c : Nat} {pid die : Option Nat} {s t : State} {r} (h : trCtx did pid c die s = (r, t)) : fuses t = fuses s := by
  unfold trCtx at h
  grind only [→ fuses_of_deviceCtx, → fuses_of_processCtx]

theorem fuses_of_translate {d c va : Nat} {write : Bool} {s t : State} {r} (h : translate d c va write s = (r, t)) : fuses t = fuses s := by
  unfold translate at h
  dsimp only at h
  (repeat' split at h) <;> grind only [→ fuses_of_trCtx, → fuses_of_bothStages, fuses_updDie]

theorem fuses_of_vread {d c : Nat} {viaEdge : Bool} {va n : Nat} {s t : State} {r} (h : vread d c viaEdge va n s = (r, t)) :
    fuses t = fuses s := by
  simp only [vread] at h
  split at h
  · cases h
    refine fuses_of_snd (fuses_foldl_snd _ _ (fun i b => ?_) _) ‹_›
    (repeat' split) <;> grind only [→ fuses_of_translate, → fuses_of_touchGranule, → fuses_of_edgeRead, fuses_noKey, fuses_noteTraffic]
  · refine fuses_of_snd (fuses_foldl_snd _ _ (fun i b => ?_) _) h
    (repeat' split) <;> grind only [→ fuses_of_translate, → fuses_of_touchGranule, → fuses_of_edgeRead, fuses_noKey, fuses_noteTraffic]

theorem fuses_of_vwrite {d c va : Nat} {bs : List Byte} {s t : State} {r} (h : vwrite d c va bs s = (r, t)) : fuses t = fuses s := by
  refine fuses_of_snd (fuses_foldl_snd _ _ (fun i b => ?_) _) h
  (repeat' split) <;> grind only [→ fuses_of_translate, → fuses_of_touchGranule, fuses_cohStoreLine, fuses_noteTraffic]

/-! ### Machine/Kill -/

@[simp] theorem fuses_dropNets (d : Nat) (s : State) : fuses (dropNets d s) = fuses s := by rfl
@[simp] theorem fuses_killDie (d : Nat) (s : State) : fuses (killDie d s) = fuses s := by simp [killDie]

@[simp] theorem fuses_startKill (k : Nat) (s : State) : fuses (startKill k s) = fuses s := by
  unfold startKill
  split <;> simp

@[simp] theorem fuses_beginKill (k : Nat) (c : KillCause) (s : State) : fuses (beginKill k c s) = fuses s := by
  unfold beginKill
  dsimp only
  (repeat' split) <;> simp

@[simp] theorem fuses_killOn (d : Nat) (c : KillCause) (s : State) : fuses (killOn d c s) = fuses s := by
  unfold killOn
  split <;> simp

@[simp] theorem fuses_postDie (code d : Nat) (payload : List Nat) (s : State) :
    fuses (postDie code d payload s) = fuses s := by simp [postDie]

@[simp] theorem fuses_stopWith (d : Nat) (e : Stop) (s : State) : fuses (stopWith d e s) = fuses s := by
  unfold stopWith
  split <;> simp

/-! ### Machine/Drain -/

@[simp] theorem fuses_sendCommits (d : Nat) (s : State) : fuses (sendCommits d s) = fuses s := by
  refine fuses_each _ _ (fun p t => ?_) s
  split <;> simp

@[simp] theorem fuses_startDrain (d : Nat) (s : State) : fuses (startDrain d s) = fuses s := by simp [startDrain]

@[simp] theorem fuses_tryDrain (k : Nat) (s : State) : fuses (tryDrain k s) = fuses s := by
  unfold tryDrain
  split <;> simp

@[simp] theorem fuses_tryDrainOn (d : Nat) (s : State) : fuses (tryDrainOn d s) = fuses s := by
  unfold tryDrainOn
  split <;> simp

/-! ### Machine/Domain -/

@[simp] theorem fuses_setSite (i state reason : Nat) (s : State) : fuses (setSite i state reason s) = fuses s := by rfl
@[simp] theorem fuses_countChange (s : State) : fuses (countChange s) = fuses s := by rfl

@[simp] theorem fuses_setMemorySites (site state reason : Nat) (s : State) :
    fuses (setMemorySites site state reason s) = fuses s := by simp [setMemorySites]

@[simp] theorem fuses_clearUnitMap (d : Nat) (s : State) : fuses (clearUnitMap d s) = fuses s := by rfl
@[simp] theorem fuses_restartHarts (s : State) : fuses (restartHarts s) = fuses s := by rfl
@[simp] theorem fuses_discardQueue (q code : Nat) (s : State) : fuses (discardQueue q code s) = fuses s := by simp [discardQueue]
@[simp] theorem fuses_idleDiscard (q : Nat) (s : State) : fuses (idleDiscard q s) = fuses s := by simp [idleDiscard]
@[simp] theorem fuses_cqAdvance (s : State) : fuses (cqAdvance s) = fuses s := by simp [cqAdvance]
@[simp] theorem fuses_completeFence (a : FenceArgs) (s : State) : fuses (completeFence a s) = fuses s := by simp [completeFence]

@[simp] theorem fuses_settleFences (s : State) : fuses (settleFences s) = fuses s := by
  unfold settleFences
  split <;> simp

@[simp] theorem fuses_dropJob (k : Nat) (s : State) : fuses (dropJob k s) = fuses s := by
  unfold dropJob
  split <;> simp

@[simp] theorem fuses_failPlaced (code : Nat) (record : Bool) (s : State) :
    fuses (failPlaced code record s) = fuses s := by simp [failPlaced]

@[simp] theorem fuses_resetDomainState (s : State) : fuses (resetDomainState s) = fuses s := by simp [resetDomainState]
@[simp] theorem fuses_loseOrigin (code origin : Nat) (s : State) : fuses (loseOrigin code origin s) = fuses s := by simp [loseOrigin]

@[simp] theorem fuses_domainFault (code detect detail origin : Nat) (s : State) :
    fuses (domainFault code detect detail origin s) = fuses s := by simp [domainFault]

/-! ### Machine/PageReq -/

@[simp] theorem fuses_orIommuReg (off v : Nat) (s : State) : fuses (orIommuReg off v s) = fuses s := by rfl

@[simp] theorem fuses_imsicWrite (a v : Nat) (s : State) : fuses (imsicWrite a v s) = fuses s := by
  unfold imsicWrite
  split <;> simp

@[simp] theorem fuses_agentMsi (ip : Nat) (s : State) : fuses (agentMsi ip s) = fuses s := by simp [agentMsi]
@[simp] theorem fuses_raiseAgent (ip : Nat) (s : State) : fuses (raiseAgent ip s) = fuses s := by simp [raiseAgent]

@[simp] theorem fuses_queueRecord (base head csr ovf ip : Nat) (rec : List Byte) (s : State) :
    fuses (queueRecord base head csr ovf ip rec s) = fuses s := by simp [queueRecord]

@[simp] theorem fuses_recordFault (did : Nat) (pid : Option Nat) (cause va guest : Nat) (write : Bool) (s : State) :
    fuses (recordFault did pid cause va guest write s) = fuses s := by simp [recordFault]

@[simp] theorem fuses_postFault (c cause va : Nat) (write : Bool) (s : State) :
    fuses (postFault c cause va write s) = fuses s := by simp [postFault]

@[simp] theorem fuses_postRequest (d c va i : Nat) (write : Bool) (start : Option (BitVec 64)) (acts : List HeldAct) (s : State) :
    fuses (postRequest d c va i write start acts s) = fuses s := by simp [postRequest]

@[simp] theorem fuses_pageRequest (d c va : Nat) (write now : Bool) (act : HeldAct) (s : State) :
    fuses (pageRequest d c va write now act s) = fuses s := by
  unfold pageRequest
  dsimp only
  (repeat' split) <;> simp

@[simp] theorem fuses_memStop (d c : Nat) (act : HeldAct) (now : Bool) (e : MemStop) (s : State) :
    fuses (memStop d c act now e s) = fuses s := by
  unfold memStop
  split <;> simp

theorem fuses_of_readVirtual {d c : Nat} {viaEdge : Bool} {va n : Nat} {s t : State} {r} (h : readVirtual d c viaEdge va n s = (r, t)) :
    fuses t = fuses s := by
  unfold readVirtual at h
  split at h <;> cases h <;> exact fuses_of_vread ‹_›

/-! ### Machine/Defer -/

@[simp] theorem fuses_issueAct (d steps : Nat) (img : Image) (a : UnitAct) (act : State → Option State)
    (h : ∀ {s t}, act s = some t → fuses t = fuses s) (s : State) : fuses (issueAct d steps img a act s) = fuses s := by
  unfold issueAct
  grind only [fuses_updDie]

/-! ### Machine/Round -/

@[simp] theorem fuses_onDie (d : Nat) (f : DieSt → Act DieSt) (s : State) : fuses (onDie d f s) = fuses s := by
  unfold onDie
  split <;> simp

@[simp] theorem fuses_promoteGranule (d i : Nat) (pin : Bool) (g : Nat) (s : State) : fuses (promoteGranule d i pin g s) = fuses s := by
  unfold promoteGranule
  dsimp only
  (repeat' split) <;> simp

@[simp] theorem fuses_promoteEntry (d i : Nat) (s : State) : fuses (promoteEntry d i s) = fuses s := by
  simp only [promoteEntry, fuses_promoteGranule, implies_true, fuses_each]
  refine fuses_foldl_snd _ _ (fun va b => ?_) _
  split <;> exact fuses_of_translate ‹_›

@[simp] theorem fuses_promote (d : Nat) (s : State) : fuses (promote d s) = fuses s := by simp [promote]

theorem fuses_of_readTile {d i : Nat} {s t : State} {r} (h : readTile d i s = (r, t)) : fuses t = fuses s := by
  refine fuses_of_snd (fuses_foldl_snd _ _ (fun i b => ?_) _) h
  (repeat' split) <;> grind only [→ fuses_of_readVirtual]

@[simp] theorem fuses_fetchEntry (d i : Nat) (s : State) : fuses (fetchEntry d i s) = fuses s := by
  unfold fetchEntry
  dsimp only
  (repeat' split) <;> grind only [→ fuses_of_readTile, fuses_updDie, fuses_setDie, fuses_memStop]

@[simp] theorem fuses_nearFetch (d : Nat) (s : State) : fuses (nearFetch d s) = fuses s := by
  unfold nearFetch
  dsimp only
  (repeat' split) <;> simp

@[simp] theorem fuses_tileFetched (d : Nat) (s : State) : fuses (tileFetched d s) = fuses s := by simp [tileFetched]
@[simp] theorem fuses_releaseEntry (d i : Nat) (s : State) : fuses (releaseEntry d i s) = fuses s := by simp [releaseEntry]

@[simp] theorem fuses_slotLoadDone (d vat : Nat) (s : State) : fuses (slotLoadDone d vat s) = fuses s := by
  unfold slotLoadDone
  (repeat' split) <;> simp

/-! ### Machine/Store -/

@[simp] theorem fuses_compactArea (area : Nat) (s : State) : fuses (compactArea area s) = fuses s := by rfl
@[simp] theorem fuses_takeDeviceOut (d : Nat) (s : State) : fuses (takeDeviceOut d s) = fuses s := by rfl

@[simp] theorem fuses_programWith (fails : List Nat) (act : State → State) (h : ∀ s, fuses (act s) = fuses s) (s : State) :
    fuses (programWith fails act s) = fuses s := by simp [programWith, h]

@[simp] theorem fuses_storeRecord (area payload : Nat) (s : State) : fuses (storeRecord area payload s) = fuses s := by simp [storeRecord]

/-! ### Machine/Vats -/

@[simp] theorem fuses_startBudgets (d : Nat) (s : State) : fuses (startBudgets d s) = fuses s := by rfl

theorem fuses_of_dieStep {d : Nat} {f : DieSt → Act DieSt} {s t : State} (h : dieStep d f s = some t) : fuses t = fuses s := by
  unfold dieStep at h
  split at h <;> cases h <;> simp

theorem fuses_of_vatStart {d : Nat} {img : Image} {a : UnitAct} {s t : State} (h : vatStart d img a s = some t) : fuses t = fuses s := by
  have run : ∀ {f}, (dieStep d f s).map (startBudgets d) = some t → fuses t = fuses s := by
    intro f h
    obtain ⟨u, hu, rfl⟩ := Option.map_eq_some_iff.mp h
    simp [fuses_of_dieStep hu]
  unfold vatStart at h
  split at h
  · exact run h
  · exact run h
  · exact run h
  · cases h
    rfl

@[simp] theorem fuses_issueVat (d : Nat) (img : Image) (a : UnitAct) (s : State) : fuses (issueVat d img a s) = fuses s :=
  fuses_issueAct _ _ _ _ _ fuses_of_vatStart _

@[simp] theorem fuses_vatRow (d k : Nat) (ok : Image → Bool) (a : UnitAct) (s : State) : fuses (vatRow d k ok a s) = fuses s := by
  unfold vatRow
  split <;> simp

@[simp] theorem fuses_passRow (d k slot di : Nat) (s : State) : fuses (passRow d k slot di s) = fuses s := by simp [passRow]
@[simp] theorem fuses_loadRow (d k slot di : Nat) (s : State) : fuses (loadRow d k slot di s) = fuses s := by simp [loadRow]

@[simp] theorem fuses_passldRow (d k slot di lslot ldi : Nat) (s : State) :
    fuses (passldRow d k slot di lslot ldi s) = fuses s := by simp [passldRow]

@[simp] theorem fuses_passFed (d vat : Nat) (s : State) : fuses (passFed d vat s) = fuses s := by simp [passFed]
@[simp] theorem fuses_loadComplete (d vat : Nat) (s : State) : fuses (loadComplete d vat s) = fuses s := by simp [loadComplete]
@[simp] theorem fuses_recordRetired (d phys : Nat) (s : State) : fuses (recordRetired d phys s) = fuses s := by simp [recordRetired]
@[simp] theorem fuses_recordFailedDie (d : Nat) (s : State) : fuses (recordFailedDie d s) = fuses s := by simp [recordFailedDie]

@[simp] theorem fuses_retireVat (d phys : Nat) (first : BitVec 64) (s : State) :
    fuses (retireVat d phys first s) = fuses s := by simp [retireVat]

@[simp] theorem fuses_mismatch (d phys block vec : Nat) (s : State) : fuses (mismatch d phys block vec s) = fuses s := by
  unfold mismatch
  split <;> simp

@[simp] theorem fuses_passComplete (d vat : Nat) (s : State) : fuses (passComplete d vat s) = fuses s := by
  unfold passComplete
  dsimp only
  (repeat' split) <;> simp

/-! ### Machine/Churn -/

theorem fuses_of_memStart {d : Nat} {img : Image} {a : UnitAct} {s t : State} (h : memStart d img a s = some t) : fuses t = fuses s := by
  unfold memStart at h
  dsimp only at h
  (repeat' split at h) <;> cases h <;> simp

@[simp] theorem fuses_issueMem (d : Nat) (img : Image) (a : UnitAct) (s : State) : fuses (issueMem d img a s) = fuses s :=
  fuses_issueAct _ _ _ _ _ fuses_of_memStart _

@[simp] theorem fuses_churnRegRow (op : Nat) (f : ChurnIn → ChurnReg → ChurnOut) (d : Die) (u : BitVec 2) (a : ChurnReg) (s : State) :
    fuses (churnRegRow op f d u a s) = fuses s := by
  unfold churnRegRow
  split
  · rfl
  · split
    · exact fuses_issueAct _ _ _ _ _ fuses_of_dieStep _
    · rfl

@[simp] theorem fuses_churnMemRow (act : UnitAct) (d : Die) (u : BitVec 2) (a : ChurnMem) (s : State) :
    fuses (churnMemRow act d u a s) = fuses s := by
  unfold churnMemRow
  split <;> simp

/-! ### Machine/Cluster -/

@[simp] theorem fuses_timerCompare (h : Nat) (k : TimerKind) (s : State) : fuses (timerCompare h k s) = fuses s := by simp [timerCompare]
@[simp] theorem fuses_writeVmid (h : Nat) (v : BitVec 14) (s : State) : fuses (writeVmid h v s) = fuses s := by simp [writeVmid]
@[simp] theorem fuses_setCbqri (c r : Nat) (x : CbqriAlloc) (s : State) : fuses (setCbqri c r x s) = fuses s := by rfl

@[simp] theorem fuses_cbqriRequest (a : CbqriArgs) (s : State) : fuses (cbqriRequest a s) = fuses s := by
  unfold cbqriRequest
  split <;> simp

@[simp] theorem fuses_platformInfo (s : State) : fuses (platformInfo s) = fuses s := by rfl
@[simp] theorem fuses_calendarRead (s : State) : fuses (calendarRead s) = fuses s := by simp [calendarRead]

@[simp] theorem fuses_corePhase (h : Nat) (level horizon : BitVec 64) (s : State) :
    fuses (corePhase h level horizon s) = fuses s := by simp [corePhase]

@[simp] theorem fuses_hartStatus (h : Nat) (s : State) : fuses (hartStatus h s) = fuses s := by simp [hartStatus]

@[simp] theorem fuses_hartSuspend (h : Nat) (retentive : Bool) (s : State) :
    fuses (hartSuspend h retentive s) = fuses s := by simp [hartSuspend]

/-! ### Machine/Coherence -/

@[simp] theorem fuses_protocolFault (site line : Nat) (s : State) : fuses (protocolFault site line s) = fuses s := by simp [protocolFault]

@[simp] theorem fuses_noteWriteBack (line src : Nat) (req : CohReq) (s : State) : fuses (noteWriteBack line src req s) = fuses s := by
  unfold noteWriteBack
  split <;> simp

@[simp] theorem fuses_takeRequest (line src : Nat) (req : CohReq) (s : State) : fuses (takeRequest line src req s) = fuses s := by
  unfold takeRequest
  split <;> simp

@[simp] theorem fuses_refuseRequest (line src : Nat) (req : CohReq) (e : NoRoom) (c : Nat) (s : State) :
    fuses (refuseRequest line src req e c s) = fuses s := by simp [refuseRequest]

@[simp] theorem fuses_noteRequest (line src core : Nat) (req : CohReq) (s : State) : fuses (noteRequest line src core req s) = fuses s := by
  unfold noteRequest
  split <;> simp

@[simp] theorem fuses_homeRequest (line src core : Nat) (req : CohReq) (s : State) : fuses (homeRequest line src core req s) = fuses s := by
  unfold homeRequest
  dsimp only
  split
  · rfl
  · split
    · simp
    · split <;> (have k := fuses_of_arriveAt ‹_›; simp_all [Arrival.state])

@[simp] theorem fuses_takeIn (m : ShankMsg) (s : State) : fuses (takeIn m s) = fuses s := by simp [takeIn]

@[simp] theorem fuses_receive (site line : Nat) (pick : ShankMsg → Bool) (s : State) : fuses (receive site line pick s) = fuses s := by
  unfold receive
  (repeat' split) <;> simp

@[simp] theorem fuses_evictEntry (line : Nat) (s : State) : fuses (evictEntry line s) = fuses s := by simp [evictEntry]

@[simp] theorem fuses_recallArrives (holder line : Nat) (s : State) :
    fuses (recallArrives holder line s) = fuses s := by simp [recallArrives]

@[simp] theorem fuses_atHome (line : Nat) (f : Nat → State → State) (h : ∀ n s, fuses (f n s) = fuses s) (s : State) :
    fuses (atHome line f s) = fuses s := h _ _

@[simp] theorem fuses_homeTimeout (line : Nat) (s : State) : fuses (homeTimeout line s) = fuses s := by
  unfold homeTimeout
  split <;> simp

@[simp] theorem fuses_crcFail (site : Nat) (s : State) : fuses (crcFail site s) = fuses s := by simp [crcFail]

/-! ### Machine/ServeCore -/

theorem fuses_of_buildRead {n va len : Nat} {s t : State} {r} (h : buildRead n va len s = (r, t)) :
    fuses t = fuses s := fuses_of_readVirtual h

theorem fuses_of_buildWrite {n va : Nat} {b : List Byte} {s t : State} {r} (h : buildWrite n va b s = (r, t)) : fuses t = fuses s := by
  unfold buildWrite at h
  split at h <;> cases h <;> exact fuses_of_vwrite ‹_›

@[simp] theorem fuses_serveFault (n k va : Nat) (s : State) : fuses (serveFault n k va s) = fuses s := by simp [serveFault]

@[simp] theorem fuses_serveFail (n k : Nat) (e : MemStop) (s : State) : fuses (serveFail n k e s) = fuses s := by
  unfold serveFail
  split <;> simp

theorem fuses_of_stepRecord {n : Nat} {s t : State} {r} (h : stepRecord n s = (r, t)) : fuses t = fuses s := by
  refine fuses_of_snd (fuses_foldl_snd _ _ (fun i b => ?_) _) h
  (repeat' split) <;> grind only [→ fuses_of_buildRead]

@[simp] theorem fuses_writeStepRecord (k : Nat) (s : State) : fuses (writeStepRecord k s) = fuses s := by
  unfold writeStepRecord
  split
  · split <;> simp [fuses_of_stepRecord ‹_›]
  · rfl

/-! ### Machine/Command -/

@[simp] theorem fuses_bindSpare (d : Nat) (s : State) : fuses (bindSpare d s) = fuses s := by
  unfold bindSpare
  split <;> simp

@[simp] theorem fuses_startCommand (k : Nat) (s : State) : fuses (startCommand k s) = fuses s := by
  unfold startCommand
  split <;> simp

@[simp] theorem fuses_applyEntry (d : Nat) (e : LogEntry) (s : State) : fuses (applyEntry d e s) = fuses s := by
  unfold applyEntry
  split <;> simp

@[simp] theorem fuses_applyLog (d : Nat) (s : State) : fuses (applyLog d s) = fuses s := by simp [applyLog]

@[simp] theorem fuses_drainOne (d : Nat) (s : State) : fuses (drainOne d s) = fuses s := by
  unfold drainOne
  dsimp only
  (repeat' split) <;> simp

@[simp] theorem fuses_drainSome (d : Nat) (s : State) : fuses (drainSome d s) = fuses s := by simp [drainSome]
@[simp] theorem fuses_closeCmds (d : Nat) (s : State) : fuses (closeCmds d s) = fuses s := by rfl

@[simp] theorem fuses_drainComplete (k : Nat) (s : State) : fuses (drainComplete k s) = fuses s := by
  unfold drainComplete
  split <;> simp

/-! ### Machine/Movers -/

theorem fuses_of_movLines {d c va n : Nat} {write : Bool} {s t : State} {r} (h : movLines d c va n write s = (r, t)) :
    fuses t = fuses s := by
  refine fuses_of_snd (fuses_foldl_snd _ _ (fun i b => ?_) _) h
  (repeat' split) <;> grind only [→ fuses_of_translate, → fuses_of_touchGranule]

theorem fuses_of_movRead {d c : Nat} {ls : List MovLine} {s t : State} {r} (h : movRead d c ls s = (r, t)) : fuses t = fuses s := by
  refine fuses_of_snd (fuses_foldl_snd _ _ (fun i b => ?_) _) h
  (repeat' split) <;> grind only [→ fuses_of_edgeRead, fuses_noteTraffic]

theorem fuses_of_moverMem {d : Nat} {img : Image} {op di va id : Nat} {s t : State} (h : moverMem d img op di va id s = some t) :
    fuses t = fuses s := by
  unfold moverMem at h
  dsimp only at h
  (repeat' split at h) <;> grind only [→ fuses_of_movLines, → fuses_of_movRead, → fuses_of_dieStep, fuses_memStop]

theorem fuses_of_memoryMover {d : Nat} {img : Image} {op mv : Nat} {a : MoverArgs} {s t : State} (h : memoryMover d img op mv a s = some t) :
    fuses t = fuses s := by
  unfold memoryMover at h
  dsimp only at h
  (repeat' split at h) <;> grind only [→ fuses_of_dieStep, → fuses_of_moverMem]

theorem fuses_of_localCopy {d : Nat} {img : Image} {mv : Nat} {m : MovDesc} {s t : State} (h : localCopy d img mv m s = some t) :
    fuses t = fuses s := by
  unfold localCopy at h
  exact fuses_of_dieStep h

theorem fuses_of_remoteCopy {d : Nat} {img : Image} {mv : Nat} {m : MovDesc} {s t : State} (h : remoteCopy d img mv m s = some t) :
    fuses t = fuses s := by
  unfold remoteCopy at h
  dsimp only at h
  (repeat' split at h) <;> cases h <;> simp

theorem fuses_of_copyMover {d : Nat} {img : Image} {mv : Nat} {a : MoverArgs} {s t : State} (h : copyMover d img mv a s = some t) :
    fuses t = fuses s := by
  simp only [copyMover] at h
  split at h
  · exact fuses_of_localCopy h
  · exact fuses_of_remoteCopy h

@[simp] theorem fuses_openCmd (d p : Nat) (s : State) : fuses (openCmd d p s).2 = fuses s := by
  unfold openCmd
  split <;> simp

@[simp] theorem fuses_sendStaged (d p ty aux oper : Nat) (data : List Byte) (s : State) :
    fuses (sendStaged d p ty aux oper data s) = fuses s := by simp [sendStaged]

theorem fuses_of_laceGet {d p mv : Nat} {img : Image} {m : MovDesc} {s t : State} (h : laceGet d p mv img m s = some t) :
    fuses t = fuses s := by
  simp only [laceGet] at h
  split at h
  · cases h
  · split at h
    · cases h
    · rename_i hd
      split at h
      · cases h
        exact fuses_of_dieStep hd
      · split at h <;> cases h
        simp [fuses_of_dieStep hd]

theorem fuses_of_laceWrite {d p mv : Nat} {img : Image} {m : MovDesc} {s t : State} (h : laceWrite d p mv img m s = some t) :
    fuses t = fuses s := by
  unfold laceWrite at h
  dsimp only at h
  (repeat' split at h) <;> cases h <;> simp

theorem fuses_of_laceSig {d p mv : Nat} {m : MovDesc} {s t : State} (h : laceSig d p mv m s = some t) : fuses t = fuses s := by
  unfold laceSig at h
  (repeat' split at h) <;> cases h <;> simp [fuses_of_dieStep ‹_›]

theorem fuses_of_laceMover {d : Nat} {img : Image} {mv : Nat} {a : MoverArgs} {s t : State} (h : laceMover d img mv a s = some t) :
    fuses t = fuses s := by
  unfold laceMover at h
  dsimp only at h
  (repeat' split at h) <;> grind only [→ fuses_of_laceGet, → fuses_of_laceSig, → fuses_of_laceWrite, fuses_drew, fuses_stopWith]

theorem fuses_of_moverAct {d : Nat} {img : Image} {op mv : Nat} {a : MoverArgs} {s t : State} (h : moverAct d img op mv a s = some t) :
    fuses t = fuses s := by
  unfold moverAct at h
  (repeat' split at h) <;> grind only [→ fuses_of_memoryMover, → fuses_of_copyMover, → fuses_of_laceMover]

theorem fuses_of_moverStart {d : Nat} {img : Image} {a : UnitAct} {s t : State} (h : moverStart d img a s = some t) :
    fuses t = fuses s := by
  unfold moverStart at h
  split at h
  · exact fuses_of_moverAct h
  · cases h
    rfl

@[simp] theorem fuses_issueMover (d : Nat) (img : Image) (op mv : Nat) (a : MoverArgs) (s : State) :
    fuses (issueMover d img op mv a s) = fuses s :=
  fuses_issueAct _ _ _ _ _ fuses_of_moverStart _

@[simp] theorem fuses_moverRow (d op mv : Nat) (a : MoverArgs) (lop : Option Nat) (s : State) :
    fuses (moverRow d op mv a lop s) = fuses s := by
  unfold moverRow
  split <;> simp

/-! ### Machine/Control -/

@[simp] theorem fuses_applyCopy (d : Nat) (c : RemoteCopy) (s : State) : fuses (applyCopy d c s) = fuses s := by
  unfold applyCopy
  split <;> simp

@[simp] theorem fuses_applyHeld (d : Nat) (s : State) : fuses (applyHeld d s) = fuses s := by simp [applyHeld]

theorem fuses_of_anyOne {α : Type} {l : List α} {s t : State} {a : α} (h : anyOne l s = some (a, t)) : fuses t = fuses s := by
  unfold anyOne at h
  split at h
  · cases h
  · cases h
    rfl
  · obtain ⟨_, _, e⟩ := Option.map_eq_some_iff.mp h
    cases e
    simp

theorem fuses_of_nextCopy {s t : State} {d : Nat} {c} (h : nextCopy s d = some (c, t)) : fuses t = fuses s := fuses_of_anyOne h

@[simp] theorem fuses_copyReceived (d : Nat) (s : State) : fuses (copyReceived d s) = fuses s := by
  unfold copyReceived
  split
  · rfl
  · have k := fuses_of_nextCopy ‹_›
    dsimp only
    (repeat' split) <;> simp [k]

@[simp] theorem fuses_addCount (d t : Nat) (inc : BitVec 32) (s : State) : fuses (addCount d t inc s) = fuses s := by simp [addCount]

@[simp] theorem fuses_deliverSignal (g : RemoteSignal) (s : State) : fuses (deliverSignal g s) = fuses s := by
  unfold deliverSignal
  dsimp only
  split
  · simp
  · split
    · split <;> simp [fuses_of_dieStep ‹_›]
    · rfl

theorem fuses_of_nextSignal {s t : State} {d : Nat} {c} (h : nextSignal s d = some (c, t)) : fuses t = fuses s := fuses_of_anyOne h

@[simp] theorem fuses_signalReceived (d : Nat) (s : State) : fuses (signalReceived d s) = fuses s := by
  unfold signalReceived
  split
  · rfl
  · have k := fuses_of_nextSignal ‹_›
    dsimp only
    (repeat' split) <;> simp [k]

theorem fuses_of_signalAct {d rank k : Nat} {inc : BitVec 16} {s t : State} (h : signalAct d rank k inc s = some t) :
    fuses t = fuses s := by
  simp only [signalAct] at h
  split at h <;> cases h
  · rfl
  · split <;> split <;> simp

theorem fuses_of_lendAct {d : Nat} {img : Image} {k : Nat} {limit : BitVec 32} {s t : State} (h : lendAct d img k limit s = some t) :
    fuses t = fuses s := by
  obtain ⟨u, hu, rfl⟩ := Option.map_eq_some_iff.mp h
  simp [fuses_of_dieStep hu]

@[simp] theorem fuses_waitComplete (d : Nat) (s : State) : fuses (waitComplete d s) = fuses s := by
  unfold waitComplete
  dsimp only
  (repeat' split) <;> simp

@[simp] theorem fuses_waitTimeout (d : Nat) (s : State) : fuses (waitTimeout d s) = fuses s := by
  unfold waitTimeout
  dsimp only
  (repeat' split) <;> simp

theorem fuses_of_acquireAct {d : Nat} {img : Image} {s t : State} (h : acquireAct d img s = some t) : fuses t = fuses s := by
  simp only [acquireAct] at h
  split at h
  · cases h
  · exact fuses_of_dieStep h

@[simp] theorem fuses_releaseAct (d : Nat) (s : State) : fuses (releaseAct d s) = fuses s := by rfl
@[simp] theorem fuses_hintAct (d level horizon : Nat) (s : State) : fuses (hintAct d level horizon s) = fuses s := by simp [hintAct]

@[simp] theorem fuses_hintEnds (site : Nat) (s : State) : fuses (hintEnds site s) = fuses s := by
  unfold hintEnds
  (repeat' split) <;> simp

@[simp] theorem fuses_faultAct (d : Nat) (code : Nat) (s : State) : fuses (faultAct d code s) = fuses s := by simp [faultAct]

theorem fuses_of_ctlAct {d : Nat} {img : Image} {w endPos : Nat} {s t : State} (h : ctlAct d img w endPos s = some t) :
    fuses t = fuses s := by
  have on : ∀ {f}, some (updDie s d f) = some t → fuses t = fuses s := by
    intro f h
    cases h
    simp
  simp only [ctlAct] at h
  split at h
  · cases h
    rfl
  · split at h <;>
      grind only [→ fuses_of_dieStep, → fuses_of_signalAct, → fuses_of_lendAct, → fuses_of_acquireAct, fuses_releaseAct, fuses_hintAct, fuses_faultAct,
        fuses_tryDrainOn, Option.map_eq_some_iff]

@[simp] theorem fuses_ctlRow (d : Nat) (act : Image → State → Option State) (h : ∀ {img s t}, act img s = some t → fuses t = fuses s) (s : State) :
    fuses (ctlRow d act s) = fuses s := by
  unfold ctlRow
  split
  · split
    · cases e : act _ s with
      | none => rfl
      | some t => exact h e
    · rfl
  · rfl

@[simp] theorem fuses_ctlLocal (d : Nat) (f : DieSt → DieSt) (s : State) : fuses (ctlLocal d f s) = fuses s := by simp [ctlLocal]

/-! ### Machine/PowerRows -/

@[simp] theorem fuses_noteMeter (m : PowerMeter) (s : State) : fuses (noteMeter m s) = fuses s := by simp [noteMeter]

@[simp] theorem fuses_chargeJobs (p : Nat) (s : State) : fuses (chargeJobs p s) = fuses s := by
  unfold chargeJobs
  dsimp only
  split
  · rfl
  · refine fuses_each _ _ (fun d t => ?_) s
    split <;> simp

@[simp] theorem fuses_clearThrottles (s : State) : fuses (clearThrottles s) = fuses s := by simp [clearThrottles]

@[simp] theorem fuses_lowerUntil (c : Option Nat × Nat) (n : Nat) (s : State) : fuses (lowerUntil c n s) = fuses s := by
  induction n generalizing s with
  | zero => rfl
  | succ n ih =>
    unfold lowerUntil
    split
    · rfl
    · split <;> simp [ih]

@[simp] theorem fuses_enforceCap (c : Option Nat × Nat) (s : State) : fuses (enforceCap c s) = fuses s := by simp [enforceCap]

@[simp] theorem fuses_noteCaps (excess : List (Option Nat × Nat)) (s : State) : fuses (noteCaps excess s) = fuses s := by
  unfold noteCaps
  split <;> simp

@[simp] theorem fuses_interval (m : PowerMeter) (s : State) : fuses (interval m s) = fuses s := by simp [interval]

/-- The trim changes the power manager's state and may post an event. -/
theorem trimUpdate_keeps {P : State → Prop} (power : ∀ t p, P t → P { t with power := p }) (posted : ∀ c i l t, P t → P (post c i l t))
    (meterMj : Nat) {s : State} (h : P s) : P (trimUpdate meterMj s) := by
  unfold trimUpdate
  apply iteInduction <;> intro
  · exact h
  · apply iteInduction <;> intro
    · exact power s _ h
    · apply iteInduction <;> intro
      · exact posted _ _ _ _ (power s _ h)
      · exact power s _ h

@[simp] theorem fuses_trimUpdate (meterMj : Nat) (s : State) : fuses (trimUpdate meterMj s) = fuses s :=
  trimUpdate_keeps (P := fun t => fuses t = fuses s) (by simp) (by simp) meterMj rfl

@[simp] theorem fuses_slewDone (i : Nat) (s : State) : fuses (slewDone i s) = fuses s := by simp [slewDone]
@[simp] theorem fuses_updLine (r : Nat) (f : RailLine → RailLine) (s : State) : fuses (updLine r f s) = fuses s := by rfl
@[simp] theorem fuses_droopBegin (r : RailId) (s : State) : fuses (droopBegin r s) = fuses s := by simp [droopBegin]

@[simp] theorem fuses_droopEnd (r : RailId) (s : State) : fuses (droopEnd r s) = fuses s := by
  unfold droopEnd
  dsimp only
  (repeat' split) <;> simp

@[simp] theorem fuses_tripRail (r : RailId) (s : State) : fuses (tripRail r s) = fuses s := by
  unfold tripRail
  split <;> simp

@[simp] theorem fuses_overcurrent (r : RailId) (s : State) : fuses (overcurrent r s) = fuses s := by simp [overcurrent]

@[simp] theorem fuses_memoryTrip (r : RailId) (s : State) : fuses (memoryTrip r s) = fuses s := by
  unfold memoryTrip
  split <;> simp

@[simp] theorem fuses_readSensors (i : Nat) (l : List Nat) (s : State) : fuses (readSensors i l s) = fuses s := by simp [readSensors]
@[simp] theorem fuses_lowerTen (i : Nat) (s : State) : fuses (lowerTen i s) = fuses s := by simp [lowerTen]
@[simp] theorem fuses_noteThermal (s : State) : fuses (noteThermal s) = fuses s := by rfl
@[simp] theorem fuses_tjLimitAct (i : Nat) (l : List Nat) (s : State) : fuses (tjLimitAct i l s) = fuses s := by simp [tjLimitAct]

@[simp] theorem fuses_thermalStepAct (i : Nat) (l : List Nat) (s : State) :
    fuses (thermalStepAct i l s) = fuses s := by simp [thermalStepAct]

@[simp] theorem fuses_inputAct (mv : Nat) (s : State) : fuses (inputAct mv s) = fuses s := by simp [inputAct]

/-! ### Machine/LaceIn -/

@[simp] theorem fuses_putStaging (p cmd : Nat) (x : Staging) (s : State) : fuses (putStaging p cmd x s) = fuses s := by rfl
@[simp] theorem fuses_discardStaging (p cmd : Nat) (s : State) : fuses (discardStaging p cmd s) = fuses s := by rfl
@[simp] theorem fuses_discardAllFrom (p : Nat) (s : State) : fuses (discardAllFrom p s) = fuses s := by simp [discardAllFrom]
@[simp] theorem fuses_stage (ty : Nat) (k : Packet) (s : State) : fuses (stage ty k s) = fuses s := by simp [stage]

@[simp] theorem fuses_applySignal (k rank t : Nat) (n : BitVec 32) (s : State) : fuses (applySignal k rank t n s) = fuses s := by
  unfold applySignal
  (repeat' split) <;> simp

@[simp] theorem fuses_applyStaging (p : Nat) (x : Staging) (s : State) : fuses (applyStaging p x s) = fuses s := by
  refine (fuses_each _ _ (fun k t => ?_) _).trans (by simp)
  split <;> simp

theorem fuses_of_touchStaging {p : Nat} {x : Staging} {s t : State} (h : touchStaging p x s = .ok t) : fuses t = fuses s := by
  refine fuses_of_foldl_ok (fun r g t e => ?_) h
  split at e
  · cases e
  · split at e <;> cases e
    exact ⟨_, rfl, fuses_of_touchGranule ‹_›⟩

@[simp] theorem fuses_nakCommit (p cmd why : Nat) (s : State) : fuses (nakCommit p cmd why s) = fuses s := by simp [nakCommit]

@[simp] theorem fuses_handleCommit (p cmd count : Nat) (s : State) : fuses (handleCommit p cmd count s) = fuses s := by
  unfold handleCommit
  dsimp only
  (repeat' split) <;>
    grind only [→ fuses_of_touchStaging, fuses_nakCommit, fuses_postNoRoom, fuses_sendLace, fuses_updPartner, fuses_discardStaging, fuses_applyStaging]

@[simp] theorem fuses_heldLoop (p n : Nat) (s : State) : fuses (heldLoop p n s) = fuses s := by
  induction n generalizing s with
  | zero => rfl
  | succ n ih =>
    unfold heldLoop
    split <;> simp [ih]

@[simp] theorem fuses_retryHeld (p : Nat) (s : State) : fuses (retryHeld p s) = fuses s := by simp [retryHeld]
@[simp] theorem fuses_retryCommits (s : State) : fuses (retryCommits s) = fuses s := by simp [retryCommits]

@[simp] theorem fuses_commitPkt (k : Packet) (s : State) : fuses (commitPkt k s) = fuses s := by
  unfold commitPkt
  dsimp only
  (repeat' split) <;> simp

/-! ### Machine/Stream -/

theorem fuses_of_startAct {d : Nat} {img : Image} {a : UnitAct} {s t : State} (h : startAct d img a s = some t) : fuses t = fuses s := by
  unfold startAct at h
  split at h
  · exact fuses_of_vatStart h
  · exact fuses_of_vatStart h
  · exact fuses_of_vatStart h
  · exact fuses_of_memStart h
  · exact fuses_of_memStart h
  · split at h
    · exact fuses_of_dieStep h
    · cases h
      rfl
  · exact fuses_of_moverStart h

@[simp] theorem fuses_slotAct (d : Nat) (img : Image) (z : SlotRef) (s : State) : fuses (slotAct d img z s) = fuses s := by
  unfold slotAct
  split
  · rfl
  · split
    · exact fuses_issueAct _ _ _ _ _ fuses_of_startAct _
    · rfl

@[simp] theorem fuses_addRel (d id p : Nat) (s : State) : fuses (addRel d id p s) = fuses s := by rfl

@[simp] theorem fuses_tryDeferred (d : Nat) (e : Deferred) (s : State) : fuses (tryDeferred d e s) = fuses s := by
  unfold tryDeferred
  dsimp only
  split
  · split
    · rfl
    · split
      · rfl
      · have k := fuses_of_startAct ‹_›
        split <;> simp [k]
  · rfl

@[simp] theorem fuses_runDeferred (d : Nat) (s : State) : fuses (runDeferred d s) = fuses s := by simp [runDeferred]

theorem fuses_of_fetchWords {d : Nat} {img : Image} {lo hi : Nat} {s t : State} {r} (h : fetchWords d img lo hi s = (r, t)) :
    fuses t = fuses s := by
  refine fuses_of_snd (fuses_foldl_snd _ _ (fun i b => ?_) _) h
  (repeat' split) <;> grind only [→ fuses_of_translate]

@[simp] theorem fuses_passBundle (d next : Nat) (branch : Bool) (job : Option Nat) (s : State) :
    fuses (passBundle d next branch job s) = fuses s := by simp [passBundle]

@[simp] theorem fuses_issueControl (d : Nat) (img : Image) (b : Bundle) (s : State) : fuses (issueControl d img b s) = fuses s := by
  unfold issueControl
  dsimp only
  split
  · simp
  · split
    · simp
    · split
      · simp [fuses_of_ctlAct ‹_›]
      · simp

@[simp] theorem fuses_issueBundle (d : Nat) (img : Image) (s : State) : fuses (issueBundle d img s) = fuses s := by
  unfold issueBundle
  dsimp only
  split <;> simp

@[simp] theorem fuses_bundleIssue (d : Nat) (s : State) : fuses (bundleIssue d s) = fuses s := by
  unfold bundleIssue
  dsimp only
  split
  · simp
  · split
    · split
      · simp
      · split <;> simp [fuses_of_fetchWords ‹_›]
    · simp

@[simp] theorem fuses_fetchAhead (d n : Nat) (s : State) : fuses (fetchAhead d n s) = fuses s := by
  unfold fetchAhead
  dsimp only
  split
  · rfl
  · split
    · split
      on_goal 1 => rw [fuses_updDie]
      all_goals
        refine fuses_foldl_snd _ _ (fun i b => ?_) _
        (repeat' split) <;> grind only [→ fuses_of_fetchWords, fuses_updDie]
    · rfl

theorem fuses_of_readPiece {d c va n : Nat} {acc} {t : State} {r} (h : readPiece d c va n acc = (r, t)) : fuses t = fuses acc.2 := by
  unfold readPiece at h
  (repeat' split at h) <;> grind only [→ fuses_of_readVirtual]

theorem fuses_of_readImage {d c : Nat} {desc : List Byte} {s t : State} {r} (h : readImage d c desc s = (r, t)) : fuses t = fuses s := by
  unfold readImage at h
  dsimp only at h
  (repeat' split at h) <;> cases h <;> grind only [→ fuses_of_readVirtual, → fuses_of_readPiece]

@[simp] theorem fuses_panFail (n k pan : Nat) (s : State) : fuses (panFail n k pan s) = fuses s := by simp [panFail]

@[simp] theorem fuses_allChecked (k : Nat) (s : State) : fuses (allChecked k s) = fuses s := by
  unfold allChecked
  split <;> simp

@[simp] theorem fuses_loadCheckDone (d : Nat) (s : State) : fuses (loadCheckDone d s) = fuses s := by
  unfold loadCheckDone
  split
  · rfl
  · split
    · split
      · simp [fuses_of_readImage ‹_›]
      · have k := fuses_of_readImage ‹_›
        dsimp only
        (repeat' split) <;> simp [k]
    · rfl

/-! ### Machine/Jobs -/

@[simp] theorem fuses_redoHeld (d : Nat) (h : HeldAct) (s : State) : fuses (redoHeld d h s) = fuses s := by
  unfold redoHeld
  split
  · rfl
  · simp
  · rename_i id op di va
    cases e : (dieOf s d).image.bind fun img => moverMem d img op.toNat di.toNat va.toNat id s with
    | none => rfl
    | some t =>
      obtain ⟨_, _, h⟩ := Option.bind_eq_some_iff.mp e
      exact fuses_of_moverMem h

@[simp] theorem fuses_serveWait (d : Nat) (s : State) : fuses (serveWait d s) = fuses s := by
  unfold serveWait
  dsimp only
  (repeat' split) <;> simp

@[simp] theorem fuses_serveWaits (d : Nat) (s : State) : fuses (serveWaits d s) = fuses s := by simp [serveWaits]
@[simp] theorem fuses_resumeSlot (d i : Nat) (va : BitVec 64) (s : State) : fuses (resumeSlot d i va s) = fuses s := by rfl
@[simp] theorem fuses_enableContext (c : Nat) (s : State) : fuses (enableContext c s) = fuses s := by simp [enableContext]

@[simp] theorem fuses_resetJob (k : Nat) (s : State) : fuses (resetJob k s) = fuses s := by
  unfold resetJob
  split <;> simp

@[simp] theorem fuses_resetContext (c : Nat) (s : State) : fuses (resetContext c s) = fuses s := by simp [resetContext]
@[simp] theorem fuses_preempt (ks : List Nat) (s : State) : fuses (preempt ks s) = fuses s := by simp [preempt]

/-- What reading a job's gang keeps; as in `saveRanks_keeps` the read is opaque. -/
theorem readGang_keeps {P : State → Prop} (read : ∀ {d c e va n t u r}, readVirtual d c e va n t = (r, u) → P t → P u) (c : Nat) (b : List Byte)
    {s : State} (h : P s) : P (readGang c b s).2.2 := by
  generalize hf : readGang = f
  delta readGang at hf
  obtain ⟨w, hw⟩ : ∃ w, readVirtual = w := ⟨_, rfl⟩
  rw [hw] at hf read
  subst hf
  dsimp only
  split
  · exact read ‹_› h
  · split
    · exact read ‹_› h
    · split <;> exact read ‹_› (read ‹_› h)

@[simp] theorem fuses_readGang (c : Nat) (b : List Byte) (s : State) : fuses (readGang c b s).2.2 = fuses s :=
  readGang_keeps (P := fun t => fuses t = fuses s) (fun h k => (fuses_of_readVirtual h).trans k) c b rfl

@[simp] theorem fuses_placeOn (k : Nat) (dies : List Nat) (s : State) : fuses (placeOn k dies s) = fuses s := by simp [placeOn]

@[simp] theorem fuses_clearStep (k : Nat) (s : State) : fuses (clearStep k s) = fuses s := by
  unfold clearStep
  split <;> simp

theorem fuses_of_headJob {s t : State} {c : Nat} {j} (h : headJob s c = some (j, t)) : fuses t = fuses s := by
  unfold headJob at h
  dsimp only at h
  split at h
  · obtain ⟨_, _, e⟩ := Option.map_eq_some_iff.mp h
    cases e
    rfl
  · (repeat' split at h) <;> cases h
    simp

@[simp] theorem fuses_takeHead (c : Nat) (s : State) : fuses (takeHead c s) = fuses s := by rfl

theorem fuses_of_tryContext {c : Nat} {s t : State} (h : tryContext c s = some t) : fuses t = fuses s := by
  unfold tryContext at h
  split at h
  · cases h
  · have k := fuses_of_headJob ‹_›
    dsimp only at h
    (repeat' split at h) <;> cases h <;> simp [k]
  · have k := fuses_of_headJob ‹_›
    dsimp only at h
    (repeat' split at h) <;> cases h <;> simp [k]

@[simp] theorem fuses_dispatch (s : State) : fuses (dispatch s) = fuses s := by
  unfold dispatch
  split
  · rfl
  · cases e : (contextOrder s).findSome? (tryContext · s) with
    | none => rfl
    | some t =>
      obtain ⟨_, _, h⟩ := List.exists_of_findSome?_eq_some e
      exact fuses_of_tryContext h

@[simp] theorem fuses_rerun (k : Nat) (s : State) : fuses (rerun k s) = fuses s := by
  unfold rerun
  split <;> simp

@[simp] theorem fuses_requeue (k : Nat) (s : State) : fuses (requeue k s) = fuses s := by
  unfold requeue
  split <;> simp

@[simp] theorem fuses_afterKill (k : Nat) (s : State) : fuses (afterKill k s) = fuses s := by
  unfold afterKill
  dsimp only
  (repeat' split) <;> simp

@[simp] theorem fuses_killComplete (d : Nat) (s : State) : fuses (killComplete d s) = fuses s := by
  unfold killComplete
  split <;> simp

@[simp] theorem fuses_areaFault (d k cause : Nat) (s : State) : fuses (areaFault d k cause s) = fuses s := by simp [areaFault]

@[simp] theorem fuses_areaRefused (k code : Nat) (write : Bool) (s : State) : fuses (areaRefused k code write s) = fuses s := by
  unfold areaRefused
  split <;> simp

@[simp] theorem fuses_areaStop (d k : Nat) (write : Bool) (at_ : Nat) (r : VRead) (s : State) :
    fuses (areaStop d k write at_ r s) = fuses s := by
  unfold areaStop
  split <;> simp

/-- A recursion on a list of a state change whose every step keeps P keeps P. -/
theorem brecOn_keeps {α : Type} {P : State → Prop} (F : (l : List α) → List.below (motive := fun _ => State → State) l → State → State)
    (nil : ∀ b s, P s → P (F [] b s)) (cons : ∀ a l b, (∀ s, P s → P (b.1 s)) → ∀ s, P s → P (F (a :: l) b s)) (l : List α) :
    ∀ s, P s → P (List.brecOn (motive := fun _ => State → State) l F s) := by
  induction l with
  | nil => exact nil _
  | cons a l ih => exact cons a l _ ih

/-- What saving the ranks keeps. The write is made opaque before the definition is looked into: the kernel would otherwise evaluate the
    135,168 bytes it is given. -/
theorem saveRanks_keeps {P : State → Prop} {k : Nat} (requeued : ∀ t, P t → P (requeue k t))
    (write : ∀ {d c va b t u r}, vwrite d c va b t = (r, u) → P t → P u) (drawn : ∀ t n, P t → P { t with free := n })
    (saved : ∀ t f, P t → P (updJob t k f)) (stopped : ∀ d k w va r t, P t → P (areaStop d k w va r t)) (j : Job) (l : List (Nat × Nat))
    {s : State} (h : P s) : P (saveRanks k j l s) := by
  generalize hf : saveRanks = f
  delta saveRanks saveRanks._f at hf
  obtain ⟨w, hw⟩ : ∃ w, vwrite = w := ⟨_, rfl⟩
  rw [hw] at hf write
  subst hf
  refine brecOn_keeps _ (fun b t => requeued t) (fun a l b ih t ht => ?_) l s h
  dsimp only
  split
  · split
    · exact ih _ (saved _ _ (write ‹_› (drawn _ _ ht)))
    · exact stopped _ _ _ _ _ _ (saved _ _ (write ‹_› (drawn _ _ ht)))
  · exact ih t ht

@[simp] theorem fuses_saveRanks (k : Nat) (j : Job) (l : List (Nat × Nat)) (s : State) : fuses (saveRanks k j l s) = fuses s :=
  saveRanks_keeps (P := fun t => fuses t = fuses s) (by simp) (fun h k => (fuses_of_vwrite h).trans k) (by simp) (by simp) (by simp) j l rfl

@[simp] theorem fuses_saveComplete (d : Nat) (s : State) : fuses (saveComplete d s) = fuses s := by
  unfold saveComplete
  (repeat' split) <;> simp

@[simp] theorem fuses_restoreRanks (k : Nat) (j : Job) (l : List ((Nat × Nat) × CmdStart)) (s : State) :
    fuses (restoreRanks k j l s) = fuses s := by
  induction l generalizing s with
  | nil => simp [restoreRanks]
  | cons p l ih =>
    obtain ⟨⟨d, rank⟩, r⟩ := p
    unfold restoreRanks
    split
    · rfl
    · split <;> simp [ih, fuses_of_vread ‹_›]

@[simp] theorem fuses_restoreComplete (d : Nat) (s : State) : fuses (restoreComplete d s) = fuses s := by
  unfold restoreComplete
  (repeat' split) <;> simp

@[simp] theorem fuses_dieReset (mask key : Nat) (s : State) : fuses (dieReset mask key s) = fuses s := by simp [dieReset]

@[simp] theorem fuses_sendMsi (s : State) : fuses (sendMsi s) = fuses s := by
  unfold sendMsi
  split <;> simp

@[simp] theorem fuses_deliverMsi (s : State) : fuses (deliverMsi s) = fuses s := by
  unfold deliverMsi
  dsimp only
  (repeat' split) <;> simp

/-! ### Machine/Lacing -/

@[simp] theorem fuses_settleLace (p : Nat) (s : State) : fuses (settleLace p s) = fuses s := by simp [settleLace]
@[simp] theorem fuses_settleLaces (s : State) : fuses (settleLaces s) = fuses s := by simp [settleLaces]
@[simp] theorem fuses_resend (p : Nat) (old : SentPacket → Bool) (s : State) : fuses (resend p old s) = fuses s := by simp [resend]
@[simp] theorem fuses_eyeDown (e reason : Nat) (s : State) : fuses (eyeDown e reason s) = fuses s := by simp [eyeDown]
@[simp] theorem fuses_eyeReturn (e : Nat) (s : State) : fuses (eyeReturn e s) = fuses s := by simp [eyeReturn]
@[simp] theorem fuses_eyeRestored (e : Nat) (s : State) : fuses (eyeRestored e s) = fuses s := by simp [eyeRestored]
@[simp] theorem fuses_eyeTrain (e : Nat) (s : State) : fuses (eyeTrain e s) = fuses s := by simp [eyeTrain]
@[simp] theorem fuses_eyeRelit (e : Nat) (s : State) : fuses (eyeRelit e s) = fuses s := by simp [eyeRelit]
@[simp] theorem fuses_laneLost (e : Nat) (tx : Bool) (w : Nat) (s : State) : fuses (laneLost e tx w s) = fuses s := by simp [laneLost]

@[simp] theorem fuses_laneRejoined (e : Nat) (tx : Bool) (w : Nat) (s : State) :
    fuses (laneRejoined e tx w s) = fuses s := by simp [laneRejoined]

@[simp] theorem fuses_spareComplete (e : Nat) (tx : Bool) (s : State) : fuses (spareComplete e tx s) = fuses s := by simp [spareComplete]
@[simp] theorem fuses_flitReceived (e : Nat) (f : List Byte) (s : State) : fuses (flitReceived e f s) = fuses s := by simp [flitReceived]
@[simp] theorem fuses_flitNak (e : Nat) (ack : BitVec 12) (s : State) : fuses (flitNak e ack s) = fuses s := by simp [flitNak]
@[simp] theorem fuses_setRelayed (h : Nat) (b : Bool) (s : State) : fuses (setRelayed h b s) = fuses s := by rfl
@[simp] theorem fuses_inletLost (i : Nat) (s : State) : fuses (inletLost i s) = fuses s := by simp [inletLost]
@[simp] theorem fuses_inletRestored (i : Nat) (s : State) : fuses (inletRestored i s) = fuses s := by simp [inletRestored]

/-- What serving a GET_REQ keeps; the granules' arrival is opaque, as the write in `saveRanks_keeps`. -/
theorem serveGet_keeps {P : State → Prop} (send : ∀ p ty a b c d l t, P t → P (sendLace p ty a b c d l t))
    (full : ∀ e c a t, P t → P (postNoRoom e c a t)) (touch : ∀ {a n c die t u}, touchRange a n c die t = .ok u → P t → P u)
    (settle : ∀ l t, P t → P (settleLine l t)) (k : Packet) {s : State} (h : P s) : P (serveGet k s) := by
  generalize hf : serveGet = f
  delta serveGet at hf
  obtain ⟨w, hw⟩ : ∃ w, touchRange = w := ⟨_, rfl⟩
  rw [hw] at hf touch
  subst hf
  dsimp only
  split
  · exact send _ _ _ _ _ _ _ _ h
  · split
    · exact send _ _ _ _ _ _ _ _ (full _ _ _ _ h)
    · exact send _ _ _ _ _ _ _ _ (each_keeps P _ _ (fun l _ => settle l) _ (touch ‹_› h))

@[simp] theorem fuses_serveGet (k : Packet) (s : State) : fuses (serveGet k s) = fuses s :=
  serveGet_keeps (P := fun t => fuses t = fuses s) (by simp) (by simp) (fun h k => (fuses_of_touchRange h).trans k) (by simp) k rfl

@[simp] theorem fuses_lateDrop (p : Nat) (s : State) : fuses (lateDrop p s) = fuses s := by rfl
@[simp] theorem fuses_setTag (d p tag : Nat) (t : Option GetTag) (s : State) : fuses (setTag d p tag t s) = fuses s := by rfl

@[simp] theorem fuses_takeRsp (k : Packet) (s : State) : fuses (takeRsp k s) = fuses s := by
  have write : ∀ d pan off b (s : State), fuses (takeRsp.dieWrite d pan off b s) = fuses s := by
    intro d pan off b s
    unfold takeRsp.dieWrite
    split <;> simp
  unfold takeRsp
  dsimp only
  (repeat' split) <;> simp [write]

@[simp] theorem fuses_endCommit (p : Nat) (cmd : BitVec 32) (undelivered : Bool) (s : State) :
    fuses (endCommit p cmd undelivered s) = fuses s := by
  unfold endCommit
  split <;> simp

@[simp] theorem fuses_stagingRefused (k : Packet) (s : State) : fuses (stagingRefused k s) = fuses s := by
  unfold stagingRefused
  dsimp only
  (repeat' split) <;> simp

@[simp] theorem fuses_abortPkt (k : Packet) (s : State) : fuses (abortPkt k s) = fuses s := by simp [abortPkt]

@[simp] theorem fuses_renewPkt (k : Packet) (s : State) : fuses (renewPkt k s) = fuses s := by
  unfold renewPkt
  split <;> simp

@[simp] theorem fuses_actPacket (ty : Nat) (k : Packet) (s : State) : fuses (actPacket ty k s) = fuses s := by simp [actPacket]
@[simp] theorem fuses_authFail (p : Nat) (s : State) : fuses (authFail p s) = fuses s := by simp [authFail]

@[simp] theorem fuses_reorderLoop (p n : Nat) (s : State) : fuses (reorderLoop p n s) = fuses s := by
  induction n generalizing s with
  | zero => rfl
  | succ n ih =>
    unfold reorderLoop
    dsimp only
    split <;> simp [ih]

@[simp] theorem fuses_inOrder (ty : Nat) (k : Packet) (s : State) : fuses (inOrder ty k s) = fuses s := by
  unfold inOrder
  dsimp only
  (repeat' split) <;> simp

@[simp] theorem fuses_takeE2eAck (k : Packet) (s : State) : fuses (takeE2eAck k s) = fuses s := by rfl

@[simp] theorem fuses_arrive (ty : Nat) (k : Packet) (s : State) : fuses (arrive ty k s) = fuses s := by
  unfold arrive
  dsimp only
  (repeat' split) <;> simp

@[simp] theorem fuses_renewDue (p : Nat) (s : State) : fuses (renewDue p s) = fuses s := by simp [renewDue]

@[simp] theorem fuses_leaseExpired (p cmd : Nat) (s : State) : fuses (leaseExpired p cmd s) = fuses s := by
  unfold leaseExpired
  split <;> simp

@[simp] theorem fuses_commitRepeat (p : Nat) (s : State) : fuses (commitRepeat p s) = fuses s := by simp [commitRepeat]
@[simp] theorem fuses_partnerUndelivered (p : Nat) (s : State) : fuses (partnerUndelivered p s) = fuses s := by simp [partnerUndelivered]
@[simp] theorem fuses_ackDue (p : Nat) (s : State) : fuses (ackDue p s) = fuses s := by simp [ackDue]
@[simp] theorem fuses_retransmitDue (p : Nat) (s : State) : fuses (retransmitDue p s) = fuses s := by simp [retransmitDue]
@[simp] theorem fuses_laceDownAct (p : Nat) (s : State) : fuses (laceDownAct p s) = fuses s := by simp [laceDownAct]

@[simp] theorem fuses_tagFree (d p : Nat) (tag : BitVec 16) (s : State) : fuses (tagFree d p tag s) = fuses s := by
  unfold tagFree
  split <;> simp

@[simp] theorem fuses_validClear (p : Nat) (s : State) : fuses (validClear p s) = fuses s := by simp [validClear]

/-! ### Machine/Membership -/

@[simp] theorem fuses_setMemb (f : Membership → Membership) (s : State) : fuses (setMemb f s) = fuses s := by rfl

@[simp] theorem fuses_noteQuorum (s : State) : fuses (noteQuorum s) = fuses s := by
  unfold noteQuorum
  split <;> simp

@[simp] theorem fuses_stopHeldJobs (s : State) : fuses (stopHeldJobs s) = fuses s := by simp [stopHeldJobs]
@[simp] theorem fuses_enterHeld (s : State) : fuses (enterHeld s) = fuses s := by simp [enterHeld]

@[simp] theorem fuses_adoptView (epoch : BitVec 32) (view : List Nat) (s : State) :
    fuses (adoptView epoch view s) = fuses s := by simp [adoptView]

@[simp] theorem fuses_tryView (s : State) : fuses (tryView s) = fuses s := by
  unfold tryView
  dsimp only
  (repeat' split) <;> simp

@[simp] theorem fuses_leadMemb (s : State) : fuses (leadMemb s) = fuses s := by simp [leadMemb]
@[simp] theorem fuses_seeEpoch (e : BitVec 32) (s : State) : fuses (seeEpoch e s) = fuses s := by rfl

@[simp] theorem fuses_arriveMemb (ty : Nat) (k : Packet) (f : State → State) (h : ∀ s, fuses (f s) = fuses s) (s : State) :
    fuses (arriveMemb ty k f s) = fuses s := by
  unfold arriveMemb
  (repeat' split) <;> simp [h]

@[simp] theorem fuses_helloDue (s : State) : fuses (helloDue s) = fuses s := by simp [helloDue]
@[simp] theorem fuses_helloIn (k : Packet) (s : State) : fuses (helloIn k s) = fuses s := by simp [helloIn]
@[simp] theorem fuses_reachLost (p : Nat) (s : State) : fuses (reachLost p s) = fuses s := by simp [reachLost]
@[simp] theorem fuses_proposeIn (k : Packet) (s : State) : fuses (proposeIn k s) = fuses s := by simp [proposeIn]
@[simp] theorem fuses_acceptIn (k : Packet) (s : State) : fuses (acceptIn k s) = fuses s := by simp [acceptIn]
@[simp] theorem fuses_viewIn (k : Packet) (s : State) : fuses (viewIn k s) = fuses s := by simp [viewIn]
@[simp] theorem fuses_memberTimeout (s : State) : fuses (memberTimeout s) = fuses s := by simp [memberTimeout]

/-! ### Machine/Objects -/

@[simp] theorem fuses_storeObject (r : ObjRow) (index sub : Nat) (v : List Byte) (s : State) :
    fuses (storeObject r index sub v s) = fuses s := by rfl

/-! ### Machine/Discovery -/

@[simp] theorem fuses_railsOff (s : State) : fuses (railsOff s) = fuses s := by rfl
@[simp] theorem fuses_stopStart (step cause : Nat) (s : State) : fuses (stopStart step cause s) = fuses s := by rfl
@[simp] theorem fuses_writeDieSite (p : Nat) (s : State) : fuses (writeDieSite p s) = fuses s := by rfl
@[simp] theorem fuses_markVats (d : Nat) (s : State) : fuses (markVats d s) = fuses s := by rfl

@[simp] theorem fuses_writeMap (s : State) : fuses (writeMap s) = fuses s := by
  simp [writeMap]

@[simp] theorem fuses_sendConfigs (s : State) : fuses (sendConfigs s) = fuses s := by rfl
@[simp] theorem fuses_classify (s : State) : fuses (classify s) = fuses s := by simp [classify]
@[simp] theorem fuses_takeFrame (p : Nat) (b : List Byte) (s : State) : fuses (takeFrame p b s) = fuses s := by simp [takeFrame]

@[simp] theorem fuses_repeatFrame (p : Nat) (s : State) : fuses (repeatFrame p s) = fuses s := by
  unfold repeatFrame
  exact fuses_guarded _ _ (by simp) s

@[simp] theorem fuses_windowEnd (s : State) : fuses (windowEnd s) = fuses s := by simp [windowEnd]

@[simp] theorem fuses_applyConfig (p : Nat) (b : List Byte) (s : State) : fuses (applyConfig p b s) = fuses s := by
  unfold applyConfig
  exact fuses_guarded _ _ (by simp) s

/-! ### Machine/Retire -/

@[simp] theorem fuses_withdraw (u g : Nat) (s : State) : fuses (withdraw u g s) = fuses s := by simp [withdraw]
@[simp] theorem fuses_retireRecord (u g cause : Nat) (s : State) : fuses (retireRecord u g cause s) = fuses s := by simp [retireRecord]
@[simp] theorem fuses_writeRetired (s : State) : fuses (writeRetired s) = fuses s := by simp [writeRetired]
@[simp] theorem fuses_endRetire (s : State) : fuses (endRetire s) = fuses s := by simp [endRetire]
@[simp] theorem fuses_payOwed (s : State) : fuses (payOwed s) = fuses s := by simp [payOwed]

/-! ### Machine/Separator -/

@[simp] theorem fuses_runStops (s : State) : fuses (runStops s) = fuses s := by simp [runStops]

@[simp] theorem fuses_refuseAccess (a : Access) (e : NoRoom) (c : Nat) (s : State) : fuses (refuseAccess a e c s) = fuses s := by
  unfold refuseAccess
  split <;> simp

@[simp] theorem fuses_arriveAccess (a : Access) (s : State) : fuses (arriveAccess a s) = fuses s := by
  unfold arriveAccess
  dsimp only
  split
  · simp
  · split <;> (have k := fuses_of_arriveAt ‹_›; simp_all [Arrival.state])

@[simp] theorem fuses_granuleFilled (g : Nat) (s : State) : fuses (granuleFilled g s) = fuses s := by
  unfold granuleFilled
  split <;> simp

@[simp] theorem fuses_finishDesc (z : SepDesc) (status done : Nat) (s : State) :
    fuses (finishDesc z status done s) = fuses s := by simp [finishDesc]

/-- Whether a granule of a Separator command leaves the fuses alone. -/
def SepStep.keeps (s : State) : SepStep → Prop
  | .done t => fuses t = fuses s
  | .moving t => fuses t = fuses s
  | .refuse _ => True
  | .wait => True

theorem placeOne_keeps (c : Nat) (hbm : Bool) (g : Nat) (s : State) : (placeOne c hbm g s).keeps s := by
  unfold placeOne
  (repeat' split) <;> simp [SepStep.keeps]

theorem releaseOne_keeps (g : Nat) (s : State) : (releaseOne g s).keeps s := by
  unfold releaseOne
  dsimp only
  (repeat' split) <;> simp [SepStep.keeps]

theorem migrateOne_keeps (hbm : Bool) (g : Nat) (s : State) : (migrateOne hbm g s).keeps s := by
  unfold migrateOne
  dsimp only
  (repeat' split) <;> simp [SepStep.keeps]

theorem chownOne_keeps (c g : Nat) (s : State) : (chownOne c g s).keeps s := by
  unfold chownOne
  dsimp only
  (repeat' split) <;> simp [SepStep.keeps]

theorem sepOne_keeps (z : SepDesc) (g : Nat) (s : State) : (sepOne z g s).keeps s := by
  unfold sepOne
  split
  · exact placeOne_keeps ..
  · exact releaseOne_keeps ..
  · simp [SepStep.keeps]
  · simp [SepStep.keeps]
  · simp [SepStep.keeps]
  · simp [SepStep.keeps]
  · exact migrateOne_keeps ..
  · exact chownOne_keeps ..

@[simp] theorem fuses_sepLoop (z : SepDesc) (n i : Nat) (s : State) : fuses (sepLoop z n i s) = fuses s := by
  induction n generalizing i s with
  | zero => simp [sepLoop]
  | succ n ih =>
    unfold sepLoop
    have k := sepOne_keeps z (granuleOf z.addr + i) s
    split <;> simp_all [SepStep.keeps]

@[simp] theorem fuses_sepRun (z : SepDesc) (s : State) : fuses (sepRun z s) = fuses s := by
  unfold sepRun
  dsimp only
  (repeat' split) <;> simp

@[simp] theorem fuses_skipReserved (n : Nat) (s : State) : fuses (skipReserved n s) = fuses s := by
  induction n generalizing s with
  | zero => rfl
  | succ n ih =>
    unfold skipReserved
    (repeat' split) <;> simp [ih]

@[simp] theorem fuses_sepSkip (s : State) : fuses (sepSkip s) = fuses s := by simp [sepSkip]

@[simp] theorem fuses_sepRow (op : Nat) (s : State) : fuses (sepRow op s) = fuses s := by
  unfold sepRow
  split <;> simp

@[simp] theorem fuses_sepContinue (s : State) : fuses (sepContinue s) = fuses s := by
  unfold sepContinue
  split <;> simp

@[simp] theorem fuses_copyDone (g : Nat) (s : State) : fuses (copyDone g s) = fuses s := by
  unfold copyDone
  dsimp only
  (repeat' split) <;> simp

@[simp] theorem fuses_moveTimeout (g : Nat) (s : State) : fuses (moveTimeout g s) = fuses s := by
  unfold moveTimeout
  split <;> simp

@[simp] theorem fuses_settleOver (c : Nat) (hbm : Bool) (s : State) : fuses (settleOver c hbm s) = fuses s := by simp [settleOver]
@[simp] theorem fuses_writeQuota (c : Nat) (v : BitVec 64) (s : State) : fuses (writeQuota c v s) = fuses s := by simp [writeQuota]

@[simp] theorem fuses_scanFrom (c : Nat) (l : List Nat) (s : State) : fuses (scanFrom c l s) = fuses s := by
  induction l generalizing s with
  | nil => rfl
  | cons g l ih =>
    unfold scanFrom
    dsimp only
    (repeat' split) <;> simp [ih]

@[simp] theorem fuses_demotionScan (c : Nat) (s : State) : fuses (demotionScan c s) = fuses s := by simp [demotionScan]

/-! ### Machine/ExtMem -/

@[simp] theorem fuses_scrub (u : Nat) (r : ScrubResult) (s : State) : fuses (scrub u r s) = fuses s := by
  unfold scrub
  dsimp only
  (repeat' split) <;> simp

@[simp] theorem fuses_retireNow (g cause : Nat) (hbm : Bool) (loc : Nat) (s : State) : fuses (retireNow g cause hbm loc s) = fuses s := by
  unfold retireNow
  dsimp only
  (repeat' split) <;> simp

@[simp] theorem fuses_pageRetire (addr cause : Nat) (s : State) : fuses (pageRetire addr cause s) = fuses s := by
  unfold pageRetire
  dsimp only
  (repeat' split) <;> simp

@[simp] theorem fuses_retireDone (u i : Nat) (s : State) : fuses (retireDone u i s) = fuses s := by
  unfold retireDone
  dsimp only
  (repeat' split) <;> simp

/-! ### Machine/StoreLog -/

@[simp] theorem fuses_eraseOldest (s : State) : fuses (eraseOldest s) = fuses s := by rfl

@[simp] theorem fuses_makeRoom (need n : Nat) (s : State) : fuses (makeRoom need n s) = fuses s := by
  induction n generalizing s with
  | zero => rfl
  | succ n ih =>
    unfold makeRoom
    split <;> simp [ih]

@[simp] theorem fuses_appendBatch (s : State) : fuses (appendBatch s) = fuses s := by simp [appendBatch]

@[simp] theorem fuses_appendAll (n : Nat) (s : State) : fuses (appendAll n s) = fuses s := by
  induction n generalizing s with
  | zero => rfl
  | succ n ih => simp [appendAll, ih]

@[simp] theorem fuses_flushLog (s : State) : fuses (flushLog s) = fuses s := by simp [flushLog]
@[simp] theorem fuses_appendLedger (s : State) : fuses (appendLedger s) = fuses s := by rfl
@[simp] theorem fuses_ledgerDue (s : State) : fuses (ledgerDue s) = fuses s := by simp [ledgerDue]
@[simp] theorem fuses_setClock (t : BitVec 64) (s : State) : fuses (setClock t s) = fuses s := by rfl
@[simp] theorem fuses_checkVbat (s : State) : fuses (checkVbat s) = fuses s := by simp [checkVbat]
@[simp] theorem fuses_midnight (mv : Nat) (s : State) : fuses (midnight mv s) = fuses s := by simp [midnight]
@[simp] theorem fuses_ptpAct (offset : Int) (s : State) : fuses (ptpAct offset s) = fuses s := by simp [ptpAct]

/-! ### Machine/Startup -/

@[simp] theorem fuses_settledMap (s : State) : fuses (settledMap s) = fuses s := by simp [settledMap]
@[simp] theorem fuses_afterLoss (cold : Bool) (s : State) : fuses (afterLoss cold s) = fuses s := by simp [afterLoss]
@[simp] theorem fuses_postInvalid (core : Bool) (a b : FwImage) (s : State) : fuses (postInvalid core a b s) = fuses s := by rfl
@[simp] theorem fuses_ready (s : State) : fuses (ready s) = fuses s := by rfl

@[simp] theorem fuses_slowAt (step : Nat) (s : State) (act : State → State) (h : ∀ s, fuses (act s) = fuses s) :
    fuses (slowAt step s act) = fuses s := by simp [slowAt, h]

@[simp] theorem fuses_joinNetwork (s : State) : fuses (joinNetwork s) = fuses s := by simp [joinNetwork]

@[simp] theorem fuses_startCores (s : State) : fuses (startCores s) = fuses s := by
  refine fuses_slowAt _ _ _ (fun t => ?_)
  split <;> simp

@[simp] theorem fuses_resetMap (s : State) : fuses (resetMap s) = fuses s := by rfl
@[simp] theorem fuses_compareUnits (s : State) : fuses (compareUnits s) = fuses s := by simp [compareUnits]
@[simp] theorem fuses_formDomain (s : State) : fuses (formDomain s) = fuses s := by simp [formDomain]

@[simp] theorem fuses_leaveOut (u code : Nat) (payload : List Nat) (s : State) :
    fuses (leaveOut u code payload s) = fuses s := by simp [leaveOut]

@[simp] theorem fuses_trainStack (k : Nat) (s : State) : fuses (trainStack k s) = fuses s := by
  unfold trainStack
  dsimp only
  (repeat' split) <;> simp

@[simp] theorem fuses_trainDie (m : Nat) (s : State) : fuses (trainDie m s) = fuses s := by
  refine fuses_each _ _ (fun ch t => ?_) s
  dsimp only
  (repeat' split) <;> simp

@[simp] theorem fuses_train (s : State) : fuses (train s) = fuses s := by simp [train]
@[simp] theorem fuses_holdOrTrain (s : State) : fuses (holdOrTrain s) = fuses s := by simp [holdOrTrain]
@[simp] theorem fuses_powerGood (s : State) : fuses (powerGood s) = fuses s := by simp [powerGood]
@[simp] theorem fuses_fenceSite (i : Nat) (r : RailId) (s : State) : fuses (fenceSite i r s) = fuses s := by simp [fenceSite]
@[simp] theorem fuses_fenceStack (k : Nat) (s : State) : fuses (fenceStack k s) = fuses s := by simp [fenceStack]
@[simp] theorem fuses_settleRails (s : State) : fuses (settleRails s) = fuses s := by simp [settleRails]

@[simp] theorem fuses_railUp (r : RailId) (s : State) : fuses (railUp r s) = fuses s := by
  unfold railUp
  split <;> simp

@[simp] theorem fuses_railShort (r : RailId) (s : State) : fuses (railShort r s) = fuses s := by
  unfold railShort
  split <;> simp

@[simp] theorem fuses_rampEnd (r : RailId) (ok : Bool) (s : State) : fuses (rampEnd r ok s) = fuses s := by simp [rampEnd]
@[simp] theorem fuses_retryRails (site : Nat) (s : State) : fuses (retryRails site s) = fuses s := by simp [retryRails]
@[simp] theorem fuses_beginSoft (s : State) : fuses (beginSoft s) = fuses s := by simp [beginSoft]
@[simp] theorem fuses_settleConfig (s : State) : fuses (settleConfig s) = fuses s := by simp [settleConfig]
@[simp] theorem fuses_configAck (p : Nat) (b : List Byte) (s : State) : fuses (configAck p b s) = fuses s := by simp [configAck]
@[simp] theorem fuses_ackLate (p : Nat) (s : State) : fuses (ackLate p s) = fuses s := by simp [ackLate]
@[simp] theorem fuses_afterClassify (s : State) : fuses (afterClassify s) = fuses s := by simp [afterClassify]
@[simp] theorem fuses_appendCowbell (s : State) : fuses (appendCowbell s) = fuses s := by simp [appendCowbell]

@[simp] theorem fuses_postTorn (n : Nat) (s : State) : fuses (postTorn n s) = fuses s := by
  induction n generalizing s with
  | zero => rfl
  | succ n ih => simp [postTorn, ih]

@[simp] theorem fuses_scanStore (s : State) : fuses (scanStore s) = fuses s := by simp [scanStore]
@[simp] theorem fuses_baseRails (s : State) : fuses (baseRails s) = fuses s := by simp [baseRails]
@[simp] theorem fuses_reportPast (s : State) : fuses (reportPast s) = fuses s := by simp [reportPast]

@[simp] theorem fuses_bootFrom3 (s : State) : fuses (bootFrom3 s) = fuses s := by
  unfold bootFrom3
  dsimp only
  (repeat' split) <;> simp

@[simp] theorem fuses_passStep2 (s : State) : fuses (passStep2 s) = fuses s := by simp [passStep2]
@[simp] theorem fuses_coldStart (b : Board) (s : State) : fuses (coldStart b s) = fuses s := by simp [coldStart]
@[simp] theorem fuses_beginScrub (cause : Nat) (s : State) : fuses (beginScrub cause s) = fuses s := by simp [beginScrub]

@[simp] theorem fuses_applyDebug (s : State) : fuses (applyDebug s) = fuses s := by
  unfold applyDebug
  split <;> simp

@[simp] theorem fuses_packageReset (cause : Nat) (hold : Bool) (s : State) :
    fuses (packageReset cause hold s) = fuses s := by simp [packageReset]

@[simp] theorem fuses_registerReset (key : BitVec 8) (hold : Bool) (s : State) :
    fuses (registerReset key hold s) = fuses s := by simp [registerReset]

@[simp] theorem fuses_resetPin (s : State) : fuses (resetPin s) = fuses s := by
  unfold resetPin
  dsimp only
  (repeat' split) <;> simp

@[simp] theorem fuses_releasePin (s : State) : fuses (releasePin s) = fuses s := by simp [releasePin]

@[simp] theorem fuses_zeroFilled (s : State) : fuses (zeroFilled s) = fuses s := by
  unfold zeroFilled
  split <;> simp

/-! ### Machine/StartRows -/

@[simp] theorem fuses_overrun (s : State) : fuses (overrun s) = fuses s := by
  unfold overrun
  split <;> simp

@[simp] theorem fuses_beat (s : State) : fuses (beat s) = fuses s := fuses_guarded _ _ (by simp) s
@[simp] theorem fuses_fallbackRails (s : State) : fuses (fallbackRails s) = fuses s := by simp [fallbackRails]
@[simp] theorem fuses_markUnmetered (s : State) : fuses (markUnmetered s) = fuses s := by simp [markUnmetered]
@[simp] theorem fuses_failDairyman (selfReport : Bool) (s : State) : fuses (failDairyman selfReport s) = fuses s := by simp [failDairyman]
@[simp] theorem fuses_dairyFails (selfReport : Bool) (s : State) : fuses (dairyFails selfReport s) = fuses s := by simp [dairyFails]
@[simp] theorem fuses_resumeDairyman (i : FwImage) (s : State) : fuses (resumeDairyman i s) = fuses s := by simp [resumeDairyman]
@[simp] theorem fuses_stayDown (s : State) : fuses (stayDown s) = fuses s := by rfl

@[simp] theorem fuses_dairyReturns (ok : Bool) (s : State) : fuses (dairyReturns ok s) = fuses s := by
  unfold dairyReturns
  (repeat' split) <;> simp

@[simp] theorem fuses_powerLost (s : State) : fuses (powerLost s) = fuses s := by
  unfold powerLost
  split <;> simp

@[simp] theorem fuses_heelOut (s : State) : fuses (heelOut s) = fuses s := fuses_guarded _ _ (by simp) s

@[simp] theorem fuses_hardTrip (site : Nat) (sensors : List Nat) (s : State) : fuses (hardTrip site sensors s) = fuses s := by
  unfold hardTrip
  split
  · rfl
  · rfl
  · rfl
  · dsimp only
    split
    · simp
    · have k := fuses_afterLoss true (readSensors site sensors s)
      simp only [fuses, Prod.mk.injEq] at k
      obtain ⟨hv, hw, _⟩ := k
      simp [hv, hw]

@[simp] theorem fuses_setUpdStatus (n : Nat) (s : State) : fuses (setUpdStatus n s) = fuses s := by rfl

@[simp] theorem fuses_putImage (i : FwImage) (s : State) : fuses (putImage i s) = fuses s := by
  unfold putImage
  split <;> simp

@[simp] theorem fuses_beginUpdate (s : State) : fuses (beginUpdate s) = fuses s := by simp [beginUpdate]
@[simp] theorem fuses_eraseDone (s : State) : fuses (eraseDone s) = fuses s := by simp [eraseDone]
@[simp] theorem fuses_addChunk (data : List Byte) (s : State) : fuses (addChunk data s) = fuses s := by simp [addChunk]
@[simp] theorem fuses_commitUpdate (s : State) : fuses (commitUpdate s) = fuses s := by simp [commitUpdate]
@[simp] theorem fuses_cancelUpdate (s : State) : fuses (cancelUpdate s) = fuses s := by simp [cancelUpdate]
@[simp] theorem fuses_srst (hold : Bool) (s : State) : fuses (srst hold s) = fuses s := by simp [srst]

/-! ### Machine/Tenancy -/

@[simp] theorem fuses_spdmError (s : State) : fuses (spdmError s) = fuses s := by rfl
@[simp] theorem fuses_digests (r : SpdmPort) (s : State) : fuses (digests r s) = fuses s := by simp [digests]

@[simp] theorem fuses_certificate (r : SpdmPort) (slot off len : Nat) (s : State) :
    fuses (certificate r slot off len s) = fuses s := by simp [certificate]

@[simp] theorem fuses_signed' (request body : List Byte) (s : State) : fuses (signed' request body s) = fuses s := by rfl

@[simp] theorem fuses_challenge (r : SpdmPort) (slot : Nat) (nonce : List Byte) (s : State) :
    fuses (challenge r slot nonce s) = fuses s := by simp [challenge]

@[simp] theorem fuses_measurements (r : SpdmPort) (idx : Nat) (nonce : List Byte) (s : State) :
    fuses (measurements r idx nonce s) = fuses s := by simp [measurements]

@[simp] theorem fuses_keyExchange (r : SpdmPort) (slot : Nat) (exch : List Byte) (s : State) :
    fuses (keyExchange r slot exch s) = fuses s := by
  unfold keyExchange
  split <;> simp

@[simp] theorem fuses_putSpdm (r : SpdmPort) (n : Nat) (x : SpdmSession) (s : State) : fuses (putSpdm r n x s) = fuses s := by rfl

@[simp] theorem fuses_finishSession (r : SpdmPort) (n : Nat) (cert : Option (List Byte)) (s : State) :
    fuses (finishSession r n cert s) = fuses s := by
  unfold finishSession
  split <;> simp

@[simp] theorem fuses_inSession (r : SpdmPort) (n : Nat) (f : SpdmSession → State → State) (h : ∀ x s, fuses (f x s) = fuses s) (s : State) :
    fuses (inSession r n f s) = fuses s := by
  unfold inSession
  (repeat' split) <;> simp [h]

@[simp] theorem fuses_keepAlive (r : SpdmPort) (n : Nat) (s : State) : fuses (keepAlive r n s) = fuses s := by simp [keepAlive]
@[simp] theorem fuses_updateKeys (r : SpdmPort) (n : Nat) (s : State) : fuses (updateKeys r n s) = fuses s := by simp [updateKeys]
@[simp] theorem fuses_endSpdm (r : SpdmPort) (n : Nat) (s : State) : fuses (endSpdm r n s) = fuses s := by simp [endSpdm]
@[simp] theorem fuses_bindSole (r : SpdmPort) (t : List Byte) (s : State) : fuses (bindSole r t s) = fuses s := by simp [bindSole]
@[simp] theorem fuses_leaveTenancy (cause : Nat) (s : State) : fuses (leaveTenancy cause s) = fuses s := by simp [leaveTenancy]

@[simp] theorem fuses_keyEffect (o : KeyOp) (k : KeyReq) (t : List Byte) (s : State) : fuses (keyEffect o k t s) = fuses s := by
  unfold keyEffect
  split <;> simp

@[simp] theorem fuses_keyAct (o : KeyOp) (k : KeyReq) (s : State) : fuses (keyAct o k s) = fuses s := by simp [keyAct]
@[simp] theorem fuses_testAct (t : TestInstr) (s : State) : fuses (testAct t s) = fuses s := by rfl

/-! ### Machine/Dictionary -/

@[simp] theorem fuses_updSession (n : Nat) (f : Session → Session) (s : State) : fuses (updSession n f s) = fuses s := by
  unfold updSession
  split <;> simp

@[simp] theorem fuses_closeSession (n : Nat) (s : State) : fuses (closeSession n s) = fuses s := by rfl
@[simp] theorem fuses_postWrite (w : Writer) (index sub : Nat) (s : State) : fuses (postWrite w index sub s) = fuses s := by rfl
@[simp] theorem fuses_reapplySetpoints (s : State) : fuses (reapplySetpoints s) = fuses s := by simp [reapplySetpoints]
@[simp] theorem fuses_afterStore (index sub : Nat) (s : State) : fuses (afterStore index sub s) = fuses s := by simp [afterStore]
@[simp] theorem fuses_clearFailed (d : Nat) (s : State) : fuses (clearFailed d s) = fuses s := by simp [clearFailed]
@[simp] theorem fuses_clearVat (d k : Nat) (s : State) : fuses (clearVat d k s) = fuses s := by simp [clearVat]
@[simp] theorem fuses_clearList (u : Nat) (s : State) : fuses (clearList u s) = fuses s := by simp [clearList]
@[simp] theorem fuses_setTunnel (n : Nat) (s : State) : fuses (setTunnel n s) = fuses s := by rfl
@[simp] theorem fuses_endRepair (k row : Nat) (hard : Bool) (s : State) : fuses (endRepair k row hard s) = fuses s := by simp [endRepair]

@[simp] theorem fuses_tunnelAct (c : Nat) (s : State) : fuses (tunnelAct c s) = fuses s := by
  unfold tunnelAct
  dsimp only
  (repeat' split) <;> simp

theorem fuses_of_actionObject {w : Writer} {index sub : Nat} {v : List Byte} {f} (h : actionObject w index sub v = some f) (s : State) :
    fuses (f s) = fuses s := by
  unfold actionObject at h
  split at h <;> cases h
  case h_2 => rcases leNat v with _ | _ | _ | _ <;> simp
  all_goals simp

@[simp] theorem fuses_keepValue (w : Writer) (r : ObjRow) (index sub : Nat) (v : List Byte) (s : State) :
    fuses (keepValue w r index sub v s) = fuses s := by simp [keepValue]

@[simp] theorem fuses_writeObject (w : Writer) (index sub ty : Nat) (v : List Byte) (s : State) :
    fuses (writeObject w index sub ty v s).2 = fuses s := by
  unfold writeObject
  dsimp only
  split
  · rfl
  · split
    · rfl
    · split
      · rfl
      · split
        · exact fuses_of_actionObject ‹_› s
        · simp

@[simp] theorem fuses_dropFrame (p : DictPath) (s : State) : fuses (dropFrame p s) = fuses s := by simp [dropFrame]

@[simp] theorem fuses_setMbox (p : DictPath) (f : Mailbox → Mailbox) (s : State) : fuses (setMbox p f s) = fuses s := by
  unfold setMbox
  split <;> simp

@[simp] theorem fuses_respond (p : DictPath) (frame : List Byte) (s : State) : fuses (respond p frame s) = fuses s := by simp [respond]
@[simp] theorem fuses_drop (p : DictPath) (s : State) : fuses (drop p s) = fuses s := by simp [drop]

@[simp] theorem fuses_cowbellAnswer (p : DictPath) (f : List Byte) (s : State) :
    fuses (cowbellAnswer p f s) = fuses s := by simp [cowbellAnswer]

@[simp] theorem fuses_writeRequest (w : Writer) (p : List Byte) (s : State) : fuses (writeRequest w p s).2 = fuses s := by
  unfold writeRequest
  split <;> simp

@[simp] theorem fuses_subscribeRequest (path n : Nat) (x : Session) (p : List Byte) (s : State) :
    fuses (subscribeRequest path n x p s).2.2 = fuses s := by
  unfold subscribeRequest
  dsimp only
  (repeat' split) <;> simp

@[simp] theorem fuses_serve (p : DictPath) (n : Nat) (x : Session) (f : List Byte) (s : State) : fuses (serve p n x f s) = fuses s := by
  unfold serve
  dsimp only
  (repeat' split) <;> simp

@[simp] theorem fuses_refuseOpen (p : DictPath) (st : Nat) (f : List Byte) (s : State) :
    fuses (refuseOpen p st f s) = fuses s := by simp [refuseOpen]

@[simp] theorem fuses_openSession (p : DictPath) (level : Nat) (f : List Byte) (s : State) :
    fuses (openSession p level f s) = fuses s := by simp [openSession]

@[simp] theorem fuses_openRequest (p : DictPath) (f : List Byte) (s : State) : fuses (openRequest p f s) = fuses s := by simp [openRequest]

@[simp] theorem fuses_request (p : DictPath) (f : List Byte) (s : State) : fuses (request p f s) = fuses s := by
  unfold request
  dsimp only
  (repeat' split) <;> simp

@[simp] theorem fuses_requestOp (op : Nat) (p : DictPath) (f : List Byte) (s : State) :
    fuses (requestOp op p f s) = fuses s := by simp [requestOp]

@[simp] theorem fuses_mailboxGo (m : MailboxId) (s : State) : fuses (mailboxGo m s) = fuses s := by simp [mailboxGo]

@[simp] theorem fuses_idleSession (p : DictPath) (n : Nat) (s : State) : fuses (idleSession p n s) = fuses s := by
  unfold idleSession
  split <;> simp

@[simp] theorem fuses_endLockout (p : DictPath) (s : State) : fuses (endLockout p s) = fuses s := by simp [endLockout]

@[simp] theorem fuses_push (n id : Nat) (s : State) : fuses (push n id s) = fuses s := by
  unfold push
  dsimp only
  (repeat' split) <;> simp

@[simp] theorem fuses_objectRow (r : ObjReq) (index sub ty : Nat) (v : List Byte) (s : State) :
    fuses (objectRow r index sub ty v s) = fuses s := by
  unfold objectRow
  dsimp only
  (repeat' split) <;> simp

/-! ### Machine/Harts -/

@[simp] theorem fuses_updFile (k : Nat) (f : IntFile → IntFile) (s : State) : fuses (updFile k f s) = fuses s := by rfl
@[simp] theorem fuses_putCsr (h n v : Nat) (s : State) : fuses (putCsr h n v s) = fuses s := by rfl
@[simp] theorem fuses_selWrite (h file sel v : Nat) (s : State) : fuses (selWrite h file sel v s) = fuses s := by simp [selWrite]

@[simp] theorem fuses_writeCompare (h : Nat) (k : TimerKind) (v : BitVec 64) (s : State) :
    fuses (writeCompare h k v s) = fuses s := by simp [writeCompare]

@[simp] theorem fuses_csrWrite (h n v : Nat) (s : State) : fuses (csrWrite h n v s) = fuses s := by
  unfold csrWrite
  dsimp only
  (repeat' split) <;> simp

@[simp] theorem fuses_csrAccess (h : Nat) (p : Priv) (n : Nat) (op : CsrOp) (v : Nat) (s : State) :
    fuses (csrAccess h p n op v s) = fuses s := by
  unfold csrAccess
  split <;> simp

@[simp] theorem fuses_putReg (h k : Nat) (v : BitVec 64) (s : State) : fuses (putReg h k v s) = fuses s := by simp [putReg]
@[simp] theorem fuses_hartsTick (s : State) : fuses (hartsTick s) = fuses s := by simp [hartsTick]

/-! ### Machine/Pail -/

@[simp] theorem fuses_setPort (p : PcieId) (x : PciePort) (s : State) : fuses (setPort p x s) = fuses s := by
  unfold setPort
  split <;> simp

@[simp] theorem fuses_movePort (p : PcieId) (state : Nat) (s : State) : fuses (movePort p state s) = fuses s := by simp [movePort]
@[simp] theorem fuses_linkUp (p : PcieId) (rate width : Nat) (s : State) : fuses (linkUp p rate width s) = fuses s := by simp [linkUp]
@[simp] theorem fuses_discardAll (code : Nat) (s : State) : fuses (discardAll code s) = fuses s := by simp [discardAll]
@[simp] theorem fuses_linkDown (p : PcieId) (s : State) : fuses (linkDown p s) = fuses s := by simp [linkDown]
@[simp] theorem fuses_portAReset (kind : Nat) (s : State) : fuses (portAReset kind s) = fuses s := by simp [portAReset]

@[simp] theorem fuses_aerLogged (p : PcieId) (rid status : Nat) (s : State) :
    fuses (aerLogged p rid status s) = fuses s := by simp [aerLogged]

@[simp] theorem fuses_portBInt (n : Nat) (level : Bool) (s : State) : fuses (portBInt n level s) = fuses s := by simp [portBInt]
@[simp] theorem fuses_malformed (q reason : Nat) (s : State) : fuses (malformed q reason s) = fuses s := by simp [malformed]

@[simp] theorem fuses_checkHead (q : Nat) (s : State) : fuses (checkHead q s) = fuses s := by
  unfold checkHead
  dsimp only
  (repeat' split) <;> simp

@[simp] theorem fuses_consume (q len : Nat) (s : State) : fuses (consume q len s) = fuses s := by simp [consume]
@[simp] theorem fuses_landDword (addr : Nat) (b : List Byte) (s : State) : fuses (landDword addr b s) = fuses s := by simp [landDword]

@[simp] theorem fuses_pailWriteAct (addr : Nat) (data : List Byte) (full : Bool) (s : State) :
    fuses (pailWriteAct addr data full s) = fuses s := by simp [pailWriteAct]

@[simp] theorem fuses_doorbell (q bytes seq : Nat) (s : State) : fuses (doorbell q bytes seq s) = fuses s := by simp [doorbell]
@[simp] theorem fuses_resync (q : Nat) (v : BitVec 16) (s : State) : fuses (resync q v s) = fuses s := by simp [resync]
@[simp] theorem fuses_enableQueue (q : Nat) (v : Bool) (s : State) : fuses (enableQueue q v s) = fuses s := by simp [enableQueue]
@[simp] theorem fuses_dataAct (q : Nat) (s : State) : fuses (dataAct q s) = fuses s := by simp [dataAct]
@[simp] theorem fuses_jobAct (q : Nat) (s : State) : fuses (jobAct q s) = fuses s := by simp [jobAct]
@[simp] theorem fuses_fenceAct (q : Nat) (s : State) : fuses (fenceAct q s) = fuses s := by simp [fenceAct]
@[simp] theorem fuses_performReturn (q : Nat) (r : WaitRet) (s : State) : fuses (performReturn q r s) = fuses s := by simp [performReturn]

@[simp] theorem fuses_tryReturn (q : Nat) (s : State) : fuses (tryReturn q s) = fuses s := by
  unfold tryReturn
  dsimp only
  (repeat' split) <;> simp

@[simp] theorem fuses_returnAct (q : Nat) (s : State) : fuses (returnAct q s) = fuses s := by simp [returnAct]
@[simp] theorem fuses_writeHcqHead (q : Nat) (v : BitVec 16) (s : State) : fuses (writeHcqHead q v s) = fuses s := by simp [writeHcqHead]
@[simp] theorem fuses_idleDiscardAct (q : Nat) (s : State) : fuses (idleDiscardAct q s) = fuses s := by simp [idleDiscardAct]

/-! ### Machine/Serving -/

@[simp] theorem fuses_build (f : State → Builder) (h : ∀ s, fuses (f s).2 = fuses s) (b : Builder) : fuses (build f b).2 = fuses b.2 := by
  unfold build
  split
  · rfl
  · exact h _

@[simp] theorem fuses_buildPut (n va : Nat) (bs : List Byte) (b : Builder) : fuses (buildPut n va bs b).2 = fuses b.2 := by
  refine fuses_build _ (fun s => ?_) b
  split <;> exact fuses_of_buildWrite ‹_›

@[simp] theorem fuses_buildGet (n va len : Nat) (f : List Byte → State → Builder) (h : ∀ x s, fuses (f x s).2 = fuses s) (b : Builder) :
    fuses (buildGet n va len f b).2 = fuses b.2 := by
  refine fuses_build _ (fun s => ?_) b
  split <;> simp [h, fuses_of_buildRead ‹_›]

@[simp] theorem fuses_putField (n i off len v : Nat) (b : Builder) : fuses (putField n i off len v b).2 = fuses b.2 := by simp [putField]

@[simp] theorem fuses_withStream (n i : Nat) (f : Stream → State → Builder) (h : ∀ x s, fuses (f x s).2 = fuses s) (b : Builder) :
    fuses (withStream n i f b).2 = fuses b.2 := by simp [withStream, h]

@[simp] theorem fuses_buildEach {α : Type} (l : List α) (f : α → Builder → Builder) (h : ∀ a b, fuses (f a b).2 = fuses b.2) (b : Builder) :
    fuses (buildEach l f b).2 = fuses b.2 := fuses_foldl_snd _ _ h b

@[simp] theorem fuses_buildPart (n : Nat) (f : Partition → Partition) (b : Builder) :
    fuses (buildPart n f b).2 = fuses b.2 := by simp [buildPart]

@[simp] theorem fuses_markLeave (n i cause : Nat) (b : Builder) : fuses (markLeave n i cause b).2 = fuses b.2 := by simp [markLeave]

@[simp] theorem fuses_applyResult (n slot : Nat) (z : ServeSlot) (r : Nat) (b : Builder) :
    fuses (applyResult n slot z r b).2 = fuses b.2 := by
  refine fuses_withStream _ _ _ (fun e s => ?_) b
  dsimp only
  (repeat' split) <;> simp

@[simp] theorem fuses_takeResults (n : Nat) (slots : List ServeSlot) (s : State) : fuses (takeResults n slots s).2 = fuses s := by
  unfold takeResults
  dsimp only
  (repeat' split) <;> simp

@[simp] theorem fuses_rejectJoin (n : Nat) (q : List Byte) (entry : Nat) (s : State) : fuses (rejectJoin n q entry s) = fuses s := by rfl

@[simp] theorem fuses_readAdmission (n : Nat) (b : Builder) : fuses (readAdmission n b).2 = fuses b.2 := by
  unfold readAdmission
  dsimp only
  rw [fuses_buildPart]
  refine fuses_buildGet _ _ _ _ (fun q s => ?_) b
  split
  · simp
  · refine fuses_withStream _ _ _ (fun e t => ?_) _
    (repeat' split) <;> simp

@[simp] theorem fuses_readAdmissions (n k : Nat) (b : Builder) : fuses (readAdmissions n k b).2 = fuses b.2 := by
  induction k generalizing b with
  | zero => rfl
  | succ k ih =>
    unfold readAdmissions
    dsimp only
    split <;> simp [ih]

@[simp] theorem fuses_finishStream (n i : Nat) (b : Builder) : fuses (finishStream n i b).2 = fuses b.2 := by simp [finishStream]

@[simp] theorem fuses_cancelStream (n i : Nat) (b : Builder) : fuses (cancelStream n i b).2 = fuses b.2 := by
  refine fuses_withStream _ _ _ (fun e s => ?_) b
  (repeat' split) <;> simp

@[simp] theorem fuses_streamsRead (r : Built (List Byte) × State) : fuses (streamsRead r).2 = fuses r.2 := by
  obtain ⟨_ | _, _⟩ := r <;> simp [streamsRead]

@[simp] theorem fuses_tableStreams (n : Nat) (s : State) : fuses (tableStreams n s).2 = fuses s := by
  have k : ∀ n a l s, fuses (buildRead n a l s).2 = fuses s := fun _ _ _ _ => fuses_of_buildRead rfl
  generalize hf : tableStreams = f
  delta tableStreams at hf
  obtain ⟨w, hw⟩ : ∃ w, buildRead = w := ⟨_, rfl⟩
  rw [hw] at hf k
  subst hf
  exact (fuses_streamsRead _).trans (k ..)

@[simp] theorem fuses_tableThen (f : List (Nat × Stream) → State → Builder) (h : ∀ l s, fuses (f l s).2 = fuses s)
    (r : Built (List (Nat × Stream)) × State) : fuses (tableThen f r).2 = fuses r.2 := by
  unfold tableThen
  split
  · exact h _ _
  · rfl

@[simp] theorem fuses_withTable (n : Nat) (f : List (Nat × Stream) → State → Builder) (h : ∀ l s, fuses (f l s).2 = fuses s) (b : Builder) :
    fuses (withTable n f b).2 = fuses b.2 := by
  have k := fuses_tableStreams
  generalize hg : withTable = g
  delta withTable at hg
  obtain ⟨w, hw⟩ : ∃ w, tableStreams = w := ⟨_, rfl⟩
  rw [hw] at hg k
  subst hg
  exact fuses_build _ (fun s => (fuses_tableThen f h _).trans (k n s)) b

@[simp] theorem fuses_applyLeaves (n : Nat) (b : Builder) : fuses (applyLeaves n b).2 = fuses b.2 := by simp [applyLeaves]
@[simp] theorem fuses_admitStreams (n : Nat) (b : Builder) : fuses (admitStreams n b).2 = fuses b.2 := by simp [admitStreams]

@[simp] theorem fuses_takePage (n kvDir list page : Nat) (b : Builder) :
    fuses (takePage n kvDir list page b).2 = fuses b.2 := by simp [takePage]

@[simp] theorem fuses_pickStream (n i : Nat) (a : Pick × Builder) : fuses (pickStream n i a).2.2 = fuses a.2.2 := by
  obtain ⟨k, b⟩ := a
  unfold pickStream
  dsimp only
  split
  · rfl
  · split
    · exact fuses_of_buildRead ‹_›
    · have h1 := fuses_of_buildRead ‹_›
      split
      · exact (fuses_of_buildRead ‹_›).trans h1
      · have h2 := fuses_of_buildRead ‹_›
        (repeat' split) <;> simp [h1, h2]

@[simp] theorem fuses_selectFrom (n : Nat) (r : Built (List (Nat × Stream)) × State) : fuses (selectFrom n r).2.2 = fuses r.2 := by
  unfold selectFrom
  split
  · rfl
  · exact foldl_same (fun a : Pick × Builder => fuses a.2.2) _ _ (fun i a => fuses_pickStream n i a) _

@[simp] theorem fuses_selectSet (n : Nat) (stop : Bool) (b : Builder) : fuses (selectSet n stop b).2.2 = fuses b.2 := by
  unfold selectSet
  split
  · rfl
  · simp

@[simp] theorem fuses_gatherSlot (n : Nat) (z : ServeSlot) (b : Builder) : fuses (gatherSlot n z b).2 = fuses b.2 := by
  refine fuses_withStream _ _ _ (fun e s => ?_) b
  exact fuses_buildEach _ _ (fun c b => fuses_buildGet _ _ _ _ (by simp) b) _

@[simp] theorem fuses_boundaryTail (n : Nat) (b : Builder) : fuses (boundaryTail n b).2.2 = fuses b.2 := by
  unfold boundaryTail
  dsimp only
  (repeat' split) <;> simp

theorem fuses_endBoundary (n k : Nat) (s : State) (r : Bool × Builder) (h : fuses r.2.2 = fuses s) :
    fuses (endBoundary n k s r) = fuses s := by
  unfold endBoundary
  dsimp only
  (repeat' split) <;> simp [h]

@[simp] theorem fuses_resumeHold (n : Nat) (s : State) : fuses (resumeHold n s) = fuses s := by
  unfold resumeHold
  dsimp only
  split
  · exact fuses_endBoundary _ _ _ _ (by simp)
  · rfl

@[simp] theorem fuses_stepBoundary (d : Nat) (s : State) : fuses (stepBoundary d s) = fuses s := by
  unfold stepBoundary
  split
  · rfl
  · split
    · dsimp only
      split
      · rfl
      · split
        · simp
        · exact fuses_endBoundary _ _ _ _ (by simp)
    · rfl

@[simp] theorem fuses_enablePartition (n : Nat) (v : Bool) (s : State) : fuses (enablePartition n v s) = fuses s := by
  unfold enablePartition
  dsimp only
  (repeat' split) <;> simp

@[simp] theorem fuses_writePoolTail (n : Nat) (v : BitVec 32) (s : State) : fuses (writePoolTail n v s) = fuses s := by simp [writePoolTail]

/-! ### Machine/Registers -/

@[simp] theorem fuses_writeTarget (c v : Nat) (s : State) : fuses (writeTarget c v s) = fuses s := by rfl
@[simp] theorem fuses_writeCtxCfg (c v : Nat) (s : State) : fuses (writeCtxCfg c v s) = fuses s := by simp [writeCtxCfg]
@[simp] theorem fuses_contextWrite (c off v : Nat) (s : State) : fuses (contextWrite c off v s) = fuses s := by simp [contextWrite]
@[simp] theorem fuses_writeReset (v : Nat) (s : State) : fuses (writeReset v s) = fuses s := by simp [writeReset]
@[simp] theorem fuses_separatorWrite (off v : Nat) (s : State) : fuses (separatorWrite off v s) = fuses s := by simp [separatorWrite]
@[simp] theorem fuses_quotaWrite (c off v : Nat) (s : State) : fuses (quotaWrite c off v s) = fuses s := by simp [quotaWrite]
@[simp] theorem fuses_controlWrite (a v : Nat) (s : State) : fuses (controlWrite a v s) = fuses s := by simp [controlWrite]

@[simp] theorem fuses_writeQueueCsr (off errs idx v : Nat) (s : State) :
    fuses (writeQueueCsr off errs idx v s) = fuses s := by simp [writeQueueCsr]

@[simp] theorem fuses_agentWrite32 (off v : Nat) (s : State) : fuses (agentWrite32 off v s) = fuses s := by simp [agentWrite32]
@[simp] theorem fuses_settleAgentMsi (off v : Nat) (s : State) : fuses (settleAgentMsi off v s) = fuses s := by simp [settleAgentMsi]
@[simp] theorem fuses_agentWrite (off n data : Nat) (s : State) : fuses (agentWrite off n data s) = fuses s := by simp [agentWrite]
@[simp] theorem fuses_setAplic (dom off v : Nat) (s : State) : fuses (setAplic dom off v s) = fuses s := by rfl
@[simp] theorem fuses_setPendSource (dom i : Nat) (s : State) : fuses (setPendSource dom i s) = fuses s := by simp [setPendSource]
@[simp] theorem fuses_clearPendSource (dom i : Nat) (s : State) : fuses (clearPendSource dom i s) = fuses s := by simp [clearPendSource]

@[simp] theorem fuses_enableSource (dom : Nat) (on : Bool) (i : Nat) (s : State) :
    fuses (enableSource dom on i s) = fuses s := by simp [enableSource]

@[simp] theorem fuses_genMsi (dom v : Nat) (s : State) : fuses (genMsi dom v s) = fuses s := by simp [genMsi]
@[simp] theorem fuses_aplicWrite (dom off v : Nat) (s : State) : fuses (aplicWrite dom off v s) = fuses s := by simp [aplicWrite]
@[simp] theorem fuses_writeTimecmp (h v : Nat) (s : State) : fuses (writeTimecmp h v s) = fuses s := by simp [writeTimecmp]
@[simp] theorem fuses_irqWrite (a n data : Nat) (s : State) : fuses (irqWrite a n data s) = fuses s := by simp [irqWrite]
@[simp] theorem fuses_writePartCfg (d v : Nat) (s : State) : fuses (writePartCfg d v s) = fuses s := by simp [writePartCfg]
@[simp] theorem fuses_servingWrite (d off v : Nat) (s : State) : fuses (servingWrite d off v s) = fuses s := by simp [servingWrite]
@[simp] theorem fuses_setCb (c off v : Nat) (s : State) : fuses (setCb c off v s) = fuses s := by rfl
@[simp] theorem fuses_cbAlloc (c v : Nat) (s : State) : fuses (cbAlloc c v s) = fuses s := by simp [cbAlloc]
@[simp] theorem fuses_cbMon (c v : Nat) (s : State) : fuses (cbMon c v s) = fuses s := by simp [cbMon]
@[simp] theorem fuses_cbqriWrite (c off v : Nat) (s : State) : fuses (cbqriWrite c off v s) = fuses s := by simp [cbqriWrite]
@[simp] theorem fuses_dieWrite (d off v : Nat) (s : State) : fuses (dieWrite d off v s) = fuses s := by simp [dieWrite]
@[simp] theorem fuses_procWrite (m off v : Nat) (s : State) : fuses (procWrite m off v s) = fuses s := by simp [procWrite]
@[simp] theorem fuses_memoryWrite (a v : Nat) (s : State) : fuses (memoryWrite a v s) = fuses s := by simp [memoryWrite]
@[simp] theorem fuses_setValid (p : Nat) (s : State) : fuses (setValid p s) = fuses s := by simp [setValid]
@[simp] theorem fuses_partnerWrite (p off v : Nat) (s : State) : fuses (partnerWrite p off v s) = fuses s := by simp [partnerWrite]
@[simp] theorem fuses_laceRegWrite (a v : Nat) (s : State) : fuses (laceRegWrite a v s) = fuses s := by simp [laceRegWrite]
@[simp] theorem fuses_ingestWrite (q off v : Nat) (s : State) : fuses (ingestWrite q off v s) = fuses s := by simp [ingestWrite]
@[simp] theorem fuses_hostQueueWrite (q off v : Nat) (s : State) : fuses (hostQueueWrite q off v s) = fuses s := by simp [hostQueueWrite]

@[simp] theorem fuses_mailboxWrite (m : MailboxId) (p : DictPath) (off n data : Nat) (s : State) :
    fuses (mailboxWrite m p off n data s) = fuses s := by simp [mailboxWrite]

@[simp] theorem fuses_msixWrite (off v : Nat) (s : State) : fuses (msixWrite off v s) = fuses s := by simp [msixWrite]
@[simp] theorem fuses_bar0Write (off n data : Nat) (s : State) : fuses (bar0Write off n data s) = fuses s := by simp [bar0Write]
@[simp] theorem fuses_regWrite (a n data : Nat) (s : State) : fuses (regWrite a n data s) = fuses s := by simp [regWrite]

@[simp] theorem fuses_deviceAccess (k : AccessKind) (a : Nat) (s : State) : fuses (deviceAccess k a s) = fuses s := by
  unfold deviceAccess
  (repeat' split) <;> simp

@[simp] theorem fuses_memoryAccess (a : Access) (s : State) : fuses (memoryAccess a s) = fuses s := by
  unfold memoryAccess
  dsimp only
  (repeat' split) <;> simp

@[simp] theorem fuses_trainPredictors (a : Access) (s : State) : fuses (trainPredictors a s) = fuses s := by
  unfold trainPredictors
  split <;> simp

theorem fuses_of_msiTarget {x : TrCtx} {gpa : Nat} {s t : State} {r} (h : msiTarget x gpa s = (r, t)) : fuses t = fuses s := by
  unfold msiTarget at h
  (repeat' split at h) <;> cases h <;> exact fuses_of_readEntry ‹_›

theorem fuses_of_translateFunc {did va : Nat} {write : Bool} {s t : State} {r} (h : translateFunc did va write s = (r, t)) :
    fuses t = fuses s := by
  unfold translateFunc at h
  (repeat' split at h) <;> grind only [→ fuses_of_trCtx, → fuses_of_sStage, → fuses_of_overG, → fuses_of_msiTarget]

@[simp] theorem fuses_functionPart (did : Nat) (a : Access) (s : State) : fuses (functionPart did a s) = fuses s := by
  unfold functionPart
  dsimp only
  split
  · simp [fuses_of_translateFunc ‹_›]
  · simp [fuses_of_translateFunc ‹_›]
  · have k := fuses_of_translateFunc ‹_›
    (repeat' split) <;> simp [k]

@[simp] theorem fuses_functionAccess (did : Nat) (a : Access) (s : State) : fuses (functionAccess did a s) = fuses s := by
  unfold functionAccess
  dsimp only
  (repeat' split) <;> simp

@[simp] theorem fuses_asFetch (a : Access) (s : State) : fuses (asFetch a s) = fuses s := by simp [asFetch]

@[simp] theorem fuses_unifiedAccess (a : Access) (s : State) : fuses (unifiedAccess a s) = fuses s := by
  unfold unifiedAccess
  dsimp only
  (repeat' split) <;> simp

@[simp] theorem fuses_registerWrite (a n data : Nat) (s : State) : fuses (registerWrite a n data s) = fuses s := by simp [registerWrite]

@[simp] theorem fuses_placeWrite (p : RegPlace) (n : Nat) (v : BitVec 64) (s : State) : fuses (placeWrite p n v s) = fuses s := by
  unfold placeWrite
  split <;> simp

/-! ### Machine/Firmware -/

@[simp] theorem fuses_sbi (e : Int) (v : Nat) (s : State) : fuses (sbi e v s) = fuses s := by rfl

@[simp] theorem fuses_sbiBase (a : SbiArgs) (s : State) : fuses (sbiBase a s) = fuses s := by
  unfold sbiBase
  split <;> simp

@[simp] theorem fuses_sbiTime (a : SbiArgs) (s : State) : fuses (sbiTime a s) = fuses s := by simp [sbiTime]
@[simp] theorem fuses_softInt (h : Nat) (s : State) : fuses (softInt h s) = fuses s := by simp [softInt]

@[simp] theorem fuses_sbiIpi (a : SbiArgs) (s : State) : fuses (sbiIpi a s) = fuses s := by
  unfold sbiIpi
  (repeat' split) <;> simp

@[simp] theorem fuses_dropFetched (h : Nat) (s : State) : fuses (dropFetched h s) = fuses s := by rfl

@[simp] theorem fuses_sbiRfence (a : SbiArgs) (s : State) : fuses (sbiRfence a s) = fuses s := by
  unfold sbiRfence
  (repeat' split) <;> simp

@[simp] theorem fuses_hartStart (h start opq : Nat) (s : State) : fuses (hartStart h start opq s) = fuses s := by simp [hartStart]
@[simp] theorem fuses_hartStop (h : Nat) (s : State) : fuses (hartStop h s) = fuses s := by simp [hartStop]

@[simp] theorem fuses_sbiHsm (a : SbiArgs) (s : State) : fuses (sbiHsm a s) = fuses s := by
  unfold sbiHsm
  split <;> simp

@[simp] theorem fuses_sbiSrst (a : SbiArgs) (s : State) : fuses (sbiSrst a s) = fuses s := by
  unfold sbiSrst
  (repeat' split) <;> simp

@[simp] theorem fuses_setInhibit (h : Nat) (on : Bool) (i : Nat) (s : State) : fuses (setInhibit h on i s) = fuses s := by rfl

@[simp] theorem fuses_pmuConfig (h base mask flags event data : Nat) (s : State) :
    fuses (pmuConfig h base mask flags event data s) = fuses s := by
  unfold pmuConfig
  dsimp only
  (repeat' split) <;> simp

@[simp] theorem fuses_sbiPmu (a : SbiArgs) (s : State) : fuses (sbiPmu a s) = fuses s := by
  unfold sbiPmu
  split <;> simp

@[simp] theorem fuses_sbiDbcn (a : SbiArgs) (s : State) : fuses (sbiDbcn a s) = fuses s := by
  unfold sbiDbcn
  repeat' (apply iteInduction (motive := fun t => fuses t = fuses s) <;> intro)
  all_goals simp

@[simp] theorem fuses_sbiQuirdaward (a : SbiArgs) (s : State) : fuses (sbiQuirdaward a s) = fuses s := by
  unfold sbiQuirdaward
  split <;> simp

@[simp] theorem fuses_sbiCall (a : SbiArgs) (s : State) : fuses (sbiCall a s) = fuses s := by simp [sbiCall]

/-! ### Machine/TransCmds -/

@[simp] theorem fuses_resolveAwait (k : Nat) (d i : Nat) (s : State) : fuses (resolveAwait k d i s) = fuses s := by
  unfold resolveAwait
  dsimp only
  (repeat' split) <;> simp

@[simp] theorem fuses_failAwait (k code : Nat) (s : State) : fuses (failAwait k code s) = fuses s := by
  unfold failAwait
  split <;> simp

@[simp] theorem fuses_answerRequest (d i did : Nat) (p : PageSlot) (resp : PrgrCode) (s : State) :
    fuses (answerRequest d i did p resp s) = fuses s := by
  unfold answerRequest
  split <;> simp

@[simp] theorem fuses_pageResponse (did pid prgi : Nat) (resp : PrgrCode) (s : State) :
    fuses (pageResponse did pid prgi resp s) = fuses s := by
  unfold pageResponse
  dsimp only
  (repeat' split) <;> simp

@[simp] theorem fuses_budgetExpired (d i : Nat) (s : State) : fuses (budgetExpired d i s) = fuses s := by
  unfold budgetExpired
  dsimp only
  (repeat' split) <;> simp

@[simp] theorem fuses_illegalCmd (s : State) : fuses (illegalCmd s) = fuses s := by simp [illegalCmd]
@[simp] theorem fuses_invalDie (c : InvalScope) (d : Nat) (s : State) : fuses (invalDie c d s) = fuses s := by simp [invalDie]
@[simp] theorem fuses_invalidate (c : InvalScope) (s : State) : fuses (invalidate c s) = fuses s := by simp [invalidate]
@[simp] theorem fuses_invalDdt (dv : Bool) (did : Nat) (s : State) : fuses (invalDdt dv did s) = fuses s := by rfl
@[simp] theorem fuses_invalPdt (did pid : Nat) (s : State) : fuses (invalPdt did pid s) = fuses s := by rfl
@[simp] theorem fuses_fence (a : FenceArgs) (s : State) : fuses (fence a s) = fuses s := by simp [fence]

@[simp] theorem fuses_runCmd (c : AgentCmd) (s : State) : fuses (runCmd c s) = fuses s := by
  unfold runCmd
  split <;> simp

@[simp] theorem fuses_runCmds (l : List AgentCmd) (s : State) : fuses (runCmds l s) = fuses s := by
  induction l generalizing s with
  | nil => rfl
  | cons c l ih =>
    unfold runCmds
    split <;> simp [ih]

@[simp] theorem fuses_runQueue (s : State) : fuses (runQueue s) = fuses s := by simp [runQueue]
@[simp] theorem fuses_agentCmd (c : AgentCmd) (s : State) : fuses (agentCmd c s) = fuses s := by simp [agentCmd]

/-! ### Machine/Tick -/

@[simp] theorem fuses_calendarSecond (s : State) : fuses (calendarSecond s) = fuses s := by rfl
@[simp] theorem fuses_crystalPeriod (s : State) : fuses (crystalPeriod s) = fuses s := by simp [crystalPeriod]
@[simp] theorem fuses_calendarTick (s : State) : fuses (calendarTick s) = fuses s := by simp [calendarTick]
@[simp] theorem fuses_summarise (h : Nat) (s : State) : fuses (summarise h s) = fuses s := by simp [summarise]
@[simp] theorem fuses_flushEyes (s : State) : fuses (flushEyes s) = fuses s := by rfl
@[simp] theorem fuses_dieTick (d : Nat) (s : State) : fuses (dieTick d s) = fuses s := by simp [dieTick]
@[simp] theorem fuses_msiTick (s : State) : fuses (msiTick s) = fuses s := by simp [msiTick]

@[simp] theorem fuses_tick (s : State) : fuses (tick s) = fuses s := by
  unfold tick
  dsimp only
  (repeat' split) <;> simp

/-! ### Every command and the tick -/

/-- A scalar load or store whose place its image may name runs on its die alone. -/
theorem fuses_scalarAccess (d : Nat) (a : ScalarMem) (act : Image → W64 → DieSt → Act DieSt) (s : State) :
    fuses (ctlRow d (fun img s => if scalarFits img a then dieStep d (act img (jobWord s d)) s else none) s) = fuses s := by
  refine fuses_ctlRow _ _ (fun {img s t} h => ?_) s
  split at h
  · exact fuses_of_dieStep h
  · cases h

theorem fuses_of_exec {c : Instr} {s t : State} (h : exec c s = .next t) : fuses t = fuses s := by
  cases c
  case lds d a => cases h; exact fuses_scalarAccess d a (ldsAct · · a) _
  case sts d a => cases h; exact fuses_scalarAccess d a (stsAct · · a) _
  case signal => cases h; exact fuses_ctlRow _ _ fuses_of_signalAct _
  case lend => cases h; exact fuses_ctlRow _ _ fuses_of_lendAct _
  case acquire => cases h; exact fuses_ctlRow _ _ fuses_of_acquireAct _
  case commit =>
    cases h
    refine fuses_ctlRow _ _ (fun h => ?_) _
    obtain ⟨u, hu, rfl⟩ := Option.map_eq_some_iff.mp h
    simp [fuses_of_dieStep hu]
  case commitDrainComplete => cases h; simp; split <;> simp
  case hartGetStatus call => cases call <;> cases h <;> simp
  all_goals
    cases h
    simp

theorem fuses_of_step {s t : State} (h : step s = .next t) : fuses t = fuses s := by
  unfold step at h
  split at h
  · rw [← Host.Outcome.next.inj h]
    exact fuses_tick s
  · exact (fuses_of_exec h).trans (fuses_eta s)

/-- Settles O5: no command changes what is fused, and neither does a tick. -/
theorem fusesNeverChange : Obligations.FusesNeverChange := by
  intro s t h
  have k := fuses_of_step h
  simp only [fuses, Prod.mk.injEq] at k
  exact k

end Sys2Proof.Machine

/-! PROOFS. Register writes (O59).

An 8-byte write at an address goes to the block that holds the address, and there to its register; one lemma for each says so. -/

namespace Sys2Proof.Machine

/-! ### A command's answer -/

/-- The answer of a command whose effect on the state with no queue is known. -/
theorem command_eq_next {f : State → State} {s t : State} (effect : f { s with pending := [] } = { t with pending := [] })
    (queue : t.pending = s.pending) : command f s = .next t := by
  rw [command_next, effect, ← queue]

/-! ### The whole of a register -/

theorem leNat_leBytes (n v : Nat) : leNat (leBytes n v) = v % 256 ^ n := by
  induction n generalizing v with
  | zero => simp [leBytes, leNat, Nat.mod_one]
  | succ n ih => rw [leBytes, leNat, ih, BitVec.toNat_ofNat, Nat.pow_succ' (m := 256), Nat.mod_mul]

theorem length_leBytes (n v : Nat) : (leBytes n v).length = n := by
  induction n generalizing v with
  | zero => rfl
  | succ n ih => simp [leBytes, ih]

/-- A write of the whole register leaves nothing of what it read. -/
theorem mergeReg_whole (old : Nat) (v : W64) : mergeReg old 0 8 v.toNat = v.toNat := by
  have cut : (leBytes 8 old).drop 8 = [] := List.drop_eq_nil_of_le (by rw [length_leBytes])
  rw [mergeReg, putBytes, length_leBytes, List.take_zero, List.nil_append, Nat.zero_add, cut, List.append_nil, leNat_leBytes]
  exact Nat.mod_eq_of_lt v.isLt

theorem deviceFits_word {a : Nat} (h : a % 8 = 0) : deviceFits a 8 = true := by simp [deviceFits, h]

/-! ### From the address to the block (R9) -/

theorem bar0Base_eq : bar0Base = 0xFFFFFFFFFC000000 := by rfl

/-- Where an aligned write of 8 bytes goes. -/
theorem registerWrite_word {a : Nat} (h : a % 8 = 0) (v : W64) (s : State) :
    registerWrite a 8 v.toNat s =
      if 0x1000 ≤ a ∧ a < 0x2000 then agentWrite (a - 0x1000) 8 (v.toNat % 2 ^ 64) s
      else if a < 0x01000000 then controlWrite a v.toNat s
      else if a < 0x02000000 then irqWrite a 8 v.toNat s
      else if 0x10000000 ≤ a ∧ a < 0x18000000 then dieWrite ((a - 0x10000000) / 0x01000000) (a % 0x01000000) v.toNat s
      else if 0x20000000 ≤ a ∧ a < 0x22000000 then procWrite ((a - 0x20000000) / 0x01000000) (a % 0x01000000) v.toNat s
      else if 0x30000000 ≤ a ∧ a < 0x30820000 then memoryWrite a v.toNat s
      else if 0x40000000 ≤ a ∧ a < 0x40201400 then laceRegWrite a v.toNat s
      else if 0x50010000 ≤ a ∧ a < 0x50012000 then ingestWrite ((a - 0x50010000) / 0x20) (a % 0x20) v.toNat s
      else if 0x68000000 ≤ a ∧ a < 0x68010000 then mailboxWrite .mirror .mirror (a - 0x68000000) 8 v.toNat s
      else if bar0Base ≤ a then bar0Write (a - bar0Base) 8 v.toNat s
      else s := by
  have block : a / 8 * 8 = a := by omega
  simp only [registerWrite, regWrite, deviceFits_word h, block, h, mergeReg_whole, Bool.and_eq_true, decide_eq_true_eq, Bool.not_true,
    Bool.false_and, Bool.false_eq_true, if_false]

theorem registerWrite_serving {d off : Nat} (hd : d < 8) (ho : off < 0x78) (h : off % 8 = 0) (v : W64) (s : State) :
    registerWrite (0x10050000 + 0x01000000 * d + off) 8 v.toNat s = servingWrite d off v.toNat s := by
  have hdie : (0x10050000 + 0x01000000 * d + off - 0x10000000) / 0x01000000 = d := by omega
  have hoff : (0x10050000 + 0x01000000 * d + off) % 0x01000000 = 0x50000 + off := by omega
  rw [registerWrite_word (by omega)]
  simp (disch := omega) only [if_neg, if_pos, hdie, hoff, dieWrite, Bool.and_eq_true, decide_eq_true_eq, Nat.add_sub_cancel_left]

theorem registerWrite_partner {p off : Nat} (hp : p < 8192) (ho : off < 0x40) (h : off % 8 = 0) (v : W64) (s : State) :
    registerWrite (0x40100000 + 0x40 * p + off) 8 v.toNat s = partnerWrite p off v.toNat s := by
  have hpart : (0x40100000 + 0x40 * p + off - 0x40100000) / 0x40 = p := by omega
  have hoff : (0x40100000 + 0x40 * p + off) % 0x40 = off := by omega
  rw [registerWrite_word (by omega)]
  simp (disch := omega) only [if_neg, if_pos, laceRegWrite, Bool.and_eq_true, decide_eq_true_eq, hpart, hoff]

theorem registerWrite_queue {q off : Nat} (hq : q < 256) (ho : off < 0x20) (h : off % 8 = 0) (v : W64) (s : State) :
    registerWrite (0x50010000 + 0x20 * q + off) 8 v.toNat s = ingestWrite q off v.toNat s := by
  have hqueue : (0x50010000 + 0x20 * q + off - 0x50010000) / 0x20 = q := by omega
  have hoff : (0x50010000 + 0x20 * q + off) % 0x20 = off := by omega
  rw [registerWrite_word (by omega)]
  simp (disch := omega) only [if_neg, if_pos, hqueue, hoff]

theorem registerWrite_control {a : Nat} (h : a % 8 = 0) (low : 0x2000 ≤ a) (high : a < 0x01000000) (v : W64) (s : State) :
    registerWrite a 8 v.toNat s = controlWrite a v.toNat s := by
  rw [registerWrite_word h, if_neg (by omega), if_pos high]

theorem registerWrite_quota {c off : Nat} (hc : c < 4096) (ho : off < 0x20) (h : off % 8 = 0) (v : W64) (s : State) :
    registerWrite (0x20000 + 0x20 * c + off) 8 v.toNat s = quotaWrite c off v.toNat s := by
  have hctx : (0x20000 + 0x20 * c + off - 0x20000) / 0x20 = c := by omega
  have hoff : (0x20000 + 0x20 * c + off) % 0x20 = off := by omega
  rw [registerWrite_control (by omega) (by omega) (by omega), controlWrite]
  simp (disch := omega) only [if_neg, if_pos, Bool.and_eq_true, decide_eq_true_eq, hctx, hoff]

theorem registerWrite_context {c off : Nat} (hc : c < 4096) (ho : off < 0x80) (h : off % 8 = 0) (v : W64) (s : State) :
    registerWrite (0x100000 + 0x80 * c + off) 8 v.toNat s = contextWrite c off v.toNat s := by
  have hctx : (0x100000 + 0x80 * c + off - 0x100000) / 0x80 = c := by omega
  have hoff : (0x100000 + 0x80 * c + off) % 0x80 = off := by omega
  rw [registerWrite_control (by omega) (by omega) (by omega), controlWrite]
  simp (disch := omega) only [if_neg, if_pos, Bool.and_eq_true, decide_eq_true_eq, hctx, hoff]

theorem registerWrite_bar0 {off : Nat} (h : off % 8 = 0) (v : W64) (s : State) :
    registerWrite (bar0Base + off) 8 v.toNat s = bar0Write off 8 v.toNat s := by
  have base := bar0Base_eq
  rw [registerWrite_word (by omega), if_neg (by omega), if_neg (by omega), if_neg (by omega), if_neg (by omega), if_neg (by omega),
    if_neg (by omega), if_neg (by omega), if_neg (by omega), if_neg (by omega), if_pos (by omega), Nat.add_sub_cancel_left]

/-- The host side of an ingest queue is there while Port A is an endpoint. -/
theorem registerWrite_port {q off : Nat} (hq : q < 256) (ho : off < 0x40) (h : off % 8 = 0) (v : W64) (s : State) :
    registerWrite (bar0Base + 0x100000 + 0x40 * q + off) 8 v.toNat s = if endpointA s then hostQueueWrite q off v.toNat s else s := by
  have hqueue : (0x100000 + 0x40 * q + off - 0x100000) / 0x40 = q := by omega
  have hoff : (0x100000 + 0x40 * q + off) / 8 * 8 % 0x40 = off := by omega
  have aligned : (0x100000 + 0x40 * q + off) % 8 = 0 := by omega
  have place : bar0Base + 0x100000 + 0x40 * q + off = bar0Base + (0x100000 + 0x40 * q + off) := by omega
  rw [place, registerWrite_bar0 aligned, bar0Write, aligned, mergeReg_whole]
  cases endpointA s with
  | false => rfl
  | true =>
    simp (disch := omega) only [if_neg, if_pos, Bool.and_eq_true, decide_eq_true_eq, hqueue, hoff, Bool.not_true, Bool.false_eq_true,
      if_false, if_true]

/-- An access that is not aligned, or of a width that no register has. -/
theorem exec_registerWrite_unfit {a : W64} {n : Nat} (h : deviceFits a.toNat n = false) (v : W64) (s : State) :
    exec (.registerWrite (.at a) n v) s = .next (if a.toNat < bar0Base then { s with resp := .trap 7 } else s) := by
  change command (registerWrite a.toNat n v.toNat) s = _
  by_cases package : a.toNat < bar0Base
  · rw [if_pos package]
    exact command_eq_next (by simp [registerWrite, h, package, answer]) rfl
  · rw [if_neg package]
    exact command_eq_next (by simp [registerWrite, regWrite, h, package]) rfl

/-- Between the interrupt controllers and the compute dies no chapter defines a register. -/
theorem exec_registerWrite_undefined {a : W64} {n : Nat} (fits : deviceFits a.toNat n = true) (low : 0x02000000 ≤ a.toNat)
    (high : a.toNat < 0x10000000) (v : W64) (s : State) : exec (.registerWrite (.at a) n v) s = .next s := by
  have base := bar0Base_eq
  change command (registerWrite a.toNat n v.toNat) s = _
  refine command_eq_next ?_ rfl
  simp only [registerWrite, regWrite, fits, Bool.and_eq_true, decide_eq_true_eq, Bool.not_true, Bool.false_and, Bool.false_eq_true, if_false]
  simp (disch := omega) only [if_neg]

/-- An 8-byte write does at an address what its block does with it. -/
theorem exec_word {a : Nat} {v : W64} {f : State → State} (fits : a < 2 ^ 64) (h : ∀ s, registerWrite a 8 v.toNat s = f s) (s : State) :
    exec (.registerWrite (.at (BitVec.ofNat 64 a)) 8 v) s = command f s := by
  have addr : (BitVec.ofNat 64 a).toNat = a := BitVec.toNat_ofNat .. ▸ Nat.mod_eq_of_lt fits
  change command (registerWrite (BitVec.ofNat 64 a).toNat 8 v.toNat) s = _
  rw [addr, funext h]

/-! ### What the registers of a block take -/

theorem contextWrite_active {c off : Nat} {s : State} (active : (ctxOf s c).state = .active)
    (config : off = 0 ∨ off = 8 ∨ off = 0x10 ∨ off = 0x18) (v : Nat) : contextWrite c off v s = s := by
  rcases config with rfl | rfl | rfl | rfl <;> simp [contextWrite, writeCtxCfg, active]

theorem contextWrite_sq {c : Nat} {s : State} (idle : (ctxOf s c).state ≠ .active) (v : Nat) :
    contextWrite c 0x10 v s = updCtx s c fun x => { x with sqLog2 := fld v 0 5, sqBase := fld v 12 52 } := by
  simp [contextWrite, idle]

theorem contextWrite_cq {c : Nat} {s : State} (idle : (ctxOf s c).state ≠ .active) (v : Nat) :
    contextWrite c 0x18 v s = updCtx s c fun x => { x with cqLog2 := fld v 0 5, cqBase := fld v 12 52 } := by
  simp [contextWrite, idle]

/-- The configuration fields, in a write that does not set ENABLE. -/
theorem contextWrite_cfg {c v : Nat} {s : State} (idle : (ctxOf s c).state ≠ .active) (enable : bits v 2 1 = 0) :
    contextWrite c 0 v s =
      updCtx s c fun x => { x with priority := fld v 3 2, vmid := fld v 8 14, pasid := fld v 22 20, rcid := fld v 42 12 } := by
  simp [contextWrite, writeCtxCfg, idle, bit, enable]

/-- What of an ingest queue stands while it is enabled. -/
theorem ingestWrite_enabled {q off : Nat} {s : State} (enabled : (queueOf s q).enable = true) (config : off ≠ 0) (v : Nat) :
    ingestWrite q off v s = s := by simp [ingestWrite, enabled, config]

theorem ingestWrite_disabled {q off : Nat} {s : State} (disabled : (queueOf s q).enable = false) (config : off ≠ 0) (v : Nat) :
    ingestWrite q off v s = updQueue s q fun x =>
      if off = 0x08 then { x with ringBase := fld v 18 46 }
      else if off = 0x10 then { x with winBase := fld v 16 48 }
      else { x with winGranules := fld v 0 32 } := by simp [ingestWrite, disabled, config]

theorem partnerWrite_valid {p off : Nat} {s : State} (valid : (partnerOf s p).valid = true) (config : off ≠ 0) (v : Nat) :
    partnerWrite p off v s = s := by simp [partnerWrite, valid, config]

theorem partnerWrite_free {p off : Nat} {s : State} (free : (partnerOf s p).valid = false) (config : off ≠ 0) (v : Nat) :
    partnerWrite p off v s = updPartner s p fun e =>
      if off = 0x08 then { e with winBase := fld v 16 48 }
      else if off = 0x10 then { e with winGranules := fld v 0 32 }
      else if off = 0x18 then { e with rxJob := fld v 0 64 }
      else e := by simp [partnerWrite, free, config]

theorem servingWrite_enabled {d off : Nat} {s : State} (enabled : (partOf s d).enable = true) (config : off = 0x08 ∨ off = 0x38) (v : Nat) :
    servingWrite d off v s = s := by rcases config with rfl | rfl <;> simp [servingWrite, enabled]

theorem servingWrite_table {d : Nat} {s : State} (disabled : (partOf s d).enable = false) (v : Nat) :
    servingWrite d 0x08 v s = updPart s d fun p => { p with tableVa := fld v 12 52 } := by simp [servingWrite, disabled]

theorem servingWrite_limits {d : Nat} {s : State} (disabled : (partOf s d).enable = false) (v : Nat) :
    servingWrite d 0x38 v s = updPart s d fun p =>
      { p with stepLimit := fld v 0 13, chunk := fld v 16 13, admitLimit := fld v 32 15, joinLimit := fld v 48 16 } := by
  simp [servingWrite, disabled]

/-! ### Writes by a hart's instruction (R273, R274) -/

/-- A hart that runs writes its register at once. -/
theorem placeWrite_x {s : State} {h : HartId} (runs : hartRuns s h.toNat = true) (k : BitVec 5) (n : Nat) (v : W64) :
    placeWrite (.x h k) n v s = putReg h.toNat k.toNat v s := by simp [placeWrite, runs]

theorem placeWrite_csr {s : State} {h : HartId} (runs : hartRuns s h.toNat = true) (p : Priv) (num : BitVec 12) (op : CsrOp) (n : Nat) (v : W64) :
    placeWrite (.csr h p num op) n v s = csrAccess h.toNat p num.toNat op v.toNat s := by simp [placeWrite, runs]

theorem csrAccess_of_trap {s : State} {h n e : Nat} {p : Priv} {op : CsrOp} (trap : csrTrap s h p n op = some e) (v : Nat) :
    csrAccess h p n op v s = answer (.trap e) s := by simp [csrAccess, trap]

/-- The machine level writes srmcfg: its two fields take 12 bits each. -/
theorem csrAccess_srmcfg (h : Nat) (v : W64) (s : State) :
    csrAccess h .m 0x181 .write v.toNat s =
      { updHart s h (fun x => { x with csrs := SMap.set 0 x.csrs 0x181 (v &&& 0x0FFF0FFF) }) with
        resp := .value (SMap.get 0 (hartOf s h).csrs 0x181) } := by
  have trap : csrTrap s h .m 0x181 .write = none := by rfl
  have old : csrRead s h (csrNamed .m 0x181) = some (SMap.get 0 (hartOf s h).csrs 0x181).toNat := by rfl
  have field : BitVec.ofNat 64 (v.toNat &&& 0x0FFF0FFF) = v &&& 0x0FFF0FFF := by
    apply BitVec.eq_of_toNat_eq
    simp
  have new : csrWrite h (csrNamed .m 0x181) v.toNat s = putCsr h 0x181 (v.toNat &&& 0x0FFF0FFF) s := by rfl
  simp only [csrAccess, trap, old, new, putCsr, field, BitVec.ofNat_toNat, BitVec.setWidth_eq, answer]
  rfl

/-! ### The statement -/

/-- Settles O59. Each write is followed to the block that holds its address, and there to its register. -/
theorem registerWrites : Obligations.RegisterWrites := by
  intro s v w num
  let u : State := { s with pending := [] }
  refine ⟨fun _ _ unfit => exec_registerWrite_unfit unfit v s, fun _ _ fits low high => exec_registerWrite_undefined fits low high v s,
    ?hart, ?context, ?queue, ?partner, ?serving⟩
  case hart =>
    intro h n runs
    refine ⟨fun k named => ?_, ?_, fun k => ?_, ?_, ?_, ?_⟩
    · have nonzero : k.toNat ≠ 0 := fun z => named (BitVec.eq_of_toNat_eq z)
      exact command_eq_next ((placeWrite_x (s := u) runs k n v).trans (if_neg nonzero)) rfl
    · exact command_eq_next (placeWrite_x (s := u) runs 0 n v) rfl
    · exact command_eq_next (if_pos runs) rfl
    · exact command_eq_next ((placeWrite_csr (s := u) runs _ _ _ _ _).trans (csrAccess_srmcfg h.toNat v _)) rfl
    · exact command_eq_next ((placeWrite_csr (s := u) runs _ _ _ _ _).trans (csrAccess_of_trap rfl _)) rfl
    · exact command_eq_next ((placeWrite_csr (s := u) runs _ _ _ _ _).trans (csrAccess_of_trap rfl _)) rfl
  case context =>
    intro c hc block active
    have word : ∀ off, off < 0x80 → off % 8 = 0 → w (block + off) = command (contextWrite c off v.toNat) s :=
      fun off ho aligned => exec_word (by omega) (registerWrite_context hc ho aligned v) s
    refine ⟨word 0x20 (by decide) rfl, word 0x28 (by decide) rfl, fun inForce => ?_, fun idle => ?_, ?_⟩
    · have ignored : ∀ off, off = 0 ∨ off = 8 ∨ off = 0x10 ∨ off = 0x18 → w (block + off) = .next s := fun off config =>
        (word off (by omega) (by omega)).trans (command_eq_next (contextWrite_active (s := u) inForce config _) rfl)
      exact ⟨ignored 0 (by simp), ignored 8 (by simp), ignored 0x10 (by simp), ignored 0x18 (by simp)⟩
    · exact ⟨(word 0x10 (by decide) rfl).trans (command_eq_next (contextWrite_sq (s := u) idle _) rfl),
        (word 0x18 (by decide) rfl).trans (command_eq_next (contextWrite_cq (s := u) idle _) rfl),
        fun enable => (word 0 (by decide) rfl).trans (command_eq_next (contextWrite_cfg (s := u) idle enable) rfl)⟩
    · exact exec_word (by omega) (registerWrite_quota hc (by decide) rfl v) s
  case queue =>
    intro q hq x block port
    have word : ∀ off, off < 0x20 → off % 8 = 0 → w (block + off) = command (ingestWrite q off v.toNat) s :=
      fun off ho aligned => exec_word (by omega) (registerWrite_queue hq ho aligned v) s
    have base := bar0Base_eq
    have host : ∀ off, off < 0x40 → off % 8 = 0 →
        w (port + off) = command (fun s => if endpointA s then hostQueueWrite q off v.toNat s else s) s :=
      fun off ho aligned => exec_word (by omega) (registerWrite_port hq ho aligned v) s
    refine ⟨fun enabled => ?_, fun disabled => ?_, fun root => ?_, fun endpoint => ?_⟩
    · have ignored : ∀ off, off < 0x20 → off % 8 = 0 → off ≠ 0 → w (block + off) = .next s := fun off ho aligned config =>
        (word off ho aligned).trans (command_eq_next (ingestWrite_enabled (s := u) enabled config _) rfl)
      exact ⟨ignored 8 (by decide) rfl (by decide), ignored 0x10 (by decide) rfl (by decide), ignored 0x18 (by decide) rfl (by decide)⟩
    · exact ⟨(word 8 (by decide) rfl).trans (command_eq_next (ingestWrite_disabled (s := u) disabled (by decide) _) rfl),
        (word 0x10 (by decide) rfl).trans (command_eq_next (ingestWrite_disabled (s := u) disabled (by decide) _) rfl),
        (word 0x18 (by decide) rfl).trans (command_eq_next (ingestWrite_disabled (s := u) disabled (by decide) _) rfl)⟩
    · exact (host 0x20 (by decide) rfl).trans (command_eq_next (if_neg (ne_true_of_eq_false root)) rfl)
    · exact ⟨(host 0x20 (by decide) rfl).trans (command_eq_next (if_pos endpoint) rfl),
        (host 0x28 (by decide) rfl).trans (command_eq_next (if_pos endpoint) rfl)⟩
  case partner =>
    intro p hp block
    have word : ∀ off, off < 0x40 → off % 8 = 0 → w (block + off) = command (partnerWrite p off v.toNat) s :=
      fun off ho aligned => exec_word (by omega) (registerWrite_partner hp ho aligned v) s
    refine ⟨fun valid => ?_, fun free => ?_⟩
    · have ignored : ∀ off, off < 0x40 → off % 8 = 0 → off ≠ 0 → w (block + off) = .next s := fun off ho aligned config =>
        (word off ho aligned).trans (command_eq_next (partnerWrite_valid (s := u) valid config _) rfl)
      exact ⟨ignored 8 (by decide) rfl (by decide), ignored 0x10 (by decide) rfl (by decide), ignored 0x18 (by decide) rfl (by decide)⟩
    · exact ⟨(word 8 (by decide) rfl).trans (command_eq_next (partnerWrite_free (s := u) free (by decide) _) rfl),
        (word 0x10 (by decide) rfl).trans (command_eq_next (partnerWrite_free (s := u) free (by decide) _) rfl),
        (word 0x18 (by decide) rfl).trans (command_eq_next (partnerWrite_free (s := u) free (by decide) _) rfl)⟩
  case serving =>
    intro d hd block
    have word : ∀ off, off < 0x78 → off % 8 = 0 → w (block + off) = command (servingWrite d off v.toNat) s :=
      fun off ho aligned => exec_word (by omega) (registerWrite_serving hd ho aligned v) s
    refine ⟨fun enabled => ?_, fun disabled => ?_⟩
    · exact ⟨(word 8 (by decide) rfl).trans (command_eq_next (servingWrite_enabled (s := u) enabled (.inl rfl) _) rfl),
        (word 0x38 (by decide) rfl).trans (command_eq_next (servingWrite_enabled (s := u) enabled (.inr rfl) _) rfl)⟩
    · exact ⟨(word 8 (by decide) rfl).trans (command_eq_next (servingWrite_table (s := u) disabled _) rfl),
        (word 0x38 (by decide) rfl).trans (command_eq_next (servingWrite_limits (s := u) disabled _) rfl)⟩

end Sys2Proof.Machine

/-! PROOFS. What a command answers, and the event records as posts follow posts (O39, O43, O47, O52, O55). -/

namespace Sys2Proof.Machine

/-! ### A command's answer -/

/-- What a command answers, when its arm runs an effect whose end is known. -/
theorem exec_eq_next {c : Instr} {f : State → State} {s t : State} (arm : exec c s = command f s)
    (effect : f { s with pending := [] } = { t with pending := [] }) (queue : t.pending = s.pending) : exec c s = .next t :=
  arm.trans (command_eq_next effect queue)

/-- What is true of the state a command answers with. -/
theorem exec_next_exists {c : Instr} {f : State → State} {s : State} {P : State → Prop} (arm : exec c s = command f s)
    (h : P { f { s with pending := [] } with pending := s.pending }) : ∃ t, exec c s = .next t ∧ P t :=
  ⟨_, arm.trans (command_next f s), h⟩

/-! ### Records that stay -/

/-- The event records of s are among those of t, and the Dairyman runs in both or in neither. -/
structure RecordsKept (s t : State) : Prop where
  up : dairymanUp t = dairymanUp s
  pendingRecs : ∀ r ∈ s.ev.pendingRecs, r ∈ t.ev.pendingRecs
  cowbell : ∀ r ∈ s.ev.cowbell, r ∈ t.ev.cowbell
  overflow : s.ev.overflow ≤ t.ev.overflow

theorem RecordsKept.of_eq {s t : State} (ev : t.ev = s.ev) (up : dairymanUp t = dairymanUp s) : RecordsKept s t := by
  constructor <;> simp [ev, up]

theorem RecordsKept.refl (s : State) : RecordsKept s s := .of_eq rfl rfl

theorem RecordsKept.trans {s t u : State} (h : RecordsKept s t) (k : RecordsKept t u) : RecordsKept s u :=
  ⟨k.up.trans h.up, fun r m => k.pendingRecs r (h.pendingRecs r m), fun r m => k.cowbell r (h.cowbell r m), h.overflow.trans k.overflow⟩

theorem RecordsKept.each {α : Type} {f : α → State → State} (h : ∀ a s, RecordsKept s (f a s)) (l : List α) (s : State) :
    RecordsKept s (each l f s) :=
  each_keeps (RecordsKept s) l f (fun a _ t k => k.trans (h a t)) s (.refl s)

theorem dairymanUp_postBy (cowbell : Bool) (code site : Nat) (p : List Nat) (s : State) :
    dairymanUp (postBy cowbell code site p s) = dairymanUp s := by
  unfold postBy
  dsimp only
  split <;> simp [dairymanUp]

/-- Where a record goes (R417, R426). -/
theorem postBy_ev (cowbell : Bool) (code site : Nat) (p : List Nat) (s : State) :
    (postBy cowbell code site p s).ev =
      let r := mkEvent s code site cowbell p
      let ev : EventBuf := { s.ev with number := s.ev.number + 1, tail := (s.ev.tail ++ [r]).drop (s.ev.tail.length - 31) }
      if dairymanUp s then { ev with pendingRecs := ev.pendingRecs ++ [r], oldest := some (ev.oldest.getD s.time) }
      else if ev.cowbell.length < 64 then { ev with cowbell := ev.cowbell ++ [r] }
      else { ev with overflow := ev.overflow + 1 } := by
  unfold postBy
  dsimp only
  split <;> simp

theorem RecordsKept.postBy (cowbell : Bool) (code site : Nat) (p : List Nat) (s : State) : RecordsKept s (postBy cowbell code site p s) := by
  have ev := postBy_ev cowbell code site p s
  dsimp only at ev
  split at ev
  · exact ⟨dairymanUp_postBy .., by simp_all, by simp [ev], by simp [ev]⟩
  · split at ev
    · exact ⟨dairymanUp_postBy .., by simp [ev], by simp_all, by simp [ev]⟩
    · exact ⟨dairymanUp_postBy .., by simp [ev], by simp [ev], by simp [ev]⟩

theorem RecordsKept.post (code site : Nat) (p : List Nat) (s : State) : RecordsKept s (post code site p s) := .postBy false code site p s

/-- A record that was posted stays posted. -/
theorem Posted.keep {s t u : State} {code site : Nat} {p : List Nat} (h : Posted s t code site p) (k : RecordsKept t u) : Posted s u code site p := by
  obtain ⟨r, hcode, hsite, hp, htick, hr⟩ := h
  refine ⟨r, hcode, hsite, hp, htick, ?_⟩
  by_cases up : dairymanUp s
  · rw [if_pos up] at hr ⊢
    exact k.pendingRecs r hr
  · rw [if_neg up] at hr ⊢
    exact hr.imp (k.cowbell r) fun o => o.trans_le k.overflow

/-- A record posted later was posted since the start. -/
theorem Posted.since {s t u : State} {code site : Nat} {p : List Nat} (h : Posted t u code site p) (k : RecordsKept s t)
    (time : t.time = s.time) : Posted s u code site p := by
  obtain ⟨r, hcode, hsite, hp, htick, hr⟩ := h
  refine ⟨r, hcode, hsite, hp, htick.trans time, ?_⟩
  rw [k.up] at hr
  by_cases up : dairymanUp s
  · rw [if_pos up] at hr ⊢
    exact hr
  · rw [if_neg up] at hr ⊢
    exact hr.imp id k.overflow.trans_lt

end Sys2Proof.Machine


/-! PROOFS. Coherence timeouts and CRC failures, and the edge caches (O39).

A home's own eviction sends one Recall to each holder, and the holder named receives its own. A domain fault is followed from the reset of the
protocol to the restart of the harts: once the protocol is reset, nothing that follows opens a transaction. -/

namespace Sys2Proof.Machine

/-! ### The eviction of a directory entry (R255, R258) -/

/-- One message to each of a list of sites. -/
theorem each_sendMsg (k : MsgKind) (src l : Nat) (sites : List Nat) (s : State) :
    each sites (fun a => sendMsg k src a l) s = { s with dom := { s.dom with net := s.dom.net ++ sites.map fun a => ⟨k, src, a, l⟩ } } := by
  induction sites generalizing s with
  | nil => simp
  | cons a sites ih => simp [ih, sendMsg]

/-- The line is BUSY for its home, which sends every holder a Recall and counts one. -/
theorem evictEntry_eq (line : Nat) (s : State) :
    evictEntry line s = { s with dom := { s.dom with
      busy := SMap.put s.dom.busy line ⟨homeOf s (64 * line), .evictClean, holdersOf (dirOf s line), none, false, some s.time⟩
      homes := SMap.upd {} s.dom.homes (homeOf s (64 * line)) fun x => { x with recalls := bump x.recalls }
      net := s.dom.net ++ (holdersOf (dirOf s line)).map fun a => ⟨.recall, homeOf s (64 * line), a, line⟩ } } := by
  simp [evictEntry, each_sendMsg, updHome, putBusy]

theorem find?_eq_self {l : List Nat} {p : Nat → Bool} {a : Nat} (only : ∀ b, p b = true ↔ b = a) (mem : a ∈ l) : l.find? p = some a := by
  have some : (l.find? p).isSome := List.find?_isSome.mpr ⟨a, mem, (only a).mpr rfl⟩
  obtain ⟨b, hb⟩ := Option.isSome_iff_exists.mp some
  rw [hb, (only b).mp (List.find?_some hb)]

/-- Nothing sent before arrives before a message to a site that none was under way to. -/
theorem laneTo_fresh {s : State} {m : ShankMsg} {net : List ShankMsg} {sites : List Nat}
    (eq : s.dom.net = net ++ sites.map fun a => ⟨m.kind, m.src, a, m.line⟩) (fresh : ∀ k ∈ net, k.dst ≠ m.dst) : laneTo s m = [m] := by
  have none_before : (s.dom.net.takeWhile (· != m)).filter (fun k => k.src == m.src && k.dst == m.dst && netOf k.kind == netOf m.kind) = [] := by
    refine List.filter_eq_nil_iff.mpr fun k before lane => ?_
    have other : k ≠ m := by simpa using List.mem_takeWhile_imp before
    have sent : k ∈ s.dom.net := (List.takeWhile_prefix _).subset before
    simp only [Bool.and_eq_true, beq_iff_eq] at lane
    obtain ⟨⟨-, dst⟩, -⟩ := lane
    rw [eq, List.mem_append, List.mem_map] at sent
    rcases sent with old | ⟨a, -, rfl⟩
    · exact fresh k old dst
    · exact other (by rw [show a = m.dst from dst])
  rw [laneTo, none_before, List.nil_append]

/-- A Recall takes the holder's copy; the home's own entries wait for the answer. -/
theorem deliver_recall {m : ShankMsg} (kind : m.kind = .recall) (s : State) :
    let t := deliver m s
    t.mem = s.mem ∧ t.dom.dir = s.dom.dir ∧ t.dom.busy = s.dom.busy ∧ t.dom.homes = s.dom.homes ∧ l3At t m.dst m.line = none := by
  have key : l3Key m.dst m.line = 2 * m.line + (m.dst - 8) := rfl
  have dropped : ∀ t : State, t.dom.l3 = SMap.del s.dom.l3 (l3Key m.dst m.line) → l3At t m.dst m.line = none := by
    intro t h
    simp [l3At, l3Line, h, key, SMap.find_del_same]
  have kept : ∀ t : State, t.dom.l3 = s.dom.l3 → l3At s m.dst m.line = none → l3At t m.dst m.line = none := by
    intro t h n
    simpa [l3At, l3Line, h] using n
  simp only [deliver, kind]
  split
  next x held =>
    split
    · exact ⟨rfl, rfl, rfl, rfl, dropped _ rfl⟩
    · exact ⟨rfl, rfl, rfl, rfl, dropped _ rfl⟩
  next lacks =>
    split
    · exact ⟨rfl, rfl, rfl, rfl, kept _ rfl lacks⟩
    · exact ⟨rfl, rfl, rfl, rfl, kept _ rfl lacks⟩

/-- A message that arrives alone is delivered. -/
theorem receive_lone {site line : Nat} {pick : ShankMsg → Bool} {s : State} {m : ShankMsg} (up : domainUp s = true)
    (inside : inUnified s (64 * line) 64 = true) (found : s.dom.net.find? (fun m => m.line == line && pick m) = some m)
    (alone : laneTo s m = [m]) (goes : engineWaits s m = false) (sound : fwdLacks s m = false) :
    receive site line pick s = deliver m (linksGood m.src m.dst (takeMsg m s)) := by
  have sent : s.dom.net.contains m = true := List.contains_iff_mem.mpr (List.mem_of_find?_eq_some found)
  simp only [receive, up, inside, found, alone, List.any_cons, goes, List.any_nil, each_cons, each_nil, takeIn, sent, sound, arriveMsg,
    Bool.not_true, Bool.or_self, Bool.false_eq_true, if_false]

theorem engineHeld_free {site : Nat} {s : State} (free : 8 ≤ site → engineHeld s site = false) :
    (engineHeld s site && decide (8 ≤ site)) = false := by
  by_cases engine : 8 ≤ site
  · simp [free engine]
  · simp [engine]

/-- Whether the home of a line may begin an eviction that recalls a holder's copy. -/
theorem evicts_of_open {site line : Nat} {s : State} (opened : HomeOpen s line) (free : 8 ≤ site → engineHeld s site = false)
    (fresh : ∀ m ∈ s.dom.net, m.line ≠ line ∧ m.dst ≠ site) (holds : site ∈ holdersOf (dirOf s line)) : evicts s site line = true := by
  obtain ⟨up, inside, homeFree, ⟨inStack, -, -⟩, idle, unqueued⟩ := opened
  have siteFree : (engineHeld s site && decide (8 ≤ site)) = false := engineHeld_free free
  have noRecall : (s.dom.net.any fun m => m.line == line && m.dst == site && m.kind == .recall) = false := by
    simp only [List.any_eq_false, Bool.and_eq_true, beq_iff_eq]
    exact fun m sent same => (fresh m sent).1 same.1.1
  simp [evicts, up, inside, siteFree, homeFree, noRecall, idle, unqueued, inStack, holds]

/-- A Recall of an eviction that the home begins at once: the holder's copy is gone, and the line stays BUSY until its answer arrives. -/
theorem recallArrives_evicts {site line : Nat} {s : State} (opened : HomeOpen s line) (free : 8 ≤ site → engineHeld s site = false)
    (room : invalidateFull s site line = false) (fresh : ∀ m ∈ s.dom.net, m.line ≠ line ∧ m.dst ≠ site)
    (holds : site ∈ holdersOf (dirOf s line)) :
    let h := homeOf s (64 * line)
    let t := recallArrives site line s
    t.mem = s.mem ∧ dirOf t line = dirOf s line ∧ l3At t site line = none ∧
      busyOf t line = some ⟨h, .evictClean, holdersOf (dirOf s line), none, false, some s.time⟩ ∧
      (SMap.get {} t.dom.homes h).recalls = bump (SMap.get {} s.dom.homes h).recalls := by
  intro h
  let m : ShankMsg := ⟨.recall, h, site, line⟩
  let v := evictEntry line s
  have v_eq := evictEntry_eq line s
  have net : v.dom.net = s.dom.net ++ (holdersOf (dirOf s line)).map fun a => ⟨m.kind, m.src, a, m.line⟩ := congrArg (·.dom.net) v_eq
  have found : v.dom.net.find? (fun k => k.line == line && (k.dst == site && k.kind == .recall)) = some m := by
    have old : s.dom.net.find? (fun k => k.line == line && (k.dst == site && k.kind == .recall)) = none := by
      simp only [List.find?_eq_none, Bool.and_eq_true, beq_iff_eq]
      exact fun k old same => (fresh k old).1 same.1
    rw [net, List.find?_append, old, Option.none_or, List.find?_map, find?_eq_self (by simp [m]) holds]
    rfl
  have up : domainUp v = true := (congrArg domainUp v_eq).trans opened.1
  have inside : inUnified v (64 * line) 64 = true := (congrArg (inUnified · (64 * line) 64) v_eq).trans opened.2.1
  have goes : engineWaits v m = false := by
    have held : engineHeld v site = engineHeld s site := (congrArg (engineHeld · site) v_eq).trans rfl
    simpa [engineWaits, m, toHome, held] using engineHeld_free free
  have arrives : recallArrives site line s = deliver m (linksGood h site (takeMsg m v)) := by
    simp only [recallArrives, room, evicts_of_open opened free fresh holds, if_true, Bool.false_eq_true, if_false]
    exact receive_lone up inside found (laneTo_fresh net fun k old => (fresh k old).2) goes rfl
  obtain ⟨mem, dir, busy, homes, gone⟩ := deliver_recall (m := m) rfl (linksGood h site (takeMsg m v))
  rw [arrives]
  refine ⟨mem.trans (congrArg (·.mem) v_eq), ?_, gone, ?_, ?_⟩
  · have entries := dir.trans (congrArg (·.dom.dir) v_eq)
    exact congrArg (fun x : SMap DirEnt => SMap.get {} x line) entries
  · have entry := busy.trans (congrArg (·.dom.busy) v_eq)
    exact (congrArg (SMap.find · line) entry).trans (SMap.find_put_same ..)
  · have counted := homes.trans (congrArg (·.dom.homes) v_eq)
    exact (congrArg (fun x => (SMap.get {} x h).recalls) counted).trans (by rw [SMap.get_upd_same])

/-! ### After the reset of the protocol (R267) -/

/-- No line is held, BUSY or on its way, no granule is filled, and nothing waits for a move. -/
structure CalmDomain (s : State) : Prop where
  busy : s.dom.busy = []
  net : s.dom.net = []
  queue : s.dom.queue = []
  dir : s.dom.dir = []
  l3 : s.dom.l3 = []
  filling : s.filling = []
  moves : ∀ p ∈ s.moves, p.2.queued = []

/-- From a calm domain to a calm one: no further reset, and the records of events are kept. -/
structure StaysCalm (s t : State) : Prop where
  calm : CalmDomain t
  resets : t.dom.resets = s.dom.resets
  lastCause : t.dom.lastCause = s.dom.lastCause
  records : RecordsKept s t

/-- What the calm of a domain is read from, the event records and the start-up state. -/
def calmView (s : State) :=
  (s.dom.busy, s.dom.net, s.dom.queue, s.dom.dir, s.dom.l3, s.dom.resets, s.dom.lastCause, s.filling, s.moves, s.ev, s.su)

@[simp] theorem calmView_eta (s : State) : (s.dom.busy, s.dom.net, s.dom.queue, s.dom.dir, s.dom.l3, s.dom.resets, s.dom.lastCause,
    s.filling, s.moves, s.ev, s.su) = calmView s := rfl

@[simp] theorem calmView_mk (pending free resp time variant weltGen map disc dies copyNet sigNet mem grans moves filling sep quotas ctxs jobs disp
    parts iommu dom cluster lacing units tunnel host power sec dict su nv ev upd cal) :
    calmView ⟨pending, free, resp, time, variant, weltGen, map, disc, dies, copyNet, sigNet, mem, grans, moves, filling, sep, quotas, ctxs, jobs,
      disp, parts, iommu, dom, cluster, lacing, units, tunnel, host, power, sec, dict, su, nv, ev, upd, cal⟩ =
    (dom.busy, dom.net, dom.queue, dom.dir, dom.l3, dom.resets, dom.lastCause, filling, moves, ev, su) := rfl

@[simp] theorem calmView_ite (c : Prop) [Decidable c] (s t : State) : calmView (if c then s else t) = if c then calmView s else calmView t :=
  apply_ite ..

/-- A change that keeps a calm domain calm. -/
def Calmly (f : State → State) : Prop := ∀ s, CalmDomain s → StaysCalm s (f s)

section
variable {s t u : State}

theorem StaysCalm.refl (c : CalmDomain s) : StaysCalm s s := ⟨c, rfl, rfl, .refl s⟩

theorem StaysCalm.trans (h : StaysCalm s t) (k : StaysCalm t u) : StaysCalm s u :=
  ⟨k.calm, k.resets.trans h.resets, k.lastCause.trans h.lastCause, h.records.trans k.records⟩

theorem StaysCalm.then {f : State → State} (h : StaysCalm s t) (k : Calmly f) : StaysCalm s (f t) := h.trans (k t h.calm)

theorem StaysCalm.ite {p : Prop} [Decidable p] (h : StaysCalm s t) (k : StaysCalm s u) : StaysCalm s (if p then t else u) := by
  split
  · exact h
  · exact k

theorem StaysCalm.unless {p : Prop} [Decidable p] {f : State → State} (h : StaysCalm s t) (k : Calmly f) :
    StaysCalm s (if p then t else f t) := .ite h (h.then k)

theorem StaysCalm.of_view (c : CalmDomain s) (same : calmView t = calmView s) : StaysCalm s t := by
  simp only [calmView, Prod.mk.injEq] at same
  obtain ⟨busy, net, queue, dir, l3, resets, lastCause, filling, moves, ev, su⟩ := same
  exact ⟨⟨busy.trans c.busy, net.trans c.net, queue.trans c.queue, dir.trans c.dir, l3.trans c.l3, filling.trans c.filling, moves ▸ c.moves⟩,
    resets, lastCause, .of_eq ev (by simp [dairymanUp, su])⟩

theorem StaysCalm.to_view (h : StaysCalm s t) (same : calmView u = calmView t) : StaysCalm s u := h.trans (.of_view h.calm same)

/-- A change of the moves under way that leaves none with anything behind it. -/
theorem StaysCalm.of_moves (h : StaysCalm s t) (same : calmView { u with moves := t.moves } = calmView t) (moves : ∀ p ∈ u.moves, p.2.queued = []) :
    StaysCalm s u := by
  obtain ⟨⟨busy, net, queue, dir, l3, filling, -⟩, resets, lastCause, records⟩ := h.to_view same
  exact ⟨⟨busy, net, queue, dir, l3, filling, moves⟩, resets, lastCause, records.trans (.of_eq rfl rfl)⟩

end

theorem Calmly.of_view {f : State → State} (same : ∀ s, calmView (f s) = calmView s) : Calmly f := fun s c => .of_view c (same s)

theorem Calmly.comp {f g : State → State} (hg : Calmly g) (hf : Calmly f) : Calmly fun s => g (f s) := fun s c => (hf s c).then hg

theorem Calmly.each {α : Type} {f : α → State → State} (h : ∀ a, Calmly (f a)) (l : List α) : Calmly (each l f) := fun s c =>
  each_keeps (StaysCalm s) l f (fun a _ _ k => k.then (h a)) s (.refl c)

theorem calmly_post (code site : Nat) (p : List Nat) : Calmly (post code site p) := fun s c =>
  ⟨⟨by simp [c.busy], by simp [c.net], by simp [c.queue], by simp [c.dir], by simp [c.l3], by simp [c.filling], by simpa using c.moves⟩,
    by simp, by simp, .post code site p s⟩

/-! ### Memory and granules in a calm domain -/

@[simp] theorem calmView_updDie (s : State) (d : Nat) (f : DieSt → DieSt) : calmView (updDie s d f) = calmView s := rfl
@[simp] theorem calmView_updJob (s : State) (k : Nat) (f : Job → Job) : calmView (updJob s k f) = calmView s := by
  unfold updJob
  split <;> simp
@[simp] theorem calmView_updCtx (s : State) (c : Nat) (f : Context → Context) : calmView (updCtx s c f) = calmView s := rfl
@[simp] theorem calmView_updGran (s : State) (g : Nat) (f : Granule → Granule) : calmView (updGran s g f) = calmView s := rfl
@[simp] theorem calmView_takeLoc (s : State) (hbm : Bool) (loc : Nat) : calmView (takeLoc s hbm loc) = calmView s := by cases hbm <;> rfl
@[simp] theorem calmView_freeLoc (s : State) (hbm : Bool) (loc : Nat) : calmView (freeLoc s hbm loc) = calmView s := by cases hbm <;> rfl
@[simp] theorem calmView_charge (c : Nat) (hbm : Bool) (s : State) : calmView (charge c hbm s) = calmView s := rfl

theorem calmly_recallLine (l : Nat) : Calmly (recallLine l) := fun s c => by
  have idle : busyOf s l = none := by simp [busyOf, c.busy, SMap.find]
  have uncached : ∀ m, l3Line s m l = none := by simp [l3Line, c.l3, SMap.find]
  refine .of_view c ?_
  simp only [recallLine, settleLine, idle, uncached, Option.isNone_none, if_true, calmView, c.dir]
  rfl

theorem calmly_noKey (a : Nat) : Calmly (noKey a) := fun s c => by
  unfold noKey
  refine .ite (.refl c) (.then ?_ (calmly_post _ _ _))
  exact .of_view c rfl

theorem calmly_memStoreLine (l : Nat) (mask : BitVec 64) (data : LineData) : Calmly (memStoreLine l mask data) := fun s c => by
  unfold memStoreLine
  split
  · exact calmly_noKey _ s c
  · exact .of_view c (by simp)

theorem calmly_cohWrite (a : Nat) (bs : List Byte) : Calmly (cohWrite a bs) :=
  .each (fun _ => .comp (calmly_memStoreLine _ _ _) (calmly_recallLine _)) _

theorem calmly_recallGranule (g : Nat) : Calmly (recallGranule g) := fun s c => Calmly.each calmly_recallLine (cachedLines s g) s c

/-- An uncharge changes the quotas, and may post that the use fell to the quota. -/
theorem uncharge_cases (k : Nat) (hbm : Bool) (s : State) :
    ∃ q, uncharge k hbm s = { s with quotas := q } ∨ ∃ p, uncharge k hbm s = post 0x0343 noSite p { s with quotas := q } := by
  unfold uncharge
  cases hbm <;> simp only [Bool.false_eq_true, if_false, if_true] <;> split
  · exact ⟨_, .inr ⟨_, rfl⟩⟩
  · exact ⟨_, .inl rfl⟩
  · exact ⟨_, .inr ⟨_, rfl⟩⟩
  · exact ⟨_, .inl rfl⟩

theorem calmly_uncharge (k : Nat) (hbm : Bool) : Calmly (uncharge k hbm) := fun s c => by
  obtain ⟨q, eq | ⟨p, eq⟩⟩ := uncharge_cases k hbm s <;> rw [eq]
  · exact .of_view c rfl
  · exact (StaysCalm.of_view (t := { s with quotas := q }) c rfl).then (calmly_post _ _ _)

theorem SMap.mem_put {α : Type} {m : SMap α} {k : Nat} {v : α} {p : Nat × α} (h : p ∈ SMap.put m k v) : p ∈ m ∨ p = (k, v) := by
  simp only [SMap.put, List.mem_append, List.mem_cons, List.mem_filter] at h
  rcases h with ⟨old, -⟩ | new | ⟨old, -⟩
  · exact .inl old
  · exact .inr new
  · exact .inl old

theorem SMap.mem_del {α : Type} {m : SMap α} {k : Nat} {p : Nat × α} (h : p ∈ SMap.del m k) : p ∈ m ∧ p.1 ≠ k := by
  simp only [SMap.del, List.mem_append, List.mem_filter, decide_eq_true_eq] at h
  rcases h with ⟨old, lt⟩ | ⟨old, gt⟩
  · exact ⟨old, lt.ne⟩
  · exact ⟨old, gt.ne'⟩

/-- A move begins with nothing behind it. -/
theorem calmly_startMove (g : Nat) (kind : MoveKind) (toHbm : Bool) (target : Nat) : Calmly (startMove g kind toHbm target []) := fun s c => by
  have taken : StaysCalm s (recallGranule g (takeLoc s toHbm target)) :=
    (StaysCalm.of_view c (calmView_takeLoc s toHbm target)).then (calmly_recallGranule g)
  unfold startMove
  refine .unless (taken.of_moves rfl fun p hp => ?_) (.of_view fun _ => calmView_charge ..)
  rcases SMap.mem_put hp with old | rfl
  · exact taken.calm.moves p old
  · rfl

theorem calmly_undoMove (g : Nat) (m : Move) : Calmly (undoMove g m) := fun s c => by
  have freed : StaysCalm s (freeLoc s m.toHbm m.target.toNat) := .of_view c (calmView_freeLoc ..)
  have paid := freed.unless (p := m.fromHbm = m.toHbm) (calmly_uncharge (granOf s g).owner.toNat m.toHbm)
  unfold undoMove
  exact paid.of_moves rfl fun p hp => paid.calm.moves p (SMap.mem_del hp).1

theorem calmly_rekeyGranule (g : Nat) (newOwner : BitVec 12) : Calmly (rekeyGranule g newOwner) :=
  .of_view fun s => by simp [rekeyGranule, updGran]

@[simp] theorem calmView_sep (s : State) (x : Separator) : calmView { s with sep := x } = calmView s := rfl

theorem calmly_completeMove (g : Nat) (m : Move) : Calmly (completeMove g m) := fun s c => by
  have freed : StaysCalm s (freeLoc s m.fromHbm m.source.toNat) := .of_view c (calmView_freeLoc ..)
  have paid := freed.unless (p := m.fromHbm = m.toHbm) (calmly_uncharge (granOf s g).owner.toNat m.fromHbm)
  have named : ∀ f, StaysCalm s { updGran (if m.fromHbm = m.toHbm then freeLoc s m.fromHbm m.source.toNat
      else uncharge (granOf s g).owner.toNat m.fromHbm (freeLoc s m.fromHbm m.source.toNat)) g f with
        moves := SMap.del (if m.fromHbm = m.toHbm then freeLoc s m.fromHbm m.source.toNat
          else uncharge (granOf s g).owner.toNat m.fromHbm (freeLoc s m.fromHbm m.source.toNat)).moves g } :=
    fun f => paid.of_moves rfl fun p hp => paid.calm.moves p (SMap.mem_del hp).1
  unfold completeMove
  dsimp only
  refine .to_view ?_ (calmView_sep _ _)
  split
  · exact (((named _).then (calmly_rekeyGranule g _)).then (calmly_uncharge _ _)).to_view (calmView_charge ..)
  · exact (named _).to_view rfl
  · exact named _

theorem SMap.mem_of_find {α : Type} {m : SMap α} {k : Nat} {v : α} (h : SMap.find m k = some v) : (k, v) ∈ m := by
  obtain ⟨l, r, eq, -⟩ := List.lookup_eq_some_iff.mp h
  simp [eq]

theorem calmly_abandonMove {g : Nat} {m : Move} (idle : m.queued = []) : Calmly (abandonMove g m) := fun s c => by
  have undone := (calmly_undoMove g m s c).to_view (calmView_updGran _ g fun x => { x with pull := false })
  have waits : StaysCalm s (match m.kind with
      | .retire cause => retireLater g cause (updGran (undoMove g m s) g fun x => { x with pull := false })
      | _ => updGran (undoMove g m s) g fun x => { x with pull := false }) := by
    split
    · exact undone.to_view (calmView_sep ..)
    · exact undone
  have told := waits.then (calmly_post 0x0342 noSite [granuleAddr g, if m.toHbm then 0 else 1])
  unfold abandonMove
  simp only [serveAll, idle, each_nil]
  exact .ite (told.to_view (calmView_sep ..)) told

theorem calmly_settleGranule (g : Nat) : Calmly (settleGranule g) := fun s c => by
  unfold settleGranule
  have unfilled : SMap.find s.filling g = none := by simp [c.filling, SMap.find]
  rw [unfilled]
  split
  next => simp_all
  next m none under =>
    have idle : m.queued = [] := c.moves _ (SMap.mem_of_find under)
    unfold finishMove
    simp only [serveAll, idle, each_nil]
    exact .ite (calmly_abandonMove idle s c) (calmly_completeMove g m s c)
  next => exact .refl c

theorem calmView_of_placeGranule {g k : Nat} {die : Option Nat} {s t : State} (h : placeGranule g k die s = .ok t) : calmView t = calmView s := by
  simp only [placeGranule] at h
  split at h <;> cases h
  next hbm loc _ => cases hbm <;> simp [putIn, zeroGranule, charge, updQuota, updGran, takeLoc]

theorem staysCalm_of_touchGranule {g k : Nat} {die : Option Nat} {s t : State} (c : CalmDomain s) (h : touchGranule g k die s = .ok t) :
    StaysCalm s t := by
  have settled := calmly_settleGranule g s c
  have noted := settled.to_view (calmView_updGran _ g fun x => { x with ref := true })
  have counted : ∀ x, StaysCalm s { updGran (settleGranule g s) g (fun x => { x with ref := true }) with sep := x } :=
    fun x => noted.to_view (calmView_sep ..)
  simp only [touchGranule] at h
  split at h
  · cases hp : placeGranule g k die (settleGranule g s) with
    | error e => simp [hp, Except.map] at h
    | ok u =>
      simp only [hp, Except.map, Except.ok.injEq] at h
      subst h
      exact settled.to_view ((calmView_updGran ..).trans (calmView_of_placeGranule hp))
  · split at h
    · split at h <;> cases h
      · exact ((counted _).then (calmly_startMove g _ _ _)).then (calmly_settleGranule g)
      · exact counted _
    · cases h
      exact noted
  · cases h
    exact noted

/-- A fold whose steps may stop with an error keeps, where it ends well, what each step that goes on keeps. -/
theorem foldl_ok_keeps {α ε : Type} {P : State → Prop} {f : Except ε State → α → Except ε State}
    (h : ∀ r a t, f r a = .ok t → ∃ u, r = .ok u ∧ (P u → P t)) (l : List α) {r : Except ε State} {t : State} (e : l.foldl f r = .ok t)
    (start : ∀ u, r = .ok u → P u) : P t := by
  induction l generalizing r with
  | nil => exact start t e
  | cons a l ih =>
    refine ih e fun v hv => ?_
    obtain ⟨u, hu, keeps⟩ := h r a v hv
    exact keeps (start u hu)

theorem staysCalm_of_touchRange {a n k : Nat} {die : Option Nat} {s t : State} (c : CalmDomain s) (h : touchRange a n k die s = .ok t) :
    StaysCalm s t := by
  refine foldl_ok_keeps (P := StaysCalm s) (fun r i t e => ?_) _ h fun u e => ?_
  · split at e
    · cases e
    · split at e <;> cases e
      exact ⟨_, rfl, fun k => k.trans (staysCalm_of_touchGranule k.calm ‹_›)⟩
  · cases e
    exact .refl c

theorem calmly_touchIo (a n : Nat) : Calmly (touchIo a n) := fun s c =>
  touchIo_cases (P := StaysCalm s) (fun _ => staysCalm_of_touchRange c) fun e b _ => by
    cases e with
    | quota => exact calmly_post _ _ _ s c
    | storage => exact calmly_post _ _ _ s c

theorem calmly_ioWrite (a : Nat) (bs : List Byte) : Calmly (ioWrite a bs) := fun s c => by
  have touched := calmly_touchIo a bs.length s c
  unfold ioWrite
  exact .ite (.refl c) (.ite (touched.then (calmly_cohWrite a bs)) touched)

/-! ### The end of a job, and what ends a domain fault (R190, R227, R267) -/

@[simp] theorem calmView_setPoint (site mv : Nat) (s : State) : calmView (setPoint site mv s) = calmView s := by
  unfold setPoint
  dsimp only
  split <;> rfl

@[simp] theorem calmView_levelIdle (d : Nat) (s : State) : calmView (levelIdle d s) = calmView s := calmView_setPoint ..

theorem calmly_releaseRpin (demote : Bool) (g : Nat) : Calmly (releaseRpin demote g) := fun s c => by
  have released : StaysCalm s (updGran s g fun x => { x with rpin := x.rpin - 1 }) := .of_view c (calmView_updGran ..)
  unfold releaseRpin
  refine .ite ?_ released
  split
  · exact released.then (calmly_startMove g _ _ _)
  · exact released

theorem calmly_releasePins (d : Nat) : Calmly (releasePins d) := fun s c =>
  .to_view (Calmly.each (fun p : Nat × Nat => calmly_releaseRpin (demoteAfter (dieOf s d).image p.1) p.2) _ s c) (calmView_updDie ..)

@[simp] theorem calmView_takeStall (d k : Nat) (s : State) : calmView (takeStall d k s) = calmView s :=
  (calmView_updDie ..).trans (calmView_updJob ..)

theorem calmly_releaseDies (k : Nat) : Calmly (releaseDies k) := fun s c => by
  unfold releaseDies
  split
  · exact .refl c
  · refine .to_view (Calmly.each (fun d t ct => ?_) _ s c) (calmView_updJob ..)
    exact (calmly_releasePins d t ct).to_view
      ((calmView_levelIdle ..).trans ((calmView_updDie ..).trans (calmView_takeStall ..)))

@[simp] theorem calmView_requestMsi (k : Nat) (s : State) : calmView (requestMsi k s) = calmView s := by
  unfold requestMsi
  split <;> rfl

@[simp] theorem calmView_mapHostJobs (f : BitVec 64 × Nat × Option (BitVec 8) → BitVec 64 × Nat × Option (BitVec 8)) (s : State) :
    calmView (mapHostJobs f s) = calmView s := rfl

theorem calmly_writeRecord (j : Job) (serial status event : Nat) (msi : Bool) : Calmly (writeRecord j serial status event msi) := fun s c => by
  have counted := fun a bs f => (calmly_ioWrite a bs s c).to_view (calmView_updCtx _ j.ctx.toNat f)
  unfold writeRecord
  refine .to_view ?_ (calmView_mapHostJobs ..)
  exact .ite ((counted _ _ _).to_view (calmView_requestMsi ..)) (counted _ _ _)

@[simp] theorem calmView_dropCtxKeys (k : Nat) (s : State) : calmView (dropCtxKeys k s) = calmView s := by
  unfold dropCtxKeys
  split <;> rfl

@[simp] theorem calmView_hostJobsLost (k : Nat) (s : State) : calmView (hostJobsLost k s) = calmView s := rfl
@[simp] theorem calmView_settleReset (k : Nat) (s : State) : calmView (settleReset k s) = calmView s := by simp [settleReset]

theorem calmly_finishJob (k status event : Nat) (msi : Bool) : Calmly (finishJob k status event msi) := fun s c => by
  have released : StaysCalm s (if (jobOf s k).any placed then releaseDies k s else s) := .ite (calmly_releaseDies k s c) (.refl c)
  unfold finishJob
  dsimp only
  split
  · exact released
  next j _ =>
    exact (released.then (calmly_writeRecord j k status event msi)).to_view (by simp)

theorem calmly_failPlaced (code : Nat) : Calmly (failPlaced code true) := fun s c =>
  Calmly.each (fun k => calmly_finishJob k stFailed code false) _ s c

@[simp] theorem calmView_cqAdvance (s : State) : calmView (cqAdvance s) = calmView s := by
  unfold cqAdvance
  dsimp only
  split <;> rfl

theorem calmly_settleFences : Calmly settleFences := fun s c => by
  unfold settleFences
  split
  · exact .refl c
  · dsimp only
    split
    · refine .to_view ?_ (calmView_cqAdvance _)
      unfold completeFence
      refine .ite (.then (f := ioWrite _ _) ?_ (calmly_ioWrite _ _)) ?_
      · exact .of_view c rfl
      · exact .of_view c rfl
    · exact .of_view c rfl

theorem calmly_restartHarts : Calmly restartHarts := .of_view fun _ => rfl

/-! ### The reset of the protocol (R267 step 5) -/

theorem uncharge_frame (k : Nat) (hbm : Bool) (s : State) :
    (uncharge k hbm s).dom = s.dom ∧ (uncharge k hbm s).moves = s.moves ∧ RecordsKept s (uncharge k hbm s) := by
  obtain ⟨q, eq | ⟨p, eq⟩⟩ := uncharge_cases k hbm s <;> rw [eq]
  · exact ⟨rfl, rfl, .of_eq rfl rfl⟩
  · exact ⟨by simp, by simp, .trans (t := { s with quotas := q }) (.of_eq rfl rfl) (.post ..)⟩

/-- A move that is undone is no longer listed. -/
theorem undoMove_frame (g : Nat) (m : Move) (s : State) :
    let t := undoMove g m s
    t.dom = s.dom ∧ t.moves = SMap.del s.moves g ∧ RecordsKept s t := by
  unfold undoMove
  dsimp only
  have freed : RecordsKept s (freeLoc s m.toHbm m.target.toNat) := by
    unfold freeLoc
    split <;> exact .of_eq rfl rfl
  have dom : (freeLoc s m.toHbm m.target.toNat).dom = s.dom := by
    unfold freeLoc
    split <;> rfl
  have moves : (freeLoc s m.toHbm m.target.toNat).moves = s.moves := by
    unfold freeLoc
    split <;> rfl
  split
  · exact ⟨dom, congrArg (SMap.del · g) moves, freed.trans (.of_eq rfl rfl)⟩
  · obtain ⟨dom', moves', records⟩ := uncharge_frame (granOf s g).owner.toNat m.toHbm (freeLoc s m.toHbm m.target.toNat)
    exact ⟨dom'.trans dom, congrArg (SMap.del · g) (moves'.trans moves), (freed.trans records).trans (.of_eq rfl rfl)⟩

/-- Every move undone. -/
theorem each_undoMove_frame (l : SMap Move) (s : State) :
    let t := each l (fun (p : Nat × Move) s => undoMove p.1 p.2 s) s
    t.dom = s.dom ∧ (∀ p ∈ t.moves, p ∈ s.moves ∧ p ∉ l) ∧ RecordsKept s t := by
  induction l generalizing s with
  | nil => exact ⟨rfl, fun p hp => ⟨hp, List.not_mem_nil⟩, .refl s⟩
  | cons q l ih =>
    obtain ⟨dom, moves, records⟩ := undoMove_frame q.1 q.2 s
    obtain ⟨dom', moves', records'⟩ := ih (undoMove q.1 q.2 s)
    refine ⟨dom'.trans dom, fun p hp => ?_, records.trans records'⟩
    obtain ⟨old, notLater⟩ := moves' p hp
    rw [moves] at old
    obtain ⟨listed, other⟩ := SMap.mem_del old
    refine ⟨listed, ?_⟩
    simp only [List.mem_cons, not_or]
    exact ⟨fun e => other (congrArg Prod.fst e), notLater⟩

@[simp] theorem calmView_discardQueue (q code : Nat) (s : State) : calmView (discardQueue q code s) = calmView s := by simp [discardQueue, updQueue]

theorem calmly_idleDiscard (q : Nat) : Calmly (idleDiscard q) := fun s c => by
  unfold idleDiscard
  refine .ite (.then ?_ (calmly_post _ _ _)) (.refl c)
  exact .of_view c (calmView_discardQueue ..)

/-- Step 5 of the sequence leaves the domain calm. -/
theorem resetDomainState_calm (s : State) : StaysCalm s (resetDomainState s) := by
  obtain ⟨dom, moves, records⟩ := each_undoMove_frame s.moves s
  unfold resetDomainState
  refine .then (f := each _ idleDiscard) ?_ (.each calmly_idleDiscard _)
  refine .then (f := each _ retireTags) ?_ (.each (f := retireTags) (fun d => .of_view fun _ => rfl) _)
  refine .then (f := fun s => { s with lacing := { s.lacing with staging := [] }, sep := { s.sep with retiring := [] } }) ?_ (.of_view fun _ => rfl)
  refine .then (f := each _ _) ?_ (.each (f := fun (p : Nat × Partner) s => updPartner s p.1 _) (fun p => .of_view fun _ => rfl) _)
  refine ⟨⟨rfl, rfl, rfl, rfl, rfl, rfl, fun p hp => ?_⟩, congrArg (·.resets) dom, congrArg (·.lastCause) dom, records.trans (.of_eq rfl rfl)⟩
  exact absurd (moves p hp).1 (moves p hp).2

@[simp] theorem calmView_setSite (i state reason : Nat) (s : State) : calmView (setSite i state reason s) = calmView s := rfl
@[simp] theorem calmView_countChange (s : State) : calmView (countChange s) = calmView s := rfl

@[simp] theorem calmView_setMemorySites (site state reason : Nat) (s : State) : calmView (setMemorySites site state reason s) = calmView s :=
  each_same calmView _ _ (fun u _ t => by simp) s

@[simp] theorem calmView_clearUnitMap (d : Nat) (s : State) : calmView (clearUnitMap d s) = calmView s := rfl

@[simp] theorem calmView_loseOrigin (code origin : Nat) (s : State) : calmView (loseOrigin code origin s) = calmView s := by simp [loseOrigin]

/-- The whole sequence, where the origin is not the I/O die and the Dairyman runs (R264, R267). -/
theorem domainFault_reset {code detect detail origin : Nat} {s : State} (origin_ne : origin ≠ siteIO) (up : dairymanUp s = true) :
    DomainReset s (domainFault code detect detail origin s) code detect detail := by
  have recorded := posted_post code detect [detect, detail] s
  have after := resetDomainState_calm (post code detect [detect, detail] s)
  let u := loseOrigin code origin (resetDomainState (post code detect [detect, detail] s))
  let v := { u with dom := { u.dom with resets := u.dom.resets + 1, lastCause := BitVec.ofNat 16 code } }
  have lost : StaysCalm (post code detect [detect, detail] s) u := after.to_view (calmView_loseOrigin ..)
  have counted : CalmDomain v := ⟨lost.calm.busy, lost.calm.net, lost.calm.queue, lost.calm.dir, lost.calm.l3, lost.calm.filling, lost.calm.moves⟩
  have ended (p : List Nat) : StaysCalm v (settleFences (restartHarts (post 0x0420 noSite p (failPlaced code true v)))) :=
    (((calmly_failPlaced code v counted).then (calmly_post 0x0420 noSite p)).then calmly_restartHarts).then calmly_settleFences
  have runs : (decide (origin = siteIO) || !dairymanUp (post code detect [detect, detail] s)) = false := by simp [origin_ne, up]
  unfold domainFault
  dsimp only
  simp only [runs, Bool.false_eq_true, if_false]
  obtain ⟨⟨busy, net, queue, dir, l3, -, -⟩, resets, lastCause, records⟩ := ended _
  exact ⟨(recorded.keep lost.records).keep (.trans (t := v) (.of_eq rfl rfl) records), resets.trans (by simp [v, lost.resets]), lastCause, busy, net, queue, dir, l3⟩

/-! ### The statement -/

/-- The one branch of a line that is BUSY since `u`. -/
theorem homeTimeout_busy {line : Nat} {s : State} {b : Busy} {u : BitVec 64} (busy : busyOf s line = some b)
    (start : b.start = some u) (up : domainUp s = true) :
    homeTimeout line s = if (s.time - u).toNat < 200000 then s
      else domainFault 0x0411 (homeOf s (64 * line)) (64 * line) (homeOf s (64 * line)) s := by
  unfold homeTimeout atHome
  rw [busy, Option.bind_some, start, up]
  simp only [Bool.not_true, Bool.or_false, decide_eq_true_eq]

/-- A CRC failure counts; the ninth in a row loses the link. -/
theorem crcFail_up {site : Nat} {s : State} (domain : domainUp s = true) (named : site ≤ 10) (up : siteUp s site = true) :
    crcFail site s =
      let n := SMap.get 0 s.dom.shankFails site + 1
      let t := { s with dom := { s.dom with shankFails := SMap.put s.dom.shankFails site n } }
      if 9 ≤ n then domainFault 0x0413 siteW site site t else t := by
  simp [crcFail, domain, up, named.not_gt]

/-- Settles O39. The recall follows the message through the network (`recallArrives_evicts`); the two faults are one domain
reset (`domainFault_reset`). -/
theorem coherenceFaultsAndEdgeCaches : Obligations.CoherenceFaultsAndEdgeCaches := by
  refine ⟨fun d s l u rest queued => ?apply, fun d line s => ?evict, fun site line s opened free room fresh holds => ?recalled,
    fun line s b u busy start up => ?timeout, fun site s up => ?crc⟩
  case apply =>
    refine exec_eq_next (f := (updDie · d applyInval)) rfl ?_ rfl
    have head : applyInval (dieOf s d) = { dieOf s d with edge := SMap.del (dieOf s d).edge l, invQueue := rest } := by
      simp only [applyInval, queued]
    exact congrArg (setDie { s with pending := [] } d) head
  case evict => exact exec_eq_next (f := (updDie · d fun x => { x with edge := SMap.del x.edge line })) rfl rfl rfl
  case recalled =>
    exact exec_next_exists (f := recallArrives site line) rfl
      (recallArrives_evicts (s := { s with pending := [] }) opened free room fresh holds)
  case timeout =>
    have branch := homeTimeout_busy (s := { s with pending := [] }) busy start up
    refine ⟨fun early => ?_, fun late home dairyman => ?_⟩
    · exact exec_eq_next (f := homeTimeout line) rfl (branch.trans (if_pos early)) rfl
    · refine exec_next_exists (f := homeTimeout line) rfl ?_
      rw [branch, if_neg (Nat.not_lt.mpr late)]
      exact domainFault_reset (s := { s with pending := [] }) (Nat.ne_of_lt home) dairyman
  case crc =>
    refine ⟨fun off => ?_, fun named site_up few => ?_, fun named site_up many dairyman => ?_⟩
    · exact exec_eq_next (f := crcFail site) rfl (by simp [crcFail, show siteUp { s with pending := [] } site = false from off]) rfl
    · exact exec_eq_next (f := crcFail site) rfl
        ((crcFail_up (s := { s with pending := [] }) up named site_up).trans (if_neg (by dsimp only; omega))) rfl
    · refine exec_next_exists (f := crcFail site) rfl ?_
      rw [crcFail_up (s := { s with pending := [] }) up (by omega) site_up]
      dsimp only
      rw [if_pos (by omega)]
      exact domainFault_reset (s := { s with pending := [], dom := { s.dom with
        shankFails := SMap.put s.dom.shankFails site (SMap.get 0 s.dom.shankFails site + 1) } }) (Nat.ne_of_lt named) dairyman
end Sys2Proof.Machine

/-! PROOFS. Lanes, flits and inlets of the eyelets (O43).

What moves when an eyelet falls or returns stands at that eyelet: its own lanes and its own site. The laces resend and settle beside it, which
reaches queues of other eyelets but the lanes of none. -/

namespace Sys2Proof.Machine

/-! ### The link layer keeps the lanes -/

/-- Sending flits moves the queue, the replay buffer and what was sent, and no more (R297). -/
theorem pumpFlits_frame (n : Nat) (x : Eyelet) : (pumpFlits n x).state = x.state ∧ (pumpFlits n x).tx = x.tx ∧ (pumpFlits n x).rx = x.rx ∧
    (pumpFlits n x).rxSeq = x.rxSeq ∧ (pumpFlits n x).stream = x.stream := by
  induction n generalizing x with
  | zero => exact ⟨rfl, rfl, rfl, rfl, rfl⟩
  | succ n ih =>
    have sent : (sendFlit x).state = x.state ∧ (sendFlit x).tx = x.tx ∧ (sendFlit x).rx = x.rx ∧ (sendFlit x).rxSeq = x.rxSeq ∧
        (sendFlit x).stream = x.stream := by unfold sendFlit; split <;> exact ⟨rfl, rfl, rfl, rfl, rfl⟩
    unfold pumpFlits
    split
    · exact ⟨rfl, rfl, rfl, rfl, rfl⟩
    · simpa only [sent] using ih (sendFlit x)

theorem pumped_of_empty {x : Eyelet} (empty : x.txq = []) : pumped x = x := by simp [pumped, empty, pumpFlits]

/-- The lanes and the state of two eyelets agree. -/
def SameLanes (x y : Eyelet) : Prop := y.state = x.state ∧ y.tx = x.tx ∧ y.rx = x.rx

theorem SameLanes.refl (x : Eyelet) : SameLanes x x := ⟨rfl, rfl, rfl⟩

theorem SameLanes.trans {x y z : Eyelet} (h : SameLanes x y) (k : SameLanes y z) : SameLanes x z :=
  ⟨k.1.trans h.1, k.2.1.trans h.2.1, k.2.2.trans h.2.2⟩

theorem SameLanes.dir {x y : Eyelet} (h : SameLanes x y) (tx : Bool) : dirOfEye y tx = dirOfEye x tx := by
  simp only [dirOfEye, h.2.1, h.2.2]

theorem SameLanes.wide {x y : Eyelet} (h : SameLanes x y) : wideEnough y = wideEnough x := by simp only [wideEnough, h.2.1, h.2.2]

/-! ### What moves at some eyelets -/

/-- Between two states only the eyelets listed changed lanes, state or site; memory stands and no record is lost. -/
structure EyesMove (E : List Nat) (s t : State) : Prop where
  mem : t.mem = s.mem
  time : t.time = s.time
  relayed : t.lacing.relayed = s.lacing.relayed
  records : RecordsKept s t
  lanes : ∀ j, j ∉ E → SameLanes (eyeOf s j) (eyeOf t j)
  sites : ∀ i, (∀ j ∈ E, i ≠ siteEye j) → siteOf t i = siteOf s i

theorem siteOf_setSite_same (i state reason : Nat) (s : State) : siteOf (setSite i state reason s) i =
    { siteOf s i with state := BitVec.ofNat 3 state, reason := BitVec.ofNat 8 reason } := by
  simp only [siteOf, setSite, SMap.get_upd_same]

theorem siteOf_setSite_other {i j : Nat} (state reason : Nat) (s : State) (h : j ≠ i) : siteOf (setSite i state reason s) j = siteOf s j := by
  simp only [siteOf, setSite, SMap.get_upd_other _ _ _ h]

namespace EyesMove

theorem refl (E : List Nat) (s : State) : EyesMove E s s := ⟨rfl, rfl, rfl, .refl s, fun _ _ => .refl _, fun _ _ => rfl⟩

theorem trans {E : List Nat} {s t u : State} (h : EyesMove E s t) (k : EyesMove E t u) : EyesMove E s u :=
  ⟨k.mem.trans h.mem, k.time.trans h.time, k.relayed.trans h.relayed, h.records.trans k.records,
    fun j out => (h.lanes j out).trans (k.lanes j out), fun i out => (k.sites i out).trans (h.sites i out)⟩

theorem mono {E F : List Nat} {s t : State} (h : EyesMove E s t) (sub : E ⊆ F) : EyesMove F s t :=
  ⟨h.mem, h.time, h.relayed, h.records, fun j out => h.lanes j fun e => out (sub e), fun i out => h.sites i fun j e => out j (sub e)⟩

/-- A step with no eyelet of its own, among others. -/
theorem widen {E : List Nat} {s t : State} (h : EyesMove [] s t) : EyesMove E s t := h.mono (List.nil_subset E)

theorem each {α : Type} {E : List Nat} {f : α → State → State} {l : List α} (h : ∀ a ∈ l, ∀ s, EyesMove E s (f a s)) (s : State) :
    EyesMove E s (each l f s) :=
  each_keeps (EyesMove E s) l f (fun a m t k => k.trans (h a m t)) s (.refl E s)

/-- An inlet's site is no eyelet's. -/
theorem inlet {E : List Nat} {s t : State} (h : EyesMove E s t) (small : ∀ j ∈ E, j < 32) (i : Nat) :
    siteOf t (siteInlet i) = siteOf s (siteInlet i) :=
  h.sites _ fun j m => by have := small j m; unfold siteInlet siteEye; omega

theorem dark {E : List Nat} {s t : State} (h : EyesMove E s t) (small : ∀ j ∈ E, j < 32) (half : Nat) :
    darkHalf t half = darkHalf s half := by simp only [darkHalf, siteUp, h.inlet small]

theorem updEye (e : Nat) (f : Eyelet → Eyelet) (s : State) : EyesMove [e] s (updEye s e f) :=
  ⟨rfl, rfl, rfl, .of_eq rfl rfl, fun j out => by rw [eyeOf_updEye_other _ _ (by simpa using out)]; exact .refl _, fun _ _ => rfl⟩

theorem updPartner (p : Nat) (f : Partner → Partner) (s : State) : EyesMove [] s (updPartner s p f) :=
  ⟨rfl, rfl, rfl, .of_eq rfl rfl, fun _ _ => .refl _, fun _ _ => rfl⟩

theorem countChange (s : State) : EyesMove [] s (countChange s) := ⟨rfl, rfl, rfl, .of_eq rfl rfl, fun _ _ => .refl _, fun _ _ => rfl⟩

theorem setSite (e state reason : Nat) (s : State) : EyesMove [e] s (setSite (siteEye e) state reason s) :=
  ⟨rfl, rfl, rfl, .of_eq rfl rfl, fun _ _ => .refl _, fun i out => siteOf_setSite_other state reason s (out e (by simp))⟩

theorem post (code site : Nat) (p : List Nat) (s : State) : EyesMove [] s (post code site p s) :=
  ⟨post_mem .., post_time .., by rw [post_lacing], .post code site p s,
    fun j _ => by unfold eyeOf; rw [post_lacing]; exact .refl _, fun i _ => by unfold siteOf; rw [post_map]⟩

theorem transmit (p n : Nat) (wire : List Byte) (s : State) : EyesMove [] s (transmit p n wire s) := by
  unfold Machine.transmit
  split
  · exact .refl [] s
  · refine ⟨rfl, rfl, rfl, .of_eq rfl rfl, fun j _ => ?_, fun _ _ => rfl⟩
    by_cases own : j = laceEye s p n
    · obtain ⟨state, tx, rx, -⟩ := pumpFlits_frame (((eyeOf s j).txq ++ wire).length / 248) { eyeOf s j with txq := (eyeOf s j).txq ++ wire }
      rw [← own, eyeOf_updEye_same]
      exact ⟨state, tx, rx⟩
    · rw [eyeOf_updEye_other _ _ own]
      exact .refl _

/-- A lace's state follows its eyelets and moves none (R308). -/
theorem settleLaces (s : State) : EyesMove [] s (settleLaces s) := by
  refine each (fun p _ s => ?_) s
  unfold settleLace
  dsimp only
  split
  · exact .refl [] s
  · split <;> exact updPartner ..

/-- A lace resends over the eyelets still UP (R307). -/
theorem resend (p : Nat) (old : SentPacket → Bool) (s : State) : EyesMove [] s (resend p old s) :=
  (updPartner ..).trans (each (fun _ _ s => transmit _ _ _ s) _)

/-- A change of the map at an eyelet's site, and what the laces make of it. -/
theorem setSite_settle (e state reason : Nat) (s : State) :
    EyesMove [e] s (Machine.settleLaces (Machine.countChange (Machine.setSite (siteEye e) state reason s))) :=
  (setSite ..).trans ((countChange _).trans (settleLaces _)).widen

theorem setSite_settle_lanes (e state reason : Nat) (s : State) (j : Nat) :
    SameLanes (eyeOf s j) (eyeOf (Machine.settleLaces (Machine.countChange (Machine.setSite (siteEye e) state reason s))) j) :=
  (settleLaces (Machine.countChange (Machine.setSite (siteEye e) state reason s))).lanes j (by simp)

end EyesMove

/-! ### An eyelet falls and returns -/

/-- An eyelet that falls keeps its lanes and is DOWN; nothing moves at the others (R295). -/
theorem eyeDown_moves (e reason : Nat) (s : State) : EyesMove [e] s (eyeDown e reason s) ∧ (eyeOf (eyeDown e reason s) e).state = .down ∧
    ∀ tx, dirOfEye (eyeOf (eyeDown e reason s) e) tx = dirOfEye (eyeOf s e) tx := by
  let u := updEye s e fun x =>
    { x with state := .down, txSeq := 0, acked := 0xFFF, rxSeq := 0, replay := [], txq := [], downAt := some s.time }
  let v := settleLaces (countChange (setSite (siteEye e) stFault reason u))
  have resent : EyesMove [] v (eyeDown e reason s) := .each (fun _ _ _ => .resend ..) v
  have own : SameLanes (eyeOf u e) (eyeOf (eyeDown e reason s) e) :=
    (EyesMove.setSite_settle_lanes e stFault reason u e).trans (resent.lanes e (by simp))
  have fallen := eyeOf_updEye_same s e fun x =>
    { x with state := .down, txSeq := 0, acked := 0xFFF, rxSeq := 0, replay := [], txq := [], downAt := some s.time }
  refine ⟨(EyesMove.updEye e _ s).trans ((EyesMove.setSite_settle e stFault reason u).trans resent.widen), own.1.trans (by rw [fallen]), fun tx => ?_⟩
  rw [own.dir, fallen]
  rfl

theorem eyeRestored_moves (e : Nat) (s : State) : EyesMove [e] s (eyeRestored e s) ∧ SameLanes (eyeOf s e) (eyeOf (eyeRestored e s) e) := by
  unfold eyeRestored
  split
  · have posted := EyesMove.post 0x0705 (siteEye e) [e]
    dsimp only
    split
    · exact ⟨(posted s).widen, (posted s).lanes e (by simp)⟩
    · exact ⟨(EyesMove.setSite e stPresent 0 s).trans ((EyesMove.countChange _).trans (posted _)).widen,
        (posted (countChange (setSite (siteEye e) stPresent 0 s))).lanes e (by simp)⟩
  · exact ⟨.refl _ s, .refl _⟩

/-- With every lane back, 0x0705 says so (R295). -/
theorem eyeRestored_posted {e : Nat} {s : State} (back : allBack (eyeOf s e) = true) (up : (eyeOf s e).state = .up) :
    Posted s (eyeRestored e s) 0x0705 (siteEye e) [e] := by
  unfold eyeRestored
  rw [if_pos (by simp [back, up])]
  dsimp only
  split
  · exact posted_post 0x0705 (siteEye e) [e] s
  · exact posted_post 0x0705 (siteEye e) [e] (countChange (setSite (siteEye e) stPresent 0 s))

theorem eyeReturn_moves (e : Nat) (s : State) : EyesMove [e] s (eyeReturn e s) ∧
    ∀ tx, dirOfEye (eyeOf (eyeReturn e s) e) tx = dirOfEye (eyeOf s e) tx := by
  unfold eyeReturn
  dsimp only
  split
  · refine ⟨(EyesMove.updEye e _ s).trans (.setSite_settle ..), fun tx => ?_⟩
    have risen := eyeOf_updEye_same s e fun x => { x with state := .up, downAt := none }
    rw [(EyesMove.setSite_settle_lanes ..).dir, risen]
    rfl
  · exact ⟨.refl _ s, fun _ => rfl⟩

/-- An eyelet that was DOWN is UP once both directions are wide enough and its half has light (R294, R308). -/
theorem eyeReturn_up {e : Nat} {s : State} (down : (eyeOf s e).state = .down) (wide : wideEnough (eyeOf s e) = true)
    (light : darkHalf s (e / 16) = false) : (eyeOf (eyeReturn e s) e).state = .up := by
  unfold eyeReturn
  dsimp only
  rw [if_pos (by simp [down, wide, light])]
  refine (EyesMove.setSite_settle_lanes ..).1.trans ?_
  exact congrArg Eyelet.state (eyeOf_updEye_same s e fun x => { x with state := .up, downAt := none })

theorem eyeReturn_of_up {e : Nat} {s : State} (up : (eyeOf s e).state = .up) : eyeReturn e s = s := by simp [eyeReturn, up]

theorem eyeTrain_moves (e : Nat) (s : State) : EyesMove [e] s (eyeTrain e s) := by
  have down : ∀ reason, EyesMove [e] s
      (countChange (setSite (siteEye e) stFault reason (updEye s e fun x => { x with state := .down, downAt := some s.time }))) :=
    fun reason => (EyesMove.updEye e _ s).trans ((EyesMove.setSite ..).trans (EyesMove.countChange _).widen)
  unfold eyeTrain
  dsimp only
  split
  · exact down 6
  · split
    · exact (down 5).trans (EyesMove.post ..).widen
    · exact .updEye ..

theorem eyeRelit_moves (e : Nat) (s : State) : EyesMove [e] s (eyeRelit e s) := by
  unfold eyeRelit
  dsimp only
  split
  · exact .refl _ s
  · split
    · split
      · exact (eyeTrain_moves e s).trans (.setSite_settle ..)
      · exact eyeTrain_moves e s
    · exact (eyeReturn_moves e s).1.trans (eyeRestored_moves e _).1

/-- Light brings back an eyelet that has trained (R19). -/
theorem eyeRelit_up {e : Nat} {s : State} (down : (eyeOf s e).state = .down) (wide : wideEnough (eyeOf s e) = true)
    (light : darkHalf s (e / 16) = false) (reason : (siteOf s (siteEye e)).reason = 6) : (eyeOf (eyeRelit e s) e).state = .up := by
  have trained : ¬((eyeOf s e).tx = {} ∧ (eyeOf s e).rx = {}) := fun h => by simp [wideEnough, h, lanesOf] at wide
  unfold eyeRelit
  dsimp only
  rw [if_neg (by simp [reason]), if_neg (by simpa using trained)]
  exact (eyeRestored_moves e _).2.1.trans (eyeReturn_up down wide light)

/-! ### Lanes -/

theorem dirOfEye_setEyeDir_same (tx : Bool) (y : EyeDir) (x : Eyelet) : dirOfEye (setEyeDir tx y x) tx = y := by cases tx <;> rfl
theorem dirOfEye_setEyeDir_other (tx : Bool) (y : EyeDir) (x : Eyelet) : dirOfEye (setEyeDir tx y x) (!tx) = dirOfEye x (!tx) := by cases tx <;> rfl
theorem setEyeDir_state (tx : Bool) (y : EyeDir) (x : Eyelet) : (setEyeDir tx y x).state = x.state := by cases tx <;> rfl

/-- An eyelet is wide enough when both directions are, whichever is named first. -/
theorem wideEnough_eq (x : Eyelet) (tx : Bool) :
    wideEnough x = (decide (4 ≤ lanesOf (dirOfEye x tx)) && decide (4 ≤ lanesOf (dirOfEye x !tx))) := by
  cases tx
  · exact Bool.and_comm ..
  · rfl

theorem allBack_eq (x : Eyelet) (tx : Bool) :
    allBack x = (decide ((dirOfEye x tx).lost = 0) && decide ((dirOfEye x !tx).lost = 0)) := by
  cases tx
  · exact Bool.and_comm ..
  · rfl

theorem loseLane_lost (w : Nat) (y : EyeDir) : (loseLane w y).1.lost = y.lost ||| BitVec.ofNat 9 (2 ^ w) := by
  unfold loseLane
  dsimp only
  split
  · rfl
  · split <;> rfl

/-- The spare takes the lane's place. -/
theorem loseLane_spare {w : Nat} {y : EyeDir} (lane : w < 8) (unused : y.spareUsed = false) (idle : y.substituting = false)
    (locked : y.lost.getLsbD 8 = false) : loseLane w y =
      ({ y with lost := y.lost ||| BitVec.ofNat 9 (2 ^ w), active := y.active - 1, substituting := true }, false) := by
  simp only [loseLane, lane.ne, lane, unused, idle, locked, decide_false, decide_true, Bool.false_and, Bool.not_false, Bool.and_self, if_true, reduceIte, Bool.false_eq_true]

/-- With the spare in use the direction narrows. -/
theorem loseLane_narrow {w : Nat} {y : EyeDir} (used : y.spareUsed = true) :
    loseLane w y = ({ y with lost := y.lost ||| BitVec.ofNat 9 (2 ^ w), active := y.active - 1 }, true) := by
  simp [loseLane, used]

/-- The state once a direction's loss of a lane is noted and posted. -/
def laneNoted (e : Nat) (tx : Bool) (w : Nat) (s : State) : State :=
  post 0x0701 (siteEye e) [e, if tx then 0 else 1, w] (updEye s e (setEyeDir tx (loseLane w (dirOfEye (eyeOf s e) tx)).1))

theorem laneNoted_moves (e : Nat) (tx : Bool) (w : Nat) (s : State) : EyesMove [e] s (laneNoted e tx w s) :=
  (EyesMove.updEye e _ s).trans (EyesMove.post ..).widen

theorem laneNoted_eye (e : Nat) (tx : Bool) (w : Nat) (s : State) :
    SameLanes (setEyeDir tx (loseLane w (dirOfEye (eyeOf s e) tx)).1 (eyeOf s e)) (eyeOf (laneNoted e tx w s) e) := by
  have kept := (EyesMove.post 0x0701 (siteEye e) [e, if tx then 0 else 1, w]
    (updEye s e (setEyeDir tx (loseLane w (dirOfEye (eyeOf s e) tx)).1))).lanes e (by simp)
  rwa [eyeOf_updEye_same] at kept

theorem laneNoted_posted (e : Nat) (tx : Bool) (w : Nat) (s : State) :
    Posted s (laneNoted e tx w s) 0x0701 (siteEye e) [e, if tx then 0 else 1, w] :=
  posted_post 0x0701 (siteEye e) [e, if tx then 0 else 1, w] (updEye s e (setEyeDir tx (loseLane w (dirOfEye (eyeOf s e) tx)).1))

/-- A lane that is lost: noted, and where the direction narrows the eyelet is DOWN or reads DEGRADED (R295). -/
theorem laneLost_eq {e w : Nat} {tx : Bool} {s : State} (present : (eyeOf s e).state ≠ .absent) (lane : w < 9)
    (locked : (dirOfEye (eyeOf s e) tx).lost.getLsbD w = false) : laneLost e tx w s =
      let u := laneNoted e tx w s
      let y := loseLane w (dirOfEye (eyeOf s e) tx)
      if (eyeOf s e).state ≠ .up || !y.2 then u
      else if !wideEnough (eyeOf u e) then post 0x0704 (siteEye e) [e] (eyeDown e 0 u)
      else post 0x0703 (siteEye e) [e, lanesOf y.1]
        (if (siteOf u (siteEye e)).state = 5 then u else countChange (setSite (siteEye e) stDegraded 0 u)) := by
  unfold laneLost
  dsimp only
  rw [if_neg (by simp [present, lane, locked, -BitVec.getLsbD_eq_getElem])]
  rfl

/-- Whatever follows the note stays at the eyelet and keeps its lanes. -/
theorem laneLost_after {e w : Nat} {tx : Bool} {s : State} (present : (eyeOf s e).state ≠ .absent) (lane : w < 9)
    (locked : (dirOfEye (eyeOf s e) tx).lost.getLsbD w = false) : EyesMove [e] (laneNoted e tx w s) (laneLost e tx w s) ∧
      ∀ tx', dirOfEye (eyeOf (laneLost e tx w s) e) tx' = dirOfEye (eyeOf (laneNoted e tx w s) e) tx' := by
  rw [laneLost_eq present lane locked]
  dsimp only
  split
  · exact ⟨.refl _ _, fun _ => rfl⟩
  · split
    · obtain ⟨moves, -, kept⟩ := eyeDown_moves e 0 (laneNoted e tx w s)
      have posted := EyesMove.post 0x0704 (siteEye e) [e] (eyeDown e 0 (laneNoted e tx w s))
      exact ⟨moves.trans posted.widen, fun tx' => ((posted.lanes e (by simp)).dir tx').trans (kept tx')⟩
    · split
      · have posted := EyesMove.post 0x0703 (siteEye e) [e, lanesOf (loseLane w (dirOfEye (eyeOf s e) tx)).1] (laneNoted e tx w s)
        exact ⟨posted.widen, (posted.lanes e (by simp)).dir⟩
      · have posted := EyesMove.post 0x0703 (siteEye e) [e, lanesOf (loseLane w (dirOfEye (eyeOf s e) tx)).1]
          (countChange (setSite (siteEye e) stDegraded 0 (laneNoted e tx w s)))
        exact ⟨(EyesMove.setSite ..).trans ((EyesMove.countChange _).trans posted).widen, (posted.lanes e (by simp)).dir⟩

/-- A lane lost to a direction whose spare is in use leaves too few, and the eyelet is DOWN (R294, R295). -/
theorem laneLost_down {e w : Nat} {tx : Bool} {s : State} (lane : w < 9) (up : (eyeOf s e).state = .up)
    (locked : (dirOfEye (eyeOf s e) tx).lost.getLsbD w = false) (used : (dirOfEye (eyeOf s e) tx).spareUsed = true)
    (idle : (dirOfEye (eyeOf s e) tx).substituting = false) (few : ((dirOfEye (eyeOf s e) tx).active - 1).toNat < 4) :
    (eyeOf (laneLost e tx w s) e).state = .down ∧ Posted s (laneLost e tx w s) 0x0704 (siteEye e) [e] := by
  have noted := laneNoted_eye e tx w s
  have lost := loseLane_narrow (w := w) used
  rw [lost] at noted
  have narrow : wideEnough (eyeOf (laneNoted e tx w s) e) = false := by
    rw [noted.wide, wideEnough_eq _ tx, dirOfEye_setEyeDir_same, Bool.and_eq_false_iff]
    refine .inl (decide_eq_false ?_)
    simp only [lanesOf, idle, Bool.false_eq_true, if_false, Nat.add_zero]
    exact few.not_ge
  rw [laneLost_eq (by simp [up]) lane locked]
  dsimp only
  rw [lost, if_neg (by simp [up]), if_pos (by simp [narrow])]
  obtain ⟨moves, down, -⟩ := eyeDown_moves e 0 (laneNoted e tx w s)
  have before := (laneNoted_moves e tx w s).trans moves
  exact ⟨((EyesMove.post 0x0704 (siteEye e) [e] (eyeDown e 0 (laneNoted e tx w s))).lanes e (by simp)).1.trans down,
    (posted_post 0x0704 (siteEye e) [e] (eyeDown e 0 (laneNoted e tx w s))).since before.records before.time⟩

/-- With the spare free, the eyelet stands (R295). -/
theorem laneLost_spare {e w : Nat} {tx : Bool} {s : State} (present : (eyeOf s e).state ≠ .absent) (lane : w < 8)
    (locked : (dirOfEye (eyeOf s e) tx).lost.getLsbD w = false) (unused : (dirOfEye (eyeOf s e) tx).spareUsed = false)
    (idle : (dirOfEye (eyeOf s e) tx).substituting = false) (spare : (dirOfEye (eyeOf s e) tx).lost.getLsbD 8 = false) :
    let y := dirOfEye (eyeOf s e) tx
    dirOfEye (eyeOf (laneLost e tx w s) e) tx =
      { y with lost := y.lost ||| BitVec.ofNat 9 (2 ^ w), active := y.active - 1, substituting := true } ∧
    (eyeOf (laneLost e tx w s) e).state = (eyeOf s e).state := by
  have noted := laneNoted_eye e tx w s
  have lost := loseLane_spare lane unused idle spare
  rw [laneLost_eq present (by omega) locked]
  dsimp only
  rw [lost, if_pos (by simp)]
  rw [lost] at noted
  exact ⟨(noted.dir tx).trans (dirOfEye_setEyeDir_same ..), noted.1.trans (setEyeDir_state ..)⟩

theorem rejoinLane_lost (w : Nat) (y : EyeDir) : (rejoinLane w y).lost = y.lost &&& ~~~(BitVec.ofNat 9 (2 ^ w)) := by
  unfold rejoinLane
  dsimp only
  split
  · rfl
  · split <;> rfl

/-- With W0 to W7 in lock the spare is idle. -/
theorem rejoinLane_idle {w : Nat} {y : EyeDir} (locked : (y.lost &&& ~~~(BitVec.ofNat 9 (2 ^ w))).toNat % 256 = 0) :
    rejoinLane w y = ⟨8, y.lost &&& ~~~(BitVec.ofNat 9 (2 ^ w)), false, false⟩ := by
  unfold rejoinLane
  dsimp only
  rw [if_pos locked]

/-- A lane that rejoins: its direction, then the eyelet's return. -/
theorem laneRejoined_eq {e w : Nat} {tx : Bool} {s : State} (present : (eyeOf s e).state ≠ .absent) (lane : w < 9)
    (lost : (dirOfEye (eyeOf s e) tx).lost.getLsbD w = true) : laneRejoined e tx w s =
      eyeRestored e (eyeReturn e (updEye s e (setEyeDir tx (rejoinLane w (dirOfEye (eyeOf s e) tx))))) := by
  unfold laneRejoined
  dsimp only
  rw [if_neg (by simp [present, lane, lost, -BitVec.getLsbD_eq_getElem])]

theorem laneRejoined_moves {e w : Nat} {tx : Bool} {s : State} (present : (eyeOf s e).state ≠ .absent) (lane : w < 9)
    (lost : (dirOfEye (eyeOf s e) tx).lost.getLsbD w = true) : EyesMove [e] s (laneRejoined e tx w s) ∧
      dirOfEye (eyeOf (laneRejoined e tx w s) e) tx = rejoinLane w (dirOfEye (eyeOf s e) tx) := by
  rw [laneRejoined_eq present lane lost]
  let u := updEye s e (setEyeDir tx (rejoinLane w (dirOfEye (eyeOf s e) tx)))
  obtain ⟨returned, dirs⟩ := eyeReturn_moves e u
  obtain ⟨restored, lanes⟩ := eyeRestored_moves e (eyeReturn e u)
  refine ⟨(EyesMove.updEye e _ s).trans (returned.trans restored), ?_⟩
  rw [lanes.dir, dirs, eyeOf_updEye_same, dirOfEye_setEyeDir_same]

/-- The last lane to come back to an eyelet that is UP posts 0x0705 (R295). -/
theorem laneRejoined_posted {e w : Nat} {tx : Bool} {s : State} (up : (eyeOf s e).state = .up) (lane : w < 9)
    (last : (dirOfEye (eyeOf s e) tx).lost = BitVec.ofNat 9 (2 ^ w)) (lost : (dirOfEye (eyeOf s e) tx).lost.getLsbD w = true)
    (other : (dirOfEye (eyeOf s e) !tx).lost = 0) : Posted s (laneRejoined e tx w s) 0x0705 (siteEye e) [e] := by
  let u := updEye s e (setEyeDir tx (rejoinLane w (dirOfEye (eyeOf s e) tx)))
  have eye : eyeOf u e = setEyeDir tx (rejoinLane w (dirOfEye (eyeOf s e) tx)) (eyeOf s e) := eyeOf_updEye_same ..
  have still : (eyeOf u e).state = .up := by rw [eye, setEyeDir_state, up]
  have back : allBack (eyeOf u e) = true := by
    rw [allBack_eq _ tx, eye, dirOfEye_setEyeDir_same, dirOfEye_setEyeDir_other, rejoinLane_lost, other, last, BitVec.and_not_self]
    rfl
  rw [laneRejoined_eq (by simp [up]) lane lost, eyeReturn_of_up still]
  exact eyeRestored_posted back still

/-- The spare has taken the lane's place (R295). -/
theorem spareComplete_spec {e : Nat} {tx : Bool} {s : State} (substituting : (dirOfEye (eyeOf s e) tx).substituting = true) :
    let y := dirOfEye (eyeOf s e) tx
    let t := spareComplete e tx s
    Posted s t 0x0702 (siteEye e) [e, if tx then 0 else 1] ∧
      dirOfEye (eyeOf t e) tx = { y with substituting := false, spareUsed := true, active := y.active + 1 } ∧ t.mem = s.mem := by
  let y := dirOfEye (eyeOf s e) tx
  let u := updEye s e (setEyeDir tx { y with substituting := false, spareUsed := true, active := y.active + 1 })
  have done : spareComplete e tx s = post 0x0702 (siteEye e) [e, if tx then 0 else 1] u := if_neg (by simp [substituting])
  have after := EyesMove.post 0x0702 (siteEye e) [e, if tx then 0 else 1] u
  dsimp only
  rw [done]
  refine ⟨posted_post 0x0702 (siteEye e) [e, if tx then 0 else 1] u, ?_, after.mem⟩
  rw [(after.lanes e (by simp)).dir, eyeOf_updEye_same, dirOfEye_setEyeDir_same]

/-! ### Flits -/

theorem flitReceived_up {e : Nat} {s : State} (up : (eyeOf s e).state = .up) (f : List Byte) :
    flitReceived e f s = updEye s e (flitIn f) := by simp [flitReceived, up]

theorem flitNak_up {e : Nat} {s : State} (up : (eyeOf s e).state = .up) (ack : BitVec 12) :
    flitNak e ack s = updEye s e (replayFrom ack) := by simp [flitNak, up]

/-- An update is what it makes of the eyelet as it stands. -/
theorem updEye_congr {e : Nat} {s : State} {f g : Eyelet → Eyelet} (h : f (eyeOf s e) = g (eyeOf s e)) : updEye s e f = updEye s e g := by
  have entry : SMap.upd {} s.lacing.eyes e f = SMap.upd {} s.lacing.eyes e g := by
    unfold SMap.upd
    exact congrArg (SMap.set {} s.lacing.eyes e) h
  unfold updEye
  rw [entry]

/-- An ACK that is taken leaves what was received. -/
theorem freeAck_frame (ack : BitVec 12) (x : Eyelet) : (freeAck ack x).rxSeq = x.rxSeq ∧ (freeAck ack x).stream = x.stream := by
  unfold freeAck
  dsimp only
  split <;> exact ⟨rfl, rfl⟩

theorem takeAck_frame (ack : BitVec 12) (x : Eyelet) : (takeAck ack x).rxSeq = x.rxSeq ∧ (takeAck ack x).stream = x.stream := by
  obtain ⟨-, -, -, seq, stream⟩ := pumpFlits_frame ((freeAck ack x).txq.length / 248) (freeAck ack x)
  exact ⟨seq.trans (freeAck_frame ack x).1, stream.trans (freeAck_frame ack x).2⟩

theorem replayFrom_frame (ack : BitVec 12) (x : Eyelet) : (replayFrom ack x).rxSeq = x.rxSeq ∧ (replayFrom ack x).stream = x.stream := by
  let y := freeAck ack x
  obtain ⟨-, -, -, seq, stream⟩ := pumpFlits_frame (y.txq.length / 248)
    { y with sent := y.sent ++ y.replay, replays := bump y.replays y.replay.length }
  exact ⟨seq.trans (freeAck_frame ack x).1, stream.trans (freeAck_frame ack x).2⟩

/-- A flit that fails its check is answered with a NAK (R296, R297). -/
theorem flitIn_ill {f : List Byte} (ill : ¬(f.length = 256 ∧ (crc32c (f.take 252)).toNat = fieldAt f 252 4)) (x : Eyelet) :
    flitIn f x = { x with sent := x.sent ++ [flitOf x.txSeq.toNat (x.rxSeq - 1).toNat 1 true []] } := by
  unfold flitIn
  dsimp only
  rw [if_pos (by simpa [or_iff_not_imp_left] using ill)]
  rfl

/-- A data flit in sequence is delivered (R296, R297). -/
theorem flitIn_good {f : List Byte} {x : Eyelet} (good : f.length = 256 ∧ (crc32c (f.take 252)).toNat = fieldAt f 252 4)
    (kind : bits (fieldAt f 2 2) 13 3 = 0) (seq : bits (fieldAt f 0 2) 0 12 = x.rxSeq.toNat) :
    (flitIn f x).rxSeq = x.rxSeq + 1 ∧ (flitIn f x).stream = x.stream ++ (f.drop 4).take 248 := by
  unfold flitIn
  dsimp only
  rw [if_neg (by simp [good]), if_pos kind, if_neg (by simp [seq])]
  split
  · exact replayFrom_frame ..
  · exact takeAck_frame ..

/-- A NAK resends what its ACK does not cover (R297). -/
theorem replayFrom_idle {ack : BitVec 12} {x : Eyelet} (idle : x.txq = []) (held : (ack - x.acked).toNat ≤ x.replay.length) :
    replayFrom ack x =
      let rest := x.replay.drop (ack - x.acked).toNat
      { x with replay := rest, acked := ack, sent := x.sent ++ rest, replays := x.replays + BitVec.ofNat 64 rest.length } := by
  unfold replayFrom freeAck
  dsimp only
  rw [if_pos held]
  exact pumped_of_empty idle

/-! ### Inlets -/

/-- Steps at different eyelets: each eyelet's own is taken where the steps before it left the eyelet, and those after it keep what it leaves. -/
theorem each_eye {f : Nat → State → State} {l : List Nat} {e : Nat} (moves : ∀ j s, EyesMove [j] s (f j s)) (nodup : l.Nodup) (mem : e ∈ l)
    (s : State) : ∃ E u, E ⊆ l ∧ e ∉ E ∧ EyesMove E s u ∧ SameLanes (eyeOf (f e u) e) (eyeOf (each l f s) e) := by
  obtain ⟨a, b, rfl⟩ := List.append_of_mem mem
  have step : ∀ (c : List Nat) (s : State), EyesMove c s (each c f s) := fun c s =>
    EyesMove.each (fun j m s => (moves j s).mono (by simpa using m)) s
  rw [List.nodup_append] at nodup
  obtain ⟨-, after, apart⟩ := nodup
  refine ⟨a, each a f s, List.subset_append_left .., fun m => apart e m e (by simp) rfl, step a s, ?_⟩
  have whole : each (a ++ e :: b) f s = each b f (f e (each a f s)) := by simp only [each, List.foldl_append, List.foldl_cons]
  rw [whole]
  exact (step b _).lanes e (List.nodup_cons.mp after).1

theorem halfEyes_nodup (h : Nat) : (halfEyes h).Nodup := List.nodup_range.map fun a b eq => by omega

theorem mem_halfEyes {h e : Nat} : e ∈ halfEyes h ↔ e / 16 = h := by
  simp only [halfEyes, List.mem_map, List.mem_range]
  exact ⟨fun ⟨i, small, eq⟩ => by omega, fun eq => ⟨e % 16, by omega, by omega⟩⟩

theorem halfEyes_small {h : Nat} (two : h < 2) : ∀ e ∈ halfEyes h, e < 32 := fun e m => by have := mem_halfEyes.mp m; omega

theorem setRelayed_getLsbD {h : Nat} (two : h < 2) (b : Bool) (s : State) : (setRelayed h b s).lacing.relayed.getLsbD h = b := by
  obtain rfl | rfl : h = 0 ∨ h = 1 := by omega
  all_goals cases b <;> simp [setRelayed]

/-- The half of an inlet that is dark itself is dark when its other inlet is. -/
theorem darkHalf_of_down {i : Nat} {s : State} (down : siteUp s (siteInlet i) = false) :
    darkHalf s (i / 2) = !siteUp s (siteInlet (2 * (i / 2) + 1 - i % 2)) := by
  unfold darkHalf
  rcases Nat.mod_two_eq_zero_or_one i with even | odd
  · rw [show 2 * (i / 2) = i by omega, down, even]
    simp
  · rw [show 2 * (i / 2) + 1 = i by omega, down, odd, show 2 * (i / 2) = i - 1 by omega]
    simp

theorem darkHalf_of_up {i : Nat} {s : State} (up : siteUp s (siteInlet i) = true) : darkHalf s (i / 2) = false := by
  unfold darkHalf
  rcases Nat.mod_two_eq_zero_or_one i with even | odd
  · simp [show 2 * (i / 2) = i by omega, up]
  · simp [show 2 * (i / 2) + 1 = i by omega, up]

/-- An inlet's site set and its record posted. -/
def inletNoted (code i state reason : Nat) (s : State) : State :=
  post code (siteInlet i) [i] (countChange (setSite (siteInlet i) state reason s))

theorem inletNoted_mem (code i state reason : Nat) (s : State) : (inletNoted code i state reason s).mem = s.mem := post_mem ..
theorem inletNoted_lacing (code i state reason : Nat) (s : State) : (inletNoted code i state reason s).lacing = s.lacing := post_lacing ..
theorem inletNoted_site (code i state reason j : Nat) (s : State) :
    siteOf (inletNoted code i state reason s) j = siteOf (setSite (siteInlet i) state reason s) j := by
  unfold siteOf inletNoted
  rw [post_map]
  rfl
theorem inletNoted_posted (code i state reason : Nat) (s : State) : Posted s (inletNoted code i state reason s) code (siteInlet i) [i] :=
  posted_post code (siteInlet i) [i] (countChange (setSite (siteInlet i) state reason s))

/-- An eyelet of a half that goes dark falls if it runs. -/
def darken (e : Nat) (s : State) : State :=
  if (eyeOf s e).state == .up || (eyeOf s e).state == .training then eyeDown e 6 s else s

theorem darken_moves (e : Nat) (s : State) : EyesMove [e] s (darken e s) := by
  unfold darken
  split
  · exact (eyeDown_moves e 6 s).1
  · exact .refl _ s

theorem darken_fallen (e : Nat) (s : State) : (eyeOf (darken e s) e).state ≠ .up ∧ (eyeOf (darken e s) e).state ≠ .training := by
  unfold darken
  split
  · simp [(eyeDown_moves e 6 s).2.1]
  · simp_all

/-- An inlet whose light is lost (R17, R18). -/
theorem inletLost_eq {i : Nat} {s : State} (up : siteUp s (siteInlet i) = true) : inletLost i s =
    let u := inletNoted 0x0706 i stFault 6 s
    if siteUp s (siteInlet (2 * (i / 2) + 1 - i % 2)) then u else each (halfEyes (i / 2)) darken (setRelayed (i / 2) true u) := by
  have down : siteUp (inletNoted 0x0706 i stFault 6 s) (siteInlet i) = false := by
    unfold siteUp
    rw [inletNoted_site, siteOf_setSite_same]
    rfl
  have other : siteUp (inletNoted 0x0706 i stFault 6 s) (siteInlet (2 * (i / 2) + 1 - i % 2)) =
      siteUp s (siteInlet (2 * (i / 2) + 1 - i % 2)) := by
    unfold siteUp
    rw [inletNoted_site, siteOf_setSite_other _ _ _ (by unfold siteInlet; omega)]
  have half := darkHalf_of_down down
  rw [other] at half
  unfold inletLost
  rw [if_neg (by simp [up])]
  change (if darkHalf (inletNoted 0x0706 i stFault 6 s) (i / 2) then each (halfEyes (i / 2)) darken _ else _) = _
  rw [half]
  cases siteUp s (siteInlet (2 * (i / 2) + 1 - i % 2)) <;> rfl

/-- An inlet whose light returns (R19). -/
theorem inletRestored_eq {i : Nat} {s : State} (down : (siteOf s (siteInlet i)).state = 2) (reason : (siteOf s (siteInlet i)).reason = 6) :
    inletRestored i s = each (halfEyes (i / 2)) eyeRelit (setRelayed (i / 2) false (inletNoted 0x0707 i stPresent 0 s)) := by
  unfold inletRestored
  dsimp only
  rw [if_neg (by simp [down, reason])]
  rfl

/-- A light inlet lost is posted and reads FAULT; its half falls when the other inlet is dark too (R17, R18). -/
theorem inletLost_spec {i : Nat} {s : State} (four : i < 4) (up : siteUp s (siteInlet i) = true) :
    let t := inletLost i s
    let other := siteInlet (2 * (i / 2) + 1 - i % 2)
    Posted s t 0x0706 (siteInlet i) [i] ∧ t.mem = s.mem ∧ (siteOf t (siteInlet i)).state = 2 ∧ (siteOf t (siteInlet i)).reason = 6 ∧
      (siteUp s other = true → t.lacing = s.lacing) ∧
      (siteUp s other = false → t.lacing.relayed.getLsbD (i / 2) = true ∧
        ∀ e, e / 16 = i / 2 → (eyeOf t e).state ≠ .up ∧ (eyeOf t e).state ≠ .training) := by
  let u := inletNoted 0x0706 i stFault 6 s
  have site : siteOf u (siteInlet i) = { siteOf s (siteInlet i) with state := 2, reason := 6 } := by
    rw [inletNoted_site, siteOf_setSite_same]
    rfl
  have posted := inletNoted_posted 0x0706 i stFault 6 s
  have relayed : RecordsKept u (setRelayed (i / 2) true u) := .of_eq rfl rfl
  dsimp only
  rw [inletLost_eq up]
  dsimp only
  split
  case isTrue lit => exact ⟨posted, inletNoted_mem .., by rw [site], by rw [site], fun _ => inletNoted_lacing .., fun h => absurd lit (by simp [h])⟩
  case isFalse unlit =>
    have moves : EyesMove (halfEyes (i / 2)) (setRelayed (i / 2) true u) (each (halfEyes (i / 2)) darken (setRelayed (i / 2) true u)) :=
      .each (fun j m s => (darken_moves j s).mono (by simpa using m)) _
    have same : siteOf (each (halfEyes (i / 2)) darken (setRelayed (i / 2) true u)) (siteInlet i) = siteOf u (siteInlet i) :=
      moves.inlet (halfEyes_small (by omega)) i
    refine ⟨posted.keep (relayed.trans moves.records), moves.mem.trans (inletNoted_mem ..), by rw [same, site], by rw [same, site],
      fun h => absurd h unlit, fun _ => ⟨?_, fun e half => ?_⟩⟩
    · rw [moves.relayed]
      exact setRelayed_getLsbD (by omega) true u
    · obtain ⟨E, v, -, -, -, lanes⟩ := each_eye darken_moves (halfEyes_nodup _) (mem_halfEyes.mpr half) (setRelayed (i / 2) true u)
      rw [lanes.1]
      exact darken_fallen e v

/-- Light restored is posted, and the eyelets of the half that trained are UP again (R19). -/
theorem inletRestored_spec {i : Nat} {s : State} (four : i < 4) (down : (siteOf s (siteInlet i)).state = 2)
    (reason : (siteOf s (siteInlet i)).reason = 6) :
    let t := inletRestored i s
    Posted s t 0x0707 (siteInlet i) [i] ∧ t.mem = s.mem ∧ (siteOf t (siteInlet i)).state = 1 ∧ t.lacing.relayed.getLsbD (i / 2) = false ∧
      ∀ e, e / 16 = i / 2 → (eyeOf s e).state = .down → wideEnough (eyeOf s e) = true → (siteOf s (siteEye e)).reason = 6 →
        (eyeOf t e).state = .up := by
  let u := inletNoted 0x0707 i stPresent 0 s
  let v := setRelayed (i / 2) false u
  have site : siteOf u (siteInlet i) = { siteOf s (siteInlet i) with state := 1, reason := 0 } := by
    rw [inletNoted_site, siteOf_setSite_same]
    rfl
  have relayed : RecordsKept u v := .of_eq rfl rfl
  have moves : EyesMove (halfEyes (i / 2)) v (each (halfEyes (i / 2)) eyeRelit v) :=
    .each (fun j m s => (eyeRelit_moves j s).mono (by simpa using m)) _
  have same : siteOf (each (halfEyes (i / 2)) eyeRelit v) (siteInlet i) = siteOf u (siteInlet i) := moves.inlet (halfEyes_small (by omega)) i
  dsimp only
  rw [inletRestored_eq down reason]
  refine ⟨(inletNoted_posted 0x0707 i stPresent 0 s).keep (relayed.trans moves.records), moves.mem.trans (inletNoted_mem ..),
    by rw [same, site], ?_, fun e half fell wide dark => ?_⟩
  · rw [moves.relayed]
    exact setRelayed_getLsbD (by omega) false u
  · obtain ⟨E, w, sub, apart, before, lanes⟩ := each_eye eyeRelit_moves (halfEyes_nodup _) (mem_halfEyes.mpr half) v
    have small : ∀ j ∈ E, j < 32 := fun j m => halfEyes_small (by omega) j (sub m)
    have eye : eyeOf v e = eyeOf s e := by
      unfold eyeOf
      rw [show v.lacing.eyes = u.lacing.eyes from rfl, inletNoted_lacing]
    have kept : SameLanes (eyeOf s e) (eyeOf w e) := eye ▸ before.lanes e apart
    have lit : darkHalf w (e / 16) = false := by
      rw [half, before.dark small]
      exact darkHalf_of_up (by unfold siteUp; rw [show siteOf v (siteInlet i) = _ from site]; rfl)
    have own : siteOf w (siteEye e) = siteOf s (siteEye e) := by
      rw [before.sites _ fun j m eq => apart (by have : e = j := Nat.add_left_cancel eq; rwa [this])]
      exact (inletNoted_site ..).trans (siteOf_setSite_other _ _ _ (by unfold siteEye siteInlet; omega))
    rw [lanes.1]
    exact eyeRelit_up (kept.1.trans fell) (kept.wide.trans wide) lit (by rw [own, dark])

/-! ### The statement -/

/-- Settles O43. What follows the note of a lost lane, the return of an eyelet and the light of an inlet move eyelets only (`EyesMove`); over a
half, each eyelet's own step is found among the others' (`each_eye`). -/
theorem eyeletsLanesFlitsAndInlets : Obligations.EyeletsLanesFlitsAndInlets := by
  refine fun s => ⟨fun e tx w present lane => ⟨fun locked => ?lost, fun lost => ?rejoined⟩, fun e tx substituting => ?spare,
    fun e f up => ⟨fun ill => ?ill, fun good kind seq => ?good⟩, fun e ack up idle held => ?nak, fun i => ⟨fun up => ?dark, fun down reason => ?light⟩⟩
  case lost =>
    refine exec_next_exists (f := laneLost e.toNat tx w) rfl ?_
    obtain ⟨after, dirs⟩ := laneLost_after (s := { s with pending := [] }) present lane locked
    have posted := (laneNoted_posted e.toNat tx w { s with pending := [] }).keep after.records
    have mem := ((laneNoted_moves e.toNat tx w _).trans after).mem
    have lost := congrArg EyeDir.lost ((dirs tx).trans ((laneNoted_eye e.toNat tx w { s with pending := [] }).dir tx))
    rw [dirOfEye_setEyeDir_same, loseLane_lost] at lost
    have spare := laneLost_spare (e := e.toNat) (w := w) (tx := tx) (s := { s with pending := [] }) present
    have down := laneLost_down (e := e.toNat) (w := w) (tx := tx) (s := { s with pending := [] }) lane
    generalize laneLost e.toNat tx w { s with pending := [] } = t at *
    exact ⟨mem, posted, lost, fun small unused idle open_ => spare small locked unused idle open_,
      fun up used idle few => down up locked used idle few⟩
  case rejoined =>
    refine exec_next_exists (f := laneRejoined e.toNat tx w) rfl ?_
    obtain ⟨moves, dir⟩ := laneRejoined_moves (s := { s with pending := [] }) present lane lost
    have posted := laneRejoined_posted (e := e.toNat) (w := w) (tx := tx) (s := { s with pending := [] })
    generalize laneRejoined e.toNat tx w { s with pending := [] } = t at *
    exact ⟨moves.mem, (congrArg EyeDir.lost dir).trans (rejoinLane_lost ..), fun locked => dir.trans (rejoinLane_idle locked),
      fun up last other => posted up lane last lost other⟩
  case spare =>
    refine exec_next_exists (f := spareComplete e.toNat tx) rfl ?_
    obtain ⟨posted, dir, mem⟩ := spareComplete_spec (s := { s with pending := [] }) substituting
    generalize spareComplete e.toNat tx { s with pending := [] } = t at *
    exact ⟨posted, dir, mem⟩
  case ill =>
    refine exec_eq_next (f := flitReceived e.toNat f) rfl ((flitReceived_up (s := { s with pending := [] }) up f).trans ?_) rfl
    exact updEye_congr (s := { s with pending := [] }) (flitIn_ill ill _)
  case good =>
    obtain ⟨seq', stream⟩ := flitIn_good good kind seq
    refine ⟨_, exec_eq_next (f := flitReceived e.toNat f) (t := updEye s e.toNat (flitIn f)) rfl
      (flitReceived_up (s := { s with pending := [] }) up f) rfl, ?_⟩
    rw [eyeOf_updEye_same]
    exact ⟨seq', rfl, stream⟩
  case nak =>
    refine exec_eq_next (f := flitNak e.toNat ack) rfl ((flitNak_up (s := { s with pending := [] }) up ack).trans ?_) rfl
    exact updEye_congr (s := { s with pending := [] }) (replayFrom_idle idle held)
  case dark =>
    refine exec_next_exists (f := inletLost i.toNat) rfl ?_
    obtain ⟨posted, mem, state, reason, lit, dark⟩ := inletLost_spec (s := { s with pending := [] }) i.isLt up
    generalize inletLost i.toNat { s with pending := [] } = t at *
    exact ⟨posted, mem, state, reason, lit, dark⟩
  case light =>
    refine exec_next_exists (f := inletRestored i.toNat) rfl ?_
    obtain ⟨posted, mem, state, relayed, eyes⟩ := inletRestored_spec (s := { s with pending := [] }) i.isLt down reason
    generalize inletRestored i.toNat { s with pending := [] } = t at *
    exact ⟨posted, mem, state, relayed, eyes⟩

end Sys2Proof.Machine

/-! PROOFS. Host links train, fail and reset (O47).

A record may raise a vector of Port A and an interrupt source, and leaves the ports and queues of the host port alone. Discarding every queue
reaches each running queue once: what has entered DISCARD is not entered again. -/

namespace Sys2Proof.Machine

/-! ### What records leave of the host port -/

/-- Ports and queues of the host port stand. -/
structure PortsKept (s t : State) : Prop where
  queues : t.host.queues = s.host.queues
  portA : t.host.portA = s.host.portA
  portB : t.host.portB = s.host.portB

theorem PortsKept.port {s t : State} (h : PortsKept s t) (p : PcieId) : portOf t p = portOf s p := by
  cases p
  · exact h.portA
  · exact h.portB

theorem PortsKept.queue {s t : State} (h : PortsKept s t) (q : Nat) : queueOf t q = queueOf s q := by unfold queueOf; rw [h.queues]

theorem PortsKept.raised {s t : State} (v i : Nat) (host : t.host = s.host) : PortsKept s (raiseSource i (raiseVector v t)) := by
  suffices h : PortsKept s (raiseVector v t) by constructor <;> rw [raiseSource_host] <;> [exact h.queues; exact h.portA; exact h.portB]
  unfold raiseVector
  split
  · constructor <;> rw [host]
  · split <;> constructor <;> rw [host]

theorem PortsKept.post (code site : Nat) (p : List Nat) (s : State) : PortsKept s (post code site p s) := by
  unfold Machine.post postBy
  dsimp only
  split
  · exact .raised 256 5 rfl
  · exact ⟨rfl, rfl, rfl⟩

/-! ### Links -/

@[simp] theorem portOf_setPort (p : PcieId) (x : PciePort) (s : State) : portOf (setPort p x s) p = x := by cases p <;> rfl
@[simp] theorem setPort_map (p : PcieId) (x : PciePort) (s : State) : (setPort p x s).map = s.map := by cases p <;> rfl
@[simp] theorem setPort_mem (p : PcieId) (x : PciePort) (s : State) : (setPort p x s).mem = s.mem := by cases p <;> rfl
@[simp] theorem setPort_queues (p : PcieId) (x : PciePort) (s : State) : (setPort p x s).host.queues = s.host.queues := by cases p <;> rfl
theorem RecordsKept.setPort (p : PcieId) (x : PciePort) (s : State) : RecordsKept s (setPort p x s) := by cases p <;> exact .of_eq rfl rfl
theorem setPort_time (p : PcieId) (x : PciePort) (s : State) : (setPort p x s).time = s.time := by cases p <;> rfl

/-- A port's site changes in the map alone. -/
theorem movePort_frame (p : PcieId) (state : Nat) (s : State) :
    ∃ m, movePort p state s = { s with map := m } ∧ (state < 8 → (siteOf { s with map := m } (sitePort p)).state = BitVec.ofNat 3 state) := by
  unfold movePort
  split
  case isTrue h => exact ⟨s.map, rfl, fun small => by rw [← h]; simp⟩
  case isFalse => exact ⟨_, rfl, fun _ => congrArg SiteState.state (siteOf_setSite_same (sitePort p) state 0 s)⟩

/-- A port as it stands, its site moved, and the record: what training and failing share (R351). -/
def portNoted (p : PcieId) (x : PciePort) (state code : Nat) (payload : List Nat) (s : State) : State :=
  post code (sitePort p) payload (movePort p state (setPort p x s))

theorem portNoted_spec (p : PcieId) (x : PciePort) {state : Nat} (small : state < 8) (code : Nat) (payload : List Nat) (s : State) :
    let t := portNoted p x state code payload s
    t.mem = s.mem ∧ portOf t p = x ∧ t.host.queues = s.host.queues ∧ (siteOf t (sitePort p)).state = BitVec.ofNat 3 state ∧
      Posted s t code (sitePort p) payload := by
  obtain ⟨m, moved, site⟩ := movePort_frame p state (setPort p x s)
  have noted : portNoted p x state code payload s = post code (sitePort p) payload { setPort p x s with map := m } := by
    unfold portNoted
    rw [moved]
  have host := PortsKept.post code (sitePort p) payload { setPort p x s with map := m }
  dsimp only
  rw [noted]
  refine ⟨(post_mem ..).trans (setPort_mem ..), (host.port p).trans (portOf_setPort p x s), host.queues.trans (setPort_queues ..), ?_,
    (posted_post code (sitePort p) payload { setPort p x s with map := m }).since ((RecordsKept.setPort p x s).trans (.of_eq rfl rfl)) (setPort_time ..)⟩
  unfold siteOf
  rw [post_map]
  exact site small

/-- A port trains (R351). -/
theorem linkUp_spec (p : PcieId) (rate width : Nat) (s : State) :
    let t := linkUp p rate width s
    let full : Prop := rate = 64 ∧ width = 16
    t.mem = s.mem ∧ portOf t p = { portOf s p with up := true, rate := rate, width := width } ∧
      (full → (siteOf t (sitePort p)).state = 1 ∧ Posted s t 0x0801 (sitePort p) [portNum p, rate, width]) ∧
      (¬full → (siteOf t (sitePort p)).state = 5 ∧ Posted s t 0x0803 (sitePort p) [portNum p, rate, width]) := by
  let x : PciePort := { portOf s p with up := true, rate := rate, width := width }
  by_cases full : rate = 64 ∧ width = 16
  · have trained : linkUp p rate width s = portNoted p x stPresent 0x0801 [portNum p, rate, width] s := by simp [linkUp, portNoted, full, x]
    obtain ⟨mem, port, -, site, posted⟩ := portNoted_spec p x (state := stPresent) (by decide) 0x0801 [portNum p, rate, width] s
    dsimp only
    rw [trained]
    exact ⟨mem, port, fun _ => ⟨site, posted⟩, fun short => absurd full short⟩
  · have trained : linkUp p rate width s = portNoted p x stDegraded 0x0803 [portNum p, rate, width] s := by simp [linkUp, portNoted, full, x]
    obtain ⟨mem, port, -, site, posted⟩ := portNoted_spec p x (state := stDegraded) (by decide) 0x0803 [portNum p, rate, width] s
    dsimp only
    rw [trained]
    exact ⟨mem, port, fun whole => absurd whole full, fun _ => ⟨site, posted⟩⟩

theorem linkDown_eq {p : PcieId} {s : State} (up : (portOf s p).up = true) : linkDown p s =
    let u := portNoted p { portOf s p with up := false, rate := 0, width := 0 } stFault 0x0802 [portNum p] s
    if p == .portA && endpointA u then discardAll 0x0802 u else u := by
  unfold linkDown
  rw [if_neg (by simp [up])]
  rfl

/-! ### Every queue discards -/

theorem SMap.mem_keys_of_get {α : Type} {d : α} {m : SMap α} {k : Nat} (h : SMap.get d m k ≠ d) : k ∈ m.map (·.1) := by
  unfold SMap.get at h
  cases found : SMap.find m k with
  | none => exact absurd (by rw [found]; rfl) h
  | some v =>
    obtain ⟨l, r, eq, -⟩ := List.lookup_eq_some_iff.mp found
    simp [eq]

/-- A queue's discard is its own. -/
theorem discardQueue_frame (q code : Nat) (s : State) : ∃ qs, discardQueue q code s = { s with host := { s.host with queues := qs } } := by
  unfold discardQueue
  split
  · exact ⟨_, rfl⟩
  · exact ⟨s.host.queues, rfl⟩

theorem queueOf_discardQueue_other {q j : Nat} (code : Nat) (s : State) (h : j ≠ q) : queueOf (discardQueue q code s) j = queueOf s j := by
  unfold discardQueue
  split
  · exact queueOf_updQueue_other _ _ h
  · rfl

theorem discardQueue_of_discard {q : Nat} (code : Nat) {s : State} (h : (queueOf s q).state = .discard) : discardQueue q code s = s := by
  simp [discardQueue, h]

/-- The discard of a queue that runs (R348). -/
theorem discardQueue_run {q : Nat} (code : Nat) {s : State} (h : (queueOf s q).state = .run) : Discarded s (discardQueue q code s) q code := by
  unfold discardQueue
  rw [if_pos (by simp [h])]
  unfold Discarded
  rw [queueOf_updQueue_same]
  exact ⟨rfl, rfl, rfl, rfl, rfl⟩

theorem discardAll_frame (code : Nat) (s : State) : ∃ qs, discardAll code s = { s with host := { s.host with queues := qs } } := by
  refine each_keeps (fun t => ∃ qs, t = { s with host := { s.host with queues := qs } }) _ _ (fun q _ t h => ?_) s ⟨_, rfl⟩
  obtain ⟨qs, rfl⟩ := h
  exact discardQueue_frame ..

/-- A queue that runs is discarded once, however often its number stands in the list. -/
theorem discardAll_run {q : Nat} (code : Nat) {s : State} (run : (queueOf s q).state = .run) : Discarded s (discardAll code s) q code := by
  have listed : q ∈ queueIds s := SMap.mem_keys_of_get (d := ({} : IngestQueue)) fun h => by
    have idle : (queueOf s q).state = .disabled := congrArg IngestQueue.state h
    simp [run] at idle
  obtain ⟨a, b, split, first⟩ := List.eq_append_cons_of_mem listed
  let step := fun j s => discardQueue j code s
  have before : queueOf (each a step s) q = queueOf s q :=
    each_same (queueOf · q) a step (fun j m s => queueOf_discardQueue_other code s fun eq => first (eq ▸ m)) s
  have own : Discarded s (discardQueue q code (each a step s)) q code := by
    have done := discardQueue_run code (by rw [before, run] : (queueOf (each a step s) q).state = .run)
    unfold Discarded at done ⊢
    rwa [before] at done
  have after : queueOf (each b step (discardQueue q code (each a step s))) q = queueOf (discardQueue q code (each a step s)) q := by
    refine each_keeps (fun t => queueOf t q = queueOf (discardQueue q code (each a step s)) q) b step (fun j _ t same => ?_) _ rfl
    by_cases self : q = j
    · subst self
      dsimp only [step]
      rw [discardQueue_of_discard code (by rw [same]; exact own.1), same]
    · exact (queueOf_discardQueue_other code t self).trans same
  have whole : discardAll code s = each b step (discardQueue q code (each a step s)) := by
    unfold discardAll
    rw [split]
    simp only [each, List.foldl_append, List.foldl_cons, step]
  unfold Discarded at own ⊢
  rw [whole, after]
  exact own

/-- Every queue of a state that stands for s discards. -/
theorem discardAll_spec {s u : State} (code : Nat) (queues : u.host.queues = s.host.queues) :
    (discardAll code u).mem = u.mem ∧ (discardAll code u).map = u.map ∧ (∀ p, portOf (discardAll code u) p = portOf u p) ∧
      RecordsKept u (discardAll code u) ∧ ∀ q, (queueOf s q).state = .run → Discarded s (discardAll code u) q code := by
  obtain ⟨qs, frame⟩ := discardAll_frame code u
  have same : ∀ q, queueOf u q = queueOf s q := fun q => by unfold queueOf; rw [queues]
  refine ⟨by rw [frame], by rw [frame], fun p => by rw [frame]; cases p <;> rfl, by rw [frame]; exact .of_eq rfl rfl, fun q run => ?_⟩
  have done := discardAll_run code (by rw [same, run] : (queueOf u q).state = .run)
  unfold Discarded at done ⊢
  rwa [same] at done

/-! ### The resets of Port A -/

theorem portAReset_spec {s : State} (kind : Nat) (endpoint : endpointA s = true) :
    let t := portAReset kind s
    t.mem = s.mem ∧ Posted s t 0x0820 84 [kind] ∧ ∀ q, (queueOf s q).state = .run → Discarded s t q 0x0820 := by
  have done : portAReset kind s = discardAll 0x0820 (post 0x0820 84 [kind] s) := if_pos endpoint
  obtain ⟨mem, -, -, records, discards⟩ := discardAll_spec (s := s) 0x0820 (PortsKept.post 0x0820 84 [kind] s).queues
  dsimp only
  rw [done]
  exact ⟨mem.trans (post_mem ..), (posted_post 0x0820 84 [kind] s).keep records, discards⟩

theorem portAReset_root {s : State} (kind : Nat) (root : endpointA s = false) : portAReset kind s = s := if_neg (by simp [root])

theorem linkDown_spec {p : PcieId} {s : State} (up : (portOf s p).up = true) :
    let t := linkDown p s
    t.mem = s.mem ∧ (portOf t p).up = false ∧ (siteOf t (sitePort p)).state = 2 ∧ Posted s t 0x0802 (sitePort p) [portNum p] ∧
      (p = .portA → endpointA s = true → ∀ q, (queueOf s q).state = .run → Discarded s t q 0x0802) := by
  let x : PciePort := { portOf s p with up := false, rate := 0, width := 0 }
  obtain ⟨mem, port, queues, site, posted⟩ := portNoted_spec p x (state := stFault) (by decide) 0x0802 [portNum p] s
  have done := linkDown_eq up
  dsimp only at done ⊢
  rw [done]
  change portOf (portNoted p x stFault 0x0802 [portNum p] s) p = x at port
  generalize portNoted p x stFault 0x0802 [portNum p] s = u at *
  obtain ⟨mem', map', port', records, discards⟩ := discardAll_spec (s := s) 0x0802 queues
  split
  case isTrue =>
    refine ⟨mem'.trans mem, by rw [port', port], ?_, posted.keep records, fun _ _ => discards⟩
    unfold siteOf
    rw [map']
    exact site
  case isFalse root =>
    refine ⟨mem, by rw [port], site, posted, fun a endpoint => absurd ?_ root⟩
    subst a
    have still : (portOf s .portA).root = false := by simpa [endpointA, portOf] using endpoint
    have kept : (portOf u .portA).root = false := by rw [port]; exact still
    simpa [endpointA, portOf] using kept

/-! ### Errors that a root port logs -/

theorem aerLogged_endpoint {p : PcieId} {s : State} (endpoint : (portOf s p).root = false) (rid status : Nat) : aerLogged p rid status s = s :=
  if_neg (by simp [endpoint])

theorem aerLogged_root {p : PcieId} {s : State} (root : (portOf s p).root = true) (rid status : Nat) :
    let t := aerLogged p rid status s
    t.mem = s.mem ∧ t.host.queues = s.host.queues ∧ Posted s t 0x0821 (sitePort p) [portNum p, rid, status] := by
  have done : aerLogged p rid status s = post 0x0821 (sitePort p) [portNum p, rid, status] s := if_pos root
  dsimp only
  rw [done]
  exact ⟨post_mem .., (PortsKept.post ..).queues, posted_post 0x0821 (sitePort p) [portNum p, rid, status] s⟩

/-! ### The wires of INTA to INTD -/

theorem getLsbD_or_two_pow {w n : Nat} (x : BitVec w) (small : n < w) (i : Nat) :
    (x ||| BitVec.ofNat w (2 ^ n)).getLsbD i = (x.getLsbD i || (decide (i = n))) := by
  rw [BitVec.getLsbD_or, BitVec.getLsbD_ofNat, Nat.testBit_two_pow]
  by_cases eq : n = i
  · subst eq; simp [small]
  · simp [eq, Ne.symm eq]

/-- Setting a bit that is set changes nothing. -/
theorem or_two_pow_of_set {w n : Nat} {x : BitVec w} (set : x.getLsbD n = true) : x ||| BitVec.ofNat w (2 ^ n) = x := by
  refine BitVec.eq_of_getLsbD_eq fun i _ => ?_
  rw [getLsbD_or_two_pow x (BitVec.lt_of_getLsbD set)]
  by_cases eq : i = n
  · rw [eq, set, Bool.true_or]
  · simp [eq]

theorem getLsbD_andNot_two_pow {w n : Nat} (x : BitVec w) (small : n < w) : (x &&& ~~~(BitVec.ofNat w (2 ^ n))).getLsbD n = false := by
  rw [BitVec.getLsbD_and, BitVec.getLsbD_not, BitVec.getLsbD_ofNat, Nat.testBit_two_pow]
  simp [small]

/-- A source of the wires that rises (R282). -/
theorem raiseSource_active {i : Nat} {s : State} (active : sourceMode s i = 4 ∨ sourceMode s i = 6) : raiseSource i s =
    deliverSource i { s with cluster := { s.cluster with pend := s.cluster.pend ||| BitVec.ofNat 64 (2 ^ i) } } := by
  unfold raiseSource
  rw [if_pos (by simpa using active)]

theorem setPendingId_cluster (key eiid : Nat) (s : State) :
    (setPendingId key eiid s).cluster.wires = s.cluster.wires ∧ (setPendingId key eiid s).cluster.pend = s.cluster.pend := ⟨rfl, rfl⟩

theorem writeFile_cluster (hart file eiid : Nat) (s : State) :
    (writeFile hart file eiid s).cluster.wires = s.cluster.wires ∧ (writeFile hart file eiid s).cluster.pend = s.cluster.pend := by
  unfold writeFile
  split
  · exact setPendingId_cluster ..
  · exact ⟨rfl, rfl⟩

/-- Whether a source's domain delivers and the source is enabled there (R282). -/
def sourceEnabled (s : State) (i : Nat) : Prop :=
  bits (aplicReg s (sourceDomain s i) 0) 8 1 = 1 ∧ bits (aplicReg s (sourceDomain s i) (0x1E00 + 4 * (i / 32))) (i % 32) 1 = 1

/-- A source that is delivered is pending no longer; one that is not stays as it was. -/
theorem deliverSource_spec {i : Nat} (small : i < 64) (s : State) : (deliverSource i s).cluster.wires = s.cluster.wires ∧
    (sourceEnabled s i → s.cluster.pend.getLsbD i = true → (deliverSource i s).cluster.pend.getLsbD i = false) ∧
    (¬sourceEnabled s i → (deliverSource i s).cluster.pend = s.cluster.pend) := by
  unfold deliverSource
  dsimp only
  split
  case isTrue h =>
    refine ⟨(writeFile_cluster ..).1, fun _ _ => ?_, fun off => absurd ?_ off⟩
    · rw [(writeFile_cluster ..).2]
      exact getLsbD_andNot_two_pow _ small
    · simpa [sourceEnabled] using (Bool.and_eq_true_iff.mp h).2
  case isFalse h => exact ⟨rfl, fun on pending => absurd (by simpa [sourceEnabled, pending, -BitVec.getLsbD_eq_getElem] using on) h, fun _ => rfl⟩

theorem raiseSource_wires {i : Nat} (small : i < 64) (s : State) : (raiseSource i s).cluster.wires = s.cluster.wires := by
  unfold raiseSource
  split
  · exact (deliverSource_spec small _).1
  · rfl

theorem portBInt_low (n : Nat) (s : State) : portBInt n false s = { s with cluster := { s.cluster with
    wires := s.cluster.wires &&& ~~~(BitVec.ofNat 64 (2 ^ (6 + n))),
    pend := if sourceMode s (6 + n) = 6 then s.cluster.pend &&& ~~~(BitVec.ofNat 64 (2 ^ (6 + n))) else s.cluster.pend } } := rfl

/-- A level that rises is noted and, from low, raises the source in its mode (R282). -/
theorem portBInt_high {n : Nat} (four : n < 4) (s : State) :
    let src := 6 + n
    let t := portBInt n true s
    t.cluster.wires = s.cluster.wires ||| BitVec.ofNat 64 (2 ^ src) ∧ t.mem = s.mem ∧ (s.cluster.wires.getLsbD src = true → t = s) ∧
      (s.cluster.wires.getLsbD src = false → (sourceMode s src = 4 ∨ sourceMode s src = 6) →
        (sourceEnabled s src → t.cluster.pend.getLsbD src = false) ∧ (¬sourceEnabled s src → t.cluster.pend.getLsbD src = true)) := by
  let src := 6 + n
  have small : src < 64 := by omega
  let u : State := { s with cluster := { s.cluster with wires := s.cluster.wires ||| BitVec.ofNat 64 (2 ^ src) } }
  dsimp only
  cases was : s.cluster.wires.getLsbD src with
  | true =>
    have stays : portBInt n true s = u := if_pos was
    have same : u = s := by
      have wires := or_two_pow_of_set was
      simp only [u, wires]
    rw [stays]
    exact ⟨rfl, rfl, fun _ => same, fun low => by simp at low⟩
  | false =>
    have rises : portBInt n true s = raiseSource src u := if_neg (by simp [src, was, -BitVec.getLsbD_eq_getElem])
    rw [rises]
    refine ⟨raiseSource_wires small u, raiseSource_mem .., fun high => by simp at high, fun _ active => ?_⟩
    have set := getLsbD_or_two_pow s.cluster.pend small src
    rw [decide_eq_true rfl, Bool.or_true] at set
    rw [raiseSource_active (s := u) active]
    obtain ⟨-, on, off⟩ := deliverSource_spec small { u with cluster := { u.cluster with pend := u.cluster.pend ||| BitVec.ofNat 64 (2 ^ src) } }
    exact ⟨fun enabled => on enabled set, fun disabled => (congrArg (BitVec.getLsbD · src) (off disabled)).trans set⟩

/-! ### The statement -/

/-- Settles O47. A port's change of state is one note (`portNoted_spec`), a discard of every queue reaches each running queue once
(`discardAll_run`), and a rising level goes through the source's delivery (`deliverSource_spec`). -/
theorem hostLinksAndResets : Obligations.HostLinksAndResets := by
  refine fun s => ⟨fun p rate width => ?up, fun p => ⟨fun down => ?stays, fun up => ?down⟩, fun root => ⟨?flr, ?hot⟩,
    fun endpoint => ⟨?reset, ?hotReset⟩, fun p rid status => ⟨fun endpoint => ?silent, fun root => ?logged⟩, fun n => ⟨?low, ?high⟩⟩
  case up =>
    refine exec_next_exists (f := linkUp p rate width) rfl ?_
    have done := linkUp_spec p rate width { s with pending := [] }
    generalize linkUp p rate width { s with pending := [] } = t at *
    exact done
  case stays => exact exec_eq_next (f := linkDown p) rfl (if_pos (by rw [show (portOf { s with pending := [] } p).up = false from down]; rfl)) rfl
  case down =>
    refine exec_next_exists (f := linkDown p) rfl ?_
    obtain ⟨mem, port, site, posted, discards⟩ := linkDown_spec (s := { s with pending := [] }) up
    generalize linkDown p { s with pending := [] } = t at *
    exact ⟨mem, port, site, posted, discards⟩
  case flr => exact exec_eq_next (f := portAReset 0) rfl (portAReset_root (s := { s with pending := [] }) 0 root) rfl
  case hot => exact exec_eq_next (f := portAReset 1) rfl (portAReset_root (s := { s with pending := [] }) 1 root) rfl
  case reset =>
    refine exec_next_exists (f := portAReset 0) rfl ?_
    have reset := portAReset_spec (s := { s with pending := [] }) 0 endpoint
    generalize portAReset 0 { s with pending := [] } = t at *
    exact reset
  case hotReset =>
    refine exec_next_exists (f := portAReset 1) rfl ?_
    have reset := portAReset_spec (s := { s with pending := [] }) 1 endpoint
    generalize portAReset 1 { s with pending := [] } = t at *
    exact reset
  case silent => exact exec_eq_next (f := aerLogged p rid.toNat status.toNat) rfl (aerLogged_endpoint (s := { s with pending := [] }) endpoint ..) rfl
  case logged =>
    refine exec_next_exists (f := aerLogged p rid.toNat status.toNat) rfl ?_
    have done := aerLogged_root (s := { s with pending := [] }) root rid.toNat status.toNat
    generalize aerLogged p rid.toNat status.toNat { s with pending := [] } = t at *
    exact done
  case low => exact exec_eq_next (f := portBInt n.toNat false) rfl rfl rfl
  case high =>
    refine exec_next_exists (f := portBInt n.toNat true) rfl ?_
    obtain ⟨wires, mem, stays, rises⟩ := portBInt_high n.isLt { s with pending := [] }
    generalize portBInt n.toNat true { s with pending := [] } = t at *
    exact ⟨wires, mem, fun high => by rw [stays high], rises⟩

end Sys2Proof.Machine

/-! PROOFS. Writes with an effect of their own, and the repair tunnel (O52).

A write that passes its check in an open session is its object's action on the session's state; records of the store and of the log move
beside it (`Noted`). A package reset that ends a tenancy is followed through what it keeps (`bootView`). -/

namespace Sys2Proof.Machine

/-! ### Records of the store and of the log -/

/-- Between two states only records were made: in the log, and in the store's areas. -/
structure Noted (s t : State) : Prop where
  mem : t.mem = s.mem
  map : t.map = s.map
  time : t.time = s.time
  sec : t.sec = s.sec
  dict : t.dict = s.dict
  su : t.su = s.su
  upd : t.upd = s.upd
  cal : t.cal = s.cal
  records : RecordsKept s t
  nv : t.nv = { s.nv with fill := t.nv.fill, copyB := t.nv.copyB, seq := t.nv.seq }

namespace Noted

theorem refl (s : State) : Noted s s := ⟨rfl, rfl, rfl, rfl, rfl, rfl, rfl, rfl, .refl s, rfl⟩

theorem trans {s t u : State} (h : Noted s t) (k : Noted t u) : Noted s u :=
  ⟨k.mem.trans h.mem, k.map.trans h.map, k.time.trans h.time, k.sec.trans h.sec, k.dict.trans h.dict, k.su.trans h.su, k.upd.trans h.upd,
    k.cal.trans h.cal, h.records.trans k.records, by rw [k.nv, h.nv]⟩

theorem post (code site : Nat) (p : List Nat) (s : State) : Noted s (post code site p s) :=
  ⟨post_mem .., post_map .., post_time .., post_sec .., post_dict .., post_su .., post_upd .., post_cal .., .post code site p s, by rw [post_nv]⟩

theorem compactArea (area : Nat) (s : State) : Noted s (compactArea area s) := by
  unfold Machine.compactArea
  dsimp only
  refine trans ?_ (post ..)
  exact ⟨rfl, rfl, rfl, rfl, rfl, rfl, rfl, rfl, .of_eq rfl rfl, rfl⟩

/-- A record of the store (R423, R425). -/
theorem storeRecord (area payload : Nat) (s : State) : Noted s (storeRecord area payload s) := by
  have programmed : ∀ fill seq, Noted s { s with nv := { s.nv with fill := fill, seq := seq } } :=
    fun _ _ => ⟨rfl, rfl, rfl, rfl, rfl, rfl, rfl, rfl, .of_eq rfl rfl, rfl⟩
  unfold Machine.storeRecord
  dsimp only
  split
  · exact (programmed _ _).trans (compactArea ..)
  · exact programmed _ _

end Noted

/-! ### A write in a session -/

/-- The state with other sessions. -/
def withSessions (m : SMap Session) (s : State) : State := { s with dict := { s.dict with sessions := m } }

/-- Who writes over a session. -/
def writerOf (r : ObjReq) (x : Session) : Writer := { path := pathNum r.path, sess := r.sess.toNat, level := x.level.toNat }

theorem updSession_frame (n : Nat) (f : Session → Session) (s : State) : ∃ m, updSession n f s = withSessions m s := by
  unfold updSession
  split
  · exact ⟨_, rfl⟩
  · exact ⟨s.dict.sessions, rfl⟩

/-- The checks of a write look at no session. -/
theorem checkWrite_withSessions (m : SMap Session) (s : State) (level index sub ty : Nat) (v : List Byte) :
    checkWrite (withSessions m s) level index sub ty v = checkWrite s level index sub ty v := rfl

/-- A session that is open has its write carried out and its status answered (R396, R406). -/
theorem objectRow_session {r : ObjReq} {s : State} {x : Session} (index sub ty : Nat) (v : List Byte) (anyone : anyoneServes s = true)
    (dairyman : cowbellServes s = false) (session : sessionOf s r.path r.sess.toNat = some x) :
    ∃ m, objectRow r index sub ty v s =
      answer (.status (writeObject (writerOf r x) index sub ty v (withSessions m s)).1)
        (writeObject (writerOf r x) index sub ty v (withSessions m s)).2 := by
  obtain ⟨m, valid⟩ := updSession_frame r.sess.toNat (fun x => { x with validAt := s.time }) s
  refine ⟨m, ?_⟩
  unfold objectRow
  rw [anyone, dairyman, session, ← valid]
  rfl

/-- What a write that passes its check does: the object's own action, or the value is kept (R396). -/
def writeEffect (w : Writer) (row : ObjRow) (index sub : Nat) (v : List Byte) : State → State :=
  (actionObject w index sub v).getD (keepValue w row index sub v)

/-- A write that passes its check, where the store accepts records, is the object's action, or else the value is kept (R396). -/
theorem writeObject_ok {w : Writer} {index sub ty : Nat} {v : List Byte} {s : State} {row : ObjRow} (object : objRow index sub = some row)
    (check : checkWrite s w.level index sub ty v = 0) (store : storeUp s = true) :
    writeObject w index sub ty v s = (0, writeEffect w row index sub v s) := by
  unfold writeObject writeEffect
  rw [object, check]
  dsimp only
  rw [if_neg (by decide), if_neg (by simp [store])]
  cases actionObject w index sub v <;> rfl

/-- A write that fails its check changes nothing. -/
theorem writeObject_refused {w : Writer} {index sub ty : Nat} {v : List Byte} {s : State} (check : checkWrite s w.level index sub ty v ≠ 0) :
    writeObject w index sub ty v s = (checkWrite s w.level index sub ty v, s) := by
  unfold writeObject
  dsimp only
  split
  · rfl
  · exact if_pos check

/-- What a check that passes says of the object's own rule (R396). -/
theorem objForbids_of_check {s : State} {level index sub ty : Nat} {v : List Byte} {row : ObjRow} (object : objRow index sub = some row)
    (check : checkWrite s level index sub ty v = 0) : objForbids s index sub v = false := by
  simp only [checkWrite, object] at check
  split_ifs at check with _ _ _ _ forbids <;> [cases check; cases check; cases check; cases check; cases check; simpa using forbids]

/-- Both halves of an object's row: what it does when its check passes, and that it changes no object when the check fails (R396). -/
theorem objectRow_acts {c : Instr} {r : ObjReq} {index sub ty : Nat} {v : List Byte} {s : State} {q : Session → State → Prop} {row : ObjRow}
    (arm : exec c s = command (objectRow r index sub ty v) s) (object : objRow index sub = some row)
    (effect : ∀ x m t, ObjWrite s r index sub ty v x → writeEffect (writerOf r x) row index sub v (withSessions m { s with pending := [] }) = t →
      t.mem = s.mem ∧ q x { t with resp := .status 0, pending := s.pending }) :
    (∀ x, ObjWrite s r index sub ty v x → ∃ t, exec c s = .next t ∧ t.resp = .status 0 ∧ t.mem = s.mem ∧ q x t) ∧
      ∀ x, anyoneServes s = true → cowbellServes s = false → sessionOf s r.path r.sess.toNat = some x →
        checkWrite s x.level.toNat index sub ty v ≠ 0 →
        ∃ t, exec c s = .next t ∧ t.resp = .status (checkWrite s x.level.toNat index sub ty v) ∧ t = { s with dict := t.dict, resp := t.resp } ∧
          t.dict.values = s.dict.values := by
  refine ⟨fun x ok => ?_, fun x anyone dairyman session refused => ?_⟩
  · obtain ⟨anyone, dairyman, store, session, check⟩ := id ok
    obtain ⟨m, row_eq⟩ := objectRow_session (s := { s with pending := [] }) index sub ty v anyone dairyman session
    have acted := writeObject_ok (w := writerOf r x) (s := withSessions m { s with pending := [] }) object check store
    refine exec_next_exists arm ?_
    rw [row_eq, acted]
    exact ⟨rfl, (effect x m _ ok rfl).1, (effect x m _ ok rfl).2⟩
  · obtain ⟨m, row_eq⟩ := objectRow_session (s := { s with pending := [] }) index sub ty v anyone dairyman session
    have stays := writeObject_refused (w := writerOf r x) (s := withSessions m { s with pending := [] }) refused
    refine exec_next_exists arm ?_
    rw [row_eq, stays]
    exact ⟨rfl, rfl, rfl⟩

/-! ### Records that clear -/

theorem leNat_byte (v : BitVec 8) : leNat [v] = v.toNat := by simp [leNat]

/-- A change of the store's contents with its record (R423), and 0x0A31 for it (R32). -/
theorem storeRecord_postWrite (w : Writer) (index sub area payload : Nat) {s u : State} (records : RecordsKept s u) (time : u.time = s.time) :
    Noted u (postWrite w index sub (storeRecord area payload u)) ∧
      Posted s (postWrite w index sub (storeRecord area payload u)) 0x0A31 noSite [256 * index + sub, w.level, w.path] := by
  have stored := Noted.storeRecord area payload u
  exact ⟨stored.trans (.post ..), (posted_post 0x0A31 noSite [256 * index + sub, w.level, w.path] (storeRecord area payload u)).since
    (records.trans stored.records) (stored.time.trans time)⟩

/-- A failed-die record clears (R32). -/
theorem writeEffect_failedDie {w : Writer} {row : ObjRow} {v : BitVec 8} {s t : State}
    (done : writeEffect w row 0x4002 1 [v] s = t) :
    t.mem = s.mem ∧ t.nv.failedDies = s.nv.failedDies &&& ~~~(BitVec.ofNat 8 (2 ^ v.toNat)) ∧
      Posted s t 0x0A31 noSite [0x400201, w.level, w.path] := by
  let u : State := { s with nv := { s.nv with failedDies := s.nv.failedDies &&& ~~~(BitVec.ofNat 8 (2 ^ v.toNat)) } }
  have acts : writeEffect w row 0x4002 1 [v] s = postWrite w 0x4002 1 (storeRecord areaState 1 u) := by
    change postWrite w 0x4002 1 (clearFailed (leNat [v]) s) = _
    rw [leNat_byte]
    rfl
  obtain ⟨noted, posted⟩ := storeRecord_postWrite w 0x4002 1 areaState 1 (s := s) (u := u) (.of_eq rfl rfl) rfl
  rw [acts] at done
  subst done
  exact ⟨noted.mem, congrArg NvStore.failedDies noted.nv, posted⟩

/-- A vat's retirement record clears (R32). -/
theorem writeEffect_vat {w : Writer} {row : ObjRow} {v : BitVec 16} {s t : State}
    (done : writeEffect w row 0x4002 2 (leBytes 2 v.toNat) s = t) :
    t.mem = s.mem ∧
      SMap.get 0 t.nv.retiredVats (v.toNat % 8) = SMap.get 0 s.nv.retiredVats (v.toNat % 8) &&& ~~~(BitVec.ofNat 17 (2 ^ (v.toNat / 256))) ∧
      Posted s t 0x0A31 noSite [0x400202, w.level, w.path] := by
  let u : State := { s with nv := { s.nv with
    retiredVats := SMap.upd 0 s.nv.retiredVats (v.toNat % 8) (· &&& ~~~(BitVec.ofNat 17 (2 ^ (v.toNat / 256)))) } }
  have acts : writeEffect w row 0x4002 2 (leBytes 2 v.toNat) s = postWrite w 0x4002 2 (storeRecord areaState 8 u) := by
    have value : leNat (leBytes 2 v.toNat) = v.toNat := by rw [leNat_leBytes]; exact Nat.mod_eq_of_lt v.isLt
    change postWrite w 0x4002 2 (clearVat (leNat (leBytes 2 v.toNat) % 8) (leNat (leBytes 2 v.toNat) / 256) s) = _
    rw [value]
    rfl
  obtain ⟨noted, posted⟩ := storeRecord_postWrite w 0x4002 2 areaState 8 (s := s) (u := u) (.of_eq rfl rfl) rfl
  rw [acts] at done
  subst done
  refine ⟨noted.mem, ?_, posted⟩
  rw [congrArg NvStore.retiredVats noted.nv]
  exact SMap.get_upd_same 0 s.nv.retiredVats (v.toNat % 8) (· &&& ~~~(BitVec.ofNat 17 (2 ^ (v.toNat / 256))))

/-- A unit's retirement list clears (R335). -/
theorem writeEffect_list {w : Writer} {row : ObjRow} {v : BitVec 8} {s t : State}
    (done : writeEffect w row 0x3303 1 [v] s = t) :
    t.mem = s.mem ∧ SMap.get [] t.nv.lists v.toNat = [] := by
  let u : State := { s with nv := { s.nv with lists := SMap.del s.nv.lists v.toNat } }
  have acts : writeEffect w row 0x3303 1 [v] s = storeRecord areaLists 0 u := by
    change clearList (leNat [v]) s = _
    rw [leNat_byte]
    rfl
  have noted := Noted.storeRecord areaLists 0 u
  rw [acts] at done
  subst done
  refine ⟨noted.mem, ?_⟩
  rw [congrArg NvStore.lists noted.nv]
  exact congrArg (Option.getD · []) (SMap.find_del_same ..)

/-! ### The level pin, the clock and debug -/

/-- A number that is written reads back, the default among the numbers (R396). -/
theorem objNat_storeObject {row : ObjRow} {index sub dflt : Nat} {s : State} (default : leNat (objDefault s row index sub) = dflt) (v : List Byte) :
    objNat (storeObject row index sub v s) index sub dflt = leNat v := by
  unfold objNat storeObject
  dsimp only
  by_cases same : v = objDefault s row index sub
  · rw [if_pos same, SMap.find_del_same, same, default]
  · rw [if_neg same, SMap.find_put_same]

/-- The row of the level pin (R400). -/
def levelPinRow : ObjRow := ⟨0x1020, 1, 1, 1, .rwp, 2, 0⟩

/-- The level pin is kept, for the next start (R32, R400). -/
theorem writeEffect_levelPin {w : Writer} {v : BitVec 8} {s t : State}
    (done : writeEffect w levelPinRow 0x1020 1 [v] s = t) :
    t.mem = s.mem ∧ objNat t 0x1020 1 0 = v.toNat ∧ t.map = s.map ∧ Posted s t 0x0A31 noSite [0x102001, w.level, w.path] := by
  let u := storeObject levelPinRow 0x1020 1 [v] s
  have acts : writeEffect w levelPinRow 0x1020 1 [v] s = postWrite w 0x1020 1 (storeRecord areaParams (4 + 1) u) := rfl
  obtain ⟨noted, posted⟩ := storeRecord_postWrite w 0x1020 1 areaParams (4 + 1) (s := s) (u := u) (.of_eq rfl rfl) rfl
  have kept : objNat u 0x1020 1 0 = v.toNat := (objNat_storeObject (row := levelPinRow) (dflt := 0) rfl [v]).trans (leNat_byte v)
  rw [acts] at done
  subst done
  refine ⟨noted.mem, ?_, noted.map, posted⟩
  unfold objNat at kept ⊢
  rw [noted.dict]
  exact kept

/-- The clock is set (R430). -/
theorem writeEffect_clock {w : Writer} {row : ObjRow} {v : BitVec 64} {s t : State}
    (done : writeEffect w row 0x7000 1 (leBytes 8 v.toNat) s = t) :
    t.mem = s.mem ∧ t.cal.time = v ∧ t.cal.invalid = false ∧ Posted s t 0x0A11 noSite [s.cal.time.toNat, v.toNat] := by
  have acts : writeEffect w row 0x7000 1 (leBytes 8 v.toNat) s = setClock v s := by
    change setClock (BitVec.ofNat 64 (leNat (leBytes 8 v.toNat))) s = _
    rw [leNat_leBytes, Nat.mod_eq_of_lt (by exact v.isLt), BitVec.ofNat_toNat, BitVec.setWidth_eq]
  have noted := Noted.post 0x0A11 noSite [s.cal.time.toNat, v.toNat] { s with cal := { s.cal with time := v, invalid := false, slewing := 0 } }
  rw [acts] at done
  subst done
  exact ⟨noted.mem, congrArg Calendar.time noted.cal, congrArg Calendar.invalid noted.cal,
    posted_post 0x0A11 noSite [s.cal.time.toNat, v.toNat] { s with cal := { s.cal with time := v, invalid := false, slewing := 0 } }⟩

/-- Debug is asked for, and granted at the next reset at the earliest (R391). -/
theorem writeEffect_debug {w : Writer} {row : ObjRow} {v : BitVec 8} {s t : State}
    (done : writeEffect w row 0x6000 5 [v] s = t) :
    t.mem = s.mem ∧ t.sec.debugReq = some (decide (v = 1)) ∧ t.sec.debug = s.sec.debug := by
  have noted := Noted.storeRecord areaState 1 { s with sec := { s.sec with debugReq := some (decide (leNat [v] = 1)) } }
  have asked : decide (leNat [v] = 1) = decide (v = 1) := by
    rw [leNat_byte]
    exact decide_eq_decide.mpr ⟨fun h => BitVec.eq_of_toNat_eq h, fun h => by rw [h]; rfl⟩
  have acts : writeEffect w row 0x6000 5 [v] s =
      storeRecord areaState 1 { s with sec := { s.sec with debugReq := some (decide (leNat [v] = 1)) } } := rfl
  rw [acts] at done
  subst done
  exact ⟨noted.mem, (congrArg Security.debugReq noted.sec).trans (congrArg some asked), (congrArg Security.debug noted.sec).trans rfl⟩

/-! ### Firmware update (R415) -/

/-- Where an image goes is the update's target and slot alone. -/
theorem putImage_nv {i : FwImage} {s t : State} (nv : t.nv = s.nv) (target : t.upd.target = s.upd.target) (slot : t.upd.slotB = s.upd.slotB) :
    (putImage i t).nv = (putImage i s).nv := by
  unfold putImage
  rw [target, slot]
  split <;> simp only [nv]

theorem putImage_frame (i : FwImage) (s : State) : (putImage i s).mem = s.mem ∧ (putImage i s).upd = s.upd := by
  unfold putImage
  split <;> exact ⟨rfl, rfl⟩

/-- BEGIN erases the slot that would not boot. -/
theorem writeEffect_begin {w : Writer} {row : ObjRow} {s t : State}
    (done : writeEffect w row 0x1040 3 [1] s = t) (allowed : objForbids s 0x1040 3 [1] = false) (store : storeUp s = true) :
    let target := objNat s 0x1040 1 0
    t.mem = s.mem ∧ t.upd = { target := BitVec.ofNat 8 target, slotB := inactiveB s target, status := 1, bytes := [] } ∧
      t.nv = (putImage noImage { s with upd := t.upd }).nv := by
  let target := objNat s 0x1040 1 0
  let u : State := { s with upd := { target := BitVec.ofNat 8 target, slotB := inactiveB s target } }
  have free : ¬(decide (target = 0) || decide (s.upd.status = 1)) = true := by
    have rule : (membAbsent s 0x1040 || (decide (target = 0) || decide (s.upd.status = 1))) = false := allowed
    simpa using (Bool.or_eq_false_iff.mp rule).2
  have acts : writeEffect w row 0x1040 3 [1] s = setUpdStatus updErasing (putImage noImage u) := by
    change beginUpdate s = _
    unfold beginUpdate
    dsimp only
    rw [if_neg free, store]
    rfl
  obtain ⟨mem, upd⟩ := putImage_frame noImage u
  have status : (setUpdStatus updErasing (putImage noImage u)).upd = { u.upd with status := 1 } := congrArg (fun x : Update => { x with status := 1 }) upd
  rw [acts] at done
  subst done
  refine ⟨mem, status, ?_⟩
  rw [status]
  exact putImage_nv (s := { s with upd := { u.upd with status := 1 } }) (t := u) rfl rfl rfl

/-- A chunk follows those before it. -/
theorem writeEffect_chunk {w : Writer} {row : ObjRow} {data : List Byte} {s t : State}
    (done : writeEffect w row 0x1040 2 data s = t) (store : storeUp s = true) :
    t.mem = s.mem ∧ t.upd = { s.upd with bytes := s.upd.bytes ++ data, status := 3 } ∧ t.nv = s.nv := by
  have acts : writeEffect w row 0x1040 2 data s = setUpdStatus updWriting { s with upd := { s.upd with bytes := s.upd.bytes ++ data } } := by
    change addChunk data s = _
    unfold addChunk
    rw [store]
    rfl
  rw [acts] at done
  subst done
  exact ⟨rfl, rfl, rfl⟩

/-- The image that an update holds, marked valid. -/
def updateImage (s : State) : FwImage := ⟨Config.imageSigned s.upd.bytes, Config.imageVersion s.upd.bytes, true, sha384 s.upd.bytes⟩

/-- Whether it verifies for its target as at boot. -/
def updateVerifies (s : State) : Bool :=
  if s.upd.target = 1 then dairyAccepted s (updateImage s) else coreAccepted s (updateImage s)

/-- COMMIT puts an image that verifies in its slot. -/
theorem writeEffect_commit {w : Writer} {row : ObjRow} {s t : State}
    (done : writeEffect w row 0x1040 3 [2] s = t) (allowed : objForbids s 0x1040 3 [2] = false) (store : storeUp s = true) :
    t.mem = s.mem ∧ (updateVerifies s = true → t.upd.status = 5 ∧ t.nv = (putImage (updateImage s) s).nv) ∧
      (updateVerifies s = false → t.upd.status = 6 ∧ t.nv = s.nv) := by
  have running : ¬(decide (s.upd.status ≠ 2) && decide (s.upd.status ≠ 3)) = true := by
    have rule : (membAbsent s 0x1040 || (decide (s.upd.status ≠ 2) && decide (s.upd.status ≠ 3))) = false := allowed
    simpa using (Bool.or_eq_false_iff.mp rule).2
  have acts : writeEffect w row 0x1040 3 [2] s =
      if updateVerifies s then setUpdStatus updDone (putImage (updateImage s) s) else setUpdStatus updRejected s := by
    change commitUpdate s = _
    unfold commitUpdate
    dsimp only
    rw [if_neg running, store]
    rfl
  rw [acts] at done
  subst done
  cases updateVerifies s
  · exact ⟨rfl, fun h => Bool.noConfusion h, fun _ => ⟨rfl, rfl⟩⟩
  · exact ⟨(putImage_frame (updateImage s) s).1, fun _ => ⟨rfl, rfl⟩, fun h => Bool.noConfusion h⟩

/-- CANCEL leaves the slots as they are. -/
theorem writeEffect_cancel {w : Writer} {row : ObjRow} {s t : State}
    (done : writeEffect w row 0x1040 3 [3] s = t) :
    t.mem = s.mem ∧ t.nv = s.nv ∧ ((s.upd.status = 1 ∨ s.upd.status = 2 ∨ s.upd.status = 3) → t.upd = {}) := by
  have acts : writeEffect w row 0x1040 3 [3] s =
      if s.upd.status = 1 || s.upd.status = 2 || s.upd.status = 3 then { s with upd := {} } else s := rfl
  rw [acts] at done
  subst done
  split
  case isTrue => exact ⟨rfl, rfl, fun _ => rfl⟩
  case isFalse idle => exact ⟨rfl, rfl, fun running => absurd (by simpa [or_assoc] using running) idle⟩

/-! ### The repair tunnel (R333) -/

theorem writeEffect_tunnel (w : Writer) (row : ObjRow) (n : Byte) (s : State) : writeEffect w row 0xF030 2 [n] s = tunnelAct n.toNat s :=
  congrArg (tunnelAct · s) (leNat_byte n)

theorem tunnelAct_closed {c : Nat} {s : State} (closed : s.su.phase ≠ .held) : tunnelAct c s = setTunnel tunRefused s := by
  simp [tunnelAct, tunnelOpen, closed]

theorem writeEffect_closed {w : Writer} {row : ObjRow} {n : Byte} {s t : State} 
    (done : writeEffect w row 0xF030 2 [n] s = t) (closed : s.su.phase ≠ .held) : t.mem = s.mem ∧ t.tunnel = { s.tunnel with status := 3 } := by
  rw [writeEffect_tunnel, tunnelAct_closed closed] at done
  subst done
  exact ⟨rfl, rfl⟩

theorem tunnelAct_fuses {s : State} (held : s.su.phase = .held) :
    tunnelAct 1 s = setTunnel 2 (drew { s with tunnel := { s.tunnel with fuses := fuseBytes s } }) := by
  simp [tunnelAct, tunnelOpen, held]

/-- A fuse read shows the stack's fuses. -/
theorem writeEffect_fuses {w : Writer} {row : ObjRow} {s t : State} (done : writeEffect w row 0xF030 2 [1] s = t)
    (held : s.su.phase = .held) : t.mem = s.mem ∧ t.tunnel.status = 2 ∧ t.tunnel.fuses.length ≤ 256 ∧
      t.tunnel.hard = s.tunnel.hard ∧ t.tunnel.soft = s.tunnel.soft := by
  have acts : writeEffect w row 0xF030 2 [1] s = setTunnel 2 (drew { s with tunnel := { s.tunnel with fuses := fuseBytes s } }) :=
    (writeEffect_tunnel w row 1 s).trans (tunnelAct_fuses held)
  rw [acts] at done
  subst done
  refine ⟨rfl, rfl, ?_, rfl, rfl⟩
  change (fuseBytes s).length ≤ 256
  simp [fuseBytes]

theorem tunnelAct_repair {s : State} (held : s.su.phase = .held) (hard : Bool) :
    tunnelAct (if hard then 3 else 2) s = endRepair (objNat s 0xF030 1 0) (objNat s 0xF030 3 0) hard s := by
  cases hard <;> simp [tunnelAct, tunnelOpen, held]

/-- How a repair ends is the stack's own: done, failed, or no spare row left (log 83). -/
def repairOutcome (s : State) : Nat := if Config.freeBit s.free then 2 else if Config.freeBit (s.free + 1) then 4 else 5

theorem repairOutcome_cases (s : State) : repairOutcome s = 2 ∨ repairOutcome s = 4 ∨ repairOutcome s = 5 := by
  unfold repairOutcome
  split
  · exact .inl rfl
  · split
    · exact .inr (.inl rfl)
    · exact .inr (.inr rfl)

/-- The tunnel once a repair is done. -/
def repairedTunnel (k row : Nat) (hard : Bool) (x : Tunnel) : Tunnel :=
  if hard then { x with status := 2, hard := x.hard ++ [(k, BitVec.ofNat 32 row)] }
  else { x with status := 2, soft := x.soft ++ [(k, BitVec.ofNat 32 row)] }

theorem endRepair_done {s : State} (k row : Nat) (hard : Bool) (outcome : repairOutcome s = 2) : endRepair k row hard s =
    post 0x0308 (siteUnit k) [k, row, if hard = true then 1 else 0] { drew (drew s) with tunnel := repairedTunnel k row hard s.tunnel } := by
  have form : endRepair k row hard s =
      let u := setTunnel (repairOutcome s) (drew (drew s))
      let e := (k, BitVec.ofNat 32 row)
      if repairOutcome s ≠ 2 then u
      else post 0x0308 (siteUnit k) [k, row, boolNat hard]
        { u with tunnel := if hard then { u.tunnel with hard := u.tunnel.hard ++ [e] } else { u.tunnel with soft := u.tunnel.soft ++ [e] } } := rfl
  dsimp only at form
  rw [form, if_neg (by simp [outcome]), outcome]
  cases hard <;> rfl

theorem endRepair_undone {s : State} (k row : Nat) (hard : Bool) (outcome : repairOutcome s ≠ 2) :
    endRepair k row hard s = setTunnel (repairOutcome s) (drew (drew s)) := if_pos outcome

/-- A repair ended done, with its row in the list of its kind and 0x0308, or failed, or without a spare row. -/
def RepairEnded (s t : State) (k row : Nat) (hard : Bool) : Prop :=
  (t.tunnel.status = 2 ∧ Posted s t 0x0308 (siteUnit k) [k, row, if hard = true then 1 else 0] ∧
      t.tunnel.hard = s.tunnel.hard ++ (if hard = true then [(k, BitVec.ofNat 32 row)] else []) ∧
      t.tunnel.soft = s.tunnel.soft ++ (if hard = true then [] else [(k, BitVec.ofNat 32 row)])) ∨
    ((t.tunnel.status = 4 ∨ t.tunnel.status = 5) ∧ t.tunnel.hard = s.tunnel.hard ∧ t.tunnel.soft = s.tunnel.soft)

theorem endRepair_ended (k row : Nat) (hard : Bool) (s : State) :
    (endRepair k row hard s).mem = s.mem ∧ RepairEnded s (endRepair k row hard s) k row hard := by
  unfold RepairEnded
  by_cases outcome : repairOutcome s = 2
  · rw [endRepair_done k row hard outcome, post_tunnel]
    refine ⟨post_mem .., .inl ⟨?_, posted_post 0x0308 (siteUnit k) [k, row, if hard = true then 1 else 0]
      { drew (drew s) with tunnel := repairedTunnel k row hard s.tunnel }, ?_, ?_⟩⟩
    · cases hard <;> rfl
    · cases hard
      · exact (List.append_nil _).symm
      · rfl
    · cases hard
      · rfl
      · exact (List.append_nil _).symm
  · rw [endRepair_undone k row hard outcome]
    refine ⟨rfl, .inr ⟨?_, rfl, rfl⟩⟩
    obtain two | four | five := repairOutcome_cases s
    · exact absurd two outcome
    · exact .inl (by rw [four]; rfl)
    · exact .inr (by rw [five]; rfl)

theorem writeEffect_repair {w : Writer} {row : ObjRow} {s t : State} {hard : Bool}
    (done : writeEffect w row 0xF030 2 [if hard then 3 else 2] s = t) (held : s.su.phase = .held) :
    t.mem = s.mem ∧ RepairEnded s t (objNat s 0xF030 1 0) (objNat s 0xF030 3 0) hard := by
  have ends : tunnelAct (if hard then 3 else 2) s = t := by
    rw [← done, writeEffect_tunnel]
    cases hard <;> rfl
  rw [← ends, tunnelAct_repair held]
  exact endRepair_ended ..

/-- A tunnel command while start-up is not held is refused. -/
theorem tunnel_closed {c : Instr} {r : ObjReq} {n : Byte} {s : State} {x : Session}
    (arm : exec c s = command (objectRow r 0xF030 2 1 [n]) s) (asked : ObjWrite s r 0xF030 2 1 [n] x) (closed : s.su.phase ≠ .held) :
    ∃ t, exec c s = .next t ∧ t.resp = .status 0 ∧ t.tunnel = { s.tunnel with status := 3 } ∧ t.mem = s.mem := by
  obtain ⟨t, next, resp, mem, tunnel⟩ := (objectRow_acts (q := fun _ t => t.tunnel = { s.tunnel with status := 3 })
    arm rfl fun _ _ _ _ done => (writeEffect_closed done closed :)).1 x asked
  exact ⟨t, next, resp, tunnel, mem⟩

/-- A repair while start-up is held ends in one of three ways. -/
theorem tunnel_repair {c : Instr} {r : ObjReq} {s : State} {x : Session} (hard : Bool)
    (arm : exec c s = command (objectRow r 0xF030 2 1 [if hard then 3 else 2]) s)
    (asked : ObjWrite s r 0xF030 2 1 [if hard then 3 else 2] x) (held : s.su.phase = .held) :
    ∃ t, exec c s = .next t ∧ t.resp = .status 0 ∧ t.mem = s.mem ∧ RepairEnded s t (objNat s 0xF030 1 0) (objNat s 0xF030 3 0) hard :=
  (objectRow_acts (q := fun _ t => RepairEnded s t (objNat s 0xF030 1 0) (objNat s 0xF030 3 0) hard) arm rfl
    fun _ _ _ _ done => (writeEffect_repair done held :)).1 x asked

/-! ### A package reset that ends a tenancy (R386) -/

/-- What the end of a tenancy and the start after it must keep or clear. -/
def bootView (s : State) := (s.mem, s.sec.tenancy, s.sec.memKeys, s.sec.spdm, s.dict.values, s.su.pkgResets, s.su.lastCause)

theorem Noted.bootView {s t : State} (h : Noted s t) : bootView t = bootView s := by
  unfold Machine.bootView
  rw [h.mem, h.sec, h.dict, h.su]

theorem bootView_postBy (cowbell : Bool) (code site : Nat) (p : List Nat) (s : State) : bootView (postBy cowbell code site p s) = bootView s := by
  unfold postBy
  dsimp only
  split
  · simp only [bootView, raiseSource_mem, raiseVector_mem, raiseSource_sec, raiseVector_sec, raiseSource_dict, raiseVector_dict, raiseSource_su,
      raiseVector_su]
  · rfl

theorem bootView_post (code site : Nat) (p : List Nat) (s : State) : bootView (post code site p s) = bootView s := bootView_postBy ..

theorem bootView_each {α : Type} {f : α → State → State} (h : ∀ a s, bootView (f a s) = bootView s) (l : List α) (s : State) :
    bootView (each l f s) = bootView s := each_same bootView l f (fun a _ s => h a s) s

theorem bootView_uncharge (c : Nat) (hbm : Bool) (s : State) : bootView (uncharge c hbm s) = bootView s := by
  obtain ⟨q, eq | ⟨p, eq⟩⟩ := uncharge_cases c hbm s <;> rw [eq]
  · rfl
  · exact bootView_post 0x0343 noSite p { s with quotas := q }

theorem bootView_freeLoc (hbm : Bool) (loc : Nat) (s : State) : bootView (freeLoc s hbm loc) = bootView s := by
  unfold freeLoc
  split <;> rfl

theorem bootView_undoMove (g : Nat) (m : Move) (s : State) : bootView (undoMove g m s) = bootView s := by
  unfold undoMove
  dsimp only
  split
  · exact bootView_freeLoc ..
  · exact (bootView_uncharge ..).trans (bootView_freeLoc ..)

theorem bootView_settledMap (s : State) : bootView (settledMap s) = bootView s := by
  have undone := bootView_each (f := fun (p : Nat × Move) s => undoMove p.1 p.2 s) (fun p s => bootView_undoMove p.1 p.2 s) s.moves s
  have unpinned : ∀ t : State, bootView (each (t.grans.map (·.1)) (fun g s => updGran s g (fun x => { x with rpin := 0 })) t) = bootView t :=
    fun t => bootView_each (f := fun g s => updGran s g (fun x => { x with rpin := 0 })) (fun _ _ => rfl) _ t
  exact (unpinned _).trans undone

theorem bootView_makeRoom (need n : Nat) (s : State) : bootView (makeRoom need n s) = bootView s := by
  induction n generalizing s with
  | zero => rfl
  | succ n ih =>
    unfold makeRoom
    split
    · rfl
    · exact (ih _).trans (bootView_post ..)

theorem bootView_appendBatch (s : State) : bootView (appendBatch s) = bootView s := by
  unfold appendBatch
  split
  · rfl
  · have raised : ∀ (t : State) nv, bootView (raiseSource 1 { t with nv := nv }) = bootView t := fun t nv => by
      simp only [bootView, raiseSource_mem, raiseSource_sec, raiseSource_dict, raiseSource_su]
    exact (raised _ _).trans (bootView_makeRoom _ _ _)

theorem bootView_flushLog (s : State) : bootView (flushLog s) = bootView s := by
  unfold flushLog
  generalize s.ev.pendingRecs.length / 63 + 2 = n
  induction n generalizing s with
  | zero => rfl
  | succ n ih => exact (ih _).trans (bootView_appendBatch s)

/-- Debug granted outside an occupied tenancy scrubs nothing (R391). -/
theorem bootView_applyDebug {s : State} (scrubbing : s.sec.tenancy = 2) : bootView (applyDebug s) = bootView s := by
  unfold applyDebug
  split
  · rfl
  next v _ =>
    have occupied : (if s.sec.mode = 0 && s.sec.tenancy = 1 then beginScrub 2 s else s) = s := if_neg (by simp [scrubbing])
    dsimp only
    rw [occupied]
    have stored := (Noted.storeRecord areaState 1 { s with sec := { s.sec with debug := v, debugReq := none } }).bootView
    split
    · exact stored
    · exact (bootView_post ..).trans stored

/-! #### The start that follows -/

theorem bootView_setSupervisor (v : Nat) (s : State) : bootView (setSupervisor v s) = bootView s := rfl

theorem bootView_stopStart (step cause : Nat) (s : State) : bootView (stopStart step cause s) = bootView s :=
  bootView_postBy true 0x0A05 noSite [step, cause] { railsOff s with su := { s.su with phase := .stopped } }

theorem bootView_postTorn (n : Nat) (s : State) : bootView (postTorn n s) = bootView s := by
  induction n generalizing s with
  | zero => rfl
  | succ n ih => exact (ih _).trans (bootView_post ..)

theorem bootView_scanStore (s : State) : bootView (scanStore s) = bootView s := by
  unfold scanStore
  dsimp only
  split
  · exact (bootView_each (fun _ _ => bootView_post ..) _ _).trans (bootView_each (fun _ _ => bootView_post ..) _ _)
  · exact bootView_each (fun _ _ => bootView_post ..) _ _

theorem bootView_checkVbat (s : State) : bootView (checkVbat s) = bootView s := by
  unfold checkVbat
  split
  · exact bootView_post ..
  · rfl

theorem bootView_reportPast (s : State) : bootView (reportPast s) = bootView s := by
  have clock : ∀ (b : Bool) (t : State), bootView (if b then post 0x0A10 noSite [] t else t) = bootView t := fun b t => by
    cases b
    · rfl
    · exact bootView_post ..
  have ended : ∀ t : State, bootView (if t.nv.cleanEnd then t else post 0x0A0A noSite [t.nv.ledgerTime.toNat] t) = bootView t := fun t => by
    split
    · rfl
    · exact bootView_post ..
  exact (ended _).trans ((bootView_checkVbat _).trans ((clock _ _).trans ((bootView_scanStore _).trans (bootView_postTorn ..))))

theorem bootView_appendCowbell (s : State) : bootView (appendCowbell s) = bootView s := by
  unfold appendCowbell
  split <;> rfl

/-- The discovery window opens. -/
theorem bootView_opened (s : State) (mode : BitVec 8) (boots) (host : HostPort) (disc) : bootView { s with
    su := { s.su with phase := .discovery }, sec := { s.sec with mode := mode, boots := boots }, host := host, disc := disc } = bootView s := rfl

theorem bootView_dairyman (s : State) (up : Bool) (digest) (heartbeat start : BitVec 64) : bootView { s with
    su := { s.su with dairyman := up, dairyDigest := digest, heartbeat := heartbeat, stepStart := start } } = bootView s := rfl

theorem bootView_baseRails (s : State) : bootView (baseRails s) = bootView s := by
  simp only [bootView, baseRails, updRail_mem, updRail_sec, updRail_dict, updRail_su]

theorem bootView_bootFrom3 (s : State) : bootView (bootFrom3 s) = bootView s := by
  unfold bootFrom3
  dsimp only
  split
  · exact (bootView_stopStart _ _ _).trans ((bootView_post _ _ _ _).trans ((bootView_post _ _ _ _).trans (bootView_baseRails s)))
  · exact (bootView_opened _ _ _ _ _).trans ((bootView_reportPast _).trans ((bootView_appendCowbell _).trans
      ((bootView_dairyman _ _ _ _ _).trans (bootView_baseRails s))))

theorem bootView_passStep2 (s : State) : bootView (passStep2 s) = bootView s := by
  unfold passStep2
  split
  · rfl
  · exact bootView_bootFrom3 s

/-- What the loss of everything volatile leaves of the view, as the reset's cause and count are set (R420, R421). -/
theorem bootView_afterLoss (s : State) (cause : BitVec 4) :
    let t := afterLoss false s
    let v := settledMap s
    bootView { t with su := { t.su with lastCause := cause, pkgResets := t.su.pkgResets + 1 } } =
      (v.mem, v.sec.tenancy, [], [], keptValues v, v.su.pkgResets + 1, cause) := by
  unfold bootView afterLoss
  rfl

/-- What a package reset keeps of a tenancy that ends, what it counts and what it clears (R386, R420, R421). -/
theorem packageReset_tenancy {s : State} (scrubbing : s.sec.tenancy = 2) : bootView (packageReset causeTenancy false s) =
    (s.mem, 2, [], [], keptValues s, s.su.pkgResets + 1, 3) := by
  let u := flushLog (applyDebug (post 0x0A08 noSite [causeTenancy] s))
  have posted : (post 0x0A08 noSite [causeTenancy] s).sec.tenancy = 2 := by rw [post_sec, scrubbing]
  have before : bootView (settledMap { u with nv := { u.nv with cleanEnd := true } }) = bootView s :=
    (bootView_settledMap { u with nv := { u.nv with cleanEnd := true } }).trans
      ((bootView_flushLog _).trans ((bootView_applyDebug posted).trans (bootView_post ..)))
  simp only [bootView, Prod.mk.injEq] at before
  obtain ⟨mem, tenancy, -, -, values, resets, -⟩ := before
  refine (bootView_passStep2 _).trans ((bootView_afterLoss { u with nv := { u.nv with cleanEnd := true } } 3).trans ?_)
  dsimp only
  unfold keptValues
  rw [mem, tenancy, values, resets, scrubbing]

/-- A value that is not kept has no entry. -/
theorem find_keptValues_of_none {s : State} {k : Nat} (none : SMap.find s.dict.values k = none) : SMap.find (keptValues s) k = Option.none := by
  unfold SMap.find at none ⊢
  rw [List.lookup_eq_none_iff] at none ⊢
  exact fun p m => none p (List.mem_of_mem_filter m)

/-- The tenancy that begins to end: SCRUBBING, its Sole tenant's identity cleared (R386). -/
theorem beginScrub_spec (cause : Nat) (s : State) : (beginScrub cause s).mem = s.mem ∧ (beginScrub cause s).sec.tenancy = 2 ∧
    (beginScrub cause s).su = s.su ∧ SMap.find (beginScrub cause s).dict.values (objKey 0x6000 2) = none := by
  let u : State := { s with sec := { s.sec with tenancy := 2 } }
  have noted : Noted u (post 0x0902 noSite [cause] (storeRecord areaState 1 u)) := (Noted.storeRecord areaState 1 u).trans (.post ..)
  unfold beginScrub
  dsimp only
  exact ⟨noted.mem, congrArg Security.tenancy noted.sec, noted.su, SMap.find_del_same ..⟩

/-- The Owner ends the tenancy (R386). -/
theorem writeEffect_endTenancy {w : Writer} {row : ObjRow} {v : BitVec 8} {s t : State}
    (done : writeEffect w row 0x6000 3 [v] s = t) :
    t.mem = s.mem ∧ t.sec.tenancy = 2 ∧ soleTenant t = [] ∧
      (resettable s = true → t.su.pkgResets = s.su.pkgResets + 1 ∧ t.su.lastCause = 3 ∧ t.sec.memKeys = [] ∧ t.sec.spdm = []) := by
  obtain ⟨mem, tenancy, su, cleared⟩ := beginScrub_spec 1 s
  have acts : writeEffect w row 0x6000 3 [v] s = if resettable (beginScrub 1 s) then packageReset causeTenancy false (beginScrub 1 s)
    else beginScrub 1 s := rfl
  have same : resettable (beginScrub 1 s) = resettable s := by unfold resettable; rw [su]
  rw [acts, same] at done
  generalize beginScrub 1 s = u at *
  subst done
  split
  case isTrue resets =>
    have reset := packageReset_tenancy tenancy
    generalize packageReset causeTenancy false u = t at *
    simp only [bootView, Prod.mk.injEq] at reset
    obtain ⟨mem', tenancy', keys, spdm, values, count, cause⟩ := reset
    refine ⟨mem'.trans mem, tenancy', ?_, fun _ => ⟨by rw [count, su], cause, keys, spdm⟩⟩
    unfold soleTenant SMap.get
    rw [values, find_keptValues_of_none cleared]
    rfl
  case isFalse holds => exact ⟨mem, tenancy, by unfold soleTenant SMap.get; rw [cleared]; rfl, fun resets => absurd resets holds⟩

/-! ### The statement -/

/-- Settles O52. Each object's row is its action on the session's state (`objectRow_acts`); the tunnel's three commands are the writes of one
object. -/
theorem objectWritesAndRepairTunnel : Obligations.ObjectWritesAndRepairTunnel := by
  refine ⟨fun r s => ⟨fun v => ?die, fun v => ?vat, fun v => ?list, fun v => ?pin, fun v => ?clock, fun v => ?tenancy, fun v => ?debug, ?begin_,
    fun data => ?chunk, ?commit, ?cancel⟩, fun r x s => ⟨fun asked => ⟨?fuseClosed, fun held => ?fuses⟩, fun asked => ⟨?softClosed, ?soft⟩,
    fun asked => ⟨?hardClosed, ?hard⟩⟩⟩
  case die => exact objectRow_acts rfl rfl fun _ _ _ _ done => (writeEffect_failedDie done :)
  case vat => exact objectRow_acts rfl rfl fun _ _ _ _ done => (writeEffect_vat done :)
  case list => exact objectRow_acts rfl rfl fun _ _ _ _ done => (writeEffect_list done :)
  case pin => exact objectRow_acts (row := levelPinRow) rfl rfl fun _ _ _ _ done => (writeEffect_levelPin done :)
  case clock => exact objectRow_acts rfl rfl fun _ _ _ _ done => (writeEffect_clock done :)
  case tenancy => exact objectRow_acts rfl rfl fun _ _ _ _ done => (writeEffect_endTenancy done :)
  case debug => exact objectRow_acts rfl rfl fun _ _ _ _ done => (writeEffect_debug done :)
  case begin_ =>
    refine objectRow_acts rfl rfl fun _ _ _ ok done => ?_
    obtain ⟨-, -, store, -, check⟩ := ok
    obtain ⟨mem, upd, nv⟩ := writeEffect_begin done (objForbids_of_check rfl check) store
    exact ⟨mem, upd, nv.trans (putImage_nv rfl rfl rfl)⟩
  case chunk =>
    refine objectRow_acts rfl rfl fun _ _ _ ok done => ?_
    obtain ⟨-, -, store, -⟩ := ok
    exact (writeEffect_chunk done store :)
  case commit =>
    refine objectRow_acts rfl rfl fun _ _ _ ok done => ?_
    obtain ⟨-, -, store, -, check⟩ := ok
    obtain ⟨mem, good, bad⟩ := writeEffect_commit done (objForbids_of_check rfl check) store
    exact ⟨mem, fun ok => ⟨(good ok).1, (good ok).2.trans (putImage_nv rfl rfl rfl)⟩, bad⟩
  case cancel => exact objectRow_acts rfl rfl fun _ _ _ _ done => (writeEffect_cancel done :)
  case fuseClosed => exact fun closed => tunnel_closed rfl asked closed
  case fuses =>
    obtain ⟨t, next, resp, mem, status, fuses, hard, soft⟩ := (objectRow_acts (c := .tunnelFuseRead r) (q := fun _ t =>
      t.tunnel.status = 2 ∧ t.tunnel.fuses.length ≤ 256 ∧ t.tunnel.hard = s.tunnel.hard ∧ t.tunnel.soft = s.tunnel.soft)
      rfl rfl fun _ _ _ _ done => (writeEffect_fuses done held :)).1 x asked
    exact ⟨t, next, resp, status, fuses, hard, soft, mem⟩
  case softClosed => exact fun closed => tunnel_closed rfl asked closed
  case soft => exact fun held => tunnel_repair false rfl asked held
  case hardClosed => exact fun closed => tunnel_closed rfl asked closed
  case hard => exact fun held => tunnel_repair true rfl asked held

end Sys2Proof.Machine

/-! PROOFS. Discovery (O55): frames, the classification of the sites and the stops.

What a classification reads stands while it writes the map, so every site, level and frame of the map is what the state before gives. -/

namespace Sys2Proof.Machine

/-! ### Start-up stops (R416) -/

/-- Whoever records it, an event that is posted is posted. -/
theorem posted_postBy (cowbell : Bool) (code site : Nat) (p : List Nat) (s : State) : Posted s (postBy cowbell code site p s) code site p := by
  refine ⟨mkEvent s code site cowbell p, rfl, rfl, rfl, rfl, ?_⟩
  rw [postBy_ev]
  dsimp only
  by_cases up : dairymanUp s
  · rw [if_pos up, if_pos up]
    simp
  · rw [if_neg up, if_neg up]
    split
    · exact .inl (by simp)
    · exact .inr (Nat.lt_succ_self _)

theorem stopStart_spec (step cause : Nat) (s : State) :
    let t := stopStart step cause s
    t.su.phase = .stopped ∧ t.su.supervisor = 4 ∧ t.mem = s.mem ∧ t.map = s.map ∧ Posted s t 0x0A05 noSite [step, cause] ∧ RecordsKept s t := by
  let u := { railsOff s with su := { s.su with phase := .stopped } }
  have phase : (postBy true 0x0A05 noSite [step, cause] u).su.phase = .stopped := by
    unfold postBy
    rfl
  have before : RecordsKept s u := .of_eq rfl rfl
  have after : RecordsKept (postBy true 0x0A05 noSite [step, cause] u) (stopStart step cause s) := .of_eq rfl rfl
  have records := before.trans ((RecordsKept.postBy true 0x0A05 noSite [step, cause] u).trans after)
  exact ⟨phase, rfl, postBy_mem true 0x0A05 noSite [step, cause] u, postBy_map true 0x0A05 noSite [step, cause] u,
    posted_postBy true 0x0A05 noSite [step, cause] u, records⟩

/-! ### The map is written (R31 to R34, R446) -/

/-- Between two states the map and the eyelets were written, and no die's site. -/
structure Charted (s t : State) : Prop where
  frame : ∃ m l, t = { s with map := m, lacing := l }
  sites : ∀ p, p < 11 → siteOf t p = siteOf s p

namespace Charted

theorem refl (s : State) : Charted s s := ⟨⟨_, _, rfl⟩, fun _ _ => rfl⟩

theorem trans {s t u : State} (h : Charted s t) (k : Charted t u) : Charted s u := by
  obtain ⟨m, l, rfl⟩ := h.frame
  obtain ⟨m', l', rfl⟩ := k.frame
  exact ⟨⟨m', l', rfl⟩, fun p small => (k.sites p small).trans (h.sites p small)⟩

theorem each {α : Type} {f : α → State → State} {l : List α} (h : ∀ a ∈ l, ∀ s, Charted s (f a s)) (s : State) : Charted s (each l f s) :=
  each_keeps (Charted s) l f (fun a m t k => k.trans (h a m t)) s (.refl s)

/-- A site that is no die's. -/
theorem setSite {i : Nat} (other : 11 ≤ i) (state reason : Nat) (s : State) : Charted s (setSite i state reason s) :=
  ⟨⟨_, _, rfl⟩, fun p small => siteOf_setSite_other state reason s (by omega)⟩

theorem updEye (e : Nat) (f : Eyelet → Eyelet) (s : State) : Charted s (updEye s e f) := ⟨⟨_, _, rfl⟩, fun _ _ => rfl⟩

end Charted

/-- What a die's site is to read: its STATE, REASON and identity (R25, R33). -/
def dieSite (s : State) (p : Nat) : SiteState where
  state := BitVec.ofNat 3 (dieState s p).1
  dieType := (frameOf s p).dieType
  generation := (frameOf s p).generation
  reason := BitVec.ofNat 8 (dieState s p).2

/-- The sites of the dies, written one by one. -/
theorem each_writeDieSite (l : List Nat) (s : State) : ∃ m, each l writeDieSite s = { s with map := m } ∧
    ∀ p, siteOf { s with map := m } p = if p ∈ l then dieSite s p else siteOf s p := by
  induction l generalizing s with
  | nil => exact ⟨s.map, rfl, fun p => by simp⟩
  | cons q l ih =>
    have wrote : writeDieSite q s = { s with map := { s.map with sites := SMap.set {} s.map.sites q (dieSite s q) } } := rfl
    obtain ⟨m, rest, sites⟩ := ih (writeDieSite q s)
    rw [wrote] at rest sites
    refine ⟨m, by rw [each_cons, wrote, rest], fun p => (sites p).trans ?_⟩
    by_cases later : p ∈ l
    · rw [if_pos later, if_pos (List.mem_cons_of_mem q later)]
      rfl
    · rw [if_neg later]
      by_cases own : p = q
      · rw [if_pos (by simp [own]), own]
        exact SMap.get_set_same ..
      · rw [if_neg (by simp [own, later])]
        exact SMap.get_set_other _ _ _ _ own

/-- The sites that are no die's, and the eyelets that are not fitted. -/
def chartSites (s : State) : State :=
  let s := each (fittedUnits s.variant) (fun u s => let (st, r) := unitSite s u; setSite (siteUnit u) st r s) s
  let s := setSite siteW stPresent 0 s
  let s := each (fittedEyes s.variant) (fun e s => setSite (siteEye e) stPresent 0 s) s
  let s := each ((List.range 32).filter fun e => !(fittedEyes s.variant).contains e) (fun e s => updEye s e fun x => { x with state := .absent }) s
  let s := each (fittedInlets s.variant) (fun i s => setSite (siteInlet i) stPresent 0 s) s
  each [84, 85] (fun i s => setSite i stPresent 0 s) s

/-- The vats of the dies in service, and what the map says besides sites. -/
def chartCaps (s : State) : State :=
  let live := (List.range 8).filter (siteUp s)
  let s := each live markVats s
  { s with map := { s.map with
      linkVer := BitVec.ofNat 8 (linkFixed s), effBl := BitVec.ofNat 8 (levelFixed s), changeCount := 1, caps := capsFixed s,
      units := live.foldl (fun m d => SMap.set {} m d (unitMapFor s d)) [],
      cores := ([0, 1].filter fun m => siteUp s (8 + m)).foldl
        (fun c m => SMap.set 0 c m (BitVec.ofNat 72 (bits (frameOf s (8 + m)).repair.toNat 0 72))) [] } }

theorem writeMap_eq (s : State) : writeMap s = chartCaps (chartSites (each (fittedDies s.variant) writeDieSite s)) := rfl

theorem chartCaps_spec (s : State) : ∃ x d, chartCaps s = { s with map := x, dies := d } ∧ x.effBl = BitVec.ofNat 8 (levelFixed s) ∧
    x.linkVer = BitVec.ofNat 8 (linkFixed s) ∧ x.caps = capsFixed s ∧ x.changeCount = 1 ∧ x.sites = s.map.sites := by
  have marked : ∃ d, each ((List.range 8).filter (siteUp s)) markVats s = { s with dies := d } := by
    refine each_keeps (fun t => ∃ d, t = { s with dies := d }) _ _ (fun k _ t h => ?_) s ⟨_, rfl⟩
    obtain ⟨d, rfl⟩ := h
    exact ⟨_, rfl⟩
  obtain ⟨d, marked⟩ := marked
  unfold chartCaps
  dsimp only
  rw [marked]
  exact ⟨_, d, rfl, rfl, rfl, rfl, rfl, rfl⟩

theorem chartSites_charted (s : State) : Charted s (chartSites s) := by
  have units : ∀ s, Charted s (each (fittedUnits s.variant) (fun u s => let (st, r) := unitSite s u; setSite (siteUnit u) st r s) s) :=
    fun s => .each (fun u _ s => Charted.setSite (i := siteUnit u) (by unfold siteUnit; omega) _ _ s) s
  have eyes : ∀ s, Charted s (each (fittedEyes s.variant) (fun e s => setSite (siteEye e) stPresent 0 s) s) :=
    fun s => .each (fun e _ s => Charted.setSite (i := siteEye e) (by unfold siteEye; omega) _ _ s) s
  have absent : ∀ s, Charted s (each ((List.range 32).filter fun e => !(fittedEyes s.variant).contains e)
      (fun e s => updEye s e fun x => { x with state := .absent }) s) := fun s => .each (fun e _ s => .updEye e _ s) s
  have inlets : ∀ s, Charted s (each (fittedInlets s.variant) (fun i s => setSite (siteInlet i) stPresent 0 s) s) :=
    fun s => .each (fun n _ s => Charted.setSite (i := siteInlet n) (by unfold siteInlet; omega) _ _ s) s
  have ports : ∀ s, Charted s (each [84, 85] (fun i s => setSite i stPresent 0 s) s) :=
    fun s => (Charted.setSite (i := 84) (by decide) _ _ s).trans (.setSite (i := 85) (by decide) _ _ _)
  exact (units s).trans ((Charted.setSite (i := siteW) (by decide) _ _ _).trans ((eyes _).trans ((absent _).trans ((inlets _).trans
    (ports _)))))

/-- Every fitted die's number is a die's. -/
theorem fittedDies_small {v : Variant} {p : Nat} (fitted : p ∈ fittedDies v) : p < 11 := by
  cases v <;> simp [fittedDies] at fitted <;> omega

/-- The map holds the level, the link version and the shared capabilities as the frames, the pin and the records give them, and each fitted die's
site (R25 to R34). -/
theorem writeMap_spec (s : State) : ∃ m d l, writeMap s = { s with map := m, dies := d, lacing := l } ∧
    m.effBl = BitVec.ofNat 8 (levelFixed s) ∧ m.linkVer = BitVec.ofNat 8 (linkFixed s) ∧ m.caps = capsFixed s ∧ m.changeCount = 1 ∧
    ∀ p ∈ fittedDies s.variant, SMap.get {} m.sites p = dieSite s p := by
  obtain ⟨m, dies, sites⟩ := each_writeDieSite (fittedDies s.variant) s
  obtain ⟨⟨m', l, charted⟩, kept⟩ := chartSites_charted { s with map := m }
  obtain ⟨x, d, caps, level, link, shared, count, same⟩ := chartCaps_spec { s with map := m', lacing := l }
  refine ⟨x, d, l, by rw [writeMap_eq, dies, charted, caps], level, link, shared, count, fun p fitted => ?_⟩
  have site := (kept p (fittedDies_small fitted)).trans (sites p)
  rw [if_pos fitted, charted] at site
  rw [same]
  exact site

/-! ### The sites are classified and configured (R25 to R30) -/

theorem sendConfigs_classified (s : State) : Classified s (sendConfigs (writeMap s)) ∧ (sendConfigs (writeMap s)).mem = s.mem := by
  obtain ⟨m, d, l, wrote, level, link, caps, count, sites⟩ := writeMap_spec s
  rw [wrote]
  exact ⟨⟨rfl, level, link, caps, count, sites, rfl⟩, rfl⟩

theorem classify_sends {s : State} (io : SMap.find s.disc.frames siteIO ≠ none) (levels : ioBlMask s ≠ 0)
    (pin : pinNow s = 0 ∨ (ioBlMask s).testBit (pinNow s - 1) = true) : classify s = sendConfigs (writeMap s) := by
  unfold classify
  rw [if_neg (by simpa using io), if_neg levels, if_neg (by simpa [or_iff_not_imp_left] using pin)]

theorem classify_noIo {s : State} (io : SMap.find s.disc.frames siteIO = none) : classify s = stopStart 4 stopIoFrame s :=
  if_pos (by rw [io]; rfl)

theorem classify_noLevel {s : State} (io : SMap.find s.disc.frames siteIO ≠ none) (levels : ioBlMask s = 0) :
    classify s = stopStart 4 stopNoLevel s := by
  unfold classify
  rw [if_neg (by simpa using io), if_pos levels]

theorem classify_pinLacks {s : State} (io : SMap.find s.disc.frames siteIO ≠ none) (levels : ioBlMask s ≠ 0)
    (pin : ¬(pinNow s = 0 ∨ (ioBlMask s).testBit (pinNow s - 1) = true)) : classify s = stopStart 4 stopPinLacking s := by
  unfold classify
  rw [if_neg (by simpa using io), if_neg levels, if_pos (by simpa using pin)]

theorem afterClassify_idle {s : State} (waits : s.su.phase = .config → s.disc.sentAt ≠ []) : afterClassify s = s :=
  if_neg fun h => by
    obtain ⟨config, empty⟩ := Bool.and_eq_true_iff.mp h
    exact waits (of_decide_eq_true config) (List.isEmpty_iff.mp empty)

/-- With a die to configure, discovery goes on to the acknowledgements (R30). -/
theorem afterClassify_sendConfigs {s : State} (some_ : configured s ≠ []) : afterClassify (sendConfigs s) = sendConfigs s :=
  afterClassify_idle fun _ => fun empty => some_ (List.map_eq_nil_iff.mp empty)

/-- A stop ends discovery. -/
theorem afterClassify_stopStart (step cause : Nat) (s : State) : afterClassify (stopStart step cause s) = stopStart step cause s :=
  afterClassify_idle fun config => by rw [(stopStart_spec step cause s).1] at config; cases config

/-! ### Identity frames and the window (R23, R25) -/

theorem takeFrame_idle {p : Nat} {f : List Byte} {s : State} (idle : ¬(s.su.phase = .discovery ∧ dairymanUp s = true) ∨ isFitted s p = false) :
    takeFrame p f s = s := if_pos (by by_cases phase : s.su.phase = .discovery <;> by_cases up : dairymanUp s = true <;> simp_all)

theorem takeFrame_live {p : Nat} {f : List Byte} {s : State} (phase : s.su.phase = .discovery) (up : dairymanUp s = true)
    (fitted : isFitted s p = true) : takeFrame p f s =
      if frameGood 1 f then
        let u := { s with disc := { s.disc with frames := SMap.put s.disc.frames p (parseIdentity f) } }
        if allFrames u then classify u else u
      else { s with disc := { s.disc with bad := if s.disc.bad.contains p then s.disc.bad else p :: s.disc.bad } } :=
  if_neg (by simp [phase, up, fitted])

/-- The I/O die is always fitted. -/
theorem io_fitted (v : Variant) : siteIO ∈ fittedDies v := by cases v <;> decide

theorem io_of_allFrames {s : State} (all : allFrames s = true) : SMap.find s.disc.frames siteIO ≠ none := by
  have io := List.all_eq_true.mp all siteIO (io_fitted _)
  exact fun none => by rw [none] at io; cases io

theorem windowEnd_open {s : State} (ended : ¬((s.su.phase = .discovery ∧ dairymanUp s = true) ∧ ∃ a, s.disc.opened = some a ∧ 4000000 ≤ since s a)) :
    windowEnd s = s := by
  have closed : (s.su.phase = .discovery && dairymanUp s && s.disc.opened.any fun t => msTicks 40 ≤ since s t) = false := by
    rw [Bool.eq_false_iff]
    intro h
    simp only [Bool.and_eq_true, decide_eq_true_eq, Option.any_eq_true] at h
    exact ended h
  unfold windowEnd
  rw [closed]
  rfl

theorem windowEnd_ended {s : State} {a : BitVec 64} (phase : s.su.phase = .discovery) (up : dairymanUp s = true) (opened : s.disc.opened = some a)
    (late : 4000000 ≤ since s a) : windowEnd s = classify s := by
  unfold windowEnd
  rw [phase, up, opened]
  exact if_pos (by simpa using (show msTicks 40 ≤ since s a from late))

end Sys2Proof.Machine

/-! PROOFS. Acknowledgements and soft starts (O55).

Once discovery is past, start-up may run on through training to readiness within one command. Whatever it reaches, memory stands, no record is
lost, a site out of service stays as it is and the phase is never that of the acknowledgements again (`Onward`). -/

namespace Sys2Proof.Machine

/-! ### Start-up goes on -/

/-- What start-up keeps from the soft starts on. -/
structure Onward (s t : State) : Prop where
  mem : t.mem = s.mem
  records : RecordsKept s t
  phase : s.su.phase ≠ .config → t.su.phase ≠ .config
  sites : ∀ i, i < 48 → siteUp s i = false → siteOf t i = siteOf s i

namespace Onward

theorem refl (s : State) : Onward s s := ⟨rfl, .refl s, id, fun _ _ _ => rfl⟩

theorem trans {s t u : State} (h : Onward s t) (k : Onward t u) : Onward s u :=
  ⟨k.mem.trans h.mem, h.records.trans k.records, k.phase ∘ h.phase, fun i small down =>
    (k.sites i small (by unfold siteUp at down ⊢; rwa [h.sites i small down])).trans (h.sites i small down)⟩

/-- A step that leaves memory, the records, the phase and the map. -/
theorem of_quiet {s t : State} (mem : t.mem = s.mem) (ev : t.ev = s.ev) (su : t.su = s.su) (map : t.map = s.map) : Onward s t :=
  ⟨mem, .of_eq ev (by unfold dairymanUp; rw [su]), by rw [su]; exact id, fun i _ _ => by unfold siteOf; rw [map]⟩

/-- A phase that is entered, and other registers of start-up. -/
theorem setSu {s : State} {x : Startup} (dairyman : x.dairyman = s.su.dairyman) (down : x.down = s.su.down) (phase : x.phase ≠ .config) :
    Onward s { s with su := x } :=
  ⟨rfl, .of_eq rfl (by unfold dairymanUp; rw [dairyman, down]), fun _ => phase, fun _ _ _ => rfl⟩

theorem drew (s : State) : Onward s (drew s) := .of_quiet rfl rfl rfl rfl
theorem updUnit (u : Nat) (f : MemUnit → MemUnit) (s : State) : Onward s (updUnit s u f) := .of_quiet rfl rfl rfl rfl
theorem setNv (s : State) (x : NvStore) : Onward s { s with nv := x } := .of_quiet rfl rfl rfl rfl
theorem setLacing (s : State) (x : Lacing) : Onward s { s with lacing := x } := .of_quiet rfl rfl rfl rfl

theorem each {α : Type} {f : α → State → State} {l : List α} (h : ∀ a ∈ l, ∀ s, Onward s (f a s)) (s : State) : Onward s (each l f s) :=
  each_keeps (Onward s) l f (fun a m t k => k.trans (h a m t)) s (.refl s)

theorem post (code site : Nat) (p : List Nat) (s : State) : Onward s (post code site p s) :=
  ⟨post_mem .., .post code site p s, by rw [post_su]; exact id, fun i _ _ => by unfold siteOf; rw [post_map]⟩

theorem noted {s t : State} (h : Noted s t) : Onward s t :=
  ⟨h.mem, h.records, by rw [h.su]; exact id, fun i _ _ => by unfold siteOf; rw [h.map]⟩

theorem stopStart (step cause : Nat) (s : State) : Onward s (stopStart step cause s) := by
  obtain ⟨phase, -, mem, map, -, records⟩ := stopStart_spec step cause s
  exact ⟨mem, records, fun _ => by rw [phase]; decide, fun i _ _ => by unfold siteOf; rw [map]⟩

/-- A site that is in service may change. -/
theorem setSite {s t : State} {i : Nat} (h : Onward s t) (up : i < 48 → siteUp s i = true) (state reason : Nat) :
    Onward s (setSite i state reason t) :=
  ⟨h.mem, h.records.trans (.of_eq rfl rfl), h.phase, fun j small down => by
    rw [siteOf_setSite_other _ _ _ fun eq => by subst eq; simp [up small] at down]
    exact h.sites j small down⟩

end Onward

/-! ### Training (R321 to R324) -/

theorem slowAt_onward (step : Nat) {s : State} {act : State → State} (h : Onward s (act s)) : Onward s (slowAt step s act) := by
  unfold slowAt
  split
  · exact .stopStart ..
  · exact h

/-- A unit in service that training leaves out. -/
theorem leaveOut_onward {s t : State} {u : Nat} (h : Onward s t) (up : siteUp s (siteUnit u) = true) (code : Nat) (p : List Nat) :
    Onward s (leaveOut u code p t) :=
  (h.setSite (fun _ => up) stFault 5).trans (.post ..)

theorem trainStack_onward (k : Nat) (s : State) : Onward s (trainStack k s) := by
  unfold trainStack
  dsimp only
  split
  · exact .refl s
  next up =>
    have unit : siteUp s (siteUnit k) = true := by simpa using up
    split
    · exact leaveOut_onward (.refl s) unit ..
    · split
      · exact leaveOut_onward (.drew s) unit ..
      · exact (Onward.updUnit k _ s).trans (.each (fun _ _ s => .post ..) _)

theorem trainDie_onward (m : Nat) (s : State) : Onward s (trainDie m s) := by
  unfold trainDie
  refine each_keeps (Onward s) _ _ (fun ch listed t h => ?_) s (.refl s)
  have unit : siteUp s (siteUnit (16 + ch)) = true := by
    have both := (List.mem_filter.mp listed).2
    exact (Bool.and_eq_true_iff.mp both).1
  dsimp only
  split
  · exact leaveOut_onward h unit ..
  · split
    · exact leaveOut_onward h unit ..
    · split
      · exact leaveOut_onward (h.trans (.drew t)) unit ..
      · exact h.trans (.updUnit ..)

/-! ### The domain, the cores and the network (R413 steps 8 to 10) -/

theorem compareUnits_onward (s : State) : Onward s (compareUnits s) := by
  unfold compareUnits
  dsimp only
  split
  · exact .setNv ..
  · have reset : ∀ t : State, Onward t (resetMap t) := fun t => .of_quiet rfl rfl rfl rfl
    exact (Onward.setNv s _).trans ((reset _).trans (.post _ _ _ _))

theorem eyeTrain_su (e : Nat) (s : State) : (eyeTrain e s).su = s.su := by
  unfold eyeTrain
  dsimp only
  split
  · rfl
  · split
    · exact post_su ..
    · rfl

theorem eyeTrain_onward (e : Nat) (s : State) : Onward s (eyeTrain e s) := by
  have moves := eyeTrain_moves e s
  exact ⟨moves.mem, moves.records, by rw [eyeTrain_su]; exact id, fun i small _ => moves.sites i fun j m => by
    unfold siteEye; omega⟩

theorem ready_onward (s : State) : Onward s (ready s) := by
  unfold ready
  dsimp only
  have running : Onward s (setSupervisor 1 { s with su := { s.su with phase := .running, readyTick := s.time } }) :=
    Onward.setSu (s := s) rfl rfl nofun
  exact running.trans (.post ..)

theorem joinNetwork_onward (s : State) : Onward s (joinNetwork s) := by
  refine slowAt_onward 10 ?_
  have trained : Onward s (each (fittedEyes s.variant) eyeTrain s) := .each (fun e _ s => eyeTrain_onward e s) s
  dsimp only
  generalize each (fittedEyes s.variant) eyeTrain s = t at trained
  exact trained.trans ((Onward.setLacing t _).trans (ready_onward _))

theorem startCores_onward (s : State) : Onward s (startCores s) := by
  refine slowAt_onward 9 ?_
  dsimp only
  split
  · exact (Onward.post _ _ _ s).trans ((Onward.post _ _ _ _).trans (.stopStart ..))
  next i _ =>
    have kept : ∀ t, Onward t (if t.nv.coreMin.toNat < i.version.toNat then
        storeRecord areaState 2 { t with nv := { t.nv with coreMin := i.version } } else t) := fun t => by
      split
      · exact (Onward.setNv t _).trans (.noted (.storeRecord ..))
      · exact .refl t
    have digest : ∀ t : State, Onward t { t with su := { t.su with coreDigest := i.digest } } := fun t =>
      ⟨rfl, .of_eq rfl rfl, id, fun _ _ _ => rfl⟩
    have harts : ∀ t, Onward t (restartHarts t) := fun t => .of_quiet rfl rfl rfl rfl
    exact (kept s).trans ((digest _).trans ((harts _).trans (joinNetwork_onward _)))

theorem formDomain_onward (s : State) : Onward s (formDomain s) := by
  refine slowAt_onward 8 ?_
  have withdrawn : ∀ t : State, Onward t { t with sep := { t.sep with withdrawn := listedGranules t } } := fun t => .of_quiet rfl rfl rfl rfl
  have granules : ∀ t : State, Onward t (each (unitsNow t) (fun u s => updUnit s u.1 (fun x =>
      { x with granules := BitVec.ofNat 24 (u.2 - (SMap.get [] s.nv.lists u.1).length) })) t) := fun t => .each (fun u _ s => .updUnit ..) t
  have origin : ∀ t : State, Onward t (storeRecord areaState 1 { t with nv := { t.nv with origin := t.nv.origin + 1 } }) := fun t =>
    (Onward.setNv t _).trans (.noted (.storeRecord ..))
  exact (compareUnits_onward s).trans ((withdrawn _).trans ((granules _).trans ((origin _).trans (startCores_onward _))))

/-- Step 7 and what follows once a channel trained (R323, R386). -/
def trainChannels (s : State) : State :=
  if (moduleIn s 0).isNone then stopStart 7 stopD0Empty (post 0x0306 (siteUnit 16) [0, 1] s)
  else
    let s := trainDie 1 (trainDie 0 s)
    if !anyChannel s then stopStart 7 stopNoChannel s
    else if s.sec.tenancy = 2 then
      { s with su := { s.su with phase := .zeroFill }, sec := { s.sec with fillStart := some s.time } }
    else formDomain s

theorem train_eq (s : State) : train s =
    slowAt 6 (setSupervisor 0 { s with su := { s.su with stepStart := s.time } }) fun s =>
      slowAt 7 (each (List.range 16) trainStack s) trainChannels := rfl

theorem trainChannels_onward (s : State) : Onward s (trainChannels s) := by
  have dies : Onward s (trainDie 1 (trainDie 0 s)) := (trainDie_onward 0 s).trans (trainDie_onward 1 _)
  have fill : ∀ t : State, Onward t { t with su := { t.su with phase := .zeroFill }, sec := { t.sec with fillStart := some t.time } } :=
    fun t => ⟨rfl, .of_eq rfl rfl, fun _ => nofun, fun _ _ _ => rfl⟩
  unfold trainChannels
  dsimp only
  generalize trainDie 1 (trainDie 0 s) = t at dies
  split
  · exact (Onward.post _ _ _ s).trans (.stopStart ..)
  · split
    · exact dies.trans (.stopStart ..)
    · split
      · exact dies.trans (fill t)
      · exact dies.trans (formDomain_onward t)

theorem train_onward (s : State) : Onward s (train s) := by
  have begins : Onward s (setSupervisor 0 { s with su := { s.su with stepStart := s.time } }) := ⟨rfl, .of_eq rfl rfl, id, fun _ _ _ => rfl⟩
  have trained : ∀ t, Onward t (each (List.range 16) trainStack t) := fun t => .each (fun k _ s => trainStack_onward k s) t
  rw [train_eq]
  exact begins.trans (slowAt_onward 6 ((trained _).trans (slowAt_onward 7 (trainChannels_onward _))))

/-- Start-up holds, or training begins (R413, R421). -/
theorem holdOrTrain_onward (s : State) : Onward s (holdOrTrain s) := by
  have held : ∀ (t : State) (r : Bool), Onward t (setSupervisor 3 { t with su := { t.su with phase := .held, heldByRecord := r } }) :=
    fun t r => ⟨rfl, .of_eq rfl rfl, fun _ => nofun, fun _ _ _ => rfl⟩
  have power : ∀ t : State, Onward t (if t.su.pwrgood then t else post 0x0A06 noSite [0] t) := fun t => by
    split
    · exact .refl t
    · exact .post ..
  have consumed : ∀ (t : State) (r : Bool), Onward t (if r then
      storeRecord areaState 1 (post 0x0A06 noSite [1] { t with nv := { t.nv with holdRecord := false } }) else t) := fun t r => by
    split
    · exact (Onward.setNv t _).trans ((Onward.post _ _ _ _).trans (.noted (.storeRecord ..)))
    · exact .refl t
  unfold holdOrTrain
  dsimp only
  split
  · exact train_onward s
  · exact (held s _).trans ((power _).trans (consumed _ _))

/-! ### Soft starts begin and end (R353, R354) -/

theorem settleRails_onward (s : State) : Onward s (settleRails s) := by
  unfold settleRails
  split
  · exact .refl s
  · split
    · exact .stopStart ..
    · exact holdOrTrain_onward s

/-- A rail that is wanted and not good keeps the soft starts open. -/
theorem settleRails_open {s : State} {i : Nat} {b : RailId} (listed : i ∈ softOrder) (up : siteUp s i = true) (rail : b ∈ railsOf i)
    (wanted : railWanted s b = true) (bad : railGood s b = false) : settleRails s = s := by
  have waits : softOrder.all (fun i => !siteUp s i || (railsOf i).all fun r => !railWanted s r || railGood s r) = false := by
    rw [Bool.eq_false_iff]
    intro all
    have site := List.all_eq_true.mp all i listed
    rw [up, Bool.not_true, Bool.false_or] at site
    have own := List.all_eq_true.mp site b rail
    simp [wanted, bad] at own
  unfold settleRails
  rw [waits]
  rfl

/-- The rails begin to ramp: the phase of the acknowledgements is over. -/
theorem beginSoft_onward (s : State) : (beginSoft s).mem = s.mem ∧ RecordsKept s (beginSoft s) ∧ (beginSoft s).su.phase ≠ .config ∧
    ∀ i, i < 48 → siteUp s i = false → siteOf (beginSoft s) i = siteOf s i := by
  let u : State := { s with su := { s.su with phase := .softStart, stepStart := s.time } }
  have soft : ∀ (k : Nat) (t : State), Onward t (updRail t k (fun x => { x with state := .softStart })) := fun k t => .of_quiet rfl rfl rfl rfl
  have ramps : Onward u (beginSoft s) :=
    (Onward.each (fun k _ t => soft k t) u).trans ((Onward.each (fun k _ t => soft (16 + k) t) _).trans (settleRails_onward _))
  have start : RecordsKept s u := .of_eq rfl rfl
  exact ⟨ramps.mem, start.trans ramps.records, ramps.phase nofun, ramps.sites⟩

end Sys2Proof.Machine

/-! PROOFS. Acknowledgements, ramps and retries (O55). -/

namespace Sys2Proof.Machine

/-! ### A site is taken out of service (R25, R354, R447) -/

/-- A die's site reads FAULT for a reason with its memory, and its units or cores leave the map. -/
def takeSiteOut (i reason : Nat) (s : State) : State :=
  let s := setMemorySites i stFault reason (setSite i stFault reason s)
  if i < 8 then clearUnitMap i s else { s with map := { s.map with cores := SMap.del s.map.cores (i - 8) } }

theorem setMemorySites_frame (i state reason : Nat) (s : State) : ∃ m, setMemorySites i state reason s = { s with map := m } ∧
    ∀ j, j < 16 → siteOf { s with map := m } j = siteOf s j := by
  refine each_keeps (fun t => ∃ m, t = { s with map := m } ∧ ∀ j, j < 16 → siteOf { s with map := m } j = siteOf s j) _ _
    (fun u _ t h => ?_) s ⟨s.map, rfl, fun _ _ => rfl⟩
  obtain ⟨m, rfl, kept⟩ := h
  split
  · exact ⟨m, rfl, kept⟩
  · refine ⟨_, rfl, fun j small => (siteOf_setSite_other state reason { s with map := m } ?_).trans (kept j small)⟩
    unfold siteUnit
    omega

theorem takeSiteOut_spec {i : Nat} (die : i < 16) (reason : Nat) (s : State) : ∃ m, takeSiteOut i reason s = { s with map := m } ∧
    (siteOf { s with map := m } i).state = 2 ∧ (siteOf { s with map := m } i).reason = BitVec.ofNat 8 reason := by
  obtain ⟨m, memory, kept⟩ := setMemorySites_frame i stFault reason (setSite i stFault reason s)
  have site := (kept i die).trans (siteOf_setSite_same i stFault reason s)
  unfold takeSiteOut
  dsimp only
  rw [memory]
  split <;> exact ⟨_, rfl, congrArg SiteState.state site, congrArg SiteState.reason site⟩

/-! ### Acknowledgements (R25, R30) -/

theorem settleConfig_waits {s : State} {q : Nat × BitVec 64} (sent : q ∈ s.disc.sentAt) (due : s.disc.acked.contains q.1 = false)
    (up : siteUp s q.1 = true) : settleConfig s = s := by
  refine if_neg fun all => ?_
  have own := List.all_eq_true.mp all q sent
  simp only [due, up] at own
  exact absurd own (by decide)

theorem settleConfig_ends {s : State} (done : ¬∃ q ∈ s.disc.sentAt, s.disc.acked.contains q.1 = false ∧ siteUp s q.1 = true) :
    settleConfig s = beginSoft s := by
  refine if_pos (List.all_eq_true.mpr fun q sent => ?_)
  by_contra waits
  simp only [Bool.or_eq_true, Bool.not_eq_true', not_or, Bool.not_eq_true, Bool.not_eq_false] at waits
  exact done ⟨q, sent, waits.1, waits.2⟩

/-- An acknowledgement is awaited from a port. -/
def AckDue (s : State) (p : Nat) : Prop :=
  s.su.phase = .config ∧ dairymanUp s = true ∧ s.disc.acked.contains p = false ∧ siteUp s p = true

theorem configAck_idle {p : Nat} {f : List Byte} {s : State} (idle : frameGood 3 f = false ∨ ¬AckDue s p) : configAck p f s = s := by
  refine if_pos ?_
  by_contra takes
  simp only [Bool.or_eq_true, decide_eq_true_eq, Bool.not_eq_true', not_or, ne_eq, not_not, Bool.not_eq_true, Bool.not_eq_false] at takes
  obtain ⟨⟨⟨⟨⟨phase, dairyman⟩, -⟩, acked⟩, up⟩, good⟩ := takes
  obtain bad | undue := idle
  · exact absurd good (by rw [show frameGood frameAck f = false from bad]; decide)
  · exact undue ⟨phase, dairyman, acked, up⟩

theorem configAck_due {p : Nat} {f : List Byte} {s : State} (due : AckDue s p) (config : (SMap.find s.disc.config p).isSome = true)
    (good : frameGood 3 f = true) : configAck p f s = settleConfig { s with disc := { s.disc with acked := p :: s.disc.acked } } := by
  obtain ⟨phase, up, acked, site⟩ := due
  have some_ : (SMap.find s.disc.config p).isNone = false := by simpa [Option.isSome_iff_ne_none] using config
  refine if_neg ?_
  rw [phase, up, acked, site, some_, show frameGood frameAck f = true from good]
  decide

/-- Who is waited for once a port has acknowledged. -/
theorem acked_cons {s : State} {p q : Nat} : (p :: s.disc.acked).contains q = false ↔ q ≠ p ∧ s.disc.acked.contains q = false := by
  simp

theorem ackLate_early {p : Nat} {s : State} {a : BitVec 64} (sent : SMap.find s.disc.sentAt p = some a) (early : since s a < 500000) :
    ackLate p s = s := by
  refine if_pos ?_
  have soon : (SMap.find s.disc.sentAt p).any (fun t => msTicks 5 ≤ since s t) = false := by
    rw [sent]
    exact decide_eq_false early.not_ge
  simp only [soon, Bool.not_false, Bool.or_true]

theorem ackLate_late {p : Nat} {s : State} {a : BitVec 64} (sent : SMap.find s.disc.sentAt p = some a) (late : 500000 ≤ since s a)
    (due : AckDue s p) : ackLate p s = settleConfig (takeSiteOut p 3 s) := by
  obtain ⟨phase, up, acked, site⟩ := due
  have lapsed : (SMap.find s.disc.sentAt p).any (fun t => msTicks 5 ≤ since s t) = true := by
    rw [sent]
    exact decide_eq_true late
  refine if_neg ?_
  rw [phase, up, acked, site, lapsed]
  decide

/-- What settles the acknowledgements keeps memory and the sites out of service. -/
theorem settleConfig_keeps (s : State) : (settleConfig s).mem = s.mem ∧
    ∀ i, i < 48 → siteUp s i = false → siteOf (settleConfig s) i = siteOf s i := by
  unfold settleConfig
  split
  · obtain ⟨mem, -, -, sites⟩ := beginSoft_onward s
    exact ⟨mem, sites⟩
  · exact ⟨rfl, fun _ _ _ => rfl⟩

/-- A die that does not acknowledge in 5 ms reads FAULT (R25). -/
theorem ackLate_spec {p : Nat} {s : State} {a : BitVec 64} (sent : SMap.find s.disc.sentAt p = some a) (late : 500000 ≤ since s a)
    (due : AckDue s p) (die : p < 11) :
    (siteOf (ackLate p s) p).state = 2 ∧ (siteOf (ackLate p s) p).reason = 3 ∧ (ackLate p s).mem = s.mem := by
  obtain ⟨m, out, state, reason⟩ := takeSiteOut_spec (i := p) (by omega) 3 s
  have down : siteUp { s with map := m } p = false := by unfold siteUp; rw [state]; rfl
  obtain ⟨mem, sites⟩ := settleConfig_keeps { s with map := m }
  rw [ackLate_late sent late due, out, sites p (by omega) down]
  exact ⟨state, reason, mem⟩

/-! ### Ramps (R353, R354) -/

theorem lineOf_updLine_same (k : Nat) (f : RailLine → RailLine) (s : State) : lineOf (updLine k f s) k = f (lineOf s k) := by
  simp only [lineOf, updLine, SMap.get_upd_same]

theorem lineOf_updLine_other {j k : Nat} (f : RailLine → RailLine) (s : State) (h : j ≠ k) : lineOf (updLine k f s) j = lineOf s j := by
  simp only [lineOf, updLine, SMap.get_upd_other _ _ _ h]

theorem mem_softOrder {i : Nat} (die : i < 10) : i ∈ softOrder := by
  simp only [softOrder, List.mem_cons, List.not_mem_nil]
  omega

/-- A rail that is wanted is one of a site in service, in the Dairyman's order. -/
theorem railWanted_listed {s : State} {r : RailId} (wanted : railWanted s r = true) :
    ∃ i, i ∈ softOrder ∧ siteUp s i = true ∧ r ∈ railsOf i := by
  cases r with
  | logic i =>
    simp only [railWanted, Bool.and_eq_true, decide_eq_true_eq] at wanted
    refine ⟨i, mem_softOrder wanted.1, wanted.2, ?_⟩
    unfold railsOf
    split <;> simp
  | memory i =>
    simp only [railWanted, Bool.and_eq_true, decide_eq_true_eq] at wanted
    refine ⟨i, mem_softOrder wanted.1, wanted.2, ?_⟩
    unfold railsOf
    split <;> simp
  | stack k =>
    simp only [railWanted, Bool.and_eq_true, decide_eq_true_eq] at wanted
    obtain ⟨⟨small, up⟩, -⟩ := wanted
    refine ⟨k / 2, mem_softOrder (by omega), up, ?_⟩
    unfold railsOf
    rw [if_pos (by omega)]
    simp only [List.mem_cons, RailId.stack.injEq, reduceCtorEq, List.not_mem_nil, or_false, false_or]
    omega

/-- The site of a rail that is wanted has a number below 48. -/
theorem railSite_small {s : State} {r : RailId} (wanted : railWanted s r = true) : railSite r < 48 := by
  cases r <;> simp only [railWanted, Bool.and_eq_true, decide_eq_true_eq] at wanted <;> simp only [railSite] <;> omega

/-- The rail of a line. -/
def railOfKey (k : Nat) : RailId := if k < 16 then .logic k else if k < 32 then .memory (k - 16) else .stack (k - 32)

theorem railOfKey_railKey {s : State} {r : RailId} (wanted : railWanted s r = true) : railOfKey (railKey r) = r := by
  cases r with
  | logic i =>
    simp only [railWanted, Bool.and_eq_true, decide_eq_true_eq] at wanted
    exact if_pos (by simp only [railKey]; omega)
  | memory i =>
    simp only [railWanted, Bool.and_eq_true, decide_eq_true_eq] at wanted
    exact (if_neg (by simp only [railKey]; omega)).trans ((if_pos (by simp only [railKey]; omega)).trans
      (congrArg RailId.memory (Nat.add_sub_cancel_left 16 i)))
  | stack k =>
    exact (if_neg (by simp only [railKey]; omega)).trans ((if_neg (by simp only [railKey]; omega)).trans
      (congrArg RailId.stack (Nat.add_sub_cancel_left 32 k)))

/-- Rails that are wanted have lines of their own. -/
theorem railKey_inj {s : State} {r b : RailId} (wanted : railWanted s r = true) (other : railWanted s b = true)
    (key : railKey b = railKey r) : b = r := by
  rw [← railOfKey_railKey wanted, ← railOfKey_railKey other, key]

/-- A ramp of a rail may end (R354). -/
def Ramps (s : State) (r : RailId) : Prop :=
  s.su.phase = .softStart ∧ dairymanUp s = true ∧ railWanted s r = true ∧ railGood s r = false ∧ (lineOf s (railKey r)).retryAt = none ∧
    ∀ b ∈ railBefore r, railGood s b = true

theorem Ramps.wanted {s : State} {r : RailId} (h : Ramps s r) : railWanted s r = true := by
  obtain ⟨-, -, wanted, -⟩ := h
  exact wanted

theorem rampEnd_idle {r : RailId} {s : State} (idle : ¬Ramps s r) (ok : Bool) : rampEnd r ok s = s := by
  refine if_pos ?_
  by_contra live
  simp only [Bool.or_eq_true, decide_eq_true_eq, Bool.not_eq_true', not_or, ne_eq, not_not, Bool.not_eq_true, Bool.not_eq_false,
    Option.isSome_eq_false_iff, Option.isNone_iff_eq_none] at live
  obtain ⟨⟨⟨⟨⟨phase, up⟩, wanted⟩, bad⟩, ready⟩, before⟩ := live
  exact idle ⟨phase, up, wanted, bad, ready, List.all_eq_true.mp before⟩

theorem rampEnd_live {r : RailId} {s : State} (live : Ramps s r) (ok : Bool) :
    rampEnd r ok s = settleRails (if ok then railUp r s else railShort r s) := by
  obtain ⟨phase, up, wanted, bad, ready, before⟩ := live
  refine if_neg ?_
  rw [phase, up, wanted, bad, ready, List.all_eq_true.mpr before]
  decide

/-- A good ramp moves the line of its rail, and the site's rail. -/
theorem railUp_frame (r : RailId) (s : State) : ∃ x, railUp r s = { s with power := x } := by
  cases r <;> exact ⟨_, rfl⟩

theorem lineOf_railUp (r : RailId) (s : State) (k : Nat) :
    lineOf (railUp r s) k = lineOf (updLine (railKey r) (fun l => { l with good := true }) s) k := by
  cases r <;> rfl

/-- A rail that is up, while another is still to come (R354). -/
theorem rampEnd_good {r : RailId} {s : State} (live : Ramps s r) {i : Nat} {b : RailId} (rail : b ∈ railsOf i) (die : i < 10)
    (up : siteUp s i = true) (wanted : railWanted s b = true) (bad : railGood s b = false) (other : b ≠ r) :
    let t := rampEnd r true s
    railGood t r = true ∧ t.su = s.su ∧ t.mem = s.mem ∧
      ∀ i, r = .logic i → (railOf t i).state = .on ∧ (railOf t i).setpoint = BitVec.ofNat 12 (idleMv s) := by
  obtain ⟨x, frame⟩ := railUp_frame r s
  have line := lineOf_railUp r s
  have still : railGood (railUp r s) b = false := by
    unfold railGood
    rw [line, lineOf_updLine_other _ _ fun key => other (railKey_inj live.wanted wanted key)]
    exact bad
  have rest : settleRails (railUp r s) = railUp r s := by
    refine settleRails_open (mem_softOrder die) ?_ rail ?_ still <;> rw [frame]
    · exact up
    · cases b <;> exact wanted
  dsimp only
  rw [rampEnd_live live, if_pos rfl, rest]
  refine ⟨?_, by rw [frame], by rw [frame], fun i logic => ?_⟩
  · unfold railGood
    rw [line, lineOf_updLine_same]
  · subst logic
    have on := railOf_updRail_same (updLine i (fun l => { l with good := true }) s) i fun x =>
      { x with state := .on, setpoint := BitVec.ofNat 12 (idleMv s), meas := BitVec.ofNat 12 (idleMv s), target := BitVec.ofNat 12 (idleMv s) }
    exact ⟨congrArg Rail.state on, congrArg Rail.setpoint on⟩

/-! ### Shorts (R354) -/

/-- The line of a rail after its n-th short, to be tried again. -/
def shorted (n : Nat) (now : BitVec 64) (l : RailLine) : RailLine := { l with attempts := n, retryAt := some (now + 10000000) }

theorem railShort_again {r : RailId} {s : State} {n : Nat} (count : n = (lineOf s (railKey r)).attempts + 1) (few : n < 3) :
    railShort r s = updLine (railKey r) (shorted n s.time) (post 0x0101 (railSite r) [railSite r, railNum r, n] s) := by
  subst count
  unfold railShort
  dsimp only
  rw [if_pos few, post_time]
  rfl

theorem railWanted_congr {s t : State} (up : ∀ i, siteUp t i = siteUp s i) (r : RailId) : railWanted t r = railWanted s r := by
  cases r <;> simp only [railWanted, up]

theorem siteUp_post (code site : Nat) (p : List Nat) (s : State) (i : Nat) : siteUp (post code site p s) i = siteUp s i := by
  unfold siteUp siteOf
  rw [post_map]

/-- A short before the third is tried again after 100 ms. -/
theorem rampEnd_again {r : RailId} {s : State} {n : Nat} (live : Ramps s r) (count : n = (lineOf s (railKey r)).attempts + 1) (few : n < 3) :
    let t := rampEnd r false s
    Posted s t 0x0101 (railSite r) [railSite r, railNum r, n] ∧ lineOf t (railKey r) = shorted n s.time (lineOf s (railKey r)) ∧
      t.su.phase = .softStart ∧ t.mem = s.mem := by
  obtain ⟨phase, -, wanted, bad, -, -⟩ := id live
  let u := post 0x0101 (railSite r) [railSite r, railNum r, n] s
  let v := updLine (railKey r) (shorted n s.time) u
  have same : lineOf u (railKey r) = lineOf s (railKey r) := by unfold lineOf; rw [post_power]
  have line : lineOf v (railKey r) = shorted n s.time (lineOf s (railKey r)) := by rw [lineOf_updLine_same, same]
  have sites : ∀ i, siteUp v i = siteUp s i := siteUp_post 0x0101 (railSite r) [railSite r, railNum r, n] s
  obtain ⟨i, listed, up, rail⟩ := railWanted_listed wanted
  have waits : railGood v r = false := (congrArg RailLine.good line).trans bad
  have rest : settleRails v = v := settleRails_open listed (by rw [sites, up]) rail (by rw [railWanted_congr sites, wanted]) waits
  have done : rampEnd r false s = v := by rw [rampEnd_live live, if_neg (by decide), railShort_again count few, rest]
  have posted := posted_post 0x0101 (railSite r) [railSite r, railNum r, n] s
  have noted : RecordsKept u v := .of_eq rfl rfl
  dsimp only
  rw [done]
  exact ⟨posted.keep noted, line, (congrArg Startup.phase (post_su ..)).trans phase, post_mem ..⟩

/-! #### The third short fences -/

theorem fenceSite_eq (i : Nat) (r : RailId) (s : State) : fenceSite i r s =
    post 0x0102 i [i, railNum r] (countChange (takeSiteOut i 4
      (each (i :: (unitsOf i).filterMap fun u => if u < 16 then some (16 + u) else none)
        (fun k s => updRail s k fun x => { x with state := .fenced, setpoint := 0, meas := 0 }) s))) := rfl

/-- What a fence leaves: the site out of service, and the record. -/
structure Fenced (s t : State) (site rail : Nat) : Prop where
  mem : t.mem = s.mem
  state : (siteOf t site).state = 2
  reason : (siteOf t site).reason = 4
  posted : Posted s t 0x0102 site [site, rail]
  records : RecordsKept s t

/-- A change of the map and the record of a fence. -/
theorem Fenced.of_map {s u : State} {site : Nat} (rail : Nat) (mem : u.mem = s.mem) (records : RecordsKept s u) (time : u.time = s.time)
    (state : (siteOf u site).state = 2) (reason : (siteOf u site).reason = 4) : Fenced s (post 0x0102 site [site, rail] (countChange u)) site rail := by
  have counted : RecordsKept u (countChange u) := .of_eq rfl rfl
  have sites : siteOf (post 0x0102 site [site, rail] (countChange u)) site = siteOf u site := by
    unfold siteOf
    rw [post_map]
    rfl
  exact ⟨(post_mem ..).trans mem, by rw [sites, state], by rw [sites, reason],
    (posted_post 0x0102 site [site, rail] (countChange u)).since (records.trans counted) time, (records.trans counted).trans (.post ..)⟩

theorem fenceSite_fenced {i : Nat} (die : i < 16) (r : RailId) (s : State) : Fenced s (fenceSite i r s) i (railNum r) := by
  have off : ∃ x, each (i :: (unitsOf i).filterMap fun u => if u < 16 then some (16 + u) else none)
      (fun k s => updRail s k fun x => { x with state := .fenced, setpoint := 0, meas := 0 }) s = { s with power := x } := by
    refine each_keeps (fun t => ∃ x, t = { s with power := x }) _ _ (fun k _ t h => ?_) s ⟨s.power, rfl⟩
    obtain ⟨x, rfl⟩ := h
    exact ⟨_, rfl⟩
  obtain ⟨x, off⟩ := off
  obtain ⟨m, out, state, reason⟩ := takeSiteOut_spec die 4 { s with power := x }
  rw [fenceSite_eq, off, out]
  exact .of_map (railNum r) rfl (.of_eq rfl rfl) rfl state reason

theorem fenceStack_fenced (k : Nat) (s : State) : Fenced s (fenceStack k s) (siteUnit k) 2 := by
  let u := updRail s (16 + k) fun x => { x with state := .fenced, meas := 0 }
  have site := siteOf_setSite_same (siteUnit k) stFault 4 u
  have quiet : RecordsKept s (setSite (siteUnit k) stFault 4 u) := .of_eq rfl rfl
  exact .of_map 2 rfl quiet rfl (congrArg SiteState.state site) (congrArg SiteState.reason site)

/-- The third short fences the rail's site, or its stack alone. -/
theorem railShort_fences {r : RailId} {s : State} (wanted : railWanted s r = true) (many : 3 ≤ (lineOf s (railKey r)).attempts + 1) :
    Fenced (post 0x0101 (railSite r) [railSite r, railNum r, (lineOf s (railKey r)).attempts + 1] s) (railShort r s) (railSite r) (railNum r) := by
  unfold railShort
  dsimp only
  rw [if_neg many.not_gt]
  cases r with
  | stack k => exact fenceStack_fenced k _
  | logic i =>
    have die : i < 10 := of_decide_eq_true (Bool.and_eq_true_iff.mp wanted).1
    exact fenceSite_fenced (by simp only [railSite]; omega) _ _
  | memory i =>
    have die : i < 10 := of_decide_eq_true (Bool.and_eq_true_iff.mp wanted).1
    exact fenceSite_fenced (by simp only [railSite]; omega) _ _

/-- The third short fences, and start-up may go on without the site. -/
theorem rampEnd_fences {r : RailId} {s : State} (live : Ramps s r) (many : 3 ≤ (lineOf s (railKey r)).attempts + 1) :
    let t := rampEnd r false s
    Posted s t 0x0102 (railSite r) [railSite r, railNum r] ∧ (siteOf t (railSite r)).state = 2 ∧ (siteOf t (railSite r)).reason = 4 ∧
      t.mem = s.mem := by
  have wanted := live.wanted
  obtain ⟨mem, state, reason, posted, -⟩ := railShort_fences wanted many
  have onward := settleRails_onward (railShort r s)
  have down : siteUp (railShort r s) (railSite r) = false := by unfold siteUp; rw [state]; rfl
  have same := onward.sites (railSite r) (railSite_small wanted) down
  dsimp only
  rw [rampEnd_live live, if_neg (by decide), same]
  exact ⟨(posted.since (.post ..) (post_time ..)).keep onward.records, state, reason, onward.mem.trans (mem.trans (post_mem ..))⟩

/-! ### Ramps that start again (R354) -/

/-- A line once a retry that is due has begun. -/
def retried (now : BitVec 64) (l : RailLine) : RailLine :=
  if l.retryAt.any fun t => t.toNat ≤ now.toNat then { l with retryAt := none } else l

theorem retried_retried (now : BitVec 64) (l : RailLine) : retried now (retried now l) = retried now l := by
  unfold retried
  split
  · rfl
  · rfl

theorem retried_some {now u : BitVec 64} {l : RailLine} (due : l.retryAt = some u) :
    retried now l = if u.toNat ≤ now.toNat then { l with retryAt := none } else l := by
  unfold retried
  rw [due]
  simp only [Option.any_some, decide_eq_true_eq]

/-- The ramp of a rail starts again when it is due. -/
def retryRail (r : RailId) (s : State) : State :=
  if (lineOf s (railKey r)).retryAt.any fun t => t.toNat ≤ s.time.toNat then updLine (railKey r) (fun l => { l with retryAt := none }) s else s

theorem retryRail_spec (r : RailId) (s : State) : ∃ x, retryRail r s = { s with power := x } ∧
    ∀ k, lineOf { s with power := x } k = if k = railKey r then retried s.time (lineOf s k) else lineOf s k := by
  unfold retryRail
  split
  case isTrue due =>
    refine ⟨_, rfl, fun k => ?_⟩
    change lineOf (updLine (railKey r) (fun l => { l with retryAt := none }) s) k = _
    by_cases own : k = railKey r
    · rw [if_pos own, own, lineOf_updLine_same]
      exact (if_pos due).symm
    · rw [if_neg own, lineOf_updLine_other _ _ own]
  case isFalse waits =>
    refine ⟨s.power, rfl, fun k => ?_⟩
    by_cases own : k = railKey r
    · rw [if_pos own, own]
      exact (if_neg waits).symm
    · rw [if_neg own]

theorem each_retryRail (rs : List RailId) (s : State) : ∃ x, each rs retryRail s = { s with power := x } ∧
    ∀ k, lineOf { s with power := x } k = if k ∈ rs.map railKey then retried s.time (lineOf s k) else lineOf s k := by
  induction rs generalizing s with
  | nil => exact ⟨s.power, rfl, fun k => by simp⟩
  | cons r rs ih =>
    obtain ⟨x, first, line⟩ := retryRail_spec r s
    obtain ⟨y, rest, lines⟩ := ih { s with power := x }
    refine ⟨y, by rw [each_cons, first, rest], fun k => (lines k).trans ?_⟩
    rw [line k]
    change (if k ∈ rs.map railKey then retried s.time (if k = railKey r then retried s.time (lineOf s k) else lineOf s k)
      else if k = railKey r then retried s.time (lineOf s k) else lineOf s k) = _
    simp only [List.map_cons, List.mem_cons]
    obtain rfl | own := eq_or_ne k (railKey r)
    · by_cases later : railKey r ∈ rs.map railKey <;> simp only [later, true_or, if_true, if_false, retried_retried]
    · by_cases later : k ∈ rs.map railKey <;> simp only [own, later, false_or, if_true, if_false]

/-- The rails of a site, or of a stack. -/
def retryRailsOf (site : Nat) : List RailId := if 16 ≤ site then [RailId.stack (site - 16)] else railsOf site

theorem retryRails_live {s : State} (site : Nat) (phase : s.su.phase = .softStart) (up : dairymanUp s = true) :
    retryRails site s = each (retryRailsOf site) retryRail s := if_pos (by rw [phase, up]; rfl)

theorem retryRails_idle {s : State} (site : Nat) (idle : ¬(s.su.phase = .softStart ∧ dairymanUp s = true)) : retryRails site s = s :=
  if_neg (by simpa using idle)

end Sys2Proof.Machine

/-! PROOFS. Discovery and the soft starts (O55). -/

namespace Sys2Proof.Machine

/-! ### What a frame and the window's end do (R23 to R30) -/

/-- A frame at a fitted port, in discovery. -/
def frameTaken (p : Nat) (f : List Byte) (s : State) : State := afterClassify (takeFrame p f s)

/-- The end of the window. -/
def windowEnded (s : State) : State := afterClassify (windowEnd s)

/-- The state with a port's identity kept. -/
def withFrame (p : Nat) (f : List Byte) (s : State) : State :=
  { s with disc := { s.disc with frames := SMap.put s.disc.frames p (parseIdentity f) } }

/-- Discovery is under way. -/
def Discovering (s : State) : Prop := s.su.phase = .discovery ∧ dairymanUp s = true

theorem Discovering.waits {s : State} (h : Discovering s) : s.su.phase = .config → s.disc.sentAt ≠ [] :=
  fun config => by rw [h.1] at config; cases config

/-- The level pin asks for nothing, or for a level that the IO die supports. -/
def PinOk (s : State) : Prop := pinNow s = 0 ∨ (ioBlMask s).testBit (pinNow s - 1) = true

theorem frameTaken_idle {p : Nat} {f : List Byte} {s : State} (waits : s.su.phase = .config → s.disc.sentAt ≠ [])
    (idle : ¬Discovering s ∨ isFitted s p = false) : frameTaken p f s = s :=
  (congrArg afterClassify (takeFrame_idle idle)).trans (afterClassify_idle waits)

theorem frameTaken_bad {p : Nat} {f : List Byte} {s : State} (live : Discovering s) (fitted : isFitted s p = true)
    (bad : frameGood 1 f = false) :
    frameTaken p f s = { s with disc := { s.disc with bad := if s.disc.bad.contains p then s.disc.bad else p :: s.disc.bad } } := by
  unfold frameTaken
  rw [takeFrame_live live.1 live.2 fitted, bad, if_neg (by decide)]
  exact afterClassify_idle live.waits

theorem frameTaken_waits {p : Nat} {f : List Byte} {s : State} (live : Discovering s) (fitted : isFitted s p = true)
    (good : frameGood 1 f = true) (missing : allFrames (withFrame p f s) = false) : frameTaken p f s = withFrame p f s := by
  have kept : takeFrame p f s = withFrame p f s := (takeFrame_live live.1 live.2 fitted).trans
    ((if_pos good).trans (if_neg (Bool.eq_false_iff.mp missing)))
  exact (congrArg afterClassify kept).trans (afterClassify_idle live.waits)

theorem frameTaken_all {p : Nat} {f : List Byte} {s : State} (live : Discovering s) (fitted : isFitted s p = true)
    (good : frameGood 1 f = true) (all : allFrames (withFrame p f s) = true) :
    frameTaken p f s = afterClassify (classify (withFrame p f s)) :=
  congrArg afterClassify ((takeFrame_live live.1 live.2 fitted).trans ((if_pos good).trans (if_pos all)))

/-- Classification with a level and a die to configure sends the configuration. -/
theorem classify_classified {s : State} (io : SMap.find s.disc.frames siteIO ≠ none) (levels : ioBlMask s ≠ 0) (pin : PinOk s)
    (some_ : configured (writeMap s) ≠ []) :
    Classified s (afterClassify (classify s)) ∧ (afterClassify (classify s)).mem = s.mem := by
  rw [classify_sends io levels pin, afterClassify_sendConfigs some_]
  exact sendConfigs_classified s

/-- The start-up stops in discovery. -/
def Stops (s t : State) (cause : Nat) : Prop :=
  t.su.phase = .stopped ∧ t.su.supervisor = 4 ∧ t.mem = s.mem ∧ Posted s t 0x0A05 noSite [4, cause]

theorem stops_of_classify {s : State} {cause : Nat} (stop : classify s = stopStart 4 cause s) : Stops s (afterClassify (classify s)) cause := by
  rw [stop, afterClassify_stopStart]
  obtain ⟨phase, supervisor, mem, -, posted, -⟩ := stopStart_spec 4 cause s
  exact ⟨phase, supervisor, mem, posted⟩

theorem windowEnded_open {s : State} (waits : s.su.phase = .config → s.disc.sentAt ≠ [])
    (ended : ¬(Discovering s ∧ ∃ a, s.disc.opened = some a ∧ 4000000 ≤ since s a)) : windowEnded s = s :=
  (congrArg afterClassify (windowEnd_open ended)).trans (afterClassify_idle waits)

theorem windowEnded_late {s : State} (ended : Discovering s ∧ ∃ a, s.disc.opened = some a ∧ 4000000 ≤ since s a) :
    windowEnded s = afterClassify (classify s) := by
  obtain ⟨⟨phase, up⟩, a, opened, late⟩ := ended
  exact congrArg afterClassify (windowEnd_ended phase up opened late)

/-! ### Acknowledgements and retries, as a command meets them -/

theorem configAck_more {p : Nat} {f : List Byte} {s : State} (due : AckDue s p) (config : (SMap.find s.disc.config p).isSome = true)
    (good : frameGood 3 f = true)
    (more : ∃ q ∈ s.disc.sentAt, q.1 ≠ p ∧ s.disc.acked.contains q.1 = false ∧ siteUp s q.1 = true) :
    configAck p f s = { s with disc := { s.disc with acked := p :: s.disc.acked } } := by
  obtain ⟨q, sent, other, waits, up⟩ := more
  exact (configAck_due due config good).trans (settleConfig_waits sent (acked_cons.mpr ⟨other, waits⟩) up)

theorem configAck_last {p : Nat} {f : List Byte} {s : State} (due : AckDue s p) (config : (SMap.find s.disc.config p).isSome = true)
    (good : frameGood 3 f = true)
    (last : ¬∃ q ∈ s.disc.sentAt, q.1 ≠ p ∧ s.disc.acked.contains q.1 = false ∧ siteUp s q.1 = true) :
    (configAck p f s).su.phase ≠ .config ∧ (configAck p f s).mem = s.mem := by
  rw [configAck_due due config good, settleConfig_ends]
  · obtain ⟨mem, -, phase, -⟩ := beginSoft_onward { s with disc := { s.disc with acked := p :: s.disc.acked } }
    exact ⟨phase, mem⟩
  · rintro ⟨q, sent, waits, up⟩
    obtain ⟨other, waits⟩ := acked_cons.mp waits
    exact last ⟨q, sent, other, waits, up⟩

theorem retryRails_spec {s : State} (site : Nat) (phase : s.su.phase = .softStart) (up : dairymanUp s = true) :
    ∃ x, retryRails site s = { s with power := x } ∧ ∀ r ∈ retryRailsOf site, ∀ u, (lineOf s (railKey r)).retryAt = some u →
      lineOf { s with power := x } (railKey r) =
        if u.toNat ≤ s.time.toNat then { lineOf s (railKey r) with retryAt := none } else lineOf s (railKey r) := by
  obtain ⟨x, frame, lines⟩ := each_retryRail (retryRailsOf site) s
  exact ⟨x, (retryRails_live site phase up).trans frame, fun r listed u due =>
    (lines (railKey r)).trans ((if_pos (List.mem_map_of_mem listed)).trans (retried_some due))⟩

/-! ### The commands -/

/-- The dies to configure are those whose frames and records put them in service. -/
theorem configured_writeMap (s : State) : configured (writeMap s) =
    (fittedDies s.variant).filter fun p => p != siteIO && ((dieSite s p).state = 1 || (dieSite s p).state = 5) := by
  obtain ⟨m, d, l, wrote, -, -, -, -, sites⟩ := writeMap_spec s
  rw [wrote]
  refine List.filter_congr fun p fitted => ?_
  have site : siteOf { s with map := m, dies := d, lacing := l } p = dieSite s p := sites p fitted
  unfold siteUp
  rw [site]

/-- The dies to configure do not turn on the commands that wait. -/
theorem configured_writeMap_pending (s : State) : configured (writeMap { s with pending := [] }) = configured (writeMap s) :=
  (configured_writeMap { s with pending := [] }).trans (configured_writeMap s).symm

/-- The window's end stops start-up when classification does. -/
theorem discoveryTimeout_stops {s : State} {cause : Nat} (ended : Discovering s ∧ ∃ a, s.disc.opened = some a ∧ 4000000 ≤ since s a)
    (stop : classify { s with pending := [] } = stopStart 4 cause { s with pending := [] }) :
    ∃ t, exec .discoveryTimeout s = .next t ∧ Stops s t cause := by
  refine exec_next_exists (f := windowEnded) rfl ?_
  have done := stops_of_classify stop
  rw [← windowEnded_late (s := { s with pending := [] }) ended] at done
  generalize windowEnded { s with pending := [] } = t at *
  exact done

/-- A retry moves the lines of the rails alone. -/
theorem execSoftStartRetry_live {s : State} (site : Nat) (phase : s.su.phase = .softStart) (up : dairymanUp s = true) :
    ∃ t, exec (.softStartRetry site) s = .next t ∧ t = { s with power := t.power } ∧ ∀ r ∈ retryRailsOf site, ∀ u,
      (lineOf s (railKey r)).retryAt = some u →
      lineOf t (railKey r) = if u.toNat ≤ s.time.toNat then { lineOf s (railKey r) with retryAt := none } else lineOf s (railKey r) := by
  obtain ⟨x, frame, lines⟩ := retryRails_spec (s := { s with pending := [] }) site phase up
  exact ⟨{ s with power := x }, exec_eq_next (f := retryRails site) rfl frame rfl, rfl, lines⟩

/-- Settles O55. Each command is its effect on the state; the lemmas above say what the effect is. -/
theorem discoveryAndSoftStarts : Obligations.DiscoveryAndSoftStarts := by
  refine fun p f s => ⟨?repeats, fun waits idle => ?idle, fun live fitted bad => ?bad, fun live fitted good => ⟨fun missing => ?missing,
    fun all levels pin some_ => ?all⟩, ⟨fun waits early => ?early, fun ended io => ?noIo, fun ended io levels => ?noLevel,
    fun ended io levels pin => ?pinLacks, fun ended io levels pin some_ => ?classified⟩, ⟨fun idle => ?configIdle, fun takes => ?config⟩,
    ⟨fun idle => ?ackIdle, fun due config good => ⟨fun more => ?more, fun last => ?last⟩, fun a sent => ⟨fun early => ?soon,
    fun late due die => ?late⟩⟩, fun r => ⟨fun idle ok => ?rests, fun live other => ?rises, fun live few => ?again, fun live many => ?fences⟩,
    fun site => ⟨fun idle => ?retryIdle, fun live => execSoftStartRetry_live site live.1 live.2⟩⟩
  case repeats =>
    split
    case isTrue repeats => exact exec_eq_next (f := repeatFrame p) rfl (if_pos repeats) rfl
    case isFalse rests => exact exec_eq_next (f := repeatFrame p) rfl (if_neg rests) rfl
  case idle => exact exec_eq_next (f := frameTaken p f) rfl (frameTaken_idle (s := { s with pending := [] }) waits idle) rfl
  case bad =>
    refine ⟨{ s with disc := { s.disc with bad := if s.disc.bad.contains p then s.disc.bad else p :: s.disc.bad } },
      exec_eq_next (f := frameTaken p f) rfl (frameTaken_bad (s := { s with pending := [] }) live fitted bad) rfl, ?_, rfl⟩
    dsimp only
    split
    · rename_i known
      exact List.contains_iff_mem.mp known
    · exact List.mem_cons_self
  case missing => exact exec_eq_next (f := frameTaken p f) rfl (frameTaken_waits (s := { s with pending := [] }) live fitted good missing) rfl
  case all =>
    refine exec_next_exists (f := frameTaken p f) rfl ?_
    let u := { withFrame p f s with pending := [] }
    have kept : frameTaken p f { s with pending := [] } = afterClassify (classify u) :=
      frameTaken_all (s := { s with pending := [] }) live fitted good all
    have done := classify_classified (s := u) (io_of_allFrames all) levels pin
      ((configured_writeMap_pending (withFrame p f s)).trans_ne some_)
    rw [← kept] at done
    generalize frameTaken p f { s with pending := [] } = t at *
    exact done
  case early => exact exec_eq_next (f := windowEnded) rfl (windowEnded_open (s := { s with pending := [] }) waits early) rfl
  case noIo => exact discoveryTimeout_stops ended (classify_noIo (s := { s with pending := [] }) io)
  case noLevel => exact discoveryTimeout_stops ended (classify_noLevel (s := { s with pending := [] }) io levels)
  case pinLacks => exact discoveryTimeout_stops ended (classify_pinLacks (s := { s with pending := [] }) io levels pin)
  case classified =>
    refine exec_next_exists (f := windowEnded) rfl ?_
    have done := classify_classified (s := { s with pending := [] }) io levels pin ((configured_writeMap_pending s).trans_ne some_)
    rw [← windowEnded_late (s := { s with pending := [] }) ended] at done
    generalize windowEnded { s with pending := [] } = t at *
    exact done
  case configIdle => exact exec_eq_next (f := applyConfig p f) rfl (if_neg (by simpa [frameConfig, and_assoc] using idle)) rfl
  case config => exact exec_eq_next (f := applyConfig p f) rfl (if_pos (by simpa [frameConfig, and_assoc] using takes)) rfl
  case ackIdle => exact exec_eq_next (f := configAck p f) rfl (configAck_idle (s := { s with pending := [] }) idle) rfl
  case more => exact exec_eq_next (f := configAck p f) rfl (configAck_more (s := { s with pending := [] }) due config good more) rfl
  case last =>
    refine exec_next_exists (f := configAck p f) rfl ?_
    have done := configAck_last (s := { s with pending := [] }) due config good last
    generalize configAck p f { s with pending := [] } = t at *
    exact done
  case soon => exact exec_eq_next (f := ackLate p) rfl (ackLate_early (s := { s with pending := [] }) sent early) rfl
  case late =>
    refine exec_next_exists (f := ackLate p) rfl ?_
    have done := ackLate_spec (s := { s with pending := [] }) sent late due die
    generalize ackLate p { s with pending := [] } = t at *
    exact done
  case rests => exact exec_eq_next (f := rampEnd r ok) rfl (rampEnd_idle (s := { s with pending := [] }) idle ok) rfl
  case rises =>
    obtain ⟨i, b, rail, die, up, wanted, bad, other⟩ := other
    refine exec_next_exists (f := rampEnd r true) rfl ?_
    obtain ⟨good, su, mem, logic⟩ := rampEnd_good (s := { s with pending := [] }) live rail die up wanted bad other
    generalize rampEnd r true { s with pending := [] } = t at *
    exact ⟨good, su, mem, logic⟩
  case again =>
    refine exec_next_exists (f := rampEnd r false) rfl ?_
    have done := rampEnd_again (s := { s with pending := [] }) live rfl few
    generalize rampEnd r false { s with pending := [] } = t at *
    exact done
  case fences =>
    refine exec_next_exists (f := rampEnd r false) rfl ?_
    have done := rampEnd_fences (s := { s with pending := [] }) live many
    generalize rampEnd r false { s with pending := [] } = t at *
    exact done
  case retryIdle => exact exec_eq_next (f := retryRails site) rfl (retryRails_idle (s := { s with pending := [] }) site idle) rfl

end Sys2Proof.Machine

/-! PROOFS. What a kill changes and what it leaves (O15, O30).

A kill stops dies, records its cause and sends ABORTs: it takes no slot, tag or queued invalidation of a die, of a vat's registers only the
counts of what it had done move, and no event record is lost (R66, R183, R184). -/

namespace Sys2Proof.Machine

/-! ### A die that a kill may stop -/

/-- Vats are as they were but for the counts of vectors and rows (R66). -/
def VatsCounted (m n : SMap PVat) : Prop :=
  ∀ p, ∃ v r, SMap.get {} n p = { SMap.get {} m p with vectorsIn := v, rowsLoaded := r }

theorem VatsCounted.refl (m : SMap PVat) : VatsCounted m m := fun _ => ⟨_, _, rfl⟩

theorem VatsCounted.trans {l m n : SMap PVat} (h : VatsCounted l m) (k : VatsCounted m n) : VatsCounted l n := fun p => by
  obtain ⟨v, r, eq⟩ := h p
  obtain ⟨w, q, eq'⟩ := k p
  exact ⟨w, q, by rw [eq', eq]⟩

theorem VatsCounted.upd {m : SMap PVat} {p : Nat} {f : PVat → PVat} (counts : ∀ x, ∃ v r, f x = { x with vectorsIn := v, rowsLoaded := r }) :
    VatsCounted m (SMap.upd {} m p f) := fun q => by
  by_cases h : q = p
  · subst h
    rw [SMap.get_upd_same]
    exact counts _
  · exact ⟨_, _, SMap.get_upd_other _ _ _ h⟩

theorem countKilled_counted (u : UnitMap) (free : Nat) (x : DieSt) : VatsCounted x.pvats (countKilled u free x) := by
  unfold countKilled
  split
  · exact .refl _
  · refine List.foldlRecOn _ _ (.refl x.pvats) fun m h k _ => ?_
    extract_lets vin rows
    split
    · exact h
    · exact h.trans (.upd fun _ => ⟨_, _, rfl⟩)

/-- What a kill leaves of a die: its slots, tags and queued invalidations, its claim on the spare, and its vats' registers. -/
structure DieKept (x y : DieSt) : Prop where
  slots : y.slots = x.slots
  lineTag : y.lineTag = x.lineTag
  invQueue : y.invQueue = x.invQueue
  spareClaim : y.spareClaim = x.spareClaim
  pvats : VatsCounted x.pvats y.pvats

theorem DieKept.refl (x : DieSt) : DieKept x x := ⟨rfl, rfl, rfl, rfl, .refl _⟩

theorem DieKept.trans {x y z : DieSt} (h : DieKept x y) (k : DieKept y z) : DieKept x z :=
  ⟨k.slots.trans h.slots, k.lineTag.trans h.lineTag, k.invQueue.trans h.invQueue, k.spareClaim.trans h.spareClaim, h.pvats.trans k.pvats⟩

theorem stopDie_kept (u : UnitMap) (now : BitVec 64) (pausedAt : Option (BitVec 64)) (free : Nat) (x : DieSt) :
    DieKept x (stopDie u now pausedAt free x) := by
  have waited : DieKept x (endWait now x) := by
    unfold endWait
    split
    · exact ⟨rfl, rfl, rfl, rfl, .refl _⟩
    · exact .refl x
  exact waited.trans ⟨rfl, rfl, rfl, rfl, countKilled_counted u free (endWait now x)⟩

/-! ### The state around a kill -/

/-- What a kill leaves of the state, whatever its stage. -/
structure KillKept (s t : State) : Prop where
  mem : t.mem = s.mem
  map : t.map = s.map
  time : t.time = s.time
  records : RecordsKept s t
  die : ∀ e, DieKept (dieOf s e) (dieOf t e)

namespace KillKept

theorem refl (s : State) : KillKept s s := ⟨rfl, rfl, rfl, .refl s, fun _ => .refl _⟩

theorem trans {s t u : State} (h : KillKept s t) (k : KillKept t u) : KillKept s u :=
  ⟨k.mem.trans h.mem, k.map.trans h.map, k.time.trans h.time, h.records.trans k.records, fun e => (h.die e).trans (k.die e)⟩

/-- An update of what the predicate does not speak of. -/
theorem of_eq {s t : State} (mem : t.mem = s.mem) (map : t.map = s.map) (time : t.time = s.time) (ev : t.ev = s.ev) (su : t.su = s.su)
    (dies : t.dies = s.dies) : KillKept s t :=
  ⟨mem, map, time, .of_eq ev (by simp [dairymanUp, su]), fun e => by rw [dieOf, dieOf, dies]; exact .refl _⟩

theorem each {α : Type} {f : α → State → State} (h : ∀ a s, KillKept s (f a s)) (l : List α) (s : State) : KillKept s (each l f s) :=
  each_keeps (KillKept s) l f (fun a _ t k => k.trans (h a t)) s (.refl s)

theorem updDie {d : Nat} {f : DieSt → DieSt} (h : ∀ x, DieKept x (f x)) (s : State) : KillKept s (updDie s d f) :=
  ⟨rfl, rfl, rfl, .of_eq rfl rfl, fun e => by
    by_cases same : e = d
    · subst same
      rw [dieOf_updDie_same]
      exact h _
    · rw [dieOf_updDie_other _ _ same]
      exact .refl _⟩

theorem updJob (k : Nat) (f : Job → Job) (s : State) : KillKept s (updJob s k f) := by
  unfold Machine.updJob
  split <;> exact .of_eq rfl rfl rfl rfl rfl rfl

theorem post (code site : Nat) (p : List Nat) (s : State) : KillKept s (post code site p s) :=
  ⟨post_mem .., post_map .., post_time .., .post .., fun e => by rw [dieOf, dieOf, post_dies]; exact .refl _⟩

theorem transmit (p n : Nat) (wire : List Byte) (s : State) : KillKept s (transmit p n wire s) := by
  unfold Machine.transmit
  split <;> exact .of_eq rfl rfl rfl rfl rfl rfl

theorem sendLace (p ty aux tag cmd oper : Nat) (data : List Byte) (s : State) : KillKept s (sendLace p ty aux tag cmd oper data s) := by
  unfold Machine.sendLace
  dsimp only
  split
  · exact post ..
  · split
    · exact refl s
    · refine trans ?_ (transmit ..)
      split <;> exact .of_eq rfl rfl rfl rfl rfl rfl

theorem abortFor (d : Nat) (s : State) : KillKept s (abortFor d s) := by
  refine each (fun p t => ?_) _ s
  split
  · exact refl t
  · refine trans ?_ (sendLace ..)
    exact .of_eq rfl rfl rfl rfl rfl rfl

theorem killDie (d : Nat) (s : State) : KillKept s (killDie d s) := by
  unfold Machine.killDie
  refine trans ?_ (updDie (fun x => stopDie_kept _ _ _ _ x) _)
  have retired : KillKept s (retireTags d s) := .of_eq rfl rfl rfl rfl rfl rfl
  exact (retired.trans (abortFor ..)).trans (.of_eq rfl rfl rfl rfl rfl rfl)

theorem startKill (k : Nat) (s : State) : KillKept s (startKill k s) := by
  unfold Machine.startKill
  split
  · exact refl s
  · exact trans (each (fun d t => trans (killDie d t) (updDie (f := orphanRequests) (fun _ => ⟨rfl, rfl, rfl, rfl, .refl _⟩) _)) _ s) (updJob ..)

theorem beginKill (k : Nat) (c : KillCause) (s : State) : KillKept s (beginKill k c s) := by
  unfold Machine.beginKill
  split
  · exact refl s
  · dsimp only
    split
    iterate 3
      split
      · exact updJob ..
      · exact trans (updJob ..) (startKill ..)
    · exact updJob ..
    · split
      · exact trans (updJob ..) (startKill ..)
      · exact refl s
    · exact refl s
    · exact refl s

theorem killOn (d : Nat) (c : KillCause) (s : State) : KillKept s (killOn d c s) := by
  unfold Machine.killOn
  split
  · exact beginKill ..
  · exact refl s

end KillKept

/-! ### The kill stays begun -/

/-- A die that a kill has stopped (R184). -/
def Stopped (x : DieSt) : Prop := x.seq.state = .killing ∧ x.log = [] ∧ x.passes = [] ∧ x.loads = []

theorem KillBegun.keep {s t u : State} {k : Nat} {c : KillCause} (h : KillBegun s t k c) (jobs : u.jobs = t.jobs)
    (dies : ∀ e, Stopped (dieOf t e) → Stopped (dieOf u e)) : KillBegun s u k c := by
  obtain ⟨j, i, before, after, stage, causes, stopped⟩ := h
  exact ⟨j, i, before, by rw [jobOf, jobs]; exact after, stage, causes, fun d gang => dies d (stopped d gang)⟩

theorem KillBegun.updDie {s t : State} {k : Nat} {c : KillCause} (h : KillBegun s t k c) {d : Nat} {f : DieSt → DieSt}
    (keeps : ∀ x, Stopped x → Stopped (f x)) : KillBegun s (updDie t d f) k c :=
  h.keep rfl fun e stopped => by
    by_cases same : e = d
    · subst same
      rw [dieOf_updDie_same]
      exact keeps _ stopped
    · rwa [dieOf_updDie_other _ _ same]

/-- A job is killable wherever its record and its dies' drains are as they were. -/
theorem Killable.keep {s t : State} {d k : Nat} (h : Killable s d k) (jobs : t.jobs = s.jobs) (on : jobOn t d = jobOn s d)
    (drains : ∀ e, (dieOf t e).drain = (dieOf s e).drain ∧ (dieOf t e).boundary = (dieOf s e).boundary) : Killable t d k := by
  obtain ⟨onDie, j, job, stage, idle, gang⟩ := h
  refine ⟨on.trans onDie, j, by rw [jobOf, jobs]; exact job, stage, ?_, gang⟩
  rw [← idle]
  exact congrArg j.dies.any (funext fun e => by rw [(drains e).1, (drains e).2])

theorem killOn_begun {s : State} {d k : Nat} (c : KillCause) (h : Killable s d k) : KillBegun s (killOn d c s) k c := by
  obtain ⟨onDie, j, job, stage, idle, -⟩ := h
  rw [killOn, onDie]
  exact (beginKill_spec k c s j job stage idle).1

end Sys2Proof.Machine

/-! PROOFS. Faults and mismatches in the vats (O15). -/

namespace Sys2Proof.Machine

/-! ### A pass on an empty slot (R52, R68) -/

theorem startBudgets_begun {s t : State} {k : Nat} {c : KillCause} (h : KillBegun s t k c) (d : Nat) : KillBegun s (startBudgets d t) k c := by
  unfold startBudgets
  exact h.updDie fun _ stopped => stopped

theorem passAct_of_empty {img : Image} {job : W64} {now : BitVec 64} {phys vat slot di : Nat} {x y : DieSt}
    (src : (tokOf x (vatDesc (vatDescAt img di)).srcToken).lent = none) (dst : (tokOf x (vatDesc (vatDescAt img di)).dstToken).lent = none)
    (free : tokenBusy img x [(vatDesc (vatDescAt img di)).dstToken] = false)
    (settled : settle img job [(vatDesc (vatDescAt img di)).srcToken] x = .ok y)
    (ready : waitsFor y vat (slotSpan (vatDesc (vatDescAt img di)).wmode slot) = none) (empty : (slotNow y phys slot).kind = .empty) :
    passAct img job now phys vat slot di x = .error (.program 0x0505 [phys, slot, di]) := by
  have met : meetSlot y phys slot di (vatDesc (vatDescAt img di)) = .error (.program 0x0505 [phys, slot, di]) := by simp [meetSlot, empty]
  simp [passAct, tokenLocal, src, dst, free, settled, ready, met, bind, Except.bind, Except.map]

/-- An action on a named vat of a running die, with nothing ordered before it, starts at once (R62, R93). -/
theorem vatRow_of_first {d k : Nat} {ok : Image → Bool} {a : UnitAct} {s t : State} {img : Image} (image : (dieOf s d).image = some img)
    (runs : running s d = true) (named : vatNamed img k = true) (valid : ok img = true) (first : (dieOf s d).deferred = [])
    (starts : vatStart d img a s = some t) : vatRow d k ok a s = t := by
  simp [vatRow, image, runs, named, valid, issueVat, issueAct, mustWait, first, starts]

/-- A pass that does not start: what it stops with is carried out (R68, R183). -/
theorem vatStart_of_stop {d k slot i : Nat} {img : Image} {s : State} {e : Stop} (stops : e ≠ .stall)
    (stop : passAct img (jobWord s d) s.time (physOf s d k) k slot i (dieOf s d) = .error e) :
    vatStart d img (.pass k slot i) s = some (startBudgets d (stopWith d e s)) := by
  cases e <;> simp_all [vatStart, dieStep]

/-! ### What a retired vat leaves (R58 to R60) -/

/-- A record of the store, made of a store that has changed, loses no event record and touches no engine. -/
theorem storeRecord_frame (area payload : Nat) (s : State) (x : NvStore) :
    let t := storeRecord area payload { s with nv := x }
    t.dies = s.dies ∧ t.jobs = s.jobs ∧ t.mem = s.mem ∧ RecordsKept s t := by
  have kept : RecordsKept s { s with nv := x } := .of_eq rfl rfl
  have noted := Noted.storeRecord area payload { s with nv := x }
  have engines : (storeRecord area payload { s with nv := x }).dies = s.dies ∧ (storeRecord area payload { s with nv := x }).jobs = s.jobs := by
    unfold storeRecord
    dsimp only
    split <;> simp [compactArea]
  exact ⟨engines.1, engines.2, noted.mem, kept.trans noted.records⟩

/-- A vat that retires: marked, posted and recorded, before its logical vat moves. -/
def vatRetired (d phys : Nat) (first : BitVec 64) (s : State) : State :=
  recordRetired d phys (post 0x0502 d [phys, first.toNat] (updDie s d (updPvat phys fun v => { v with retired := true })))

theorem vatRetired_frame (d phys : Nat) (first : BitVec 64) (s : State) :
    let t := vatRetired d phys first s
    Posted s t 0x0502 d [phys, first.toNat] ∧ RecordsKept s t ∧ t.mem = s.mem ∧ t.jobs = s.jobs ∧
      ∀ e, dieOf t e = dieOf (updDie s d (updPvat phys fun v => { v with retired := true })) e := by
  obtain ⟨dies, jobs, mem, records⟩ := storeRecord_frame areaState 8
    (post 0x0502 d [phys, first.toNat] (updDie s d (updPvat phys fun v => { v with retired := true }))) _
  have marked : RecordsKept s (updDie s d (updPvat phys fun v => { v with retired := true })) := .of_eq rfl rfl
  refine ⟨((posted_post ..).since marked rfl).keep records, (marked.trans (.post ..)).trans records, mem.trans (post_mem ..),
    jobs.trans (post_jobs ..), fun e => ?_⟩
  rw [dieOf, vatRetired, recordRetired, dies, post_dies, dieOf]

/-- The spare is claimed for the vat that retires. -/
theorem retireVat_spare {d phys : Nat} {s : State} (first : BitVec 64) (free : (unitMapOf s d).spareFree = true)
    (claim : (dieOf s d).spareClaim = none) :
    retireVat d phys first s = updDie (vatRetired d phys first s) d fun x => { x with spareClaim := some phys } := by
  obtain ⟨-, -, -, -, dies⟩ := vatRetired_frame d phys first s
  have still : (dieOf (vatRetired d phys first s) d).spareClaim = none := by
    rw [dies, dieOf_updDie_same]
    exact claim
  unfold vatRetired at still
  simp only [retireVat, vatRetired, free, still, Option.isNone_none, Bool.and_true, if_true]

/-- What the vat that retires in favour of the spare leaves. -/
theorem retireVat_spec {d phys : Nat} {s : State} (first : BitVec 64) (free : (unitMapOf s d).spareFree = true)
    (claim : (dieOf s d).spareClaim = none) :
    let t := retireVat d phys first s
    Posted s t 0x0502 d [phys, first.toNat] ∧ RecordsKept s t ∧ t.mem = s.mem ∧ (∀ r k c, KillBegun r s k c → KillBegun r t k c) ∧
      (dieOf t d).spareClaim = some phys ∧ pvatOf (dieOf t d) phys = { pvatOf (dieOf s d) phys with retired := true } := by
  rw [retireVat_spare first free claim]
  obtain ⟨posted, records, mem, jobs, dies⟩ := vatRetired_frame d phys first s
  generalize vatRetired d phys first s = u at *
  have begun : ∀ r k c, KillBegun r s k c → KillBegun r u k c := fun r k c h => by
    have marked : KillBegun r (updDie s d (updPvat phys fun v => { v with retired := true })) k c := h.updDie fun _ stopped => stopped
    exact marked.keep jobs fun e stopped => by rwa [dies]
  refine ⟨posted_of_ev posted rfl, records.trans (.of_eq rfl rfl), mem, fun r k c h => (begun r k c h).updDie fun _ stopped => stopped, ?_, ?_⟩
  · rw [dieOf_updDie_same]
  · rw [dieOf_updDie_same, dies d, dieOf_updDie_same]
    simp [updPvat, pvatOf]

/-! ### A mismatch (R57, R58) -/

/-- A vat's registers after a mismatch, the second of its window or not. -/
def mismatchCounted (second : Bool) (now : BitVec 64) (v : PVat) : PVat :=
  { v with mismatches := if v.mismatches = 0xFF then 0xFF else v.mismatches + 1, last := if second then v.last else some now }

/-- A mismatch, posted and counted. -/
def mismatchNoted (d phys block vec vat : Nat) (second : Bool) (s : State) : State :=
  updDie (post 0x0501 d [phys, block, vec, vat] s) d (updPvat phys (mismatchCounted second s.time))

/-- A mismatch, with the command killed for it. -/
def mismatchKilled (d phys block vec vat : Nat) (second : Bool) (s : State) : State :=
  killOn d (.fault 0x0501) (mismatchNoted d phys block vec vat second s)

theorem mismatch_of_pass {d phys block vec : Nat} {s : State} {f : PassFlight} {second : Bool}
    (pass : (dieOf s d).passes.find? (fun f => f.phys == phys && f.entry.isNone) = some f) (works : working s d = true)
    (vector : vec < (passDesc f).count) (blk : block < 8)
    (window : (pvatOf (dieOf s d) phys).last.any (fun t => (s.time - t).toNat ≤ mismatchWindow) = second) :
    mismatch d phys block vec s =
      let t := mismatchKilled d phys block vec f.vat second s
      if second then retireVat d phys ((pvatOf (dieOf s d) phys).last.getD 0) t else t := by
  have saturates : ∀ m : BitVec 8, (if m = 0xFF then m else m + 1) = if m = 0xFF then 0xFF else m + 1 := fun m => ite_congr rfl id fun _ => rfl
  simp only [mismatch, saturates, checkedPasses, works, if_true, pass, vector, blk, decide_true, Bool.and_self, window, post_time,
    mismatchKilled, mismatchNoted]
  rfl

theorem dieOf_post (code site : Nat) (p : List Nat) (s : State) (e : Nat) : dieOf (post code site p s) e = dieOf s e := by simp [dieOf]

theorem mismatchNoted_die (d phys block vec vat : Nat) (second : Bool) (s : State) (e : Nat) :
    dieOf (mismatchNoted d phys block vec vat second s) e =
      if e = d then updPvat phys (mismatchCounted second s.time) (dieOf s d) else dieOf s e := by
  unfold mismatchNoted
  split
  next same => rw [same, dieOf_updDie_same, dieOf_post]
  next other => rw [dieOf_updDie_other _ _ other, dieOf_post]

theorem mismatchKilled_spec {d k : Nat} {s : State} (phys block vec vat : Nat) (second : Bool) (h : Killable s d k) :
    let t := mismatchKilled d phys block vec vat second s
    KillBegun s t k (.fault 0x0501) ∧ Posted s t 0x0501 d [phys, block, vec, vat] ∧ RecordsKept s t ∧ t.mem = s.mem ∧ t.map = s.map ∧
      t.time = s.time ∧ (dieOf t d).spareClaim = (dieOf s d).spareClaim ∧ ∃ n r, pvatOf (dieOf t d) phys =
        { mismatchCounted second s.time (pvatOf (dieOf s d) phys) with vectorsIn := n, rowsLoaded := r } := by
  have die := mismatchNoted_die d phys block vec vat second s
  have jobs : (mismatchNoted d phys block vec vat second s).jobs = s.jobs := post_jobs ..
  have ready : Killable (mismatchNoted d phys block vec vat second s) d k :=
    h.keep jobs (by rw [jobOn, die, if_pos rfl]; rfl) fun e => by
      rw [die]
      split
      next same => subst same; exact ⟨rfl, rfl⟩
      next => exact ⟨rfl, rfl⟩
  have records : RecordsKept s (mismatchNoted d phys block vec vat second s) := (RecordsKept.post ..).trans (.of_eq rfl rfl)
  have posted : Posted s (mismatchNoted d phys block vec vat second s) 0x0501 d [phys, block, vec, vat] := posted_of_ev (posted_post ..) rfl
  have kept : KillKept (mismatchNoted d phys block vec vat second s) (mismatchKilled d phys block vec vat second s) := .killOn ..
  have ofDie := kept.die d
  rw [die, if_pos rfl] at ofDie
  obtain ⟨j, i, before, after⟩ := killOn_begun (.fault 0x0501) ready
  refine ⟨⟨j, i, ?_, after⟩, posted.keep kept.records, records.trans kept.records, kept.mem.trans (post_mem ..), kept.map.trans (post_map ..),
    kept.time.trans (post_time ..), ofDie.spareClaim, ?_⟩
  · rw [← before, jobOf, jobOf, jobs]
  · obtain ⟨n, r, counts⟩ := ofDie.pvats phys
    refine ⟨n, r, counts.trans ?_⟩
    simp [updPvat, pvatOf]

/-- The first mismatch of its window posts, counts and kills. -/
theorem mismatch_first {d phys block vec : Nat} {s : State} {f : PassFlight}
    (pass : (dieOf s d).passes.find? (fun f => f.phys == phys && f.entry.isNone) = some f) (works : working s d = true)
    (vector : vec < (passDesc f).count) (blk : block < 8)
    (last : (pvatOf (dieOf s d) phys).last = none ∨ ∃ e, (pvatOf (dieOf s d) phys).last = some e ∧ 1000000000 < (s.time - e).toNat) :
    mismatch d phys block vec s = mismatchKilled d phys block vec f.vat false s := by
  have window : (pvatOf (dieOf s d) phys).last.any (fun t => (s.time - t).toNat ≤ mismatchWindow) = false := by
    rcases last with none | ⟨e, some, late⟩
    · rw [none, Option.any_none]
    · rw [some, Option.any_some]
      exact decide_eq_false (not_le.mpr late)
  simpa using mismatch_of_pass pass works vector blk window

/-- The second mismatch of its window retires the vat besides: it is marked, posted and recorded, and the spare claimed. -/
theorem mismatch_second {d k phys block vec : Nat} {s : State} {f : PassFlight} {e : BitVec 64} (killable : Killable s d k)
    (pass : (dieOf s d).passes.find? (fun f => f.phys == phys && f.entry.isNone) = some f) (works : working s d = true)
    (vector : vec < (passDesc f).count) (blk : block < 8) (last : (pvatOf (dieOf s d) phys).last = some e)
    (near : (s.time - e).toNat ≤ 1000000000) (spare : (unitMapOf s d).spareFree = true) (claim : (dieOf s d).spareClaim = none) :
    let t := mismatch d phys block vec s
    Posted s t 0x0501 d [phys, block, vec, f.vat] ∧ Posted s t 0x0502 d [phys, e.toNat] ∧ KillBegun s t k (.fault 0x0501) ∧
      (dieOf t d).spareClaim = some phys ∧ (pvatOf (dieOf t d) phys).retired = true ∧
      (pvatOf (dieOf t d) phys).mismatches =
        (if (pvatOf (dieOf s d) phys).mismatches = 0xFF then 0xFF else (pvatOf (dieOf s d) phys).mismatches + 1) ∧ t.mem = s.mem := by
  have window : (pvatOf (dieOf s d) phys).last.any (fun t => (s.time - t).toNat ≤ mismatchWindow) = true := by
    rw [last, Option.any_some]
    exact decide_eq_true near
  have ends := mismatch_of_pass pass works vector blk window
  dsimp only at ends
  rw [if_pos rfl, last, Option.getD_some] at ends
  rw [ends]
  have killed := mismatchKilled_spec phys block vec f.vat true killable
  generalize mismatchKilled d phys block vec f.vat true s = u at *
  obtain ⟨begun, posted, records, mem, map, time, kept, n, r, counts⟩ := killed
  obtain ⟨retired, later, memR, still, claimed, marked⟩ :=
    retireVat_spec (phys := phys) e (show (unitMapOf u d).spareFree = true by rw [unitMapOf, map]; exact spare) (kept.trans claim)
  generalize retireVat d phys e u = t at *
  refine ⟨posted.keep later, retired.since records time, still _ _ _ begun, claimed, ?_, ?_, memR.trans mem⟩
  · rw [marked]
  · rw [marked, counts]
    rfl

/-! ### The statement -/

/-- Settles O15. A pass stops before it starts (`passAct_of_empty`); a mismatch is noted and kills (`mismatchKilled_spec`), and the second of
its window retires the vat besides (`retireVat_spec`). -/
theorem vatFaultsAndMismatches : Obligations.VatFaultsAndMismatches := by
  refine ⟨fun d vat slot i s img y k image runs named valid first src dst free settled ready empty killable => ?_,
    fun d phys block vec s f k pass works vector blk killable => ⟨fun last => ?_, fun e last near spare claim => ?_⟩⟩
  · refine exec_next_exists (f := passRow d vat.toNat slot.toNat i.toNat) rfl ?_
    have stop := passAct_of_empty (now := s.time) src dst free settled ready empty
    rw [passRow, vatRow_of_first (s := { s with pending := [] }) image runs named valid first (vatStart_of_stop (by simp) stop)]
    have done := stopWith_program d k 0x0505 [physOf s d vat.toNat, slot.toNat, i.toNat] { s with pending := [] } killable
    generalize stopWith d _ { s with pending := [] } = t at *
    obtain ⟨posted, begun, mem⟩ := done
    exact ⟨posted_of_ev posted rfl, startBudgets_begun begun d, mem⟩
  · refine exec_next_exists (f := mismatch d phys block vec) rfl ?_
    rw [mismatch_first (s := { s with pending := [] }) pass works vector blk last]
    have done := mismatchKilled_spec (s := { s with pending := [] }) phys block vec f.vat false killable
    generalize mismatchKilled d phys block vec f.vat false { s with pending := [] } = t at *
    obtain ⟨begun, posted, -, mem, -, -, -, counts⟩ := done
    exact ⟨posted, begun, counts, mem⟩
  · refine exec_next_exists (f := mismatch d phys block vec) rfl ?_
    have done := mismatch_second (s := { s with pending := [] }) killable pass works vector blk last near spare claim
    generalize mismatch d phys block vec { s with pending := [] } = t at *
    exact done

end Sys2Proof.Machine
/-! PROOFS. Passes and loads complete (O16). -/

namespace Sys2Proof.Machine

/-! ### Folds of actions -/

/-- What comes first in an action that succeeds succeeds. -/
theorem act_bind_ok {α β : Type} {r : Act α} {f : α → Act β} {b : β} (done : r.bind f = .ok b) : ∃ a, r = .ok a ∧ f a = .ok b := by
  cases r with
  | error e => cases done
  | ok a => exact ⟨a, rfl, done⟩

/-- Where all actions succeed in turn, each of them succeeded on some die. -/
theorem act_foldl_each_ok {α : Type} {f : α → DieSt → Act DieSt} {l : List α} {r : Act DieSt} {y : DieSt}
    (done : l.foldl (fun (r : Act DieSt) a => r.bind (f a)) r = .ok y) : (∃ x, r = .ok x) ∧ ∀ a ∈ l, ∃ x z, f a x = .ok z := by
  induction l generalizing r with
  | nil => exact ⟨⟨y, done⟩, by simp⟩
  | cons a l ih =>
    obtain ⟨⟨z, first⟩, rest⟩ := ih done
    cases r with
    | error e => cases first
    | ok x => exact ⟨⟨x, rfl⟩, List.forall_mem_cons.mpr ⟨⟨x, z, first⟩, rest⟩⟩

/-- What every action's success leaves of a die, the success of all in turn leaves. -/
theorem act_foldl_keeps {α β : Type} {g : DieSt → β} {f : α → DieSt → Act DieSt} (keeps : ∀ {a x y}, f a x = .ok y → g y = g x) {l : List α}
    {x y : DieSt} (done : l.foldl (fun (r : Act DieSt) a => r.bind (f a)) (.ok x) = .ok y) : g y = g x := by
  induction l generalizing x with
  | nil => cases done; rfl
  | cons a l ih =>
    rw [List.foldl_cons] at done
    obtain ⟨⟨z, first⟩, -⟩ := act_foldl_each_ok done
    rw [first] at done
    exact (ih done).trans (keeps first)

/-! ### A pass that finishes keeps its die's job -/

theorem stageLine_job {e : LogEntry} {x y : DieSt} (done : stageLine e x = .ok y) : y.job = x.job := by
  unfold stageLine logAdd at done
  split at done
  · cases done; rfl
  · split at done <;> cases done
    rfl

theorem writePanLine_job {p : PanEnt} {l : Nat} {mask : BitVec 64} {data : LineData} {x y : DieSt}
    (done : writePanLine p l mask data x = .ok y) : y.job = x.job := by
  unfold writePanLine at done
  dsimp only at done
  split at done
  · exact stageLine_job done
  · split at done <;> cases done <;> rfl

theorem writePan_job {p : PanEnt} {off : Nat} {bs : List Byte} {x y : DieSt} (done : writePan p off bs x = .ok y) : y.job = x.job :=
  act_foldl_keeps (g := DieSt.job) writePanLine_job done

theorem writeVector_job {img : Image} {job : W64} {p : VatDesc} {w : SlotData} {v : Nat} {act : List Byte} {x y : DieSt}
    (done : writeVector img job p w v act x = .ok y) : y.job = x.job := by
  have ⟨out, fl, write⟩ : ∃ out fl, (writePan (panEnt img p.dstPan) (64 * (p.dstOffset + v * p.dstStride)) out x).bind
      (fun z => .ok (raise fl z)) = .ok y := by
    unfold writeVector at done
    dsimp only at done
    split at done <;> obtain ⟨dst, -, write⟩ := act_bind_ok done <;> exact ⟨_, _, write⟩
  obtain ⟨z, written, raised⟩ := act_bind_ok write
  cases raised
  exact writePan_job (y := z) written

theorem feedPass_job (f : PassFlight) (x : DieSt) : (feedPass f x).job = x.job := by
  unfold feedPass
  split <;> rfl

/-- A pass finishes with its checks good, and its die runs the job it ran (R55, R65). -/
theorem finishPass_ok {img : Image} {job : W64} {f : PassFlight} {x y : DieSt} (done : finishPass img job f x = .ok y) :
    failedCheck f = none ∧ y.job = x.job := by
  unfold finishPass at done
  dsimp only at done
  split at done
  · cases done
  · split at done
    · cases done
    next good =>
      rw [Bool.or_eq_true, not_or] at good
      exact ⟨by simpa using good.2, (act_foldl_keeps (g := DieSt.job) writeVector_job done).trans (feedPass_job f x)⟩

/-! ### A die that has issued no COMMIT does not drain -/

theorem tryDrainOn_of_no_commit {s : State} {d k : Nat} {j : Job} (on : jobOn s d = some k) (job : jobOf s k = some j) (gang : d ∈ j.dies)
    (commit : (dieOf s d).commit = none) : tryDrainOn d s = s := by
  have waits : (j.dies.all fun d => (dieOf s d).commit.isSome && (dieOf s d).drain.isNone && quiet s d && !paused s d) = false :=
    List.all_eq_false.mpr ⟨d, gang, by simp [commit]⟩
  simp [tryDrainOn, tryDrain, on, job, waits]

/-! ### The completions -/

theorem passComplete_of_ok {d vat : Nat} {s : State} {img : Image} {f : PassFlight} {y : DieSt} (works : working s d = true)
    (image : (dieOf s d).image = some img) (oldest : (dieOf s d).passes.find? (·.vat == vat) = some f) (ready : f.entry = none)
    (done : completeUpTo img (jobWord s d) f (dieOf s d) = .ok y) : passComplete d vat s = setDie s d y := by
  have oldest : oldestPass (dieOf s d) vat = some f := by simp [oldestPass, oldest, ready]
  have checks : ∀ g ∈ (dieOf s d).passes, g.id ≤ f.id → (passDesc g).dstToken = (passDesc f).dstToken → failedCheck g = none :=
    fun g flies earlier same => by
      obtain ⟨x, z, finished⟩ := (act_foldl_each_ok done).2 g (List.mem_filter.mpr ⟨flies, by simp [earlier, same]⟩)
      exact (finishPass_ok finished).1
  have good : ((dieOf s d).passes.filter fun g => g.id ≤ f.id && (passDesc g).dstToken = (passDesc f).dstToken && !behindLoad (dieOf s d) g).findSome?
      (fun g => (failedCheck g).map fun e => (g.phys, e)) = none := by
    refine List.findSome?_eq_none_iff.mpr fun g grouped => ?_
    simp only [List.mem_filter, Bool.and_eq_true, decide_eq_true_eq] at grouped
    obtain ⟨flies, ⟨earlier, same⟩, -⟩ := grouped
    rw [checks g flies earlier same, Option.map_none]
  simp only [passComplete, image, oldest, good, works, if_true, onDie, done]

theorem passFed_of_oldest {d vat : Nat} {s : State} {f : PassFlight} (works : working s d = true)
    (oldest : (dieOf s d).passes.find? (fun f => f.vat == vat && !f.fed) = some f) (ready : f.entry = none)
    (starts : behindLoad (dieOf s d) f = false) : passFed d vat s = updDie s d (feedPass f) := by
  simp [passFed, works, updDie, oldest, ready, starts]

/-- The last vector of a pass is fed (R51, R66). -/
theorem feedPass_unfed {f : PassFlight} (unfed : f.fed = false) (x : DieSt) : feedPass f x = { x with
    pvats := SMap.upd {} x.pvats f.phys fun v => { v with vectorsIn := v.vectorsIn + BitVec.ofNat 64 (passEntries (passDesc f)) }
    passes := x.passes.map fun g => if g.id = f.id then { g with fed := true } else g } := by
  simp [feedPass, unfed, updPvat, bump]

theorem behindPass_eq_false {x : DieSt} {f : LoadFlight} (wmode : f.wmode ≠ 3)
    (fed : ∀ p ∈ x.passes, p.vat = f.vat → p.id < f.id → p.fed = true ∨ f.slot ∉ slotSpan (passDesc p).wmode p.slot) : behindPass x f = false := by
  refine List.any_eq_false.mpr fun p flies => ?_
  simp only [slotSpan, if_neg wmode, overlaps, List.any_eq_true, Bool.and_eq_true, decide_eq_true_eq, not_and, Bool.not_eq_true',
    List.contains_iff_mem, List.mem_singleton]
  rintro ⟨⟨sameVat, earlier⟩, feeds⟩ ⟨k, spans, rfl⟩
  rcases fed p flies sameVat earlier with h | h
  · simp [h] at feeds
  · exact h spans

/-- A load of one slot writes its last row (R50, R51, R66). -/
theorem loadComplete_of_oldest {d vat : Nat} {s : State} {f : LoadFlight} (works : working s d = true)
    (oldest : (dieOf s d).loads.find? (·.vat == vat) = some f) (wmode : f.wmode ≠ 3)
    (alone : ∀ l ∈ (dieOf s d).loads, l.id ≠ f.id → l.phys = f.phys → f.slot ∉ slotSpan l.wmode l.slot)
    (fed : ∀ p ∈ (dieOf s d).passes, p.vat = vat → p.id < f.id → p.fed = true ∨ f.slot ∉ slotSpan (passDesc p).wmode p.slot) :
    loadComplete d vat s = updDie s d fun x => { x with
      slots := SMap.set {} x.slots (4 * f.phys + f.slot) { rawSlot x f.phys f.slot with loading := false }
      pvats := SMap.upd {} x.pvats f.phys fun v => { v with rowsLoaded := v.rowsLoaded + 256 }
      loads := x.loads.filter (·.id != f.id) } := by
  have sameVat : f.vat = vat := by simpa using List.find?_some oldest
  have begins : behindPass (dieOf s d) f = false := behindPass_eq_false wmode fun p flies same => fed p flies (same.trans sameVat)
  have last : (((dieOf s d).loads.filter (·.id != f.id)).any fun l => l.phys = f.phys && (slotSpan l.wmode l.slot).contains f.slot) = false := by
    refine List.any_eq_false.mpr fun l other => ?_
    obtain ⟨flies, other⟩ := List.mem_filter.mp other
    simpa using alone l flies (by simpa using other)
  have done : ((slotSpan f.wmode f.slot).filter fun k => !((dieOf s d).loads.filter (·.id != f.id)).any fun l =>
      l.phys = f.phys && (slotSpan l.wmode l.slot).contains k) = [f.slot] := by
    rw [show slotSpan f.wmode f.slot = [f.slot] from if_neg wmode, List.filter_singleton, last]
    rfl
  simp only [loadComplete, works, if_true, updDie, oldest, begins, Bool.false_eq_true, if_false, done, List.foldl_cons, List.foldl_nil]
  simp [countRows, setSlot, updPvat, loadSteps, wmode, bump, slotKey]

/-! ### The statement -/

/-- Settles O16. Each completion is its function's effect on the die (`passComplete_of_ok`, `passFed_of_oldest`, `loadComplete_of_oldest`),
after which the die, with no COMMIT issued, does not drain (`tryDrainOn_of_no_commit`). -/
theorem passesAndLoadsComplete : Obligations.PassesAndLoadsComplete := by
  refine fun d vat s k j works on job gang commit => ⟨fun img f y image oldest ready done still => ?_, fun f oldest ready starts => ?_,
    fun f oldest wmode alone fed => ?_⟩
  · refine exec_eq_next (f := fun s => tryDrainOn d (passComplete d vat.toNat s)) rfl ?_ rfl
    rw [passComplete_of_ok (s := { s with pending := [] }) works image oldest ready done]
    have same : y.job = (dieOf s d).job := act_foldl_keeps (g := DieSt.job) (fun finished => (finishPass_ok finished).2) done
    exact tryDrainOn_of_no_commit (k := k) (by simp [jobOn, same]; exact on) job gang (by simpa using still)
  · refine exec_eq_next (f := passFed d vat.toNat) rfl ?_ rfl
    rw [passFed_of_oldest (s := { s with pending := [] }) works oldest ready starts]
    obtain ⟨-, unfed⟩ : f.vat = vat.toNat ∧ f.fed = false := by simpa using List.find?_some oldest
    exact congrArg (setDie { s with pending := [] } d) (feedPass_unfed unfed _)
  · refine exec_eq_next (f := fun s => tryDrainOn d (loadComplete d vat.toNat s)) rfl ?_ rfl
    rw [loadComplete_of_oldest (s := { s with pending := [] }) works oldest wmode alone fed]
    exact tryDrainOn_of_no_commit (k := k) (by simp [jobOn]; exact on) job gang (by simp; exact commit)

end Sys2Proof.Machine

/-! PROOFS. Resets of dies (O30). -/

namespace Sys2Proof.Machine

/-! ### One die's reset (R67, R390, R420) -/

/-- What DIE_RESET does to one die it names. -/
def resetDie (d : Nat) (s : State) : State :=
  updDie (killOn d .dieReset (post 0x0A09 d [d, if (jobOn s d).isSome then 1 else 0] s)) d resetEngines

/-- A die whose slots and tags a reset has taken, with no invalidation left to apply. -/
def Emptied (x : DieSt) : Prop := x.slots = [] ∧ x.lineTag = [] ∧ x.invQueue = []

theorem Emptied.kept {x y : DieSt} (h : Emptied x) (k : DieKept x y) : Emptied y :=
  ⟨k.slots.trans h.1, k.lineTag.trans h.2.1, k.invQueue.trans h.2.2⟩

theorem resetEngines_emptied (x : DieSt) : Emptied (resetEngines x) := ⟨rfl, rfl, rfl⟩

theorem resetDie_mem (d : Nat) (s : State) : (resetDie d s).mem = s.mem := ((KillKept.post ..).trans (.killOn ..)).mem

theorem resetDie_emptied (d : Nat) (s : State) : Emptied (dieOf (resetDie d s) d) := by
  rw [resetDie, dieOf_updDie_same]
  exact resetEngines_emptied _

/-- The reset of a die leaves another emptied, though it may kill the job of both. -/
theorem Emptied.resetDie {e : Nat} {s : State} (h : Emptied (dieOf s e)) (d : Nat) : Emptied (dieOf (resetDie d s) e) := by
  by_cases same : e = d
  · exact same ▸ resetDie_emptied ..
  · rw [Machine.resetDie, dieOf_updDie_other _ _ same]
    exact h.kept (((KillKept.post ..).trans (.killOn ..)).die e)

theorem each_resetDie_emptied {l : List Nat} {d : Nat} (named : d ∈ l) (s : State) : Emptied (dieOf (each l resetDie s) d) := by
  induction l generalizing s with
  | nil => cases named
  | cons a l ih =>
    rw [each_cons]
    by_cases later : d ∈ l
    · exact ih later _
    · have first : d = a := by simpa [later] using named
      subst first
      exact each_keeps (fun t => Emptied (dieOf t d)) l resetDie (fun e _ t h => h.resetDie e) _ (resetDie_emptied d s)

theorem resetDie_idle {d : Nat} {s : State} (idle : jobOn s d = none) : Posted s (resetDie d s) 0x0A09 d [d, 0] := by
  rw [resetDie, idle]
  exact posted_of_ev ((posted_post ..).keep (KillKept.killOn ..).records) rfl

theorem resetDie_busy {d k : Nat} {s : State} (busy : Killable s d k) :
    Posted s (resetDie d s) 0x0A09 d [d, 1] ∧ KillBegun s (resetDie d s) k .dieReset := by
  have killed := postKill_spec d k 0x0A09 [d, 1] .dieReset s busy
  rw [resetDie, busy.1]
  obtain ⟨posted, begun, -⟩ := killed
  exact ⟨posted_of_ev posted rfl, begun.updDie fun _ stopped => stopped⟩

/-! ### The dies named -/

theorem mem_diesOf {mask : BitVec 8} {d : Die} (named : mask.getLsbD d = true) : d.val ∈ diesOf mask.toNat := by
  refine List.mem_filter.mpr ⟨List.mem_range.mpr d.isLt, ?_⟩
  simpa [bits, BitVec.getLsbD, Nat.testBit_eq_decide_div_mod_eq, Nat.shiftRight_eq_div_pow] using named

theorem diesOf_one : ∀ d : Die, diesOf (BitVec.ofNat 8 (2 ^ d.val)).toNat = [d.val] := by decide

theorem dieReset_keyed (mask : Nat) (s : State) : dieReset mask 0xA5 s = each (diesOf mask) resetDie s := rfl

/-! ### The statement -/

/-- Settles O30. A reset is one die's reset for each die named; what it takes of a die stays taken while the others' jobs are killed
(`each_resetDie_emptied`). -/
theorem dieResetClearsEngines : Obligations.DieResetClearsEngines := by
  refine fun mask key s => ⟨fun other => ?_, fun keyed => ?_⟩
  · have other : key.toNat ≠ 0xA5 := fun eq => other (BitVec.eq_of_toNat_eq eq)
    exact exec_eq_next (f := dieReset mask.toNat key.toNat) rfl (if_pos other) rfl
  · subst keyed
    refine exec_next_exists (f := dieReset mask.toNat 0xA5) rfl ?_
    rw [dieReset_keyed]
    have mem : (each (diesOf mask.toNat) resetDie { s with pending := [] }).mem = s.mem := each_same State.mem _ _ (fun d _ => resetDie_mem d) _
    refine ⟨mem, fun d named => each_resetDie_emptied (mem_diesOf named) _, fun d one => ?_⟩
    rw [one, diesOf_one d, each_cons, each_nil]
    refine ⟨fun idle => ?_, fun k busy => ?_⟩
    · have done := resetDie_idle (s := { s with pending := [] }) idle
      generalize resetDie d { s with pending := [] } = t at *
      exact done
    · have done := resetDie_busy (s := { s with pending := [] }) busy
      generalize resetDie d { s with pending := [] } = t at *
      exact done

end Sys2Proof.Machine

/-! PROOFS. Vat slots that start (O14): what starts also runs the budgets of the round reads that passes wait on. -/

namespace Sys2Proof.Machine

/-! ### A pass that starts beside a waiting one -/

/-- Pan and token 3 are 4,000 lines; vat descriptor 0 is a pass of one INT8 vector over INT8 weights to INT32; every vat is used. -/
def passImage : Image := {
  sect := ByteMap.write [] 56 [0xFF, 0xFF], stream := [], words := 0
  pans := ByteMap.write [] 48 (leBytes 16 (4000 * 2 ^ 24 + 2 ^ 48)), tokens := ByteMap.write [] 48 (leBytes 16 (3 + 4000 * 2 ^ 36))
  vatDesc := ByteMap.write [] 0 (leBytes 32 (3 + 3 * 2 ^ 12 + 3 * 2 ^ 25 + 3 * 2 ^ 37 + 100 * 2 ^ 88 + 4 * 2 ^ 128 + 16 * 2 ^ 152 +
    8 * 2 ^ 192 + 8 * 2 ^ 196 + 0xB * 2 ^ 200))
  movDesc := [], churnDesc := [], round := [] }

/-- Slot contents that a pass of INT8 weights meets. -/
def int8Weights : SlotData := ⟨0, 8, [], [], [], [], []⟩

/-- A die whose command runs, with slot 0 of vat 0 loaded. On vat 1 a pass waits for entry 5 of the round list, and a walker holds the read
of that entry's tile: its budget has not begun. -/
def waitingDie : DieSt := {
  seq := { state := .running }, image := some passImage
  slots := [(0, { kind := .command, data := some int8Weights, tag := some 0 })]
  passes := [⟨0, 1, 1, 0, 0, 0, [], none, none, some 5, false, 0⟩]
  walkWait := [⟨0, false, false, false, .roundRead 5⟩] }

def waitingState : State := { dies := [(0, waitingDie)] }

/-- Which accesses that wait on the walkers of die 0 have their budgets run. -/
def budgetsRun : Host.Outcome State Fault Refusal → List Bool
  | .next t => (dieOf t 0).walkWait.map (·.now)
  | _ => []

theorem waitingState_ready : (dieOf waitingState 0).image = some passImage ∧ running waitingState 0 = true ∧ vatNamed passImage 0 = true ∧
    (dieOf waitingState 0).held = [] ∧ (dieOf waitingState 0).deferred = [] ∧ passOk passImage 0 0 = true := by decide +kernel

/-- The pass meets everything it reads: local tokens, a settled source, a loaded slot and one vector of zeros. -/
theorem waitingDie_meets :
    let p := vatDesc (vatDescAt passImage 0)
    (tokOf waitingDie p.srcToken).lent = none ∧ (tokOf waitingDie p.dstToken).lent = none ∧ tokenBusy passImage waitingDie [p.dstToken] = false ∧
      settle passImage (jobWord waitingState 0) [p.srcToken] waitingDie = .ok waitingDie ∧
      waitsFor waitingDie 0 (slotSpan p.wmode 0) = none ∧
      meetSlot waitingDie (physOf waitingState 0 0) 0 0 p = .ok (int8Weights, none) ∧
      (List.range p.count).mapM (fun n => readPan waitingDie (panEnt passImage p.srcPan) p.srcToken
        (64 * (p.srcOffset + n * p.srcStride)) (actBytes p.actFmt)) = .ok [zeros 256] := by decide +kernel

/-- The pass on vat 0 starts the budget that the pass on vat 1 waits on (R224). -/
theorem pass_runs_budget : budgetsRun (exec (.pass 0 0 0 0) waitingState) = [true] := by decide +kernel

theorem budgetsRun_setDie (s : State) (x : DieSt) : budgetsRun (.next (setDie s 0 x)) = x.walkWait.map (·.now) := by simp [budgetsRun]

/-- Refutes O14: "nothing else of the state changes" fails where another pass already waits for an entry of the round list whose read a walker
holds. Any pass or load that starts runs the budget of such a read (R224, `startBudgets`), and the premises leave the accesses that walkers
hold open: they ask only that no page request is held. -/
theorem not_vatSlotsStartPassesAndLoads : ¬ Obligations.VatSlotsStartPassesAndLoads := by
  rintro ⟨-, starts⟩
  obtain ⟨image, runs, named, held, first, valid⟩ := waitingState_ready
  obtain ⟨pass, -⟩ := starts 0 0 waitingState passImage image runs named held first
  have started := pass 0 0 waitingDie [zeros 256] (int8Weights, none) valid waitingDie_meets
  have budgets : [true] = waitingDie.walkWait.map (·.now) :=
    pass_runs_budget.symm.trans ((congrArg budgetsRun started).trans (budgetsRun_setDie ..))
  exact absurd budgets (by decide)

end Sys2Proof.Machine

/-! PROOFS. Branches, signals and kills on states of their own: what fails of O6, O7 and O29. -/

namespace Sys2Proof.Machine

/-! ### A branch not taken on a table of dies out of order (O6) -/

/-- A die whose command runs the image `passImage`. -/
def branchingDie : DieSt := { seq := { state := .running }, image := some passImage }

/-- Die 1 stands before die 0 in the table, an order that no write to the table leaves. -/
def disorderedState : State := { dies := [(1, branchingDie), (0, { actSeq := 2 })] }

/-- The order in which an outcome holds the dies. -/
def diesOrder : Host.Outcome State Fault Refusal → List Nat
  | .next t => t.dies.map (·.1)
  | _ => []

theorem disorderedState_branches : (dieOf disorderedState 1).image = some passImage ∧ running disorderedState 1 = true ∧
    ¬(SMap.get 0 (dieOf disorderedState 1).sv (0 : BitVec 4).toNat != (0 : BitVec 16).signExtend 64) = true := by decide +kernel

/-- A branch that is not taken writes its die back, and the write puts the table in order. -/
theorem brc_orders_dies : diesOrder (exec (.brc 1 0 1 0 0) disorderedState) = [0, 1] := by decide +kernel

/-- Refutes O6: a BRC that is not taken is not the identity on every state. It writes the die's own state back, which reorders a table of
dies that does not stand in order. The dies themselves do not change. -/
theorem not_controlSlotScalarsAndBranches : ¬ Obligations.ControlSlotScalarsAndBranches := by
  rintro ⟨-, -, branches⟩
  obtain ⟨image, runs, equal⟩ := disorderedState_branches
  obtain ⟨-, -, compare⟩ := branches 1 disorderedState passImage 0 image runs
  have kept : exec (.brc 1 0 1 0 0) disorderedState = .next disorderedState :=
    (compare 0 1 0 (by decide)).trans (congrArg _ (if_neg equal))
  exact absurd (brc_orders_dies.symm.trans (congrArg diesOrder kept)) (by decide)

/-! ### A SIGNAL whose arrival lets its sender's kill begin (O7) -/

/-- A job of one die in the stage given, with the causes of its kill. -/
def loneJob (die : Nat) (stage : JobStage) (causes : List KillCause) (kills : Nat) : Job := {
  ctx := 1, desc := [], jobId := 7, gang := 1, dies := [die], stage, checked := [die], causes, faultKills := kills, rerunDue := false,
  reruns := 0, commands := 0, flagWord := 0, preemptions := 0, energyNj := 0, duration := 0, stall := 0, firstDie := 0, placedAt := 0,
  unmetered := false, updates := 0, saves := [], awaiting := [] }

/-- A SIGNAL on its way from die 1 to die 0, and another from die 2 to die 1. -/
def arrivingSignal : RemoteSignal := ⟨1, 1, 0, 1, 5, 0, []⟩
def laterSignal : RemoteSignal := ⟨2, 2, 1, 1, 5, 0, []⟩

/-- Die 1 has committed a LACE write that its partner did not take; the SIGNAL to die 0 is the last of its actions under way. -/
def committedState : State := {
  dies := [(1, { job := some 3, commit := some (false, false), log := [⟨.lace 5, 1, [], 0, none⟩], seq := { state := .committing } })]
  jobs := [(3, loneJob 1 .running [] 0)], sigNet := [arrivingSignal, laterSignal] }

def signalsAfter : Host.Outcome State Fault Refusal → List RemoteSignal
  | .next t => t.sigNet
  | _ => []

theorem committedState_meets : nextSignal { committedState with pending := [] } 0 = some (arrivingSignal, committedState) ∧
    arrivingSignal.src ≠ (0 : Die).val ∧ paused committedState 0 = false ∧ (dieOf committedState 0).heldCopies = [] := by decide +kernel

/-- The arrival starts the drain of die 1, which kills its command (R182, R252), and the kill drops the SIGNAL toward die 1 (R184). -/
theorem arrival_drops_signal : signalsAfter (exec (.remoteSignalReceived 0) committedState) = [] := by decide +kernel

/-- Refutes O7: the arrival of a SIGNAL may take more from the network than that SIGNAL. With it the sender's committed command may drain,
and where a partner did not take one of its writes the drain kills the command, which drops what is on its way toward the die. -/
theorem not_tokensOrderAndLend : ¬ Obligations.TokensOrderAndLend := by
  rintro ⟨-, ⟨-, -, arrives⟩, -⟩
  obtain ⟨next, other, awake, held⟩ := committedState_meets
  obtain ⟨t, done, -, network, -⟩ := arrives 0 committedState committedState arrivingSignal next other awake held
  have kept : [laterSignal] = t.sigNet := by simp [network, committedState, arrivingSignal, laterSignal]
  have dropped : t.sigNet = [] := (congrArg signalsAfter done).symm.trans arrival_drops_signal
  exact absurd (kept.trans dropped) (by decide)

/-! ### A pre-emption that joins a job's third fault (O29) -/

/-- A job of die 0 under kill for a pre-emption, three of whose kills followed faults. -/
def exhaustedState : State := {
  dies := [(0, { job := some 3, start := some ⟨0, 0, [], [], [], [], [], [], [], [], [], []⟩, seq := { state := .killing } })]
  jobs := [(3, loneJob 0 .killing [.preempt] 3)] }

def hasJob (k : Nat) : Host.Outcome State Fault Refusal → Bool
  | .next t => (jobOf t k).isSome
  | _ => false

theorem exhaustedState_meets : jobOn exhaustedState 0 = some 3 ∧ jobOf exhaustedState 3 = some (loneJob 0 .killing [.preempt] 3) ∧
    (dieOf exhaustedState 0).start = some ⟨0, 0, [], [], [], [], [], [], [], [], [], []⟩ ∧ (dieOf exhaustedState 0).spareClaim = none ∧
    roundCount (dieOf exhaustedState 0) = 0 ∧ servedBy exhaustedState 3 = none ∧ exhaustedState.iommu.fence = none := by decide +kernel

theorem exhausted_job_ends : hasJob 3 (exec (.killComplete 0) exhaustedState) = false := by decide +kernel

/-- Refutes O29: the clause of the pre-emption leaves the count of the job's kills open, and a job with three of them ends, whatever
the cause of its last kill (R186). -/
theorem not_killsEndInReRunSaveOrEnd : ¬ Obligations.KillsEndInReRunSaveOrEnd := by
  intro ends
  obtain ⟨on, job, start, spare, round, served, fence⟩ := exhaustedState_meets
  obtain ⟨-, -, -, -, preempted⟩ := ends 0 exhaustedState 3 _ _ on job rfl rfl rfl start spare round served fence
  obtain ⟨t, i, done, saving, -⟩ := preempted rfl
  have kept : hasJob 3 (.next t) = true := congrArg Option.isSome saving
  exact absurd (exhausted_job_ends.symm.trans ((congrArg (hasJob 3) done).trans kept)) (by decide)

end Sys2Proof.Machine

/-! PROOFS. An HRED before a fence: what fails of O24. -/

namespace Sys2Proof.Machine

/-- An image: pan 1 job-persistent, token 1 over it, every mover used; mover descriptor 1 is one line of pan 1 and the bottom of unified
memory. -/
def moverImage : Image := {
  sect := ByteMap.write [] 56 [0xFF, 0xFF, 0xFF, 2, 1, 0], stream := [], words := 4
  pans := ByteMap.write [] 16 (leBytes 16 (1000 * 2 ^ 24 + 2 ^ 48)), tokens := ByteMap.write [] 16 (leBytes 16 (1 + 64 * 2 ^ 36))
  vatDesc := [], movDesc := ByteMap.write [] 32 (leBytes 32 (1 + 2 ^ 12 + 2 ^ 64 + 2 ^ 32 * 2 ^ 128)), churnDesc := [], round := [] }

/-- A fence in a die's log that orders actions up to the hundredth. -/
def lateFence : LogEntry := ⟨.fence, 100, [], 0, none⟩

/-- A die whose command runs `moverImage`, with that fence in its log and its first action not yet issued. -/
def fencedDie : DieSt := { seq := { state := .running }, image := some moverImage, log := [lateFence] }

/-- The die over stack 0, whose first granule is placed, with bare translation. -/
def fencedState : State := {
  dies := [(0, fencedDie)], grans := [(0, { state := .hbm })], units := [(0, { mtype := 1 })]
  iommu := { regs := ByteMap.write [] 0x10 (leBytes 8 1) } }

/-- The HRED's operands and its descriptor, the address it meets, and what mover 0 leaves of the die before it meets memory. -/
def hredArgs : MoverArgs := ⟨1, false, 0, false⟩
def hredDesc : MovDesc := movDesc moverImage hredArgs.desc.toNat
def hredAddr : Nat :=
  (hredDesc.target + if hredArgs.idx then 64 * (svOf (dieOf fencedState 0) hredArgs.xsv.toNat).toNat else 0) % 2 ^ 64
def hredBegun : State :=
  setDie fencedState 0 (occupy (20 + (0 : BitVec 2).toNat) (max 1 ((64 * hredDesc.length + 1023) / 1024)) { fencedDie with actSeq := fencedDie.actSeq + 1 })

theorem fencedState_meets : (dieOf fencedState 0).image = some moverImage ∧ running fencedState 0 = true ∧ moverNamed moverImage 0 = true ∧
    (dieOf fencedState 0).deferred = [] ∧ ordersBehind moverImage (dieOf fencedState 0) true hredAddr (64 * hredDesc.length) = false ∧
    (tokOf (dieOf fencedState 0) hredDesc.token).lent = none ∧
    settle moverImage (jobWord fencedState 0) [hredDesc.token] (dieOf fencedState 0) = .ok fencedDie ∧
    moverOk moverImage 4 hredArgs.desc.toNat = true ∧ hredDesc.length = 1 := by decide +kernel

/-- The line is translated and its granule taken, the pan is read, and the fence stands in the log. -/
def hredMeets : Bool := match movLines 0 (ctxOn fencedState 0) hredAddr hredDesc.length true hredBegun with
  | (.ok _, w) => match readPan (dieOf w 0) (panEnt moverImage hredDesc.pan) hredDesc.token (64 * hredDesc.offset) (64 * hredDesc.length) with
    | .ok _ => (dieOf w 0).log == [lateFence]
    | .error _ => false
  | _ => false

theorem hredMeets_eq : hredMeets = true := by decide +kernel

theorem hred_meets_fence : ∃ ls w b, movLines 0 (ctxOn fencedState 0) hredAddr hredDesc.length true hredBegun = (.ok ls, w) ∧
    readPan (dieOf w 0) (panEnt moverImage hredDesc.pan) hredDesc.token (64 * hredDesc.offset) (64 * hredDesc.length) = .ok b ∧ (dieOf w 0).log = [lateFence] := by
  have meets := hredMeets_eq
  unfold hredMeets at meets
  split at meets
  case h_2 => cases meets
  case h_1 ls w lines =>
    split at meets
    case h_2 => cases meets
    case h_1 b read => exact ⟨ls, w, b, lines, read, beq_iff_eq.mp meets⟩

/-- Whether the first entry of die 0's log is a fence. -/
def fenceFirst : Host.Outcome State Fault Refusal → Bool
  | .next t => ((dieOf t 0).log.head?.map (·.kind)) == some .fence
  | _ => false

theorem fenceFirst_setDie (w : State) (x : DieSt) (l : List Instr) :
    fenceFirst (.next { setDie w 0 x with pending := l }) = ((x.log.head?.map (·.kind)) == some .fence) := by
  rw [fenceFirst, show dieOf { setDie w 0 x with pending := l } 0 = x from dieOf_setDie_same w 0 x]

/-- The HRED stages its line before the fence, which orders a later action (R115). -/
theorem hred_before_fence : fenceFirst (exec (.hred 0 0 hredArgs) fencedState) = false := by decide +kernel

/-- Refutes O24: the lines of an HRED are not always the last of the log. They stand before a fence that orders actions after the HRED, and
the premises leave open what action a fence in the log orders. -/
theorem not_putsAndCopiesStoreLines : ¬ Obligations.PutsAndCopiesStoreLines := by
  rintro ⟨stages, -⟩
  obtain ⟨image, runs, named, free, behind, lent, settled, valid, one⟩ := fencedState_meets
  obtain ⟨ls, w, b, lines, read, log⟩ := hred_meets_fence
  have room : logCount (dieOf w 0) + hredDesc.length ≤ maxLogEntries := by simp [one, logCount, log, maxLogEntries, lateFence]
  obtain ⟨-, hred⟩ := stages 0 0 hredArgs fencedState fencedState w moverImage fencedDie ls b rfl image runs named free behind
    lent settled lines read room
  have first : fenceFirst (exec (.hred 0 0 hredArgs) fencedState) = true := by
    rw [hred valid]
    exact (fenceFirst_setDie ..).trans (by simp [log, lateFence])
  exact absurd (hred_before_fence.symm.trans first) (by decide)

end Sys2Proof.Machine

/-! PROOFS. What the actuators leave of the rails. -/

namespace Sys2Proof.Machine

/-! ### What the actuators leave of the rails -/

/-- A rail without what the power manager's actuators set. -/
def railView (r : Rail) : Rail := { r with setpoint := 0, slewing := false, borrower := false, throttle := 0, target := 0 }

/-- The rails alone have moved, and none in more than what actuators set. -/
structure RailsMoved (s t : State) : Prop where
  rest : t = { s with power := { s.power with rails := t.power.rails } }
  rails : ∀ i, railView (railOf t i) = railView (railOf s i)

namespace RailsMoved
variable {s t u : State}

theorem refl (s : State) : RailsMoved s s := ⟨rfl, fun _ => rfl⟩

theorem trans (h : RailsMoved s t) (k : RailsMoved t u) : RailsMoved s u :=
  ⟨by rw [k.rest, h.rest], fun i => (k.rails i).trans (h.rails i)⟩

theorem updRail (s : State) (i : Nat) {f : Rail → Rail} (view : ∀ r, railView (f r) = railView r) : RailsMoved s (updRail s i f) := by
  refine ⟨rfl, fun j => ?_⟩
  by_cases same : j = i
  · rw [same, railOf_updRail_same, view]
  · rw [railOf_updRail_other s f same]

theorem each {α : Type} (l : List α) {f : α → State → State} (step : ∀ a ∈ l, ∀ s, RailsMoved s (f a s)) (s : State) :
    RailsMoved s (each l f s) :=
  each_keeps (RailsMoved s) l f (fun a mem t h => h.trans (step a mem t)) s (refl s)

theorem mem (h : RailsMoved s t) : t.mem = s.mem := by rw [h.rest]

theorem dies (h : RailsMoved s t) : t.dies = s.dies := by rw [h.rest]

theorem dieOf (h : RailsMoved s t) (d : Nat) : dieOf t d = dieOf s d := by rw [Machine.dieOf, h.dies]; rfl

theorem level (h : RailsMoved s t) (i : Nat) : (railOf t i).level = (railOf s i).level :=
  (congrArg Rail.level (h.rails i) :)

theorem horizonEnd (h : RailsMoved s t) (i : Nat) : (railOf t i).horizonEnd = (railOf s i).horizonEnd :=
  (congrArg Rail.horizonEnd (h.rails i) :)

end RailsMoved

theorem setPoint_moves (site mv : Nat) (s : State) : RailsMoved s (setPoint site mv s) := by
  rw [setPoint]
  split
  · exact .refl s
  · exact .updRail s site fun _ => rfl

theorem throttleFor_moves (c : Option Nat × Nat) (load : Nat) (s : State) : RailsMoved s (throttleFor c load s) := by
  refine .each _ (fun d _ s => ?_) s
  exact .updRail s d fun _ => rfl

theorem coverSlews_moves (s : State) : RailsMoved s (coverSlews s) := by
  refine .each _ (fun c _ s => ?_) s
  split
  · exact throttleFor_moves ..
  · exact .refl s

theorem lowerBorrowers_moves (site : Nat) (s : State) : RailsMoved s (lowerBorrowers site s) := .each _ (fun _ _ s => setPoint_moves _ _ s) s

theorem moveToLevel_moves (site want : Nat) (s : State) : RailsMoved s (moveToLevel site want s) := by
  unfold moveToLevel
  dsimp only
  split
  · split
    · exact ((lowerBorrowers_moves ..).trans (setPoint_moves ..)).trans (coverSlews_moves _)
    · exact (setPoint_moves ..).trans (coverSlews_moves _)
  · exact ((setPoint_moves ..).trans (.updRail _ site fun _ => by rfl)).trans (coverSlews_moves _)

/-- A level is set in its rail's status, whatever its rail then does. -/
theorem setLevel_moves (site level : Nat) (s : State) :
    RailsMoved (updRail s site fun r => { r with level := BitVec.ofNat 2 level }) (setLevel site level s) := by
  unfold setLevel
  dsimp only
  split
  · exact (RailsMoved.updRail _ site fun _ => by rfl).trans (moveToLevel_moves ..)
  · exact .refl _

section
variable (site level : Nat) (s : State)

theorem setLevel_level : (railOf (setLevel site level s) site).level = BitVec.ofNat 2 level := by
  rw [(setLevel_moves site level s).level, railOf_updRail_same]

theorem setLevel_horizonEnd : (railOf (setLevel site level s) site).horizonEnd = (railOf s site).horizonEnd := by
  rw [(setLevel_moves site level s).horizonEnd, railOf_updRail_same]

theorem setLevel_mem : (setLevel site level s).mem = s.mem := (setLevel_moves site level s).mem

theorem setLevel_dieOf (d : Nat) : dieOf (setLevel site level s) d = dieOf s d := (setLevel_moves site level s).dieOf d

/-- Beside the power manager's state a level changes nothing. -/
theorem setLevel_rest : setLevel site level s = { s with power := (setLevel site level s).power } := by
  rw [(setLevel_moves site level s).rest]
  rfl

end

end Sys2Proof.Machine

/-! PROOFS. Fences, hints and FAULT (O8, O10, O11). -/

namespace Sys2Proof.Machine

section
variable {d : Die} {s : State} {img : Image}

/-! ### Control rows -/

theorem ctlRow_on (act : Image → State → Option State) (image : (dieOf s d).image = some img) (runs : running s d = true) :
    ctlRow d act s = (act img s).getD s := by simp [ctlRow, image, runs]

theorem ctlLocal_on (f : DieSt → DieSt) (image : (dieOf s d).image = some img) (runs : running s d = true) :
    ctlLocal d f s = updDie s d f := ctlRow_on _ image runs

/-- A control row that has an answer, on a running die whose image is loaded. -/
theorem exec_ctlRow {c : Instr} {act : Image → State → Option State} {t : State} (arm : exec c s = command (ctlRow d act) s)
    (image : (dieOf s d).image = some img) (runs : running s d = true) (effect : act img { s with pending := [] } = some { t with pending := [] })
    (queue : t.pending = s.pending) : exec c s = .next t := by
  refine exec_eq_next arm ?_ queue
  rw [ctlRow_on (s := { s with pending := [] }) act image runs, effect, Option.getD_some]

/-- A control row that acts on the die alone. -/
theorem exec_ctlLocal {c : Instr} {f g : DieSt → DieSt} (arm : exec c s = command (ctlLocal d f) s) (image : (dieOf s d).image = some img)
    (runs : running s d = true) (effect : f (dieOf s d) = g (dieOf s d)) : exec c s = .next (updDie s d g) := by
  refine exec_ctlRow arm image runs (congrArg some ?_) rfl
  exact congrArg (setDie { s with pending := [] } d) effect

/-- A command that stops as a program fault of class 0x06 posts it and kills its command. -/
theorem exec_program_fault {c : Instr} {f : State → State} {k code : Nat} {p : List Nat} (arm : exec c s = command f s)
    (effect : f { s with pending := [] } = stopWith d (.program code p) { s with pending := [] }) (class6 : code / 256 = 6)
    (dying : Killable s d k) :
    ∃ t, exec c s = .next t ∧ Posted s t code d (jobIdOn s d :: p) ∧ KillBegun s t k (.program (BitVec.ofNat 16 code)) ∧ t.mem = s.mem := by
  refine exec_next_exists arm ?_
  have done := stopWith_program d k code p { s with pending := [] } dying
  rw [if_pos class6, ← effect] at done
  generalize f { s with pending := [] } = t at *
  exact done

/-! ### Fences, ACQUIRE and RELEASE -/

/-- ACQUIRE on a die with no access held or under way and no pass: what it queued is invalidated. -/
theorem acquireAct_idle (noAct : actsHeld (dieOf s d) = false) (noGet : (dieOf s d).getTokens = []) (noDefer : (dieOf s d).deferred = [])
    (noCopy : copiesOut s d (dieOf s d).actSeq = []) (noPass : (dieOf s d).passes = []) :
    acquireAct d img s = some (updDie s d applyInvals) := by
  simp only [acquireAct, noAct, noGet, noDefer, noCopy, noPass, dieStep]
  rfl

/-- A RELEASE notes the last packet of each partner with packets not yet acknowledged. -/
theorem releaseAct_eq (s : State) : releaseAct d s = updDie s d fun x =>
    { x with barrier := x.actSeq
             relLace := ((lacePartners x).filter fun p => !(partnerOf s p).retransmit.isEmpty).map fun p => (p, (partnerOf s p).lseqTx - 1) } := by
  have noted : ((lacePartners (dieOf s d)).filterMap fun p =>
        if (partnerOf s p).retransmit.isEmpty then none else some (p, (partnerOf s p).lseqTx - 1)) =
      ((lacePartners (dieOf s d)).filter fun p => !(partnerOf s p).retransmit.isEmpty).map fun p => (p, (partnerOf s p).lseqTx - 1) := by
    induction lacePartners (dieOf s d) with
    | nil => rfl
    | cons p l ih =>
      rw [List.filterMap_cons, List.filter_cons, ih]
      cases (partnerOf s p).retransmit.isEmpty <;> rfl
  unfold releaseAct
  rw [noted]
  rfl

/-! ### The end of a hint's horizon -/

theorem hintEnds_die {n : Nat} (set : (dieOf s d).hintEnd = some n) (past : n ≤ (dieOf s d).seq.nextStep) :
    let t := hintEnds d s
    (railOf t d).level = 2 ∧ (dieOf t d).hintEnd = none ∧ t.mem = s.mem := by
  have ends : hintEnds d s = setLevel d 2 (updDie s d fun x => { x with hintEnd := none }) := by simp [hintEnds, set, past]
  rw [ends]
  refine ⟨setLevel_level .., ?_, setLevel_mem ..⟩
  rw [setLevel_dieOf, dieOf_updDie_same]

theorem hintEnds_site {site : Nat} {e : BitVec 64} (die : 8 ≤ site) (set : (railOf s site).horizonEnd = some e) (past : e.toNat ≤ s.time.toNat) :
    let t := hintEnds site s
    (railOf t site).level = 2 ∧ (railOf t site).horizonEnd = none ∧ t.mem = s.mem := by
  have ends : hintEnds site s = setLevel site 2 (updRail s site fun r => { r with horizonEnd := none }) := by
    simp [hintEnds, Nat.not_lt.mpr die, set, past]
  rw [ends]
  refine ⟨setLevel_level .., ?_, setLevel_mem ..⟩
  rw [setLevel_horizonEnd, railOf_updRail_same]

/-! ### HINT.PHASE -/

end

section
variable (d level horizon : Nat) (s : State)

theorem hintAct_level : (railOf (hintAct d level horizon s) d).level = BitVec.ofNat 2 level := setLevel_level d level s

theorem hintAct_dieOf : dieOf (hintAct d level horizon s) d = { dieOf s d with hintEnd := some ((dieOf s d).seq.step.toNat + horizon) } := by
  rw [hintAct, dieOf_updDie_same, setLevel_dieOf]

theorem hintAct_dieOf_other {e : Nat} (other : e ≠ d) : dieOf (hintAct d level horizon s) e = dieOf s e := by
  rw [hintAct, dieOf_updDie_other _ _ other, setLevel_dieOf]

theorem hintAct_rest : hintAct d level horizon s =
    { s with power := (hintAct d level horizon s).power, dies := (hintAct d level horizon s).dies } := by
  rw [hintAct, setLevel_rest]
  rfl

end

/-- Settles O8. A fence, ACQUIRE and RELEASE act on the die's own state alone; the end of a horizon sets the level, which the rail's
movement keeps (`setLevel_moves`). -/
theorem fencesAndHorizons : Obligations.FencesAndHorizons := by
  refine ⟨fun d s img image runs => ⟨?_, ?_, ?_, fun noAct noGet noDefer noCopy noPass => ?_, ?_⟩, fun d s n set past => ?_,
    fun site s e die set past => ?_⟩
  · exact exec_ctlLocal (f := fenceLAct) rfl image runs rfl
  · exact exec_ctlLocal (f := fenceSAct) rfl image runs rfl
  · refine exec_ctlLocal (f := fenceLsAct) rfl image runs ?_
    generalize dieOf s d = x
    rfl
  · refine exec_ctlRow (act := acquireAct d) rfl image runs ?_ rfl
    exact acquireAct_idle (s := { s with pending := [] }) noAct noGet noDefer noCopy noPass
  · refine exec_ctlRow (act := fun _ s => some (releaseAct d s)) rfl image runs (congrArg some ?_) rfl
    exact releaseAct_eq { s with pending := [] }
  · refine exec_next_exists (f := hintEnds d) rfl ?_
    have done := hintEnds_die (s := { s with pending := [] }) set past
    generalize hintEnds d { s with pending := [] } = t at *
    exact done
  · refine exec_next_exists (f := hintEnds site) rfl ?_
    have done := hintEnds_site (s := { s with pending := [] }) die set past
    generalize hintEnds site { s with pending := [] } = t at *
    exact done

/-- Settles O10. -/
theorem hintPhaseChangesNoResult : Obligations.HintPhaseChangesNoResult := by
  intro d s img level horizon image runs
  refine exec_next_exists (f := ctlRow d fun _ s => some (hintAct d level.toNat horizon.toNat s)) rfl ?_
  rw [ctlRow_on (s := { s with pending := [] }) _ image runs, Option.getD_some]
  have set := hintAct_level d level.toNat horizon.toNat { s with pending := [] }
  rw [BitVec.ofNat_toNat, BitVec.setWidth_eq] at set
  have die := hintAct_dieOf d level.toNat horizon.toNat { s with pending := [] }
  have others := fun e => hintAct_dieOf_other (e := e) d level.toNat horizon.toNat { s with pending := [] }
  have rest := hintAct_rest d level.toNat horizon.toNat { s with pending := [] }
  generalize hintAct d level.toNat horizon.toNat { s with pending := [] } = t at *
  exact ⟨set, die, others, by rw [rest]⟩

/-- Settles O11: a FAULT stops the die as a program fault does (`stopWith_program`). -/
theorem faultPostsItsCode : Obligations.FaultPostsItsCode := by
  intro d s img code k image runs dying
  refine exec_program_fault (f := ctlRow d fun _ s => some (faultAct d code.toNat s)) rfl ?_ rfl dying
  rw [ctlRow_on (s := { s with pending := [] }) _ image runs, Option.getD_some, faultAct]
  rfl

end Sys2Proof.Machine

/-! PROOFS. A command starts on the one die of a job (O9, O13). -/

namespace Sys2Proof.Machine

/-! ### Two writes of one die -/

/-- Of two writes at one key the second stays. -/
theorem SMap.set_set {α : Type} [DecidableEq α] (d : α) (m : SMap α) (k : Nat) (v w : α) :
    SMap.set d (SMap.set d m k v) k w = SMap.set d m k w := by
  have below (p : Nat × α) : (decide (p.1 < k) && decide (k < p.1)) = false := by simp; omega
  have above (p : Nat × α) : (decide (k < p.1) && decide (p.1 < k)) = false := by simp; omega
  have del : SMap.del (SMap.set d m k v) k = SMap.del m k := by
    unfold SMap.set
    split <;> simp [SMap.del, SMap.put, List.filter_append, List.filter_filter, below, above]
  have put : SMap.put (SMap.set d m k v) k w = SMap.put m k w := by
    unfold SMap.set
    split <;> simp [SMap.del, SMap.put, List.filter_append, List.filter_filter, below, above]
  rw [SMap.set, del, put]
  rfl

theorem setDie_setDie (s : State) (d : Nat) (x y : DieSt) : setDie (setDie s d x) d y = setDie s d y := by
  simp [setDie, SMap.set_set]

theorem updDie_setDie (s : State) (d : Nat) (x : DieSt) (f : DieSt → DieSt) : updDie (setDie s d x) d f = setDie s d (f x) := by
  rw [updDie, dieOf_setDie_same, setDie_setDie]

theorem updDie_updDie (s : State) (d : Nat) (f g : DieSt → DieSt) : updDie (updDie s d f) d g = updDie s d fun x => g (f x) :=
  updDie_setDie s d _ g

/-! ### The partition a job serves -/

theorem servedBy_none {s : State} {k : Nat} {j : Job} (job : jobOf s k = some j) :
    servedBy s k = none ↔ ∀ n < 8, servesJob s n j = false := by simp [servedBy, job]

/-- Whether a job serves rests on the partitions and on its context, descriptor and gang. -/
theorem servedBy_none_keep {s t : State} {k : Nat} {j i : Job} (served : servedBy s k = none) (before : jobOf s k = some j)
    (after : jobOf t k = some i) (parts : t.parts = s.parts) (ctx : i.ctx = j.ctx) (desc : i.desc = j.desc) (gang : i.gang = j.gang) :
    servedBy t k = none := by
  rw [servedBy_none before] at served
  refine (servedBy_none after).mpr fun n small => ?_
  rw [← served n small]
  unfold servesJob partOf allowedOf
  rw [parts, ctx, desc, gang]

/-! ### A command starts on a die -/

/-- With no round list nothing is promoted. -/
theorem promote_no_round {s : State} {d : Nat} (round : roundCount (dieOf s d) = 0) : promote d s = updDie s d id := by
  simp [promote, round]
  rfl

theorem bindSpare_unclaimed {s : State} {d : Nat} (spare : (dieOf s d).spareClaim = none) : bindSpare d s = s := by simp [bindSpare, spare]

theorem writeStepRecord_unserved {s : State} {k : Nat} (served : servedBy s k = none) : writeStepRecord k s = s := by
  simp [writeStepRecord, served]

/-- The start of a command on the one die of a job that claims no spare, has no round list and serves no partition. -/
theorem startCommand_lone {s : State} {k d : Nat} {j : Job} (job : jobOf s k = some j) (lone : j.dies = [d])
    (spare : (dieOf s d).spareClaim = none) (round : roundCount (dieOf s d) = 0) (served : servedBy s k = none) :
    startCommand k s = updDie s d startOnDie := by
  have round' : roundCount (dieOf (updDie s d startOnDie) d) = 0 := by
    rw [dieOf_updDie_same]
    exact round
  have served' : servedBy (updDie s d startOnDie) k = none := served
  simp only [startCommand, job, lone, each_cons, each_nil, bindSpare_unclaimed spare, promote_no_round round', updDie_updDie, id]
  exact writeStepRecord_unserved served'

end Sys2Proof.Machine

/-! PROOFS. COMMIT and its drain (O9). -/

namespace Sys2Proof.Machine

/-! ### The job a die is on, through a kill -/

theorem jobOn_updDie {s : State} {d : Nat} {f : DieSt → DieSt} (same : (f (dieOf s d)).job = (dieOf s d).job) (e : Nat) :
    jobOn (updDie s d f) e = jobOn s e := by
  unfold jobOn
  by_cases here : e = d
  · rw [here, dieOf_updDie_same, same]
  · rw [dieOf_updDie_other _ _ here]

theorem jobOn_setDie {s : State} {d : Nat} {x : DieSt} (same : x.job = (dieOf s d).job) (e : Nat) : jobOn (setDie s d x) e = jobOn s e :=
  jobOn_updDie (f := fun _ => x) same e

theorem jobOn_updJob (s : State) (k : Nat) (f : Job → Job) (e : Nat) : jobOn (updJob s k f) e = jobOn s e := by
  unfold updJob
  split <;> rfl

theorem stopDie_job (u : UnitMap) (now : BitVec 64) (pausedAt : Option (BitVec 64)) (free : Nat) (x : DieSt) :
    (stopDie u now pausedAt free x).job = x.job := by
  have waited : (endWait now x).job = x.job := by
    unfold endWait
    split <;> rfl
  exact waited

theorem jobOn_killDie (d : Nat) (s : State) (e : Nat) : jobOn (killDie d s) e = jobOn s e := by
  obtain ⟨-, -, -, others, u, p, n, here⟩ := killDie_frame d s
  unfold jobOn
  by_cases same : e = d
  · rw [same, here, stopDie_job]
  · rw [others e same]

theorem jobOn_startKill (k : Nat) (s : State) (e : Nat) : jobOn (startKill k s) e = jobOn s e := by
  unfold startKill
  split
  · rfl
  · rw [jobOn_updJob]
    exact each_same (jobOn · e) _ _ (fun d _ s => (jobOn_updDie (f := orphanRequests) rfl e).trans (jobOn_killDie d s e)) s

theorem jobOn_beginKill (k : Nat) (c : KillCause) (s : State) (e : Nat) : jobOn (beginKill k c s) e = jobOn s e := by
  unfold beginKill
  split
  · rfl
  · dsimp only
    split
    iterate 3
      split
      · rw [jobOn_updJob]
      · rw [jobOn_startKill, jobOn_updJob]
    · rw [jobOn_updJob]
    · split
      · rw [jobOn_startKill, jobOn_updJob]
      · rfl
    · rfl
    · rfl

theorem jobOn_killOn (d : Nat) (c : KillCause) (s : State) (e : Nat) : jobOn (killOn d c s) e = jobOn s e := by
  unfold killOn
  split
  · exact jobOn_beginKill ..
  · rfl

theorem jobOn_postDie (code d : Nat) (p : List Nat) (s : State) (e : Nat) : jobOn (postDie code d p s) e = jobOn s e := by
  obtain ⟨-, -, -, kept, -⟩ := postDie_frame code d p s
  exact (kept e).1

theorem jobOn_stopWith_program (d code : Nat) (p : List Nat) (s : State) (e : Nat) : jobOn (stopWith d (.program code p) s) e = jobOn s e :=
  (jobOn_killOn ..).trans (jobOn_postDie ..)

/-! ### COMMIT -/

/-- A command under kill does not drain. -/
theorem tryDrainOn_not_running {s : State} {d k : Nat} {j : Job} (on : jobOn s d = some k) (job : jobOf s k = some j) (stage : j.stage ≠ .running) :
    tryDrainOn d s = s := by simp [tryDrainOn, tryDrain, on, job, stage]

/-- A die that has issued its COMMIT. -/
def committed (last sb : Bool) (x : DieSt) : DieSt := { x with commit := some (last, sb), seq := { x.seq with state := .committing } }

theorem commitAct_local {x : DieSt} (last sb : Bool) (none_lent : ∀ p ∈ x.tokens, p.2.lent = none) :
    commitAct last sb x = .ok (committed last sb x) := by
  have none_found : x.tokens.find? (fun p => p.2.lent.isSome) = none := List.find?_eq_none.mpr fun p mem => by simp [none_lent p mem]
  simp [commitAct, none_found, committed]

/-- A token LENT stops the command, the first of the token map. -/
theorem commitAct_lent {x : DieSt} {p : Nat × TokenSt} (last sb : Bool) (mem : p ∈ x.tokens) (lent : p.2.lent.isSome) :
    ∃ e, commitAct last sb x = .error (.program 0x0605 [e, x.seq.pos]) ∧ ∃ z ∈ x.tokens, z.1 = e ∧ z.2.lent.isSome := by
  cases found : x.tokens.find? (fun p => p.2.lent.isSome) with
  | none => exact absurd lent (by simpa using List.find?_eq_none.mp found p mem)
  | some z => exact ⟨z.1, by simp [commitAct, found], z, List.mem_of_find?_eq_some found, rfl, by simpa using List.find?_some found⟩

/-- A command waits for the COMMIT of every die of its gang. -/
theorem tryDrainOn_waits {s : State} {d k e : Nat} {j : Job} (on : jobOn s d = some k) (job : jobOf s k = some j) (gang : e ∈ j.dies)
    (open_ : (dieOf s e).commit = none) : tryDrainOn d s = s := by
  have waits : (j.dies.all fun d => (dieOf s d).commit.isSome && (dieOf s d).drain.isNone && quiet s d && !paused s d) = false :=
    List.all_eq_false.mpr ⟨e, gang, by simp [open_]⟩
  simp [tryDrainOn, tryDrain, on, job, waits]

/-- Copies held on some die, after a write of a die that holds no others than before. -/
theorem heldCopies_setDie {s : State} {d : Nat} {x : DieSt} (same : x.heldCopies = (dieOf s d).heldCopies) {c : RemoteCopy}
    (held : c ∈ (setDie s d x).dies.flatMap fun p => p.2.heldCopies) : c ∈ s.dies.flatMap fun p => p.2.heldCopies := by
  obtain ⟨p, listed, held⟩ := List.mem_flatMap.mp held
  have cases : p ∈ s.dies ∨ p = (d, x) := by
    simp only [setDie, SMap.set] at listed
    split at listed
    · exact .inl (SMap.mem_del listed).1
    · exact SMap.mem_put listed
  rcases cases with listed | rfl
  · exact List.mem_flatMap.mpr ⟨p, listed, held⟩
  · rw [same] at held
    cases found : SMap.find s.dies d with
    | none => simp [dieOf, SMap.get, found] at held
    | some y =>
      refine List.mem_flatMap.mpr ⟨(d, y), SMap.mem_of_find found, ?_⟩
      simpa [dieOf, SMap.get, found] using held

/-- A die stays quiet when its COMMIT is noted. -/
theorem quiet_commit {s : State} {d : Nat} (last sb : Bool) (calm : quiet s d = true) :
    quiet (setDie s d (committed last sb (dieOf s d))) d = true := by
  simp only [quiet, dieOf_setDie_same, Bool.and_eq_true, Bool.not_eq_true', List.any_append, Bool.or_eq_false_iff] at calm ⊢
  obtain ⟨⟨own, net, held⟩, signals⟩ := calm
  refine ⟨⟨own, net, List.any_eq_false.mpr fun c mem => ?_⟩, signals⟩
  exact List.any_eq_false.mp held c (heldCopies_setDie (x := committed last sb (dieOf s d)) rfl mem)

/-- With no LACE entry in its log no write of a die is unsent. -/
theorem laceUnsent_of_no_partner {x : DieSt} (partners : lacePartners x = []) : laceUnsent x = false := by
  refine List.any_eq_false.mpr fun e mem => ?_
  split
  case h_1 p kind =>
    have listed : p ∈ lacePartners x := List.mem_eraseDups.mpr (List.mem_filterMap.mpr ⟨e, mem, by simp [kind]⟩)
    simp [partners] at listed
  case h_2 => simp

theorem sendCommits_no_partner {s : State} {d : Nat} (partners : lacePartners (dieOf s d) = []) : sendCommits d s = s := by
  simp [sendCommits, partners]

/-- The drain of a committed die that has written to no partner. -/
theorem startDrain_local {s : State} {d : Nat} (partners : lacePartners (dieOf s d) = []) :
    startDrain d s = updDie s d fun x =>
      { x with drain := some { last := ((dieOf s d).commit.getD (false, false)).1, sb := ((dieOf s d).commit.getD (false, false)).2,
                               awaiting := [], undelivered := false } } := by
  simp only [startDrain, partners, List.filter_nil, List.map_nil]
  refine sendCommits_no_partner ?_
  rw [dieOf_updDie_same]
  exact partners

/-- The one die of a job, committed and quiet, starts its drain. -/
theorem tryDrainOn_lone {s : State} {d k : Nat} {j : Job} (on : jobOn s d = some k) (job : jobOf s k = some j) (stage : j.stage = .running)
    (lone : j.dies = [d]) (commit : (dieOf s d).commit.isSome) (drain : (dieOf s d).drain = none) (calm : quiet s d = true)
    (awake : paused s d = false) (partners : lacePartners (dieOf s d) = []) : tryDrainOn d s = startDrain d s := by
  simp [tryDrainOn, tryDrain, on, job, stage, lone, commit, drain, calm, awake, laceUnsent_of_no_partner partners, partners]

/-- What a COMMIT does to a running die, as its control slot's action. -/
def commitRow (d : Nat) (last sb : Bool) (s : State) : Option State := (dieStep d (commitAct last sb) s).map (tryDrainOn d)

theorem commitRow_local {s : State} {d : Nat} (last sb : Bool) (none_lent : ∀ p ∈ (dieOf s d).tokens, p.2.lent = none) :
    commitRow d last sb s = some (tryDrainOn d (setDie s d (committed last sb (dieOf s d)))) := by
  simp [commitRow, dieStep, commitAct_local last sb none_lent]

/-- With a COMMIT of its gang still to come a command only waits. -/
theorem commitRow_waits {s : State} {d k e : Nat} {j : Job} (last sb : Bool) (none_lent : ∀ p ∈ (dieOf s d).tokens, p.2.lent = none)
    (on : jobOn s d = some k) (job : jobOf s k = some j) (gang : e ∈ j.dies) (other : e ≠ d) (open_ : (dieOf s e).commit = none) :
    commitRow d last sb s = some (updDie s d (committed last sb)) := by
  rw [commitRow_local last sb none_lent]
  refine congrArg some (tryDrainOn_waits ((jobOn_setDie (x := committed last sb (dieOf s d)) rfl d).trans on) job gang ?_)
  rw [dieOf_setDie_other _ _ other, open_]

/-- On a job's one quiet die the drain starts with the COMMIT. -/
theorem commitRow_drains {s : State} {d k : Nat} {j : Job} (last sb : Bool) (none_lent : ∀ p ∈ (dieOf s d).tokens, p.2.lent = none)
    (on : jobOn s d = some k) (job : jobOf s k = some j) (stage : j.stage = .running) (lone : j.dies = [d])
    (drain : (dieOf s d).drain = none) (calm : quiet s d = true) (awake : paused s d = false) (partners : lacePartners (dieOf s d) = []) :
    commitRow d last sb s = some (updDie s d fun x => { committed last sb x with drain := some ⟨last, sb, [], false⟩ }) := by
  let t := setDie s d (committed last sb (dieOf s d))
  have die : dieOf t d = committed last sb (dieOf s d) := dieOf_setDie_same ..
  have on' : jobOn t d = some k := (jobOn_setDie (x := committed last sb (dieOf s d)) rfl d).trans on
  have partners' : lacePartners (dieOf t d) = [] := by rw [die]; exact partners
  have drains : tryDrainOn d t = startDrain d t :=
    tryDrainOn_lone on' job stage lone (by rw [die]; rfl) (by rw [die]; exact drain) (quiet_commit last sb calm) awake partners'
  rw [commitRow_local last sb none_lent, drains, startDrain_local partners', die]
  exact congrArg some (updDie_setDie ..)

/-- A token LENT stops the command, which does not drain. -/
theorem commitRow_lent {s : State} {d k : Nat} {p : Nat × TokenSt} (last sb : Bool) (mem : p ∈ (dieOf s d).tokens) (lent : p.2.lent.isSome)
    (dying : Killable s d k) : ∃ e, commitRow d last sb s = some (stopWith d (.program 0x0605 [e, (dieOf s d).seq.pos]) s) ∧
      ∃ z ∈ (dieOf s d).tokens, z.1 = e ∧ z.2.lent.isSome := by
  obtain ⟨e, stops, first⟩ := commitAct_lent last sb mem lent
  refine ⟨e, ?_, first⟩
  obtain ⟨-, ⟨j, i, -, job, stage, -⟩, -⟩ := stopWith_program d k 0x0605 [e, (dieOf s d).seq.pos] s dying
  have on := (jobOn_stopWith_program d 0x0605 [e, (dieOf s d).seq.pos] s d).trans dying.1
  simp [commitRow, dieStep, stops, tryDrainOn_not_running on job (by simp [stage])]

/-! ### The end of a drain -/

/-- What the end of a drain clears on a die. -/
def drained (x : DieSt) : DieSt := { x with log := [], drain := none, commit := none, pendingFlags := 0, slots := jobSlots x.slots }

/-- What it counts of a job, with the flags its dies raised. -/
def drainedJob (flags : BitVec 32) (j : Job) : Job :=
  { j with flagWord := j.flagWord ||| flags, commands := j.commands + 1, faultKills := 0, rerunDue := false }

/-- The state of a job's one die as its drain has ended. -/
def afterDrain (d k : Nat) (s : State) : State :=
  updJob (closeCmds d (updDie { s with free := s.free + 1 } d drained)) k (drainedJob (flagsOr [(dieOf s d).pendingFlags]))

section
variable {s : State} {d k : Nat} {j : Job}

theorem afterDrain_eq (job : jobOf s k = some j) : afterDrain d k s =
    { closeCmds d (updDie { s with free := s.free + 1 } d drained) with
      jobs := SMap.put s.jobs k (drainedJob (flagsOr [(dieOf s d).pendingFlags]) j) } :=
  updJob_some (s := closeCmds d (updDie { s with free := s.free + 1 } d drained)) job _

theorem afterDrain_job (job : jobOf s k = some j) :
    jobOf (afterDrain d k s) k = some (drainedJob (flagsOr [(dieOf s d).pendingFlags]) j) := by
  rw [afterDrain_eq job]
  exact SMap.find_put_same ..

theorem afterDrain_die (job : jobOf s k = some j) : dieOf (afterDrain d k s) d = drained (dieOf s d) := by
  rw [afterDrain_eq job]
  exact dieOf_updDie_same { s with free := s.free + 1 } d drained

theorem afterDrain_mem (job : jobOf s k = some j) : (afterDrain d k s).mem = s.mem := by
  rw [afterDrain_eq job]
  rfl

theorem afterDrain_parts (job : jobOf s k = some j) : (afterDrain d k s).parts = s.parts := by
  rw [afterDrain_eq job]
  rfl

theorem afterDrain_iommu (job : jobOf s k = some j) : (afterDrain d k s).iommu = s.iommu := by
  rw [afterDrain_eq job]
  rfl

/-- The end of a drain that wrote nothing and awaits no partner, of a command without END on a job's one die. -/
theorem drainComplete_lone (job : jobOf s k = some j) (lone : j.dies = [d]) (causes : j.causes = [])
    (drain : (dieOf s d).drain = some ⟨false, false, [], false⟩) (awake : paused s d = false) (log : (dieOf s d).log = []) :
    drainComplete k s = startCommand k (afterDrain d k s) := by
  have alone : anyOrder s 1 0 [d] = [d] := by simp [anyOrder, Nat.mod_one]
  have applied : each [d] applyLog s = s := by simp [applyLog, log]
  simp [drainComplete, job, lone, causes, drain, awake, alone, applied]
  rfl

theorem settleFences_none (fence : s.iommu.fence = none) : settleFences s = s := by simp [settleFences, fence]

/-- What the end of such a drain leaves, in a job with no round list that claims no spare and serves no partition. -/
theorem drainComplete_starts (job : jobOf s k = some j) (lone : j.dies = [d]) (causes : j.causes = [])
    (drain : (dieOf s d).drain = some ⟨false, false, [], false⟩) (awake : paused s d = false) (log : (dieOf s d).log = [])
    (spare : (dieOf s d).spareClaim = none) (round : roundCount (dieOf s d) = 0) (served : servedBy s k = none) :
    drainComplete k s = updDie (afterDrain d k s) d startOnDie := by
  rw [drainComplete_lone job lone causes drain awake log]
  have served' : servedBy (afterDrain d k s) k = none :=
    servedBy_none_keep served job (afterDrain_job job) (afterDrain_parts job) rfl rfl rfl
  refine startCommand_lone (afterDrain_job job) lone ?_ ?_ served'
  · rw [afterDrain_die job]
    exact spare
  · rw [afterDrain_die job]
    exact round

/-- What COMMIT_DRAIN_COMPLETE does. -/
def drainEnds (d : Nat) (s : State) : State := settleFences (match jobOn s d with | some k => drainComplete k s | none => s)

theorem drainEnds_lone (on : jobOn s d = some k) (job : jobOf s k = some j) (lone : j.dies = [d]) (causes : j.causes = [])
    (drain : (dieOf s d).drain = some ⟨false, false, [], false⟩) (awake : paused s d = false) (log : (dieOf s d).log = [])
    (spare : (dieOf s d).spareClaim = none) (round : roundCount (dieOf s d) = 0) (served : servedBy s k = none)
    (fence : s.iommu.fence = none) :
    let t := drainEnds d s
    ∃ i, jobOf t k = some i ∧ i.commands = j.commands + 1 ∧ i.flagWord = j.flagWord ||| (dieOf s d).pendingFlags ∧ i.stage = j.stage ∧
      (dieOf t d).seq.state = .running ∧ (dieOf t d).seq.command = (dieOf s d).seq.command + 1 ∧ (dieOf t d).drain = none ∧
      (dieOf t d).commit = none ∧ (dieOf t d).pendingFlags = 0 ∧ t.mem = s.mem := by
  have ends : drainEnds d s = updDie (afterDrain d k s) d startOnDie := by
    simp only [drainEnds, on, drainComplete_starts job lone causes drain awake log spare round served]
    refine settleFences_none ?_
    rw [updDie_iommu, afterDrain_iommu job, fence]
  have die : dieOf (updDie (afterDrain d k s) d startOnDie) d = startOnDie (drained (dieOf s d)) := by
    rw [dieOf_updDie_same, afterDrain_die job]
  rw [ends]
  refine ⟨drainedJob (flagsOr [(dieOf s d).pendingFlags]) j, afterDrain_job job, rfl, ?_, rfl, ?_⟩
  · simp [drainedJob, flagsOr]
  · rw [die, updDie_mem, afterDrain_mem job]
    exact ⟨rfl, rfl, rfl, rfl, rfl, rfl⟩

end

/-- Settles O9. A COMMIT with no token LENT waits for the rest of its gang (`tryDrainOn_waits`) or, on a job's one quiet die, starts the
drain (`tryDrainOn_lone`); a drain that ends starts the next command (`drainComplete_starts`). -/
theorem commandsCommitAndDrain : Obligations.CommandsCommitAndDrain := by
  refine ⟨fun d s img last sb k j image runs on job => ⟨fun local_ other => ?_, fun local_ stage lone drain calm partners => ?_,
    fun p mem lent dying => ?_⟩, fun d s k j on job lone causes drain awake log spare round served fence => ?_⟩
  · obtain ⟨e, gang, other, uncommitted⟩ := other
    refine exec_ctlRow (act := fun _ => commitRow d last sb) rfl image runs ?_ rfl
    exact commitRow_waits (s := { s with pending := [] }) last sb local_ on job gang other uncommitted
  · refine exec_ctlRow (act := fun _ => commitRow d last sb) rfl image runs ?_ rfl
    have awake : paused s d = false := by simpa using (Bool.and_eq_true_iff.mp runs).2
    exact commitRow_drains (s := { s with pending := [] }) last sb local_ on job stage lone drain calm awake partners
  · obtain ⟨e, stops, first⟩ := commitRow_lent (s := { s with pending := [] }) last sb mem lent dying
    obtain ⟨t, done, posted, kill, kept⟩ := exec_program_fault (c := .commit d last sb) (f := ctlRow d fun _ => commitRow d last sb) rfl
      (by rw [ctlRow_on (s := { s with pending := [] }) _ image runs, stops]; rfl) rfl dying
    exact ⟨t, e, done, posted, first, kill, kept⟩
  · obtain ⟨i, done⟩ := drainEnds_lone (s := { s with pending := [] }) on job lone causes drain awake log spare round served fence
    refine ⟨{ drainEnds d { s with pending := [] } with pending := s.pending }, i, command_next (drainEnds d) s, ?_⟩
    generalize drainEnds d { s with pending := [] } = t at *
    exact done

end Sys2Proof.Machine

/-! PROOFS. GET through the edge cache (O23), and what passes that finish leave of a die. -/

namespace Sys2Proof.Machine

/-! ### What pan writes and finished passes leave of a die -/

/-- A die without its pans' bytes and the staging log. -/
def panView (x : DieSt) : DieSt := { x with sram := [], lineTag := [], written := [], log := [] }

/-- A die without what a pass that finishes changes. -/
def passView (x : DieSt) : DieSt := { panView x with pvats := [], passes := [], pendingFlags := 0 }

section
variable {x y : DieSt}

theorem stageLine_view {e : LogEntry} (done : stageLine e x = .ok y) : panView y = panView x := by
  unfold stageLine logAdd at done
  split at done
  · cases done
    rfl
  · split at done <;> cases done
    rfl

theorem writePanLine_view {p : PanEnt} {l : Nat} {mask : BitVec 64} {data : LineData} (done : writePanLine p l mask data x = .ok y) :
    panView y = panView x := by
  unfold writePanLine at done
  dsimp only at done
  split at done
  · exact stageLine_view done
  · split at done <;> cases done <;> rfl

theorem writePan_view {p : PanEnt} {off : Nat} {bs : List Byte} (done : writePan p off bs x = .ok y) : panView y = panView x :=
  act_foldl_keeps (g := panView) writePanLine_view done

theorem passView_of_panView (h : panView y = panView x) : passView y = passView x := by rw [passView, h, passView]

theorem writeVector_view {img : Image} {job : W64} {p : VatDesc} {w : SlotData} {v : Nat} {act : List Byte}
    (done : writeVector img job p w v act x = .ok y) : passView y = passView x := by
  have ⟨out, fl, write⟩ : ∃ out fl, (writePan (panEnt img p.dstPan) (64 * (p.dstOffset + v * p.dstStride)) out x).bind
      (fun z => .ok (raise fl z)) = .ok y := by
    unfold writeVector at done
    dsimp only at done
    split at done <;> obtain ⟨dst, -, write⟩ := act_bind_ok done <;> exact ⟨_, _, write⟩
  obtain ⟨z, written, raised⟩ := act_bind_ok write
  cases raised
  exact passView_of_panView (y := z) (writePan_view written)

theorem feedPass_view (f : PassFlight) (x : DieSt) : passView (feedPass f x) = passView x := by
  unfold feedPass
  split <;> rfl

theorem finishPass_view {img : Image} {job : W64} {f : PassFlight} (done : finishPass img job f x = .ok y) : passView y = passView x := by
  unfold finishPass at done
  dsimp only at done
  split at done
  · cases done
  · split at done
    · cases done
    · exact (act_foldl_keeps (g := passView) writeVector_view done).trans (feedPass_view f x)

theorem settle_view {img : Image} {job : W64} {tokens : List Nat} (done : settle img job tokens x = .ok y) : passView y = passView x := by
  unfold settle at done
  split at done
  · cases done
  · exact act_foldl_keeps (g := passView) finishPass_view done

theorem settle_seq {img : Image} {job : W64} {tokens : List Nat} (done : settle img job tokens x = .ok y) : y.seq = x.seq := by
  have view := congrArg DieSt.seq (settle_view done)
  exact view

theorem settle_job {img : Image} {job : W64} {tokens : List Nat} (done : settle img job tokens x = .ok y) : y.job = x.job := by
  have view := congrArg DieSt.job (settle_view done)
  exact view

end

/-! ### The context and the sequencer of a die that is written -/

section
variable {s : State} {d : Nat} {x : DieSt}

theorem running_setDie (seq : x.seq = (dieOf s d).seq) : running (setDie s d x) d = running s d := by
  unfold running
  rw [dieOf_setDie_same, seq]
  rfl

theorem ctxOn_setDie (job : x.job = (dieOf s d).job) : ctxOn (setDie s d x) d = ctxOn s d := by
  unfold ctxOn
  rw [jobOn_setDie job]
  rfl

end

/-! ### GET -/

section
variable {s : State} {d : Nat} {img : Image}

theorem mustWait_none {x : DieSt} {a : UnitAct} (none_waits : x.deferred = []) : mustWait img x a = false := by simp [mustWait, none_waits]

theorem issueAct_starts {steps : Nat} {a : UnitAct} {act : State → Option State} {t : State} (free : (dieOf s d).deferred = [])
    (starts : act s = some t) : issueAct d steps img a act s = t := by simp [issueAct, mustWait_none free, starts]

theorem tokenLocal_ok {x : DieSt} {t : Nat} (local_ : (tokOf x t).lent = none) : tokenLocal x t = .ok () := by simp [tokenLocal, local_]

/-- The access of a GET, by its lines and their bytes. -/
theorem moverMem_get {di va id : Nat} {w v : State} {ls : List MovLine} {b : List Byte} {q : DieSt}
    (lines : movLines d (ctxOn s d) va (movDesc img di).length false s = (.ok ls, w)) (reads : movRead d (ctxOn s d) ls w = (.ok b, v))
    (writes : writePan (panEnt img (movDesc img di).pan) (64 * (movDesc img di).offset) b (dieOf v d) = .ok q) :
    moverMem d img 1 di va id s = some (setDie v d q) := by
  simp [moverMem, lines, reads, dieStep, writes]

/-- A die as a memory mover begins its access. -/
def moverBegun (op mv : Nat) (m : MovDesc) (y : DieSt) : DieSt :=
  occupy (moverUnitKey mv) (moverSteps op m) { y with actSeq := y.actSeq + 1 }

/-- A memory mover's action once its token is local and what it orders behind is complete. -/
theorem memoryMover_begins {op mv : Nat} {a : MoverArgs} {y : DieSt} (runs : running s d = true)
    (orders : ordersBehind img (dieOf s d) (op ≠ 1) (moverAddr (dieOf s d) (movDesc img a.desc.toNat) a)
      (64 * (movDesc img a.desc.toNat).length) = false)
    (local_ : (tokOf (dieOf s d) (movDesc img a.desc.toNat).token).lent = none)
    (settled : settle img (jobWord s d) [(movDesc img a.desc.toNat).token] (dieOf s d) = .ok y) :
    memoryMover d img op mv a s = moverMem d img op a.desc.toNat (moverAddr (dieOf s d) (movDesc img a.desc.toNat) a) (dieOf s d).actSeq
      (setDie s d (moverBegun op mv (movDesc img a.desc.toNat) y)) := by
  have seq : (moverBegun op mv (movDesc img a.desc.toNat) y).seq = (dieOf s d).seq := by rw [← settle_seq settled]; rfl
  have still : running (setDie s d (moverBegun op mv (movDesc img a.desc.toNat) y)) d = true := (running_setDie seq).trans runs
  unfold memoryMover
  dsimp only
  rw [orders]
  simp only [dieStep, tokenLocal_ok local_, settled, bind, Except.bind]
  exact if_pos still

/-- A GET on a running die: its context and sequencer are those before the mover began. -/
theorem moverRow_get {mv : Nat} {a : MoverArgs} {w v : State} {y q : DieSt} {ls : List MovLine} {b : List Byte}
    (image : (dieOf s d).image = some img) (runs : running s d = true) (named : moverNamed img mv = true)
    (valid : moverOk img 1 a.desc.toNat = true) (free : (dieOf s d).deferred = [])
    (orders : ordersBehind img (dieOf s d) false (moverAddr (dieOf s d) (movDesc img a.desc.toNat) a)
      (64 * (movDesc img a.desc.toNat).length) = false)
    (local_ : (tokOf (dieOf s d) (movDesc img a.desc.toNat).token).lent = none)
    (settled : settle img (jobWord s d) [(movDesc img a.desc.toNat).token] (dieOf s d) = .ok y)
    (lines : movLines d (ctxOn s d) (moverAddr (dieOf s d) (movDesc img a.desc.toNat) a) (movDesc img a.desc.toNat).length false
      (setDie s d (moverBegun 1 mv (movDesc img a.desc.toNat) y)) = (.ok ls, w))
    (reads : movRead d (ctxOn s d) ls w = (.ok b, v))
    (writes : writePan (panEnt img (movDesc img a.desc.toNat).pan) (64 * (movDesc img a.desc.toNat).offset) b (dieOf v d) = .ok q) :
    moverRow d 1 mv a none s = setDie v d q := by
  have job : (moverBegun 1 mv (movDesc img a.desc.toNat) y).job = (dieOf s d).job := by rw [← settle_job settled]; rfl
  rw [← ctxOn_setDie job] at lines reads
  have starts := (memoryMover_begins (op := 1) runs orders local_ settled).trans (moverMem_get lines reads writes)
  simp only [moverRow, image, runs, named, valid, Bool.and_self, if_true]
  refine issueAct_starts free ?_
  simp only [moverStart, moverAct, runs, Bool.not_true, Bool.false_eq_true, if_false]
  exact starts

end

/-- Settles O23, by `moverRow_get`. -/
theorem getReadsMemoryIntoAPan : Obligations.GetReadsMemoryIntoAPan := by
  refine ⟨fun d mv s => rfl, ?_⟩
  rintro d mv a s z w v img y q ls b rfl image runs named valid m va free orders local_ settled lines reads writes
  have row := moverRow_get (s := { s with pending := [] }) image runs named valid free orders local_ settled lines reads writes
  exact (command_next (moverRow d 1 mv.toNat a none) s).trans (by rw [row])

end Sys2Proof.Machine

/-! PROOFS. What memory, coherence, the tiers and translation leave of the engines. -/

namespace Sys2Proof.Machine

/-! ### What stays of the engines -/

/-- A die without its caches, its queued invalidations and its translation counters. -/
def stillDie (x : DieSt) : DieSt := { x with edge := [], invQueue := [], iotlb := [], walkCache := [], tr := {} }

/-- From `s₀` to `s` the jobs, the contexts, the state of every rail and every die but for its caches have stayed, and no event record is lost. -/
structure EnginesKept (s₀ s : State) : Prop where
  jobs : s.jobs = s₀.jobs
  ctxs : s.ctxs = s₀.ctxs
  rails : ∀ i, (railOf s i).state = (railOf s₀ i).state
  dies : ∀ e, stillDie (dieOf s e) = stillDie (dieOf s₀ e)
  records : RecordsKept s₀ s

@[simp] theorem EnginesKept.refl (s : State) : EnginesKept s s := ⟨rfl, rfl, fun _ => rfl, fun _ => rfl, .refl s⟩

theorem EnginesKept.trans {s t u : State} (h : EnginesKept s t) (k : EnginesKept t u) : EnginesKept s u :=
  ⟨k.jobs.trans h.jobs, k.ctxs.trans h.ctxs, fun i => (k.rails i).trans (h.rails i), fun e => (k.dies e).trans (h.dies e),
    h.records.trans k.records⟩

/-- The parts of a state that this speaks of. -/
def KeptParts (s₀ : State) (jobs : SMap Job) (ctxs : SMap Context) (power : Power) (dies : SMap DieSt) (ev : EventBuf) (su : Startup) : Prop :=
  EnginesKept s₀ { jobs, ctxs, power, dies, ev, su }

section
variable {s₀ : State}

@[simp] theorem keptParts_eta (s : State) : KeptParts s₀ s.jobs s.ctxs s.power s.dies s.ev s.su ↔ EnginesKept s₀ s :=
  ⟨fun ⟨jobs, ctxs, rails, dies, up, pendingRecs, cowbell, overflow⟩ => ⟨jobs, ctxs, rails, dies, up, pendingRecs, cowbell, overflow⟩,
    fun ⟨jobs, ctxs, rails, dies, up, pendingRecs, cowbell, overflow⟩ => ⟨jobs, ctxs, rails, dies, up, pendingRecs, cowbell, overflow⟩⟩

@[simp] theorem enginesKept_mk (pending free resp time variant weltGen map disc dies copyNet sigNet mem grans moves filling sep quotas ctxs jobs disp
    parts iommu dom cluster lacing units tunnel host power sec dict su nv ev upd cal) :
    EnginesKept s₀ ⟨pending, free, resp, time, variant, weltGen, map, disc, dies, copyNet, sigNet, mem, grans, moves, filling, sep, quotas, ctxs,
      jobs, disp, parts, iommu, dom, cluster, lacing, units, tunnel, host, power, sec, dict, su, nv, ev, upd, cal⟩ ↔
    KeptParts s₀ jobs ctxs power dies ev su := (keptParts_eta _).symm

@[simp] theorem enginesKept_ite {c : Prop} [Decidable c] {s t : State} (h : EnginesKept s₀ s) (k : EnginesKept s₀ t) :
    EnginesKept s₀ (if c then s else t) := by
  split
  · exact h
  · exact k

@[simp] theorem enginesKept_each {α : Type} {l : List α} {f : α → State → State} (h : ∀ a t, EnginesKept t (f a t)) {s : State}
    (k : EnginesKept s₀ s) : EnginesKept s₀ (each l f s) := each_keeps (EnginesKept s₀) l f (fun a _ t k => k.trans (h a t)) s k

theorem enginesKept_foldl_snd {α β : Type} {l : List α} {f : β × State → α → β × State}
    (h : ∀ a b, EnginesKept b.2 (f b a).2) {b : β × State} (k : EnginesKept s₀ b.2) : EnginesKept s₀ (l.foldl f b).2 := by
  induction l generalizing b with
  | nil => exact k
  | cons a l ih => exact ih (k.trans (h a b))

@[simp] theorem enginesKept_updDie {d : Nat} {f : DieSt → DieSt} (still : ∀ x, stillDie (f x) = stillDie x) {s : State} (k : EnginesKept s₀ s) :
    EnginesKept s₀ (updDie s d f) := by
  obtain ⟨jobs, ctxs, rails, dies, records⟩ := k
  refine ⟨jobs, ctxs, rails, fun e => ?_, records.trans (.of_eq rfl rfl)⟩
  by_cases here : e = d
  · rw [here, dieOf_updDie_same, still, dies]
  · rw [dieOf_updDie_other _ _ here, dies]

@[simp] theorem enginesKept_post (code site : Nat) (p : List Nat) {s : State} (k : EnginesKept s₀ s) : EnginesKept s₀ (post code site p s) := by
  obtain ⟨jobs, ctxs, rails, dies, records⟩ := k
  exact ⟨by simpa using jobs, by simpa using ctxs, by simpa [railOf] using rails, by simpa [dieOf] using dies, records.trans (.post code site p s)⟩

@[simp] theorem enginesKept_drew {s : State} (k : EnginesKept s₀ s) : EnginesKept s₀ (drew s) := by simpa [drew] using k
@[simp] theorem enginesKept_linksGood (a b : Nat) {s : State} (k : EnginesKept s₀ s) : EnginesKept s₀ (linksGood a b s) := by
  simpa [linksGood, linkGood] using k
@[simp] theorem enginesKept_updGran (g : Nat) (f : Granule → Granule) {s : State} (k : EnginesKept s₀ s) : EnginesKept s₀ (updGran s g f) := by
  simpa [updGran] using k
@[simp] theorem enginesKept_updQuota (c : Nat) (f : Quota → Quota) {s : State} (k : EnginesKept s₀ s) : EnginesKept s₀ (updQuota s c f) := by
  simpa [updQuota] using k
@[simp] theorem enginesKept_updUnit (u : Nat) (f : MemUnit → MemUnit) {s : State} (k : EnginesKept s₀ s) : EnginesKept s₀ (updUnit s u f) := by
  simpa [updUnit] using k

@[simp] theorem stillDie_queueInval (l : Nat) (now : BitVec 64) (x : DieSt) : stillDie (queueInval l now x) = stillDie x := by
  unfold queueInval
  dsimp only
  split
  · rfl
  · split
    · split <;> rfl
    · rfl

/-- An invalidation of a line queued on every die. -/
@[simp] theorem keptParts_queueInval (l : Nat) (now : BitVec 64) {s : State} (k : EnginesKept s₀ s) :
    KeptParts s₀ s.jobs s.ctxs s.power (s.dies.map fun p => (p.1, queueInval l now p.2)) s.ev s.su := by
  have die (e : Nat) : stillDie (SMap.get {} (s.dies.map fun p => (p.1, queueInval l now p.2)) e) = stillDie (dieOf s e) := by
    unfold dieOf SMap.get SMap.find
    induction s.dies with
    | nil => rfl
    | cons p m ih =>
      rw [List.map_cons, List.lookup_cons, List.lookup_cons]
      split
      · exact stillDie_queueInval ..
      · exact ih
  obtain ⟨jobs, ctxs, rails, dies, up, pendingRecs, cowbell, overflow⟩ := k
  exact ⟨jobs, ctxs, rails, fun e => (die e).trans (dies e), up, pendingRecs, cowbell, overflow⟩

theorem enginesKept_dom (x : Domain) {s : State} (k : EnginesKept s₀ s) : EnginesKept s₀ { s with dom := x } := by simpa using k
theorem enginesKept_moves (x : SMap Move) {s : State} (k : EnginesKept s₀ s) : EnginesKept s₀ { s with moves := x } := by simpa using k
theorem enginesKept_iommu (x : Iommu) {s : State} (k : EnginesKept s₀ s) : EnginesKept s₀ { s with iommu := x } := by simpa using k
theorem enginesKept_invalidated (l : Nat) {s : State} (k : EnginesKept s₀ s) :
    EnginesKept s₀ { s with dies := s.dies.map fun p => (p.1, queueInval l s.time p.2) } := by simpa using keptParts_queueInval l s.time k
theorem enginesKept_sep (x : Separator) {s : State} (k : EnginesKept s₀ s) : EnginesKept s₀ { s with sep := x } := by simpa using k
@[simp] theorem enginesKept_answer (r : Response) {s : State} (k : EnginesKept s₀ s) : EnginesKept s₀ (answer r s) := by simpa [answer] using k

/-! ### Machine/Memory -/

@[simp] theorem enginesKept_takeLoc (hbm : Bool) (loc : Nat) {s : State} (k : EnginesKept s₀ s) : EnginesKept s₀ (takeLoc s hbm loc) := by
  unfold takeLoc
  split <;> simp [k]
@[simp] theorem enginesKept_freeLoc (hbm : Bool) (loc : Nat) {s : State} (k : EnginesKept s₀ s) : EnginesKept s₀ (freeLoc s hbm loc) := by
  unfold freeLoc
  split <;> simp [k]
@[simp] theorem enginesKept_noKey (a : Nat) {s : State} (k : EnginesKept s₀ s) : EnginesKept s₀ (noKey a s) := by simp [k, noKey]

@[simp] theorem enginesKept_memStoreLine (l : Nat) (mask : BitVec 64) (data : LineData) {s : State} (k : EnginesKept s₀ s) :
    EnginesKept s₀ (memStoreLine l mask data s) := by
  unfold memStoreLine
  split <;> simp [k]

@[simp] theorem enginesKept_noteTraffic (t : ReqTag) (write : Bool) (n l : Nat) {s : State} (k : EnginesKept s₀ s) :
    EnginesKept s₀ (noteTraffic t write n l s) := by
  unfold noteTraffic
  split <;> simp [k]

@[simp] theorem enginesKept_noteBytes (t : ReqTag) (write : Bool) (a n : Nat) {s : State} (k : EnginesKept s₀ s) :
    EnginesKept s₀ (noteBytes t write a n s) := by simp [k, noteBytes]

/-! ### Machine/CohCore -/

@[simp] theorem enginesKept_memRewrite (l : Nat) (data : LineData) {s : State} (k : EnginesKept s₀ s) :
    EnginesKept s₀ (memRewrite l data s) := by simp [k, memRewrite]
@[simp] theorem enginesKept_updHome (h : Nat) (f : Home → Home) {s : State} (k : EnginesKept s₀ s) :
    EnginesKept s₀ (updHome h f s) := by simpa [updHome] using k
@[simp] theorem enginesKept_setDir (l : Nat) (e : DirEnt) {s : State} (k : EnginesKept s₀ s) :
    EnginesKept s₀ (setDir l e s) := by simpa [setDir] using k
@[simp] theorem enginesKept_sendMsg (kind : MsgKind) (src dst l : Nat) {s : State} (k : EnginesKept s₀ s) :
    EnginesKept s₀ (sendMsg kind src dst l s) := by simpa [sendMsg] using k
@[simp] theorem enginesKept_putBusy (l : Nat) (b : Busy) {s : State} (k : EnginesKept s₀ s) :
    EnginesKept s₀ (putBusy l b s) := by simpa [putBusy] using k
@[simp] theorem enginesKept_endBusy (l : Nat) {s : State} (k : EnginesKept s₀ s) : EnginesKept s₀ (endBusy l s) := by simpa [endBusy] using k
@[simp] theorem enginesKept_dropL3 (a l : Nat) {s : State} (k : EnginesKept s₀ s) : EnginesKept s₀ (dropL3 a l s) := by simpa [dropL3] using k
@[simp] theorem enginesKept_evictL3 (a l : Nat) (x : L3Line) {s : State} (k : EnginesKept s₀ s) : EnginesKept s₀ (evictL3 a l x s) := by
  unfold evictL3
  exact enginesKept_setDir l _ (enginesKept_dropL3 a l (enginesKept_ite (enginesKept_noteTraffic _ _ _ _ (enginesKept_memRewrite l _ k)) k))

@[simp] theorem enginesKept_l3Room (a l : Nat) (asker : Asker) {s : State} (k : EnginesKept s₀ s) : EnginesKept s₀ (l3Room a l asker s).2 := by
  unfold l3Room
  dsimp only
  (repeat' split) <;> simp [k]

@[simp] theorem enginesKept_putL3 (a l : Nat) (x : L3Line) {s : State} (k : EnginesKept s₀ s) : EnginesKept s₀ (putL3 a l x s) := by
  unfold putL3
  dsimp only
  (repeat' split) <;> simp [k]

@[simp] theorem enginesKept_noteAsker (a l : Nat) (asker : Asker) {s : State} (k : EnginesKept s₀ s) :
    EnginesKept s₀ (noteAsker a l asker s) := by simp [k, noteAsker]

@[simp] theorem enginesKept_updPlace (a l : Nat) (f : LinePlace → LinePlace) {s : State} (k : EnginesKept s₀ s) :
    EnginesKept s₀ (updPlace a l f s) := by
  unfold updPlace
  split <;> simp [k]

@[simp] theorem enginesKept_fitCache (a l core ways sets : Nat) (held : LinePlace → BitVec 72) (drop : LinePlace → LinePlace) {s : State} (k : EnginesKept s₀ s) :
    EnginesKept s₀ (fitCache a l core ways sets held drop s) := by
  unfold fitCache
  dsimp only
  (repeat' split) <;> simp [k]

@[simp] theorem enginesKept_touchCore (a l core : Nat) (code store : Bool) {s : State} (k : EnginesKept s₀ s) :
    EnginesKept s₀ (touchCore a l core code store s) := by
  unfold touchCore
  have fit (ways sets : Nat) (held : LinePlace → BitVec 72) (drop : LinePlace → LinePlace) {u : State} (ku : EnginesKept s₀ u) :=
    enginesKept_fitCache a l core ways sets held drop ku
  exact enginesKept_ite k (enginesKept_updPlace a l _ (enginesKept_ite (fit _ _ _ _ (fit _ _ _ _ k)) (fit _ _ _ _ (fit _ _ _ _ k))))

@[simp] theorem enginesKept_proceed (l : Nat) {s : State} (k : EnginesKept s₀ s) : EnginesKept s₀ (proceed l s) := by
  have back (r : Option LineData) : EnginesKept s₀ (match r with | some d => memRewrite l d s | none => s) := by
    split
    · exact enginesKept_memRewrite l _ k
    · exact k
  unfold proceed
  dsimp only
  (repeat' split) <;>
    apply_rules [enginesKept_sendMsg, enginesKept_putBusy, enginesKept_endBusy, enginesKept_setDir, enginesKept_memStoreLine, enginesKept_updHome,
      enginesKept_memRewrite, back, k]

@[simp] theorem enginesKept_openTxn (l src : Nat) (req : CohReq) (inval owners : List Nat) {s : State} (k : EnginesKept s₀ s) :
    EnginesKept s₀ (openTxn l src req inval owners s) := by
  unfold openTxn
  exact enginesKept_proceed l (enginesKept_each (by simp) (enginesKept_each (by simp) (enginesKept_putBusy l _ k)))

@[simp] theorem enginesKept_acceptReq (l src : Nat) (req : CohReq) {s : State} (k : EnginesKept s₀ s) : EnginesKept s₀ (acceptReq l src req s) := by
  have answers (kind : MsgKind) (a b : Nat) (x : Busy) {u : State} (ku : EnginesKept s₀ u) : EnginesKept s₀ (sendMsg kind a b l (putBusy l x u)) :=
    enginesKept_sendMsg _ _ _ _ (enginesKept_putBusy _ _ ku)
  unfold acceptReq
  dsimp only
  split
  · split
    · exact enginesKept_ite (answers _ _ _ _ k) (answers _ _ _ _ k)
    · exact answers _ _ _ _ k
  · exact enginesKept_openTxn _ _ _ _ _ k
  · exact enginesKept_ite (enginesKept_openTxn _ _ _ _ _ k) (enginesKept_openTxn _ _ _ _ _ k)
  case h_4 | h_5 | h_6 => exact enginesKept_openTxn _ _ _ _ _ k
  · exact answers _ _ _ _ (enginesKept_ite (enginesKept_setDir _ _ (enginesKept_memRewrite _ _ (enginesKept_dropL3 _ _ k))) k)
  · exact answers _ _ _ _ (enginesKept_ite (enginesKept_setDir _ _ (enginesKept_dropL3 _ _ k)) k)

@[simp] theorem enginesKept_serveQueue (l n : Nat) {s : State} (k : EnginesKept s₀ s) : EnginesKept s₀ (serveQueue l n s) := by
  induction n generalizing s with
  | zero => exact k
  | succ n ih =>
    unfold serveQueue
    split
    · exact k
    · split <;> simp [k, ih]

@[simp] theorem enginesKept_nextReq (l : Nat) {s : State} (k : EnginesKept s₀ s) : EnginesKept s₀ (nextReq l s) := by simp [k, nextReq]
@[simp] theorem enginesKept_queueReq (l src : Nat) (req : CohReq) {s : State} (k : EnginesKept s₀ s) :
    EnginesKept s₀ (queueReq l src req s) := by simpa [queueReq] using k

@[simp] theorem enginesKept_answered (l a : Nat) (data : Option LineData) {s : State} (k : EnginesKept s₀ s) :
    EnginesKept s₀ (answered l a data s) := by
  unfold answered
  split
  · exact k
  · exact enginesKept_nextReq l (enginesKept_proceed l (enginesKept_putBusy l _ k))

@[simp] theorem enginesKept_deliver (m : ShankMsg) {s : State} (k : EnginesKept s₀ s) : EnginesKept s₀ (deliver m s) := by
  have copied (e : Nat) (f : DieSt → SMap EdgeLine) : EnginesKept s₀ (updDie s e fun x => { x with edge := f x }) :=
    enginesKept_updDie (fun _ => by rfl) k
  have queued (e : Nat) := enginesKept_updDie (d := e) (stillDie_queueInval m.line s.time) k
  unfold deliver
  dsimp only
  split
  case h_1 | h_2 | h_3 | h_4 | h_5 | h_8 =>
    (repeat' split) <;>
      apply_rules [enginesKept_sendMsg, enginesKept_putL3, enginesKept_dropL3, enginesKept_touchCore, enginesKept_answer, copied, queued, k]
  · exact enginesKept_answered _ _ _ k
  · exact enginesKept_answered _ _ _ k
  · exact enginesKept_answer _ k
  · split
    · exact enginesKept_nextReq _ (enginesKept_endBusy _ (enginesKept_setDir _ _ k))
    · exact k

@[simp] theorem enginesKept_takeMsg (m : ShankMsg) {s : State} (k : EnginesKept s₀ s) : EnginesKept s₀ (takeMsg m s) := by simpa [takeMsg] using k
@[simp] theorem enginesKept_arriveMsg (m : ShankMsg) {s : State} (k : EnginesKept s₀ s) : EnginesKept s₀ (arriveMsg m s) :=
  enginesKept_deliver m (enginesKept_linksGood _ _ (enginesKept_takeMsg m k))

@[simp] theorem enginesKept_settleLoop (l n : Nat) {s : State} (k : EnginesKept s₀ s) : EnginesKept s₀ (settleLoop l n s) := by
  induction n generalizing s with
  | zero => exact k
  | succ n ih =>
    unfold settleLoop
    split
    · exact ih (enginesKept_each (by simp) k)
    · exact k

@[simp] theorem enginesKept_settleLine (l : Nat) {s : State} (k : EnginesKept s₀ s) : EnginesKept s₀ (settleLine l s) := by simp [k, settleLine]

@[simp] theorem enginesKept_recallLine (l : Nat) {s : State} (k : EnginesKept s₀ s) : EnginesKept s₀ (recallLine l s) := by
  have settled := enginesKept_settleLine l k
  unfold recallLine
  dsimp only
  refine enginesKept_dom _ (enginesKept_invalidated l ?_)
  split
  · exact settled
  · exact enginesKept_dom _ (enginesKept_ite settled (enginesKept_memRewrite l _ settled))

@[simp] theorem enginesKept_cohStoreLine (l : Nat) (mask : BitVec 64) (data : LineData) {s : State} (k : EnginesKept s₀ s) :
    EnginesKept s₀ (cohStoreLine l mask data s) := by simp [k, cohStoreLine]

@[simp] theorem enginesKept_cohWrite (a : Nat) (bs : List Byte) {s : State} (k : EnginesKept s₀ s) :
    EnginesKept s₀ (cohWrite a bs s) := by simp [k, cohWrite]
@[simp] theorem enginesKept_cohPut (a n v : Nat) {s : State} (k : EnginesKept s₀ s) : EnginesKept s₀ (cohPut a n v s) := by simp [k, cohPut]
@[simp] theorem enginesKept_sharedCopy (src l : Nat) {s : State} (k : EnginesKept s₀ s) :
    EnginesKept s₀ (sharedCopy src l s).2.2 := by simp [k, sharedCopy]
@[simp] theorem enginesKept_uniqueCopy (m l : Nat) {s : State} (k : EnginesKept s₀ s) : EnginesKept s₀ (uniqueCopy m l s).2 := by
  unfold uniqueCopy
  exact enginesKept_putL3 m l _ (enginesKept_setDir l _ (enginesKept_dom _ (enginesKept_invalidated l (enginesKept_settleLine l k))))

@[simp] theorem enginesKept_reduceLine (op l : Nat) (data : LineData) {s : State} (k : EnginesKept s₀ s) :
    EnginesKept s₀ (reduceLine op l data s) := by
  unfold reduceLine
  exact enginesKept_updHome _ _ (enginesKept_memRewrite l _ (enginesKept_recallLine l k))

@[simp] theorem enginesKept_atomicAtHome (l : Nat) (op : AtomicOp) {s : State} (k : EnginesKept s₀ s) : EnginesKept s₀ (atomicAtHome l op s).2 := by
  unfold atomicAtHome
  exact enginesKept_updHome _ _ (enginesKept_memRewrite l _ (enginesKept_recallLine l k))

/-! ### Machine/Ecc -/

@[simp] theorem enginesKept_corrected (u g : Nat) (uni : Option Nat) {s : State} (k : EnginesKept s₀ s) : EnginesKept s₀ (corrected u g uni s) := by
  unfold corrected
  have counted (f : MemUnit → MemUnit) := enginesKept_updUnit u f k
  dsimp only
  split
  · exact enginesKept_ite (enginesKept_post _ _ _ (enginesKept_updHome _ _ (counted _))) (enginesKept_updHome _ _ (counted _))
  · exact enginesKept_ite (enginesKept_post _ _ _ (counted _)) (counted _)

@[simp] theorem enginesKept_uncorrectable (u i : Nat) (uni : Option Nat) {s : State} (k : EnginesKept s₀ s) :
    EnginesKept s₀ (uncorrectable u i uni s) := by
  have counted := enginesKept_updUnit u (fun x => { x with uncorrected := bump x.uncorrected }) k
  unfold uncorrectable
  split
  · exact counted
  · have marked := enginesKept_updHome (homeOf s (granuleAddr ‹_›)) (fun x => { x with poisoned := bump x.poisoned }) counted
    exact enginesKept_ite k (enginesKept_post _ _ _ (enginesKept_ite marked (enginesKept_dom _ marked)))

@[simp] theorem enginesKept_copyError (m l : Nat) (x : L3Line) (e : LineError) {s : State} (k : EnginesKept s₀ s) :
    EnginesKept s₀ (copyError m l x e s) := by
  unfold copyError
  split
  · exact k
  · exact k
  · exact enginesKept_updHome _ _ k
  · exact enginesKept_ite (enginesKept_post _ _ _ (enginesKept_dom _ (enginesKept_updHome _ _ k))) (enginesKept_setDir l _ (enginesKept_dropL3 m l k))

@[simp] theorem enginesKept_controllerRead (a : Access) {s : State} (k : EnginesKept s₀ s) : EnginesKept s₀ (controllerRead a s) := by
  unfold controllerRead
  dsimp only
  (repeat' split) <;> simp [k]

/-! ### Machine/Tiers -/

@[simp] theorem enginesKept_charge (c : Nat) (hbm : Bool) {s : State} (k : EnginesKept s₀ s) : EnginesKept s₀ (charge c hbm s) :=
  enginesKept_updQuota c _ k
@[simp] theorem enginesKept_uncharge (c : Nat) (hbm : Bool) {s : State} (k : EnginesKept s₀ s) : EnginesKept s₀ (uncharge c hbm s) := by
  unfold uncharge
  exact enginesKept_ite (enginesKept_post _ _ _ (enginesKept_updQuota c _ (enginesKept_updQuota c _ k))) (enginesKept_updQuota c _ k)
@[simp] theorem enginesKept_recallGranule (g : Nat) {s : State} (k : EnginesKept s₀ s) :
    EnginesKept s₀ (recallGranule g s) := by simp [k, recallGranule]
@[simp] theorem enginesKept_zeroGranule (g : Nat) {s : State} (k : EnginesKept s₀ s) :
    EnginesKept s₀ (zeroGranule g s) := by simpa [zeroGranule] using k
@[simp] theorem enginesKept_rekeyGranule (g : Nat) (newOwner : BitVec 12) {s : State} (k : EnginesKept s₀ s) :
    EnginesKept s₀ (rekeyGranule g newOwner s) := by simpa [rekeyGranule] using k
@[simp] theorem enginesKept_putIn (g c : Nat) (hbm : Bool) (loc : Nat) {s : State} (k : EnginesKept s₀ s) : EnginesKept s₀ (putIn g c hbm loc s) := by
  unfold putIn
  exact enginesKept_zeroGranule g (enginesKept_charge c hbm (enginesKept_updGran g _ (enginesKept_takeLoc hbm loc k)))

theorem enginesKept_of_placeGranule {g c : Nat} {die : Option Nat} {s t : State} (h : placeGranule g c die s = .ok t) (k : EnginesKept s₀ s) :
    EnginesKept s₀ t := by
  simp only [placeGranule] at h
  split at h <;> cases h
  exact enginesKept_putIn g c _ _ k

@[simp] theorem enginesKept_postNoRoom (e : NoRoom) (c a : Nat) {s : State} (k : EnginesKept s₀ s) : EnginesKept s₀ (postNoRoom e c a s) := by
  unfold postNoRoom
  split <;> simp [k]

@[simp] theorem enginesKept_startMove (g : Nat) (kind : MoveKind) (toHbm : Bool) (target : Nat) (queued : List Waiter) {s : State} (k : EnginesKept s₀ s) :
    EnginesKept s₀ (startMove g kind toHbm target queued s) := by
  have begun := enginesKept_updGran g (fun x => { x with state := .moving }) (enginesKept_recallGranule g (enginesKept_takeLoc toHbm target k))
  unfold startMove
  exact enginesKept_ite (enginesKept_moves _ begun) (enginesKept_charge _ _ (enginesKept_moves _ begun))

@[simp] theorem enginesKept_undoMove (g : Nat) (m : Move) {s : State} (k : EnginesKept s₀ s) : EnginesKept s₀ (undoMove g m s) := by
  have freed := enginesKept_freeLoc m.toHbm m.target.toNat k
  have released := enginesKept_ite (c := m.fromHbm = m.toHbm) freed (enginesKept_uncharge (granOf s g).owner.toNat m.toHbm freed)
  unfold undoMove
  exact enginesKept_moves _ (enginesKept_updGran g _ released)

@[simp] theorem enginesKept_completeMove (g : Nat) (m : Move) {s : State} (k : EnginesKept s₀ s) : EnginesKept s₀ (completeMove g m s) := by
  have freed := enginesKept_freeLoc m.fromHbm m.source.toNat k
  have released := enginesKept_ite (c := m.fromHbm = m.toHbm) freed (enginesKept_uncharge (granOf s g).owner.toNat m.fromHbm freed)
  unfold completeMove
  refine enginesKept_sep _ ?_
  split
  · exact enginesKept_charge _ _ (enginesKept_uncharge _ _ (enginesKept_rekeyGranule g _ (enginesKept_moves _ (enginesKept_updGran g _ released))))
  · exact enginesKept_sep _ (enginesKept_moves _ (enginesKept_updGran g _ released))
  · exact enginesKept_moves _ (enginesKept_updGran g _ released)

@[simp] theorem enginesKept_loadLine (m : Option Nat) (l : Nat) {s : State} (k : EnginesKept s₀ s) : EnginesKept s₀ (loadLine m l s).2 := by
  unfold loadLine
  split <;> simp [k]

@[simp] theorem enginesKept_loadBytes (m : Option Nat) (p n : Nat) {s : State} (k : EnginesKept s₀ s) : EnginesKept s₀ (loadBytes m p n s).2 := by
  unfold loadBytes
  dsimp only
  refine enginesKept_foldl_snd (fun i b => ?_) ?_
  · exact enginesKept_loadLine m _ (.refl b.2)
  · exact k

@[simp] theorem enginesKept_storeL3 (m p : Nat) (bs : List Byte) {s : State} (k : EnginesKept s₀ s) : EnginesKept s₀ (storeL3 m p bs s) := by
  refine enginesKept_each (fun i t => ?_) k
  dsimp only
  split <;> simp

@[simp] theorem enginesKept_consumePoison (a : Access) {s : State} (k : EnginesKept s₀ s) : EnginesKept s₀ (consumePoison a s) := by
  unfold consumePoison
  split <;> simp [k]

@[simp] theorem enginesKept_askLine (a : Access) (m : Option Nat) (l : Nat) {s : State} (k : EnginesKept s₀ s) :
    EnginesKept s₀ (askLine a m l s) := by
  have traffic (w : Bool) := enginesKept_noteTraffic (accessTag s a.who) w 64 l k
  unfold askLine
  dsimp only
  split
  case h_1 | h_2 => exact enginesKept_ite k (enginesKept_noteAsker _ l _ (enginesKept_ite k (traffic false)))
  · exact enginesKept_ite k (traffic true)
  · exact traffic _

@[simp] theorem enginesKept_useLines (a : Access) (m : Option Nat) {s : State} (k : EnginesKept s₀ s) : EnginesKept s₀ (useLines a m s) := by
  unfold useLines
  split <;> simp [k]

@[simp] theorem enginesKept_performAccess (a : Access) {s : State} (k : EnginesKept s₀ s) : EnginesKept s₀ (performAccess a s) := by
  have read := enginesKept_controllerRead a (enginesKept_ite (c := (keyOf s (granuleOf a.addr.toNat)).isNone = true) (enginesKept_noKey a.addr.toNat k) k)
  unfold performAccess
  dsimp only
  generalize controllerRead a _ = u at read ⊢
  have asked := enginesKept_each (l := accessLines a) (f := askLine a (cacheL3 u a)) (fun l t => enginesKept_askLine a _ l (.refl t)) read
  refine enginesKept_useLines a _ ?_
  split
  · exact enginesKept_ite (enginesKept_consumePoison a read) (enginesKept_answer _ (enginesKept_loadBytes _ _ _ asked))
  · refine enginesKept_answer _ ?_
    split
    · exact enginesKept_storeL3 _ _ _ asked
    · exact enginesKept_cohWrite _ _ asked
  · refine enginesKept_ite (enginesKept_consumePoison a read) ?_
    split
    · exact enginesKept_answer _ (enginesKept_putL3 _ _ _ read)
    · exact enginesKept_answer _ (enginesKept_atomicAtHome _ _ (enginesKept_askLine a _ _ read))

@[simp] theorem enginesKept_letIn (w : Waiter) {s : State} (k : EnginesKept s₀ s) : EnginesKept s₀ (letIn w s) := by
  unfold letIn
  split <;> simp [k]

@[simp] theorem enginesKept_serveAll (q : List Waiter) {s : State} (k : EnginesKept s₀ s) : EnginesKept s₀ (serveAll q s) := by simp [k, serveAll]
@[simp] theorem enginesKept_retireLater (g cause : Nat) {s : State} (k : EnginesKept s₀ s) :
    EnginesKept s₀ (retireLater g cause s) := by simpa [retireLater] using k

@[simp] theorem enginesKept_abandonMove (g : Nat) (m : Move) {s : State} (k : EnginesKept s₀ s) : EnginesKept s₀ (abandonMove g m s) := by
  unfold abandonMove
  have undone := enginesKept_updGran g (fun x => { x with pull := false }) (enginesKept_undoMove g m k)
  generalize updGran (undoMove g m s) g (fun x => { x with pull := false }) = u at undone ⊢
  have later : EnginesKept s₀ (match m.kind with | .retire cause => retireLater g cause u | _ => u) := by
    split
    · exact enginesKept_retireLater g _ undone
    · exact undone
  have posted := enginesKept_post 0x0342 noSite [granuleAddr g, if m.toHbm then 0 else 1] later
  exact enginesKept_serveAll _ (enginesKept_ite (enginesKept_sep _ posted) posted)

@[simp] theorem enginesKept_finishMove (g : Nat) (m : Move) {s : State} (k : EnginesKept s₀ s) : EnginesKept s₀ (finishMove g m s) := by
  unfold finishMove
  exact enginesKept_ite (enginesKept_abandonMove g m k) (enginesKept_serveAll _ (enginesKept_completeMove g m k))

@[simp] theorem enginesKept_settleGranule (g : Nat) {s : State} (k : EnginesKept s₀ s) : EnginesKept s₀ (settleGranule g s) := by
  unfold settleGranule
  split <;> simp [k]

theorem enginesKept_of_touchGranule {g c : Nat} {die : Option Nat} {s t : State} (h : touchGranule g c die s = .ok t) (k : EnginesKept s₀ s) :
    EnginesKept s₀ t := by
  simp only [touchGranule] at h
  split at h
  · cases hp : placeGranule g c die (settleGranule g s) with
    | error e => simp [hp, Except.map] at h
    | ok u =>
      simp only [hp, Except.map, Except.ok.injEq] at h
      exact h ▸ enginesKept_updGran g _ (enginesKept_of_placeGranule hp (enginesKept_settleGranule g k))
  · have refd := enginesKept_updGran g (fun x => { x with ref := true }) (enginesKept_settleGranule g k)
    split at h
    · split at h <;> cases h
      · exact enginesKept_settleGranule g (enginesKept_startMove g _ _ _ _ (enginesKept_sep _ refd))
      · exact enginesKept_sep _ (enginesKept_sep _ refd)
    · cases h
      exact refd
  · cases h
    exact enginesKept_updGran g _ (enginesKept_settleGranule g k)

theorem enginesKept_of_touchRange {a n c : Nat} {die : Option Nat} {s t : State} (h : touchRange a n c die s = .ok t) (k : EnginesKept s₀ s) :
    EnginesKept s₀ t := by
  refine foldl_ok_keeps (P := EnginesKept s₀) (fun r i t e => ?_) _ h (fun u hu => Except.ok.inj hu ▸ k)
  split at e
  · cases e
  · split at e <;> cases e
    exact ⟨_, rfl, enginesKept_of_touchGranule ‹_›⟩

@[simp] theorem enginesKept_touchIo (a n : Nat) {s : State} (k : EnginesKept s₀ s) : EnginesKept s₀ (touchIo a n s) :=
  touchIo_cases (P := EnginesKept s₀) (fun _ h => enginesKept_of_touchRange h k) (fun e b _ => enginesKept_postNoRoom e 0 b k)

@[simp] theorem enginesKept_ioWrite (a : Nat) (bs : List Byte) {s : State} (k : EnginesKept s₀ s) : EnginesKept s₀ (ioWrite a bs s) := by
  unfold ioWrite
  have touched := enginesKept_touchIo a bs.length k
  exact enginesKept_ite k (enginesKept_ite (enginesKept_cohWrite a bs touched) touched)
@[simp] theorem enginesKept_ioPut (a n v : Nat) {s : State} (k : EnginesKept s₀ s) : EnginesKept s₀ (ioPut a n v s) := by simp [k, ioPut]

/-! ### Machine/Translation -/

theorem enginesKept_of_readEntry {c pa : Nat} {s t : State} {r} (h : readEntry c pa s = (r, t)) (k : EnginesKept s₀ s) : EnginesKept s₀ t := by
  unfold readEntry at h
  split at h
  · split at h <;> cases h
    · exact enginesKept_of_touchGranule ‹_› k
    · exact k
  · cases h
    exact k

@[simp] theorem enginesKept_writeEntry (pa v : Nat) {s : State} (k : EnginesKept s₀ s) : EnginesKept s₀ (writeEntry pa v s) := by simp [k, writeEntry]

theorem enginesKept_walk {c : Nat} {w : Walking} (he : ∀ {a x s r t}, w.entry a x s = (r, t) → EnginesKept s₀ s → EnginesKept s₀ t)
    (hn : ∀ l a g {s}, EnginesKept s₀ s → EnginesKept s₀ (w.note l a g s))
    (level table : Nat) (glob : Bool) {s : State} (k : EnginesKept s₀ s) : EnginesKept s₀ (walk c w level table glob s).2 := by
  induction level generalizing table glob s with
  | zero =>
    rw [walk]
    dsimp only
    (repeat' split) <;> grind only [→ enginesKept_of_readEntry, enginesKept_writeEntry]
  | succ l ih =>
    rw [walk]
    dsimp only
    (repeat' split) <;> grind only [→ enginesKept_of_readEntry, enginesKept_writeEntry]

theorem enginesKept_of_samePa {a : Nat} {w : Bool} {s t : State} {r} (h : samePa a w s = (r, t)) (k : EnginesKept s₀ s) : EnginesKept s₀ t := by
  cases h
  exact k

theorem enginesKept_of_walkStage {c : Nat} {die : Option Nat} {x : TrCtx} {g : Bool} {entry : Nat → Bool → State → Except TrFault Nat × State}
    (he : ∀ {a w s r t}, entry a w s = (r, t) → EnginesKept s₀ s → EnginesKept s₀ t) {ade write : Bool} {index : Nat → Nat}
    {addr root table : Nat} {s t : State} {r}
    (h : walkStage c die x g entry ade write index addr root table s = (r, t)) (k : EnginesKept s₀ s) : EnginesKept s₀ t := by
  refine (congrArg (fun r => EnginesKept s₀ r.2) h).mp (enginesKept_walk he (fun l a glob u ku => ?_) _ _ _ k)
  cases die
  · exact ku
  · exact enginesKept_updDie (fun _ => by rfl) ku

theorem enginesKept_of_gStage {c : Nat} {die : Option Nat} {x : TrCtx} {gpa : Nat} {write : Bool} {s t : State} {r}
    (h : gStage c die x gpa write s = (r, t)) (k : EnginesKept s₀ s) : EnginesKept s₀ t := by
  unfold gStage at h
  grind only [→ enginesKept_of_walkStage, → enginesKept_of_samePa]

theorem enginesKept_of_viaG {c : Nat} {die : Option Nat} {x : TrCtx} {gpa : Nat} {write : Bool} {s t : State} {r}
    (h : viaG c die x gpa write s = (r, t)) (k : EnginesKept s₀ s) : EnginesKept s₀ t := by
  unfold viaG at h
  grind only [→ enginesKept_of_gStage]

theorem enginesKept_of_sStage {c : Nat} {die : Option Nat} {x : TrCtx} {va : Nat} {write : Bool} {s t : State} {r}
    (h : sStage c die x va write s = (r, t)) (k : EnginesKept s₀ s) : EnginesKept s₀ t := by
  unfold sStage at h
  grind only [→ enginesKept_of_walkStage, → enginesKept_of_viaG]

theorem enginesKept_of_overG {c : Nat} {die : Option Nat} {x : TrCtx} {va : Nat} {write : Bool} {l : Leaf} {s t : State} {r}
    (h : overG c die x va write l s = (r, t)) (k : EnginesKept s₀ s) : EnginesKept s₀ t := by
  unfold overG at h
  grind only [→ enginesKept_of_gStage]

theorem enginesKept_of_bothStages {c : Nat} {die : Option Nat} {x : TrCtx} {va : Nat} {write : Bool} {s t : State} {r}
    (h : bothStages c die x va write s = (r, t)) (k : EnginesKept s₀ s) : EnginesKept s₀ t := by
  unfold bothStages at h
  grind only [→ enginesKept_of_sStage, → enginesKept_of_overG]

theorem enginesKept_of_ddtWalk {did c level table : Nat} {s t : State} {r} (h : ddtWalk did c level table s = (r, t)) (k : EnginesKept s₀ s) :
    EnginesKept s₀ t := by
  induction level generalizing table s with
  | zero =>
    unfold ddtWalk at h
    grind only [enginesKept_touchIo]
  | succ l ih =>
    unfold ddtWalk at h
    grind only [→ enginesKept_of_readEntry]

theorem enginesKept_of_deviceCtx {did c : Nat} {s t : State} {r} (h : deviceCtx did c s = (r, t)) (k : EnginesKept s₀ s) : EnginesKept s₀ t := by
  unfold deviceCtx at h
  grind only [→ enginesKept_of_ddtWalk, enginesKept_iommu]

theorem enginesKept_of_pdtWalk {pid c : Nat} {die : Option Nat} {x : TrCtx} {level table : Nat} {s t : State} {r}
    (h : pdtWalk pid c die x level table s = (r, t)) (k : EnginesKept s₀ s) : EnginesKept s₀ t := by
  induction level generalizing table s with
  | zero =>
    rw [pdtWalk] at h
    dsimp only at h
    (repeat' split at h) <;> grind only [→ enginesKept_of_viaG, → enginesKept_of_readEntry]
  | succ l ih =>
    rw [pdtWalk] at h
    dsimp only at h
    (repeat' split at h) <;> grind only [→ enginesKept_of_viaG, → enginesKept_of_readEntry]

theorem enginesKept_of_processCtx {did pid c : Nat} {die : Option Nat} {dc : List W64} {s t : State} {r}
    (h : processCtx did pid c die dc s = (r, t)) (k : EnginesKept s₀ s) : EnginesKept s₀ t := by
  unfold processCtx at h
  grind only [→ enginesKept_of_pdtWalk, enginesKept_iommu]

theorem enginesKept_of_trCtx {did c : Nat} {pid die : Option Nat} {s t : State} {r} (h : trCtx did pid c die s = (r, t)) (k : EnginesKept s₀ s) :
    EnginesKept s₀ t := by
  unfold trCtx at h
  grind only [→ enginesKept_of_deviceCtx, → enginesKept_of_processCtx]

theorem enginesKept_of_translate {d c va : Nat} {write : Bool} {s t : State} {r} (h : translate d c va write s = (r, t)) (k : EnginesKept s₀ s) :
    EnginesKept s₀ t := by
  have hits {u : State} : EnginesKept s₀ u → EnginesKept s₀ (updDie u d fun x => { x with tr := { x.tr with iotlbHits := x.tr.iotlbHits + 1 } }) :=
    enginesKept_updDie fun _ => by rfl
  have walks {u : State} : EnginesKept s₀ u → EnginesKept s₀ (updDie u d fun x => { x with tr := { x.tr with walks := x.tr.walks + 1 } }) :=
    enginesKept_updDie fun _ => by rfl
  have added (e : TlbEntry) {u : State} : EnginesKept s₀ u → EnginesKept s₀ (updDie u d (tlbAdd e)) := enginesKept_updDie fun _ => by rfl
  unfold translate at h
  dsimp only at h
  (repeat' split at h) <;> grind only [→ enginesKept_of_trCtx, → enginesKept_of_bothStages]

end

end Sys2Proof.Machine

/-! PROOFS. Bundles issue, and words are fetched ahead (O12). -/

namespace Sys2Proof.Machine

section
variable {d : Nat} {s : State} {img : Image}

/-! ### The issue of a bundle -/

/-- A bundle whose words are fetched needs none translated. -/
theorem fetchWords_none {lo hi : Nat} (fetched : hi ≤ lo) : fetchWords d img lo hi s = (.ok (), s) := by
  simp [fetchWords, Nat.sub_eq_zero_of_le fetched]

/-- BUNDLE_ISSUE with nothing that waits and no word to fetch. -/
theorem bundleIssue_fetched (image : (dieOf s d).image = some img) (runs : running s d = true) (inside : (dieOf s d).seq.pos < img.words)
    (noLoad : jobLoadHeld (dieOf s d) = false)
    (fetched : (dieOf s d).seq.pos + (bundleAt img (dieOf s d).seq.pos).length ≤ (dieOf s d).seq.fetchedTo)
    (noDefer : (dieOf s d).deferred = []) (free : (dieOf s d).seq.ctlHeld = false) : bundleIssue d s = issueBundle d img s := by
  have none : runDeferred d s = s := by simp [runDeferred, noDefer]
  have goes : (running s d && decide ((dieOf s d).seq.pos < img.words) && !jobLoadHeld (dieOf s d)) = true := by simp [runs, inside, noLoad]
  unfold bundleIssue
  dsimp only
  rw [none, image]
  dsimp only
  rw [if_pos goes, if_neg (by simp [free]), fetchWords_none (Nat.le_trans fetched (Nat.le_max_left ..))]

/-- The state in which a bundle's slots act. -/
def bundleBegun (b : Bundle) (x : DieSt) : DieSt :=
  { x with seq := { x.seq with
      step := BitVec.ofNat 64 x.seq.nextStep, bundles := x.seq.bundles + 1, issued := true, nextStep := x.seq.nextStep + 1 + b.skip,
      fetchedWords := x.seq.fetchedWords + BitVec.ofNat 64 (x.seq.pos + b.length - x.seq.fetchedTo) } }

/-- The same as the model writes it, with the words the bundle still needs. -/
def bundleFetched (b : Bundle) (next step : Nat) (x : DieSt) : DieSt :=
  { x with seq := { x.seq with
      step := BitVec.ofNat 64 step, bundles := bump x.seq.bundles, issued := true, nextStep := step + 1 + b.skip,
      fetchedWords := bump x.seq.fetchedWords (next - max x.seq.fetchedTo x.seq.pos), fetchedTo := max x.seq.fetchedTo next } }

theorem bundleFetched_eq {b : Bundle} {x : DieSt} (fetched : x.seq.pos + b.length ≤ x.seq.fetchedTo) :
    bundleFetched b (x.seq.pos + b.length) x.seq.nextStep x = bundleBegun b x := by
  rw [bundleFetched, Nat.max_eq_left fetched, Nat.max_eq_left (Nat.le_trans (Nat.le_add_right ..) fetched)]
  rfl

theorem issueBundle_free {b : Bundle} (at_ : bundleAt img (dieOf s d).seq.pos = b)
    (fetched : (dieOf s d).seq.pos + b.length ≤ (dieOf s d).seq.fetchedTo)
    (free : ∀ k ∈ (slotsOf img b).filter (·.unit < 24), isHold k = true ∨ SMap.get 0 (dieOf s d).occ k.unit ≤ (dieOf s d).seq.nextStep) :
    issueBundle d img s = issueControl d img b (each ((slotsOf img b).filter (·.unit < 24)) (slotAct d img) (updDie s d (bundleBegun b))) := by
  have noneBusy : ((slotsOf img b).filter (·.unit < 24)).find?
      (fun z => !isHold z && decide ((dieOf s d).seq.nextStep < SMap.get 0 (dieOf s d).occ z.unit)) = none := by
    simp only [List.find?_eq_none, Bool.and_eq_true, Bool.not_eq_true', decide_eq_true_eq, not_and, Nat.not_lt]
    exact fun k slot acts => (free k slot).resolve_left (by simp [acts])
  have begun : updDie s d (bundleFetched b ((dieOf s d).seq.pos + b.length) (dieOf s d).seq.nextStep) = updDie s d (bundleBegun b) :=
    congrArg (setDie s d) (bundleFetched_eq fetched)
  unfold issueBundle
  dsimp only
  rw [at_, noneBusy, ← begun]
  rfl

theorem passBundle_runs {next : Nat} {job : Option Nat} (runs : (dieOf s d).seq.state ≠ .killing) (same : (dieOf s d).job = job) :
    passBundle d next false job s = updDie s d fun x => { x with seq := { x.seq with pos := next, ctlHeld := false } } := by
  simp [passBundle, runs, same]

theorem issueControl_none {b : Bundle} (runs : running s d = true) (noControl : ∀ k ∈ slotsOf img b, k.unit ≠ 24) :
    issueControl d img b s = updDie s d fun x => { x with seq := { x.seq with pos := b.pos + b.length, ctlHeld := false } } := by
  have none : (slotsOf img b).find? (·.unit == 24) = none := by simpa [List.find?_eq_none] using noControl
  have alive : (dieOf s d).seq.state ≠ .killing := by
    intro kills
    simp [running, kills] at runs
  rw [issueControl, none]
  exact passBundle_runs alive rfl

theorem issueControl_acts {b : Bundle} {k : SlotRef} {t : State} (runs : running s d = true)
    (control : (slotsOf img b).find? (·.unit == 24) = some k) (straight : ctlTarget k.code (dieOf s d) = none)
    (acts : ctlAct d img k.code (b.pos + b.length) s = some t) (alive : (dieOf t d).seq.state ≠ .killing)
    (same : (dieOf t d).job = (dieOf s d).job) :
    issueControl d img b s = updDie t d fun x => { x with seq := { x.seq with pos := b.pos + b.length, ctlHeld := false } } := by
  simp only [issueControl, control, runs, acts, straight]
  exact passBundle_runs alive same

theorem issueControl_holds {b : Bundle} {k : SlotRef} (runs : running s d = true)
    (control : (slotsOf img b).find? (·.unit == 24) = some k) (holds : ctlAct d img k.code (b.pos + b.length) s = none) :
    issueControl d img b s = updDie s d fun x => { x with seq := { x.seq with ctlHeld := true } } := by
  simp only [issueControl, control, runs, holds]
  rfl

/-- A slot that names an occupied unit stops the command. -/
theorem issueBundle_occupied {u : SlotRef} (slot : u ∈ slotsOf img (bundleAt img (dieOf s d).seq.pos)) (acts : isHold u = false)
    (unit : u.unit < 24) (busy : (dieOf s d).seq.nextStep < SMap.get 0 (dieOf s d).occ u.unit) :
    ∃ v ∈ slotsOf img (bundleAt img (dieOf s d).seq.pos), (dieOf s d).seq.nextStep < SMap.get 0 (dieOf s d).occ v.unit ∧
      issueBundle d img s = stopWith d (.program 0x0603 [v.unit, (dieOf s d).seq.pos]) s := by
  cases found : ((slotsOf img (bundleAt img (dieOf s d).seq.pos)).filter (·.unit < 24)).find?
      (fun z => !isHold z && decide ((dieOf s d).seq.nextStep < SMap.get 0 (dieOf s d).occ z.unit)) with
  | none =>
    have free := List.find?_eq_none.mp found u (List.mem_filter.mpr ⟨slot, by simpa using unit⟩)
    simp [acts, busy] at free
  | some v =>
    have listed := (List.mem_filter.mp (List.mem_of_find?_eq_some found)).1
    have occupied := List.find?_some found
    simp only [Bool.and_eq_true, decide_eq_true_eq] at occupied
    refine ⟨v, listed, occupied.2, ?_⟩
    unfold issueBundle
    dsimp only
    rw [found]

/-! ### Fetch-ahead -/

/-- What is not read from a die's caches stays. -/
theorem EnginesKept.die {α : Type} {s₀ : State} (k : EnginesKept s₀ s) (view : DieSt → α) (still : ∀ x, view (stillDie x) = view x) (e : Nat) :
    view (dieOf s e) = view (dieOf s₀ e) := by rw [← still, k.dies, still]

theorem enginesKept_fetchWords {s₀ : State} {lo hi : Nat} (k : EnginesKept s₀ s) : EnginesKept s₀ (fetchWords d img lo hi s).2 := by
  unfold fetchWords
  refine enginesKept_foldl_snd (fun p b => ?_) k
  obtain ⟨_ | _, u⟩ := b
  · exact .refl u
  · dsimp only
    split <;> exact enginesKept_of_translate ‹_› (.refl u)

/-- `w` words from `lo` on are fetched. -/
def fetchedAhead (lo w : Nat) (x : DieSt) : DieSt :=
  { x with seq := { x.seq with fetchedWords := x.seq.fetchedWords + BitVec.ofNat 64 w, fetchedTo := lo + w } }

/-- Fetches the word `i` beyond `lo`, unless one before it was not fetched. -/
def aheadStep (d : Nat) (img : Image) (lo : Nat) (acc : Option Nat × State) (i : Nat) : Option Nat × State :=
  match acc with
  | (some w, s) =>
    match fetchWords d img (lo + i) (lo + i + 1) s with
    | (.ok _, s) => (some (w + 1), s)
    | (.error _, s) => (none, updDie s d (fetchedAhead lo w))
  | r => r

/-- What is counted where every word was fetched. -/
def aheadEnds (d lo : Nat) (r : Option Nat × State) : State :=
  match r.1 with
  | some w => updDie r.2 d (fetchedAhead lo w)
  | none => r.2

theorem aheadFold {lo : Nat} (n : Nat) :
    let r := (List.range n).foldl (aheadStep d img lo) (some 0, s)
    ∃ w u, w ≤ n ∧ EnginesKept s u ∧ (r = (some w, u) ∧ w = n ∨ r = (none, updDie u d (fetchedAhead lo w))) ∧
      (0 < n → (fetchWords d img lo (lo + 1) s).1 = .ok () → 0 < w) := by
  induction n with
  | zero => exact ⟨0, s, Nat.le_refl 0, .refl s, .inl ⟨rfl, rfl⟩, fun more => absurd more (Nat.lt_irrefl 0)⟩
  | succ n ih =>
    obtain ⟨w, u, le, kept, ended, first⟩ := ih
    rw [List.range_succ, List.foldl_append, List.foldl_cons, List.foldl_nil]
    rcases ended with ⟨going, rfl⟩ | stopped
    · have next := enginesKept_fetchWords (d := d) (img := img) (lo := lo + w) (hi := lo + w + 1) kept
      rw [going]
      unfold aheadStep
      dsimp only
      split
      next v e =>
        rw [e] at next
        exact ⟨w + 1, v, Nat.le_refl _, next, .inl ⟨rfl, rfl⟩, fun _ _ => Nat.succ_pos w⟩
      next err v e =>
        rw [e] at next
        refine ⟨w, v, Nat.le_succ w, next, .inr rfl, fun _ ok => ?_⟩
        cases w with
        | zero =>
          obtain rfl : s = u := congrArg Prod.snd going
          rw [Nat.add_zero] at e
          rw [e] at ok
          cases ok
        | succ w => exact Nat.succ_pos w
    · rw [stopped]
      refine ⟨w, u, Nat.le_succ_of_le le, kept, .inr rfl, fun _ ok => ?_⟩
      cases n with
      | zero => cases stopped
      | succ n => exact first (Nat.succ_pos n) ok

/-- Fetch-ahead counts the words it fetched and leaves the rest but the caches. -/
theorem fetchAhead_counts {n : Nat} (image : (dieOf s d).image = some img) (works : working s d = true) :
    let lo := max (dieOf s d).seq.fetchedTo (dieOf s d).seq.pos
    let hi := min (lo + n) (min img.words ((dieOf s d).seq.pos + 131072))
    ∃ w u, w ≤ hi - lo ∧ EnginesKept s u ∧ fetchAhead d n s = updDie u d (fetchedAhead lo w) ∧
      (lo < hi → (fetchWords d img lo (lo + 1) s).1 = .ok () → 0 < w) := by
  intro lo hi
  obtain ⟨w, u, le, kept, ended, first⟩ := aheadFold (d := d) (s := s) (img := img) (lo := lo) (hi - lo)
  refine ⟨w, u, le, kept, ?_, fun more => first (Nat.sub_pos_of_lt more)⟩
  have folds : fetchAhead d n s = aheadEnds d lo ((List.range (hi - lo)).foldl (aheadStep d img lo) (some 0, s)) := by
    unfold fetchAhead
    dsimp only
    rw [image]
    exact if_pos works
  rcases ended with ⟨going, -⟩ | stopped
  · rw [folds, going]
    rfl
  · rw [folds, stopped]
    rfl

end

/-- Settles O12: with its words fetched and nothing waiting the bundle issues at once (`bundleIssue_fetched`), its units act unless one is
occupied (`issueBundle_free`, `issueBundle_occupied`), and translation changes no engine (`enginesKept_of_translate`). -/
theorem bundlesIssueAndFetch : Obligations.BundlesIssueAndFetch := by
  refine ⟨fun d s z img hz image runs inside noLoad => ?_, fun d s z img n hz image works => ?_⟩
  · intro x b past zs units fetched noDefer ctlFree
    have issues := bundleIssue_fetched image runs inside noLoad fetched noDefer ctlFree
    have answers : exec (.bundleIssue d) s = .next { issueBundle d img z with pending := s.pending } := by
      rw [← issues, hz]
      exact command_next (bundleIssue d) s
    refine ⟨fun t v free acted still => ?_, fun u slot acts unit busy k dying => ?_⟩
    · have issued : exec (.bundleIssue d) s = .next { issueControl d img b t with pending := s.pending } := by
        rw [answers, issueBundle_free rfl fetched free]
        exact congrArg (fun t => Host.Outcome.next { issueControl d img b t with pending := s.pending }) acted
      refine ⟨fun noControl same job => ?_, fun k control straight => ⟨fun acts alive job => ?_, fun holds => ?_⟩⟩
      · rw [issued, issueControl_none still noControl, same]
        rfl
      · rw [issued, issueControl_acts still control straight acts alive job]
        rfl
      · rw [issued, issueControl_holds still control holds]
    · obtain ⟨v, listed, occupied, stops⟩ := issueBundle_occupied slot acts unit busy
      obtain ⟨t, next, posted, begun, mem⟩ := exec_program_fault (c := .bundleIssue d) (f := bundleIssue d)
        (p := [v.unit, x.seq.pos]) rfl (by rw [← hz]; exact issues.trans stops) rfl dying
      exact ⟨t, v.unit, next, posted, ⟨v, listed, rfl, occupied⟩, begun, mem⟩
  · obtain ⟨w, u, le, kept, ahead, first⟩ := fetchAhead_counts (n := n) image works
    have seq : (dieOf u d).seq = (dieOf z d).seq := kept.die (·.seq) (fun _ => rfl) d
    have pageSlots : (dieOf u d).pageSlots = (dieOf z d).pageSlots := kept.die (·.pageSlots) (fun _ => rfl) d
    have held : (dieOf u d).held = (dieOf z d).held := kept.die (·.held) (fun _ => rfl) d
    have die := dieOf_updDie_same u d (fetchedAhead (max (dieOf z d).seq.fetchedTo (dieOf z d).seq.pos) w)
    refine ⟨_, w, command_next (fetchAhead d n) s, le, ?_⟩
    rw [← hz, ahead]
    refine ⟨(congrArg DieSt.seq die).trans ?_, (congrArg DieSt.pageSlots die).trans pageSlots, (congrArg DieSt.held die).trans held, ?_, first⟩
    · rw [← seq]
      rfl
    · exact kept.jobs.trans (by rw [hz])

end Sys2Proof.Machine

/-! PROOFS. What the end of jobs and a domain fault leave of the rails and of the event records (O13, O41). -/

namespace Sys2Proof.Machine

/-! ### The states of the rails -/

/-- What the power manager, the event records and the start-up state are read from. -/
def powerView (s : State) := (s.power, s.ev, s.su)

@[simp] theorem powerView_eta (s : State) : (s.power, s.ev, s.su) = powerView s := rfl

@[simp] theorem powerView_mk (pending free resp time variant weltGen map disc dies copyNet sigNet mem grans moves filling sep quotas ctxs jobs disp
    parts iommu dom cluster lacing units tunnel host power sec dict su nv ev upd cal) :
    powerView ⟨pending, free, resp, time, variant, weltGen, map, disc, dies, copyNet, sigNet, mem, grans, moves, filling, sep, quotas, ctxs, jobs,
      disp, parts, iommu, dom, cluster, lacing, units, tunnel, host, power, sec, dict, su, nv, ev, upd, cal⟩ = (power, ev, su) := rfl

@[simp] theorem powerView_ite (c : Prop) [Decidable c] (s t : State) : powerView (if c then s else t) = if c then powerView s else powerView t :=
  apply_ite ..

@[simp] theorem powerView_updDie (s : State) (d : Nat) (f : DieSt → DieSt) : powerView (updDie s d f) = powerView s := rfl
@[simp] theorem powerView_updCtx (s : State) (c : Nat) (f : Context → Context) : powerView (updCtx s c f) = powerView s := rfl
@[simp] theorem powerView_updJob (s : State) (k : Nat) (f : Job → Job) : powerView (updJob s k f) = powerView s := by
  unfold updJob
  split <;> rfl
@[simp] theorem powerView_updPartner (s : State) (p : Nat) (f : Partner → Partner) : powerView (updPartner s p f) = powerView s := rfl
@[simp] theorem powerView_updQueue (s : State) (q : Nat) (f : IngestQueue → IngestQueue) : powerView (updQueue s q f) = powerView s := rfl
@[simp] theorem powerView_setSite (i state reason : Nat) (s : State) : powerView (setSite i state reason s) = powerView s := rfl
@[simp] theorem powerView_retireTags (d : Nat) (s : State) : powerView (retireTags d s) = powerView s := rfl
@[simp] theorem powerView_each {α : Type} (l : List α) (f : α → State → State) (h : ∀ a s, powerView (f a s) = powerView s) (s : State) :
    powerView (each l f s) = powerView s := each_same powerView l f (fun a _ => h a) s

/-- No rail has changed its state, and no event record is lost. -/
structure StatesKept (s t : State) : Prop where
  rails : ∀ i, (railOf t i).state = (railOf s i).state
  records : RecordsKept s t

namespace StatesKept
variable {s t u : State}

theorem refl (s : State) : StatesKept s s := ⟨fun _ => rfl, .refl s⟩

theorem trans (h : StatesKept s t) (k : StatesKept t u) : StatesKept s u :=
  ⟨fun i => (k.rails i).trans (h.rails i), h.records.trans k.records⟩

theorem of_view (same : powerView t = powerView s) : StatesKept s t := by
  simp only [powerView, Prod.mk.injEq] at same
  obtain ⟨power, ev, su⟩ := same
  exact ⟨fun i => by rw [railOf, railOf, power], .of_eq ev (by simp [dairymanUp, su])⟩

theorem to_view (h : StatesKept s t) (same : powerView u = powerView t) : StatesKept s u := h.trans (.of_view same)

theorem of_engines (h : EnginesKept s t) : StatesKept s t := ⟨h.rails, h.records⟩

theorem of_moved (h : RailsMoved s t) : StatesKept s t :=
  ⟨fun i => (congrArg Rail.state (h.rails i) :), .of_eq (by rw [h.rest]) (by rw [h.rest]; rfl)⟩

theorem ite {p : Prop} [Decidable p] (h : StatesKept s t) (k : StatesKept s u) : StatesKept s (if p then t else u) := by
  split
  · exact h
  · exact k

theorem each {α : Type} {f : α → State → State} (h : ∀ a s, StatesKept s (f a s)) (l : List α) (s : State) : StatesKept s (each l f s) :=
  each_keeps (StatesKept s) l f (fun a _ t k => k.trans (h a t)) s (.refl s)

theorem post (code site : Nat) (p : List Nat) (s : State) : StatesKept s (post code site p s) :=
  ⟨fun i => by rw [railOf, railOf, post_power], .post ..⟩

end StatesKept

/-! ### The end of a job -/

theorem levelIdle_kept (d : Nat) (s : State) : StatesKept s (levelIdle d s) := by
  have idle (f : Rail → Rail) (state : ∀ r, (f r).state = r.state) : StatesKept s (updRail s d f) := by
    refine ⟨fun i => ?_, .of_eq rfl rfl⟩
    by_cases same : i = d
    · rw [same, railOf_updRail_same, state]
    · rw [railOf_updRail_other s _ same]
  unfold levelIdle
  exact (idle _ fun _ => by rfl).trans (.of_moved (setPoint_moves ..))

theorem enginesKept_releaseRpin (demote : Bool) (g : Nat) (s : State) : EnginesKept s (releaseRpin demote g s) := by
  have released := enginesKept_updGran g (fun x => { x with rpin := x.rpin - 1 }) (EnginesKept.refl s)
  unfold releaseRpin
  refine enginesKept_ite ?_ released
  split
  · exact enginesKept_startMove g _ _ _ _ released
  · exact released

theorem enginesKept_releasePins (d : Nat) (s : State) :
    EnginesKept s (each (dieOf s d).round.pins (fun (p : Nat × Nat) t => releaseRpin (demoteAfter (dieOf s d).image p.1) p.2 t) s) := by
  refine enginesKept_each (fun p t => ?_) (.refl s)
  exact enginesKept_releaseRpin (demoteAfter (dieOf s d).image p.1) p.2 t

theorem releasePins_kept (d : Nat) (s : State) : StatesKept s (releasePins d s) :=
  (StatesKept.of_engines (enginesKept_releasePins d s)).to_view (powerView_updDie ..)

@[simp] theorem powerView_takeStall (d k : Nat) (s : State) : powerView (takeStall d k s) = powerView s :=
  (powerView_updDie ..).trans (powerView_updJob ..)

theorem releaseDies_kept (k : Nat) (s : State) : StatesKept s (releaseDies k s) := by
  unfold releaseDies
  split
  · exact .refl s
  · refine .to_view (.each (fun d t => ?_) _ s) (powerView_updJob ..)
    exact ((releasePins_kept d t).to_view ((powerView_updDie ..).trans (powerView_takeStall ..))).trans (levelIdle_kept ..)

@[simp] theorem powerView_requestMsi (k : Nat) (s : State) : powerView (requestMsi k s) = powerView s := by
  unfold requestMsi
  split <;> rfl

@[simp] theorem powerView_mapHostJobs (f : BitVec 64 × Nat × Option (BitVec 8) → BitVec 64 × Nat × Option (BitVec 8)) (s : State) :
    powerView (mapHostJobs f s) = powerView s := rfl

theorem writeRecord_kept (j : Job) (serial status event : Nat) (msi : Bool) (s : State) : StatesKept s (writeRecord j serial status event msi s) := by
  have counted := fun a bs f => (StatesKept.of_engines (enginesKept_ioWrite a bs (.refl s))).to_view (powerView_updCtx _ j.ctx.toNat f)
  unfold writeRecord
  refine .to_view ?_ (powerView_mapHostJobs ..)
  exact .ite ((counted _ _ _).to_view (powerView_requestMsi ..)) (counted _ _ _)

@[simp] theorem powerView_dropCtxKeys (c : Nat) (s : State) : powerView (dropCtxKeys c s) = powerView s := by
  unfold dropCtxKeys
  split <;> rfl

@[simp] theorem powerView_hostJobsLost (c : Nat) (s : State) : powerView (hostJobsLost c s) = powerView s := rfl
@[simp] theorem powerView_settleReset (c : Nat) (s : State) : powerView (settleReset c s) = powerView s := by simp [settleReset]

theorem finishJob_kept (k status event : Nat) (msi : Bool) (s : State) : StatesKept s (finishJob k status event msi s) := by
  have released : StatesKept s (if (jobOf s k).any placed then releaseDies k s else s) := .ite (releaseDies_kept k s) (.refl s)
  unfold finishJob
  dsimp only
  split
  · exact released
  next j _ => exact (released.trans (writeRecord_kept j k status event msi _)).to_view (by simp)

/-! ### A domain fault -/

@[simp] theorem powerView_discardQueue (q code : Nat) (s : State) : powerView (discardQueue q code s) = powerView s := by simp [discardQueue]

theorem idleDiscard_kept (q : Nat) (s : State) : StatesKept s (idleDiscard q s) := by
  unfold idleDiscard
  exact .ite ((StatesKept.of_view (powerView_discardQueue ..)).trans (.post ..)) (.refl s)

theorem resetDomainState_kept (s : State) : StatesKept s (resetDomainState s) := by
  have undone : StatesKept s (each s.moves (fun (p : Nat × Move) s => undoMove p.1 p.2 s) s) :=
    .each (fun (p : Nat × Move) t => .of_engines (enginesKept_undoMove p.1 p.2 (.refl t))) _ s
  unfold resetDomainState
  dsimp only
  refine StatesKept.trans ?_ (.each idleDiscard_kept _ _)
  refine StatesKept.to_view ?_ (powerView_each _ retireTags powerView_retireTags _)
  refine StatesKept.to_view (t := each _ _ _) ?_ rfl
  refine StatesKept.to_view ?_ (powerView_each _ _ (fun (p : Nat × Partner) t => powerView_updPartner t p.1 _) _)
  exact undone.to_view rfl

@[simp] theorem powerView_setMemorySites (site state reason : Nat) (s : State) : powerView (setMemorySites site state reason s) = powerView s :=
  powerView_each _ _ (fun u t => by simp) s

@[simp] theorem powerView_countChange (s : State) : powerView (countChange s) = powerView s := rfl
@[simp] theorem powerView_clearUnitMap (d : Nat) (s : State) : powerView (clearUnitMap d s) = powerView s := rfl
@[simp] theorem powerView_loseOrigin (code origin : Nat) (s : State) : powerView (loseOrigin code origin s) = powerView s := by simp [loseOrigin]
@[simp] theorem powerView_restartHarts (s : State) : powerView (restartHarts s) = powerView s := rfl
@[simp] theorem powerView_cqAdvance (s : State) : powerView (cqAdvance s) = powerView s := by
  unfold cqAdvance
  dsimp only
  split <;> rfl

theorem settleFences_kept (s : State) : StatesKept s (settleFences s) := by
  unfold settleFences
  split
  · exact .refl s
  · dsimp only
    split
    · refine .to_view ?_ (powerView_cqAdvance _)
      unfold completeFence
      refine .ite (StatesKept.trans ?_ (.of_engines (enginesKept_ioWrite _ _ (.refl _)))) ?_
      · exact .of_view rfl
      · exact .of_view rfl
    · exact .of_view rfl

/-- A domain fault whose origin is not the I/O die changes no rail's state. -/
theorem domainFault_kept {code detect detail origin : Nat} {s : State} (origin_ne : origin ≠ siteIO) (up : dairymanUp s = true) :
    StatesKept s (domainFault code detect detail origin s) := by
  have posted := StatesKept.post code detect [detect, detail] s
  have runs : (decide (origin = siteIO) || !dairymanUp (post code detect [detect, detail] s)) = false := by simp [origin_ne, up]
  let u := loseOrigin code origin (resetDomainState (post code detect [detect, detail] s))
  let v := { u with dom := { u.dom with resets := u.dom.resets + 1, lastCause := BitVec.ofNat 16 code } }
  have lost : StatesKept s u := (posted.trans (resetDomainState_kept _)).to_view (powerView_loseOrigin ..)
  have failed : StatesKept s (failPlaced code true v) :=
    StatesKept.trans (t := v) (lost.to_view rfl) (.each (fun k t => finishJob_kept k stFailed code false t) _ v)
  have ended (p : List Nat) : StatesKept s (settleFences (restartHarts (post 0x0420 noSite p (failPlaced code true v)))) :=
    ((failed.trans (.post 0x0420 noSite p _)).to_view (powerView_restartHarts _)).trans (settleFences_kept _)
  unfold domainFault
  dsimp only
  simp only [runs, Bool.false_eq_true, if_false]
  exact ended _

end Sys2Proof.Machine

/-! PROOFS. Power and thermal control (O41): estimates and caps, pauses, trips, heat. -/

namespace Sys2Proof.Machine

/-! ### What the estimates are read from -/

/-- What the estimates and the caps are read from is the same in both. -/
structure MeterSame (s t : State) : Prop where
  time : t.time = s.time
  variant : t.variant = s.variant
  dict : t.dict = s.dict
  trim : t.power.trim = s.power.trim
  counts : t.power.counts = s.power.counts
  fallback : t.power.fallback = s.power.fallback
  meas : ∀ i, (railOf t i).meas = (railOf s i).meas
  tjMax : ∀ i, (railOf t i).tjMax = (railOf s i).tjMax

section
variable {s t : State}

theorem MeterSame.of_moved (h : RailsMoved s t) : MeterSame s t :=
  ⟨by rw [h.rest], by rw [h.rest], by rw [h.rest], by rw [h.rest], by rw [h.rest], by rw [h.rest],
    fun i => (congrArg Rail.meas (h.rails i) :), fun i => (congrArg Rail.tjMax (h.rails i) :)⟩

theorem MeterSame.trans {u : State} (h : MeterSame s t) (k : MeterSame t u) : MeterSame s u :=
  ⟨k.time.trans h.time, k.variant.trans h.variant, k.dict.trans h.dict, k.trim.trans h.trim, k.counts.trans h.counts, k.fallback.trans h.fallback,
    fun i => (k.meas i).trans (h.meas i), fun i => (k.tjMax i).trans (h.tjMax i)⟩

theorem MeterSame.siteMw (h : MeterSame s t) (i mv : Nat) : siteMw t i mv = siteMw s i mv := by
  simp only [Machine.siteMw, dynMw, leakMw, countOf, h.counts, h.trim, h.tjMax]

theorem MeterSame.measMv (h : MeterSame s t) : measMv t = measMv s := funext fun i => by rw [Machine.measMv, Machine.measMv, h.meas]

theorem MeterSame.pkgMw (h : MeterSame s t) (mv : Nat → Nat) : pkgMw t mv = pkgMw s mv := by
  simp only [Machine.pkgMw, h.siteMw, h.time]

theorem MeterSame.capLoad (h : MeterSame s t) (c : Option Nat) : capLoad t (Machine.measMv t) c = capLoad s (Machine.measMv s) c := by
  rw [h.measMv]
  cases c with
  | none => exact h.pkgMw _
  | some d => exact h.siteMw d _

theorem MeterSame.caps (h : MeterSame s t) : caps t = caps s := by
  have obj : objNat t = objNat s := funext fun i => funext fun j => funext fun n => by rw [objNat, objNat, h.dict]
  have dieCap : dieCapMw t = dieCapMw s := funext fun d => by rw [dieCapMw, dieCapMw, obj]
  have rated : ratedW t = ratedW s := by rw [ratedW, ratedW, h.variant]
  simp only [Machine.caps, dieCap, pkgCapMw, fallbackCapMw, rated, obj, h.fallback]

/-! ### Caps -/

theorem lowerUntil_moves (c : Option Nat × Nat) (n : Nat) (s : State) : RailsMoved s (lowerUntil c n s) := by
  induction n generalizing s with
  | zero => exact .refl s
  | succ n ih =>
    unfold lowerUntil
    split
    · exact .refl s
    · split
      · exact ((RailsMoved.updRail s _ fun _ => by rfl).trans (.updRail _ _ fun _ => by rfl)).trans (ih _)
      · exact .refl s

theorem enforceCap_moves (c : Option Nat × Nat) (s : State) : RailsMoved s (enforceCap c s) := by
  unfold enforceCap
  dsimp only
  split
  · exact .refl s
  · split
    · exact throttleFor_moves ..
    · exact (throttleFor_moves ..).trans (lowerUntil_moves ..)

theorem clearThrottles_moves (s : State) : RailsMoved s (clearThrottles s) :=
  .each _ (fun d _ t => .updRail t d fun _ => by rfl) s

/-- Noting the caps sets CAPPED and when a cap was last exceeded, and nothing else of the power manager. -/
theorem noteCaps_power (e : List (Option Nat × Nat)) (s : State) :
    (noteCaps e s).power = { s.power with capped := (noteCaps e s).power.capped, lastExcess := (noteCaps e s).power.lastExcess } := by
  unfold noteCaps
  split
  · dsimp only
    split <;> simp
  · split <;> rfl

theorem noteCaps_mem (e : List (Option Nat × Nat)) (s : State) : (noteCaps e s).mem = s.mem := by
  unfold noteCaps
  split
  · dsimp only
    split <;> simp
  · split <;> rfl

theorem noteCaps_exceeded (c : Option Nat × Nat) (rest : List (Option Nat × Nat)) (s : State) :
    let t := noteCaps (c :: rest) s
    t.power.capped = true ∧ t.power.lastExcess = some s.time ∧
      (s.power.capped = false →
        Posted s t 0x0104 (match c.1 with | some d => d | none => noSite) [c.2, capLoad s (measMv s) c.1]) := by
  let u : State := { s with power := { s.power with capped := true, lastExcess := some s.time } }
  let p := [c.2, capLoad s (measMv s) c.1]
  let site := match c.1 with | some d => d | none => noSite
  have posted := (posted_post 0x0104 site p u).since (s := s) (.of_eq rfl rfl) rfl
  cases capped : s.power.capped with
  | false =>
    have noted : noteCaps (c :: rest) s = raiseSource 3 (post 0x0104 site p u) := by
      unfold noteCaps
      simp only [capped]
      rfl
    rw [noted]
    exact ⟨by simp [u], by simp [u], fun _ => posted_of_ev posted (raiseSource_ev ..)⟩
  | true =>
    have noted : noteCaps (c :: rest) s = u := by
      unfold noteCaps
      simp only [capped]
      rfl
    rw [noted]
    exact ⟨rfl, rfl, fun h => by cases h⟩

end

/-! ### Estimates -/

/-- A step that a change of the state commutes with, commutes with it as often as it is done. -/
theorem each_comm {α : Type} {f : α → State → State} {g : State → State} (comm : ∀ a s, f a (g s) = g (f a s)) (l : List α) (s : State) :
    each l f (g s) = g (each l f s) := by
  induction l generalizing s with
  | nil => rfl
  | cons a l ih => rw [each_cons, each_cons, comm, ih]

/-- The state at the end of the interval `n`, without its queue. -/
def atInterval (n : Nat) (s : State) : State := { s with pending := [], power := { s.power with intervals := n } }

/-- What the meters and counters give, beside the measured rails. -/
def meterNoted (m : PowerMeter) (s : State) : State :=
  { s with power := { s.power with
    meter := BitVec.ofNat 32 m.meterMw, vin := BitVec.ofNat 16 m.vinMv
    counts := m.counts.foldl (fun c (x : Nat × Nat × Nat) => SMap.set 0 c (32 * x.1 + x.2.1) x.2.2) [] } }

theorem noteMeter_eq (m : PowerMeter) (s : State) :
    noteMeter m s = each m.meas (fun (x : Nat × Nat) s => updRail s x.1 fun r => { r with meas := BitVec.ofNat 12 x.2 }) (meterNoted m s) := rfl

theorem noteMeter_atInterval (m : PowerMeter) (n : Nat) (s : State) : noteMeter m (atInterval n s) = atInterval n (noteMeter m s) := by
  rw [noteMeter_eq, noteMeter_eq]
  exact each_comm (g := atInterval n) (fun _ _ => by rfl) m.meas (meterNoted m s)

/-- What an interval's estimate leaves of the metered state, before the caps. -/
def estimated (u : State) : State :=
  chargeJobs (pkgMw u (measMv u)) { u with power := { u.power with
    est := BitVec.ofNat 32 (pkgMw u (measMv u)), totalNj := u.power.totalNj + 2 * pkgMw u (measMv u), secondNj := u.power.secondNj + 2 * rawMw u } }

def liveCaps (s : State) : List (Option Nat × Nat) := if s.power.fallback then (caps s).take 1 else caps s

def capsExceeded (s : State) : List (Option Nat × Nat) := (liveCaps s).filter fun c => c.2 < capLoad s (measMv s) c.1

/-- The caps enforced and noted. -/
def capsNoted (s : State) : State := noteCaps (capsExceeded s) (each (liveCaps s) enforceCap s)

/-- The end of an interval, once its estimate is charged. -/
def intervalEnded (v : State) : State :=
  if (capsExceeded v).isEmpty && !(List.range 10).any (fun i => (railOf (capsNoted v) i).slewing) then clearThrottles (capsNoted v) else capsNoted v

theorem interval_due {m : PowerMeter} {s : State} (due : intervalDue s = true) :
    interval m { s with pending := [] } = intervalEnded (estimated (atInterval (s.time.toNat / 200) (noteMeter m s))) := by
  rw [← noteMeter_atInterval]
  unfold interval
  rw [show intervalDue { s with pending := [] } = true from due]
  rfl

theorem chargeJobs_rest (p : Nat) (s : State) : chargeJobs p s = { s with jobs := (chargeJobs p s).jobs } := by
  unfold chargeJobs
  dsimp only
  split
  · rfl
  · refine each_keeps (fun t => t = { s with jobs := t.jobs }) _ _ (fun d _ t same => ?_) s rfl
    split
    · unfold updJob
      split
      · conv_lhs => rw [same]
      · exact same
    · exact same

section
variable {m : PowerMeter} {s : State}

theorem noteMeter_rest (m : PowerMeter) (s : State) : noteMeter m s = { s with power := { s.power with
    meter := BitVec.ofNat 32 m.meterMw, vin := BitVec.ofNat 16 m.vinMv, counts := (noteMeter m s).power.counts
    rails := (noteMeter m s).power.rails } } := by
  unfold noteMeter
  dsimp only
  refine each_keeps (fun t : State => t = { s with power := { s.power with
    meter := BitVec.ofNat 32 m.meterMw, vin := BitVec.ofNat 16 m.vinMv, counts := t.power.counts, rails := t.power.rails } })
    _ _ (fun x _ t same => ?_) _ rfl
  conv_lhs => rw [same]
  rfl

end

/-- The estimate of an interval, and nothing else that estimates and caps are read from. -/
theorem estimated_same (u : State) (n : Nat) :
    let v := estimated (atInterval n u)
    MeterSame u v ∧ v.mem = u.mem ∧ v.ev = u.ev ∧ v.su = u.su ∧
      v.power = { u.power with
        intervals := n, est := BitVec.ofNat 32 (pkgMw u (measMv u)), totalNj := u.power.totalNj + 2 * pkgMw u (measMv u)
        secondNj := v.power.secondNj } := by
  intro v
  have charged : v = _ := chargeJobs_rest _ _
  rw [charged]
  exact ⟨⟨rfl, rfl, rfl, rfl, rfl, rfl, fun _ => rfl, fun _ => rfl⟩, rfl, rfl, rfl, rfl⟩

theorem capsExceeded_same {s t : State} (h : MeterSame s t) : capsExceeded t = capsExceeded s := by
  simp only [capsExceeded, liveCaps, h.caps, h.fallback, h.capLoad]

theorem intervalEnded_power (v : State) :
    let t := intervalEnded v
    t.mem = v.mem ∧ t.power = { v.power with rails := t.power.rails, capped := t.power.capped, lastExcess := t.power.lastExcess } := by
  let w := each (liveCaps v) enforceCap v
  have moved : RailsMoved v w := .each _ (fun c _ => enforceCap_moves c) v
  have noted : (capsNoted v).power =
      { v.power with rails := w.power.rails, capped := (capsNoted v).power.capped, lastExcess := (capsNoted v).power.lastExcess } := by
    have power : w.power = { v.power with rails := w.power.rails } := (congrArg State.power moved.rest :)
    exact (noteCaps_power _ w).trans (congrArg (fun p : Power =>
      { p with capped := (capsNoted v).power.capped, lastExcess := (capsNoted v).power.lastExcess }) power)
  have mem : (capsNoted v).mem = v.mem := (noteCaps_mem _ w).trans moved.mem
  unfold intervalEnded
  dsimp only
  split
  · have cleared := clearThrottles_moves (capsNoted v)
    refine ⟨cleared.mem.trans mem, ?_⟩
    have power : (clearThrottles (capsNoted v)).power = { (capsNoted v).power with rails := (clearThrottles (capsNoted v)).power.rails } :=
      (congrArg State.power cleared.rest :)
    rw [power, noted]
  · refine ⟨mem, ?_⟩
    rw [noted]

/-- The first cap exceeded is noted, against the loads before the rails move. -/
theorem intervalEnded_exceeded {v : State} {c : Option Nat × Nat} {rest : List (Option Nat × Nat)} (exceeds : capsExceeded v = c :: rest) :
    let t := intervalEnded v
    t.power.capped = true ∧ t.power.lastExcess = some v.time ∧
      (v.power.capped = false → Posted v t 0x0104 (match c.1 with | some d => d | none => noSite) [c.2, capLoad v (measMv v) c.1]) := by
  let w := each (liveCaps v) enforceCap v
  have moved : RailsMoved v w := .each _ (fun c _ => enforceCap_moves c) v
  have ends : intervalEnded v = noteCaps (c :: rest) w := by
    unfold intervalEnded capsNoted
    rw [exceeds]
    rfl
  obtain ⟨capped, lastExcess, posted⟩ := noteCaps_exceeded c rest w
  rw [ends]
  refine ⟨capped, lastExcess.trans (by rw [moved.rest]), fun first => ?_⟩
  have open_ : w.power.capped = false := by rw [moved.rest]; exact first
  rw [← (MeterSame.of_moved moved).capLoad]
  exact (posted open_).since (.of_eq (by rw [moved.rest]) (by rw [moved.rest]; rfl)) (by rw [moved.rest])

/-! ### The trim -/

section
variable {mj : Nat} {s : State}

theorem msTicks_second : msTicks 1000 = 100000000 := by rw [msTicks]

/-- A second of the timebase has ended. -/
def secondEnded (s : State) : State := { s with power := { s.power with secondNj := 0, seconds := s.time.toNat / msTicks 1000 } }

/-- The trim follows the ratio of the meter to the estimate. -/
def trimmed (ratio : Nat) (s : State) : State :=
  let s := { s with power := { s.power with trim := max 9000 (min 11000 ratio) } }
  if (ratio < 9000 || 11000 < ratio) && s.power.lastDisagree.all (fun t => msTicks 60000 ≤ since s t) then
    post 0x0103 noSite [ratio] { s with power := { s.power with lastDisagree := some s.time } }
  else s

theorem trimUpdate_eq : trimUpdate mj s =
    if !secondDue s then s
    else if s.power.secondNj = 0 || !dairymanUp (secondEnded s) then secondEnded s else
      trimmed (mj * 1000000 * 10000 / s.power.secondNj) (secondEnded s) := rfl

theorem secondDue_iff : secondDue s = true ↔ s.power.seconds < s.time.toNat / 100000000 := by
  rw [secondDue, decide_eq_true_iff, msTicks]

theorem trimUpdate_early (early : s.time.toNat / 100000000 ≤ s.power.seconds) : trimUpdate mj s = s := by
  have same : secondDue s = false := by
    rw [← Bool.not_eq_true, secondDue_iff]
    exact Nat.not_lt.mpr early
  rw [trimUpdate_eq, same]
  rfl

theorem trimUpdate_unmetered (due : s.power.seconds < s.time.toNat / 100000000) (unmetered : s.power.secondNj = 0 ∨ dairymanUp s = false) :
    trimUpdate mj s = secondEnded s := by
  have stops : (s.power.secondNj = 0 || !dairymanUp (secondEnded s)) = true := by
    rw [show dairymanUp (secondEnded s) = dairymanUp s from rfl]
    simpa using unmetered
  rw [trimUpdate_eq, secondDue_iff.mpr due, if_neg (by simp), if_pos stops]

theorem trimmed_eq (ratio : Nat) (s : State) :
    let t := trimmed ratio s
    t.power.secondNj = s.power.secondNj ∧ t.power.trim = max 9000 (min 11000 ratio) ∧ t.mem = s.mem := by
  unfold trimmed
  dsimp only
  split
  · simp
  · exact ⟨rfl, rfl, rfl⟩

theorem trimUpdate_ratio (due : s.power.seconds < s.time.toNat / 100000000) (metered : s.power.secondNj ≠ 0) (up : dairymanUp s = true) :
    trimUpdate mj s = trimmed (mj * 1000000 * 10000 / s.power.secondNj) (secondEnded s) := by
  have goes : (s.power.secondNj = 0 || !dairymanUp (secondEnded s)) = false := by
    rw [show dairymanUp (secondEnded s) = dairymanUp s from rfl]
    simp [metered, up]
  rw [trimUpdate_eq, secondDue_iff.mpr due, if_neg (by simp), if_neg (by simp [goes])]

end

/-! ### Pauses -/

section
variable {r : RailId} {s : State}

theorem droopBegin_on (on : railOn s r = true) (free : paused s (railKey r) = false) :
    droopBegin r s = updLine (railKey r) (fun l => { l with pausedAt := some s.time })
      { s with power := { s.power with droopPauses := s.power.droopPauses + 1 } } := by
  simp only [droopBegin, on, free]
  rfl

@[simp] theorem transmit_power (p n : Nat) (w : List Byte) (s : State) : (transmit p n w s).power = s.power := by
  unfold transmit
  split <;> rfl

@[simp] theorem sendLace_power (p ty aux tag cmd oper : Nat) (data : List Byte) (s : State) :
    (sendLace p ty aux tag cmd oper data s).power = s.power := by
  unfold sendLace
  dsimp only
  split
  · simp
  · split
    · rfl
    · split <;> simp

theorem each_power {α : Type} {f : α → State → State} (h : ∀ a s, (f a s).power = s.power) (l : List α) (s : State) :
    (each l f s).power = s.power := each_same State.power l f (fun a _ => h a) s

@[simp] theorem abortFor_power (d : Nat) (s : State) : (abortFor d s).power = s.power := by
  refine each_power (fun p t => ?_) _ s
  split
  · rfl
  · exact sendLace_power ..

@[simp] theorem killDie_power (d : Nat) (s : State) : (killDie d s).power = s.power := abortFor_power d (retireTags d s)

@[simp] theorem startKill_power (k : Nat) (s : State) : (startKill k s).power = s.power := by
  unfold startKill
  split
  · rfl
  · rw [updJob_power]
    exact each_power (f := fun d s => updDie (killDie d s) d orphanRequests) (fun d t => killDie_power d t) _ s

@[simp] theorem beginKill_power (k : Nat) (c : KillCause) (s : State) : (beginKill k c s).power = s.power := by
  unfold beginKill
  dsimp only
  (repeat' split) <;> simp

theorem sendCommits_kept (d : Nat) (s : State) : KillKept s (sendCommits d s) ∧ (sendCommits d s).power = s.power := by
  refine each_keeps (fun t => KillKept s t ∧ t.power = s.power) _ _ (fun p _ t kept => ?_) s ⟨.refl s, rfl⟩
  obtain ⟨before, power⟩ := kept
  split
  · exact ⟨before, power⟩
  next c _ =>
    have sent := KillKept.sendLace p ptCommit 0 0 c.cmd.toNat c.packets [] t
    have still := sendLace_power p ptCommit 0 0 c.cmd.toNat c.packets [] t
    generalize sendLace p ptCommit 0 0 c.cmd.toNat c.packets [] t = u at sent still ⊢
    exact ⟨(before.trans sent).trans (.of_eq rfl rfl rfl rfl rfl rfl), still.trans power⟩

theorem startDrain_kept (d : Nat) (s : State) : KillKept s (startDrain d s) ∧ (startDrain d s).power = s.power := by
  obtain ⟨kept, power⟩ := sendCommits_kept d (updDie s d fun x => { x with drain := some {
    last := ((dieOf s d).commit.getD (false, false)).1, sb := ((dieOf s d).commit.getD (false, false)).2
    awaiting := ((lacePartners (dieOf s d)).filter fun p => (laceCmdOf s d p).isSome).map (·, s.time), undelivered := false } })
  refine ⟨.trans ?_ kept, power⟩
  exact .updDie (fun _ => by exact ⟨rfl, rfl, rfl, rfl, .refl _⟩) s

/-- A COMMIT that drains, or whose job is killed for a partner that is gone, changes no byte of memory and nothing of the power manager. -/
theorem tryDrainOn_kept (d : Nat) (s : State) : KillKept s (tryDrainOn d s) ∧ (tryDrainOn d s).power = s.power := by
  unfold tryDrainOn
  split
  · unfold tryDrain
    split
    · exact ⟨.refl s, rfl⟩
    · dsimp only
      split
      · split
        · exact ⟨.beginKill .., beginKill_power ..⟩
        · exact each_keeps (fun t => KillKept s t ∧ t.power = s.power) _ _ (fun d _ t kept =>
            ⟨kept.1.trans (startDrain_kept d t).1, (startDrain_kept d t).2.trans kept.2⟩) s ⟨.refl s, rfl⟩
      · exact ⟨.refl s, rfl⟩
  · exact ⟨.refl s, rfl⟩

/-- The end of a pause is noted and, at most once a second, posted. -/
def pauseNoted (r : RailId) (t : BitVec 64) (s : State) : State :=
  let s := updLine (railKey r) (fun l => { l with pausedAt := none }) s
  if (railOf s (railSite r)).lastDroop.all fun u => msTicks 1000 ≤ since s u then
    post 0x0105 (railSite r) [railSite r, railNum r, since s t] (updRail s (railSite r) (fun x => { x with lastDroop := some s.time }))
  else s

theorem pauseNoted_eq (r : RailId) (t : BitVec 64) (s : State) :
    let u := pauseNoted r t s
    (lineOf u (railKey r)).pausedAt = none ∧ u.mem = s.mem ∧
      (((railOf s (railSite r)).lastDroop.all fun v => msTicks 1000 ≤ (s.time - v).toNat) = true →
        Posted s u 0x0105 (railSite r) [railSite r, railNum r, (s.time - t).toNat]) := by
  let w := updLine (railKey r) (fun l => { l with pausedAt := none }) s
  have line : (lineOf w (railKey r)).pausedAt = none := by rw [lineOf_updLine_same]
  unfold pauseNoted
  dsimp only
  split
  next due =>
    refine ⟨?_, post_mem .., fun _ => ?_⟩
    · rw [lineOf, post_power]
      exact line
    · exact (posted_post ..).since (.of_eq rfl rfl) rfl
  next early => exact ⟨line, rfl, fun due => absurd due early⟩

/-- What waited for a slot write has not been waiting while paused. -/
def passesLate (now t : BitVec 64) (x : DieSt) : DieSt :=
  { x with passes := x.passes.map fun p => if p.entry.isSome then { p with arrived := p.arrived + (now - t) } else p }

theorem droopEnd_eq {t : BitVec 64} (was : (lineOf s (railKey r)).pausedAt = some t) :
    let u := pauseNoted r t s
    droopEnd r s = match r with
      | .logic d => tryDrainOn d (updDie u d (passesLate u.time t))
      | _ => u := by
  unfold droopEnd
  rw [was]
  cases r <;> rfl

theorem droopEnd_ends {t : BitVec 64} (was : (lineOf s (railKey r)).pausedAt = some t) :
    let u := droopEnd r s
    (lineOf u (railKey r)).pausedAt = none ∧ u.mem = s.mem ∧
      (((railOf s (railSite r)).lastDroop.all fun v => msTicks 1000 ≤ (s.time - v).toNat) = true →
        Posted s u 0x0105 (railSite r) [railSite r, railNum r, (s.time - t).toNat]) := by
  obtain ⟨line, mem, posted⟩ := pauseNoted_eq r t s
  have ends := droopEnd_eq was
  cases r with
  | logic d =>
    obtain ⟨kept, power⟩ := tryDrainOn_kept d (updDie (pauseNoted (.logic d) t s) d (passesLate (pauseNoted (.logic d) t s).time t))
    rw [ends]
    refine ⟨?_, kept.mem.trans mem, fun due => ?_⟩
    · rw [lineOf, power]
      exact line
    · have before : RecordsKept (pauseNoted (.logic d) t s) (updDie (pauseNoted (.logic d) t s) d
          (passesLate (pauseNoted (.logic d) t s).time t)) := .of_eq rfl rfl
      exact (posted due).keep (before.trans kept.records)
  | memory i =>
    rw [ends]
    exact ⟨line, mem, posted⟩
  | stack i =>
    rw [ends]
    exact ⟨line, mem, posted⟩

end

/-! ### Trips -/

section
variable {s : State}

/-- A stack whose rail has tripped, lost with its site. -/
def stackTripped (k : Nat) (s : State) : State :=
  setSite (16 + k) stFault 8 (updUnit (updRail s (16 + k) fun x => { x with state := .tripped, meas := 0 }) k fun x => { x with tripped := true })

theorem stackTripped_eq (k : Nat) (s : State) :
    let t := stackTripped k s
    t.mem = s.mem ∧ t.time = s.time ∧ RecordsKept s t ∧ (railOf t (16 + k)).state = .tripped ∧ (unitOf t k).tripped = true ∧
      siteOf t (16 + k) = { siteOf s (16 + k) with state := 2, reason := 8 } := by
  have site (u : State) : siteOf (setSite (16 + k) stFault 8 u) (16 + k) = { siteOf u (16 + k) with state := 2, reason := 8 } := by
    simp only [siteOf, setSite, SMap.get_upd_same]
    rfl
  unfold stackTripped
  refine ⟨?_, ?_, .of_eq ?_ ?_, ?_, ?_, site _⟩
  case refine_1 | refine_2 | refine_3 => dsimp only [setSite, updUnit, updRail]
  · simp only [dairymanUp, setSite, updUnit, updRail]
  · exact congrArg Rail.state (railOf_updRail_same s (16 + k) fun x => { x with state := .tripped, meas := 0 })
  · exact congrArg MemUnit.tripped (unitOf_updUnit_same (updRail s (16 + k) _) k fun x => { x with tripped := true })

theorem tripRail_stack (k : Nat) (s : State) :
    let t := tripRail (.stack k) s
    Posted s t 0x0109 (16 + k) [k] ∧ t.mem = s.mem ∧ (railOf t (16 + k)).state = .tripped ∧ (unitOf t k).tripped = true ∧
      (siteOf t (16 + k)).state = 2 ∧ (siteOf t (16 + k)).reason = 8 := by
  have trips : tripRail (.stack k) s = post 0x0109 (16 + k) [k] (stackTripped k s) := rfl
  obtain ⟨mem, time, records, rail, unit, site⟩ := stackTripped_eq k s
  rw [trips]
  generalize stackTripped k s = u at *
  refine ⟨(posted_post ..).since records time, (post_mem ..).trans mem, ?_, ?_, ?_⟩
  · rw [railOf, post_power]
    exact rail
  · rw [unitOf, post_units]
    exact unit
  · rw [siteOf, post_map]
    exact ⟨congrArg SiteState.state site, congrArg SiteState.reason site⟩

/-- A tripped logic or memory rail is a domain fault, and stays tripped. -/
theorem tripRail_domain {r : RailId} {i : Nat} (rail : r = .logic i ∨ r = .memory i) (inside : i < 10) (up : dairymanUp s = true) :
    let t := tripRail r s
    DomainReset s t 0x0413 siteW i ∧ (railOf t i).state = .tripped := by
  let v := updRail s i fun x => { x with state := .tripped, setpoint := 0, meas := 0, throttle := 0, slewing := false }
  have origin_ne : i ≠ siteIO := Nat.ne_of_lt inside
  have trips : tripRail r s = domainFault 0x0413 siteW i i v := by
    obtain rfl | rfl := rail <;> rfl
  obtain ⟨posted, rest⟩ := domainFault_reset (code := 0x0413) (detect := siteW) (detail := i) origin_ne (s := v) up
  have kept := (domainFault_kept (code := 0x0413) (detect := siteW) (detail := i) origin_ne (s := v) up).rails i
  rw [trips]
  refine ⟨⟨posted.since (.of_eq rfl rfl) rfl, rest⟩, kept.trans ?_⟩
  rw [railOf_updRail_same]

theorem railOn_inside {r : RailId} {i : Nat} (rail : r = .logic i ∨ r = .memory i) (on : railOn s r = true) : i < 10 := by
  obtain rfl | rfl := rail <;> simp_all [railOn]

end

/-! ### Heat -/

/-- A part of the rails that an update leaves. -/
theorem updRail_field {α : Type} (g : Rail → α) {f : Rail → Rail} (same : ∀ r, g (f r) = g r) (s : State) (i j : Nat) :
    g (railOf (updRail s i f) j) = g (railOf s j) := by
  by_cases here : j = i
  · rw [here, railOf_updRail_same, same]
  · rw [railOf_updRail_other s f here]

/-- What a site's rail notes of its sensors. -/
def sensorsRead (l : List Nat) (r : Rail) : Rail :=
  { r with tjMax := BitVec.ofNat 8 (hottest l).2, sensors := (List.range l.length).filter (sensorBad l) }

/-- Reading sensors notes them and posts the bad ones. -/
structure SensorsNoted (i : Nat) (l : List Nat) (s t : State) : Prop where
  power : t.power = (updRail s i (sensorsRead l)).power
  mem : t.mem = s.mem
  time : t.time = s.time
  dict : t.dict = s.dict
  records : RecordsKept s t

theorem readSensors_noted (i : Nat) (l : List Nat) (s : State) : SensorsNoted i l s (readSensors i l s) := by
  refine each_keeps (SensorsNoted i l s) _ _ (fun b _ t noted => ?_) _ ⟨rfl, rfl, rfl, rfl, .of_eq rfl rfl⟩
  obtain ⟨power, mem, time, dict, records⟩ := noted
  exact ⟨(post_power ..).trans power, (post_mem ..).trans mem, (post_time ..).trans time, (post_dict ..).trans dict, records.trans (.post ..)⟩

section
variable {i : Nat} {l : List Nat} {s t : State}

theorem SensorsNoted.rail (h : SensorsNoted i l s t) (j : Nat) : railOf t j = railOf (updRail s i (sensorsRead l)) j := by
  rw [railOf, h.power]
  rfl

theorem SensorsNoted.field {α : Type} (h : SensorsNoted i l s t) (g : Rail → α) (same : ∀ r, g (sensorsRead l r) = g r) (j : Nat) :
    g (railOf t j) = g (railOf s j) := by rw [h.rail, updRail_field g same]

theorem SensorsNoted.limit (h : SensorsNoted i l s t) : thermalLimit t = thermalLimit s := by rw [thermalLimit, thermalLimit, objNat, objNat, h.dict]

/-- A logic rail that is on has been lowered by 10 mV, to no less than 450 mV. -/
def Lowered (d : Nat) (s t : State) : Prop :=
  d < 10 → (railOf s d).state = .on → (railOf s d).setpoint.toNat ≠ 450 →
    (railOf t d).setpoint = BitVec.ofNat 12 (max 450 ((railOf s d).setpoint.toNat - 10)) ∧ (railOf t d).slewing = true

theorem lowerTen_moves (i : Nat) (s : State) : RailsMoved (updRail s i fun r => { r with lastCool := some s.time }) (lowerTen i s) := by
  unfold lowerTen
  dsimp only
  split
  · exact setPoint_moves ..
  · exact .refl _

theorem lowerTen_lowered {d : Nat} (cools : coolSite i = d) (s : State) : Lowered d s (lowerTen i s) := by
  intro logic on above
  let u := updRail s i fun r => { r with lastCool := some s.time }
  have state : (railOf u d).state = .on := (updRail_field Rail.state (fun _ => by rfl) s i d).trans on
  have setpoint : (railOf u d).setpoint = (railOf s d).setpoint := updRail_field Rail.setpoint (fun _ => by rfl) s i d
  have hot : hasLogic d = true := decide_eq_true logic
  have lowers : lowerTen i s = setPoint d (max 450 (setMv u d - 10)) u := by
    unfold lowerTen
    rw [cools]
    exact if_pos hot
  have differs : (railOf u d).setpoint.toNat ≠ max 450 ((railOf u d).setpoint.toNat - 10) := by
    rw [setpoint]
    omega
  have sets : setPoint d (max 450 (setMv u d - 10)) u = updRail u d fun r =>
      { r with setpoint := BitVec.ofNat 12 (max 450 (setMv u d - 10)), slewing := true, borrower := r.borrower && 700 < max 450 (setMv u d - 10) } := by
    unfold setPoint
    exact if_neg (by simp [state, hot, setMv, differs])
  rw [lowers, sets, railOf_updRail_same]
  refine ⟨?_, rfl⟩
  rw [← setpoint]
  rfl

theorem Lowered.since {d : Nat} {u : State} (h : Lowered d t u) (state : (railOf t d).state = (railOf s d).state)
    (setpoint : (railOf t d).setpoint = (railOf s d).setpoint) : Lowered d s u := by
  rw [Lowered, ← state, ← setpoint]
  exact h

/-- What a site's rail notes once it is lowered for its heat. -/
theorem lowerTen_field {α : Type} (g : Rail → α) (view : ∀ r, g (railView r) = g r) (i j : Nat) (s : State) :
    g (railOf (lowerTen i s) j) = g (railOf (updRail s i fun r => { r with lastCool := some s.time }) j) := by
  rw [← view, (lowerTen_moves i s).rails, view]

theorem lowerTen_mem (i : Nat) (s : State) : (lowerTen i s).mem = s.mem := (lowerTen_moves i s).mem

theorem lowerTen_ev (i : Nat) (s : State) : (lowerTen i s).ev = s.ev := by rw [(lowerTen_moves i s).rest]; rfl

/-- A site whose hottest sensor reaches the limit. -/
theorem tjLimitAct_reached {d : Nat} (cools : coolSite i = d) (cold : (railOf s i).hot = false) (limit : thermalLimit s ≤ (hottest l).2) :
    let t := tjLimitAct i l s
    (railOf t i).hot = true ∧ (railOf t i).tjMax = BitVec.ofNat 8 (hottest l).2 ∧ Lowered d s t ∧
      Posted s t 0x0201 i [i, (hottest l).1, (hottest l).2] ∧ t.mem = s.mem := by
  have noted := readSensors_noted i l s
  let v := readSensors i l s
  let hotter : Rail → Rail := fun r => { r with hot := true }
  let u := post 0x0201 i [i, (hottest l).1, (hottest l).2] (updRail v i hotter)
  let w := raiseSource 2 u
  have acts : ((railOf v i).hot || decide ((hottest l).2 < thermalLimit v)) = false := by
    rw [noted.field Rail.hot (fun _ => rfl), cold, noted.limit]
    simpa using limit
  have heats : tjLimitAct i l s = noteThermal (lowerTen i w) := if_neg (by rw [Bool.not_eq_true]; exact acts)
  have rail (j : Nat) : railOf w j = railOf (updRail v i hotter) j := by
    rw [railOf, raiseSource_power, post_power]
    rfl
  have posted : Posted s u 0x0201 i [i, (hottest l).1, (hottest l).2] :=
    (posted_post ..).since (noted.records.trans (.of_eq rfl rfl)) noted.time
  rw [heats]
  refine ⟨?_, ?_, ?_, posted_of_ev posted ((lowerTen_ev i w).trans (raiseSource_ev ..)), ?_⟩
  · refine (lowerTen_field Rail.hot (fun _ => rfl) i i w).trans ?_
    rw [railOf_updRail_same, rail, railOf_updRail_same]
  · refine (lowerTen_field Rail.tjMax (fun _ => rfl) i i w).trans ?_
    rw [railOf_updRail_same, rail, railOf_updRail_same]
    show (railOf v i).tjMax = _
    rw [noted.rail, railOf_updRail_same]
    rfl
  · refine (lowerTen_lowered cools w).since ?_ ?_
    · rw [rail, updRail_field Rail.state (f := hotter) (fun _ => rfl), noted.field Rail.state (fun _ => rfl)]
    · rw [rail, updRail_field Rail.setpoint (f := hotter) (fun _ => rfl), noted.field Rail.setpoint (fun _ => rfl)]
  · exact (lowerTen_mem i w).trans ((raiseSource_mem ..).trans ((post_mem ..).trans noted.mem))

theorem thermalStepAct_hot (hot : (railOf s i).hot = true) :
    thermalStepAct i l s = noteThermal (if (hottest l).2 + 2 ≤ thermalLimit s then updRail (readSensors i l s) i fun r => { r with hot := false }
      else if coolDue i (readSensors i l s) then lowerTen i (readSensors i l s) else readSensors i l s) := by
  have noted := readSensors_noted i l s
  have still : (railOf (readSensors i l s) i).hot = true := (noted.field Rail.hot (fun _ => rfl) i).trans hot
  unfold thermalStepAct
  dsimp only
  rw [still, noted.limit]
  rfl

/-- A hot site whose hottest sensor is 2 degrees below the limit is hot no longer. -/
theorem thermalStepAct_cools (hot : (railOf s i).hot = true) (cool : (hottest l).2 + 2 ≤ thermalLimit s) :
    let t := thermalStepAct i l s
    (railOf t i).hot = false ∧ (railOf t i).setpoint = (railOf s i).setpoint ∧ t.mem = s.mem := by
  have noted := readSensors_noted i l s
  have steps := thermalStepAct_hot (l := l) hot
  rw [if_pos cool] at steps
  have mem := noted.mem
  have setpoint := noted.field Rail.setpoint (fun _ => rfl) i
  generalize readSensors i l s = v at steps mem setpoint
  have rail : railOf (thermalStepAct i l s) i = { railOf v i with hot := false } := by
    rw [steps]
    exact railOf_updRail_same v i fun r => { r with hot := false }
  have still : (thermalStepAct i l s).mem = v.mem := by rw [steps]; rfl
  generalize thermalStepAct i l s = t at rail still ⊢
  exact ⟨by rw [rail], by rw [rail]; exact setpoint, still.trans mem⟩

/-- A site still hot is lowered once 1 ms has passed since the last time. -/
theorem thermalStepAct_lowers {d : Nat} (cools : coolSite i = d) (hot : (railOf s i).hot = true) (above : thermalLimit s < (hottest l).2 + 2) :
    let t := thermalStepAct i l s
    let due := (railOf s i).lastCool.all fun u => decide (100000 ≤ (s.time - u).toNat)
    (railOf t i).hot = true ∧ t.mem = s.mem ∧ (due = true → Lowered d s t ∧ (railOf t i).lastCool = some s.time) ∧
      (due = false → (railOf t i).setpoint = (railOf s i).setpoint ∧ (railOf t i).lastCool = (railOf s i).lastCool) := by
  have noted := readSensors_noted i l s
  let v := readSensors i l s
  have still : (railOf v i).hot = true := (noted.field Rail.hot (fun _ => rfl) i).trans hot
  have steps : thermalStepAct i l s = noteThermal (if coolDue i v then lowerTen i v else v) :=
    (thermalStepAct_hot hot).trans (congrArg noteThermal (if_neg (Nat.not_le.mpr above)))
  have dueNow : coolDue i v = (railOf s i).lastCool.all fun u => decide (100000 ≤ (s.time - u).toNat) := by
    simp only [coolDue, since, msTicks, Nat.mul_one, v]
    rw [noted.field Rail.lastCool (fun _ => rfl), noted.time]
  rw [steps, ← dueNow]
  cases coolDue i v with
  | false =>
    exact ⟨still, noted.mem, fun due => absurd due (by decide),
      fun _ => ⟨noted.field Rail.setpoint (fun _ => rfl) i, noted.field Rail.lastCool (fun _ => rfl) i⟩⟩
  | true =>
    refine ⟨?_, (lowerTen_mem i v).trans noted.mem, fun _ => ⟨?_, ?_⟩, fun due => absurd due (by decide)⟩
    · refine (lowerTen_field Rail.hot (fun _ => rfl) i i v).trans ?_
      rw [railOf_updRail_same]
      exact still
    · exact (lowerTen_lowered cools v).since (noted.field Rail.state (fun _ => rfl) d) (noted.field Rail.setpoint (fun _ => rfl) d)
    · refine (lowerTen_field Rail.lastCool (fun _ => rfl) i i v).trans ?_
      rw [railOf_updRail_same]
      exact congrArg some noted.time

end

/-! ### The input -/

theorem inputAct_eq {mv : Nat} (s : State) (range : 38000 ≤ mv) :
    let out := decide (mv < 40000 ∨ 60000 < mv)
    let t := inputAct mv s
    t.power = { s.power with vin := BitVec.ofNat 16 mv, excursion := out } ∧ t.mem = s.mem ∧
      (out = true → s.power.excursion = false → Posted s t 0x0106 noSite [mv]) := by
  have outside : (decide (mv < 40000) || decide (60000 < mv)) = decide (mv < 40000 ∨ 60000 < mv) := (Bool.decide_or ..).symm
  unfold inputAct
  rw [if_neg (Nat.not_lt.mpr range), outside]
  dsimp only
  split
  · exact ⟨post_power .., post_mem .., fun _ _ => (posted_post ..).since (.of_eq rfl rfl) rfl⟩
  next within =>
    refine ⟨rfl, rfl, fun out was => absurd ?_ within⟩
    rw [out, was]
    rfl

/-! ### The rows -/

section
variable {s : State}

theorem exec_estimatorInterval_early {m : PowerMeter} (early : ¬(s.power.off = false ∧ s.power.intervals < s.time.toNat / 200)) :
    exec (.estimatorInterval m) s = .next s := by
  have notDue : intervalDue { s with pending := [] } = false := by simpa [intervalDue] using early
  refine exec_eq_next (f := interval m) rfl ?_ rfl
  unfold interval
  rw [notDue]
  rfl

theorem exec_estimatorInterval_due (m : PowerMeter) (on : s.power.off = false) (ended : s.power.intervals < s.time.toNat / 200) :
    let u := noteMeter m s
    ∃ t, exec (.estimatorInterval m) s = .next t ∧ t.mem = s.mem ∧ t.power.meter = BitVec.ofNat 32 m.meterMw ∧
      t.power.intervals = s.time.toNat / 200 ∧ t.power.vin = BitVec.ofNat 16 m.vinMv ∧ t.power.est = BitVec.ofNat 32 (pkgMw u (measMv u)) ∧
      t.power.totalNj = s.power.totalNj + 2 * pkgMw u (measMv u) ∧
      ∀ c rest, capsExceeded u = c :: rest → t.power.capped = true ∧ t.power.lastExcess = some s.time ∧
        (s.power.capped = false →
          Posted s t 0x0104 (match c.1 with | some d => d | none => noSite) [c.2, capLoad u (measMv u) c.1]) := by
  intro u
  have due : intervalDue s = true := by simp [intervalDue, on, ended]
  have metered := noteMeter_rest m s
  obtain ⟨same, mem, ev, su, power⟩ := estimated_same u (s.time.toNat / 200)
  have first := fun c rest (exceeds : capsExceeded u = c :: rest) => intervalEnded_exceeded ((capsExceeded_same same).trans exceeds)
  obtain ⟨memEnds, powerEnds⟩ := intervalEnded_power (estimated (atInterval (s.time.toNat / 200) u))
  refine exec_next_exists (f := interval m) rfl ?_
  rw [interval_due due]
  generalize estimated (atInterval (s.time.toNat / 200) u) = v at *
  have metersPower : u.power = { s.power with
      meter := BitVec.ofNat 32 m.meterMw, vin := BitVec.ofNat 16 m.vinMv, counts := u.power.counts, rails := u.power.rails } :=
    (congrArg State.power metered :)
  have time : v.time = s.time := same.time.trans (congrArg State.time metered :)
  have records : RecordsKept s v := .of_eq (ev.trans (congrArg State.ev metered :)) (by
    simp only [dairymanUp, su]
    rw [show u.su = s.su from (congrArg State.su metered :)])
  generalize intervalEnded v = t at *
  refine ⟨memEnds.trans (mem.trans (congrArg State.mem metered :)), ?_, ?_, ?_, ?_, ?_, fun c rest exceeds => ?_⟩
  · rw [powerEnds, power, metersPower]
  · rw [powerEnds, power]
  · rw [powerEnds, power, metersPower]
  · rw [powerEnds, power]
  · rw [powerEnds, power]
    have total : u.power.totalNj = s.power.totalNj := (congrArg (·.power.totalNj) metered :)
    exact congrArg (· + 2 * pkgMw u (measMv u)) total
  · obtain ⟨capped, lastExcess, posted⟩ := first c rest exceeds
    refine ⟨capped, lastExcess.trans (congrArg some time), fun open_ => ?_⟩
    rw [← same.capLoad]
    refine (posted ?_).since records time
    rw [power, metersPower]
    exact open_

end

theorem exec_trimUpdate_due {s : State} {mj ratio : Nat} (eq : mj * 1000000 * 10000 / s.power.secondNj = ratio)
    (due : s.power.seconds < s.time.toNat / 100000000) (metered : s.power.secondNj ≠ 0) (up : dairymanUp s = true) :
    ∃ t, exec (.trimUpdate mj) s = .next t ∧ t.power.secondNj = 0 ∧ t.power.trim = max 9000 (min 11000 ratio) ∧ t.mem = s.mem := by
  refine exec_next_exists (f := trimUpdate mj) rfl ?_
  rw [trimUpdate_ratio (s := { s with pending := [] }) due metered up, show mj * 1000000 * 10000 / _ = ratio from eq]
  have done := trimmed_eq ratio (secondEnded { s with pending := [] })
  generalize trimmed ratio (secondEnded { s with pending := [] }) = t at *
  exact done

theorem exec_trimUpdate_unmetered {s : State} {mj : Nat} (due : s.power.seconds < s.time.toNat / 100000000)
    (unmetered : s.power.secondNj = 0 ∨ dairymanUp s = false) :
    exec (.trimUpdate mj) s = .next { s with power := { s.power with secondNj := 0, seconds := s.time.toNat / 100000000 } } := by
  have ends := trimUpdate_unmetered (mj := mj) (s := { s with pending := [] }) due unmetered
  rw [secondEnded, msTicks_second] at ends
  exact exec_eq_next (f := trimUpdate mj) rfl ends rfl

theorem memoryTrip_long {i : Nat} {u : BitVec 64} {s : State} (on : railOn s (.memory i) = true)
    (was : (lineOf s (railKey (.memory i))).pausedAt = some u) (long : 10000 ≤ (s.time - u).toNat) :
    memoryTrip (.memory i) s = tripRail (.memory i) (updLine (railKey (.memory i)) (fun l => { l with pausedAt := none }) s) := by
  have trips : (railOn s (.memory i) && decide (10000 ≤ since s u)) = true :=
    Bool.and_eq_true_iff.mpr ⟨on, decide_eq_true long⟩
  unfold memoryTrip
  rw [was]
  exact if_pos trips

/-- Settles O41: the loads that caps are held against are read from what the rails' moves leave (`MeterSame.of_moved`), a domain fault keeps
a tripped rail tripped (`domainFault_kept`), and a site's heat lowers one setpoint (`lowerTen_lowered`). -/
theorem powerAndThermalControl : Obligations.PowerAndThermalControl := by
  refine ⟨fun s => ⟨fun m => ⟨exec_estimatorInterval_early, exec_estimatorInterval_due m⟩, fun mj => ⟨fun early => ?_, fun due unmetered => ?_,
    fun due metered up => ?_⟩, fun i slews => ?_, fun r on => ⟨fun free => ?_, fun u was => ?_, fun k stack => ?_, fun i rail up => ?_,
    fun i u memory up was long => ?_⟩, fun mv range => ?_⟩, fun i l s => ⟨fun cold limit => ?_, fun hot cool => ?_, fun hot above => ?_⟩⟩
  · exact exec_eq_next (f := trimUpdate mj) rfl (trimUpdate_early (s := { s with pending := [] }) early) rfl
  · exact exec_trimUpdate_unmetered due unmetered
  · exact exec_trimUpdate_due rfl due metered up
  · refine exec_eq_next (f := slewDone i) rfl ?_ rfl
    exact if_pos slews
  · exact exec_eq_next (f := droopBegin r) rfl (droopBegin_on (s := { s with pending := [] }) on free) rfl
  · refine exec_next_exists (f := droopEnd r) rfl ?_
    have done := droopEnd_ends (s := { s with pending := [] }) was
    rw [msTicks_second] at done
    generalize droopEnd r { s with pending := [] } = t at *
    exact done
  · refine exec_next_exists (f := overcurrent r) rfl ?_
    have trips : overcurrent r { s with pending := [] } = tripRail (.stack k) { s with pending := [] } := stack ▸ if_pos on
    have done := tripRail_stack k { s with pending := [] }
    rw [trips]
    generalize tripRail (.stack k) { s with pending := [] } = t at *
    obtain ⟨posted, mem, rest⟩ := done
    exact ⟨posted, mem, rest⟩
  · refine exec_next_exists (f := overcurrent r) rfl ?_
    have trips : overcurrent r { s with pending := [] } = tripRail r { s with pending := [] } := if_pos on
    have done := tripRail_domain (s := { s with pending := [] }) rail (railOn_inside rail on) up
    rw [trips]
    generalize tripRail r { s with pending := [] } = t at *
    exact done
  · subst memory
    refine exec_next_exists (f := memoryTrip (.memory i)) rfl ?_
    let v := updLine (railKey (.memory i)) (fun l => { l with pausedAt := none }) { s with pending := [] }
    have done := tripRail_domain (s := v) (.inr rfl) (railOn_inside (.inr rfl) on) up
    rw [memoryTrip_long (s := { s with pending := [] }) on was long]
    generalize tripRail (.memory i) v = t at *
    obtain ⟨⟨posted, rest⟩, rail⟩ := done
    exact ⟨⟨posted.since (.of_eq rfl rfl) rfl, rest⟩, rail⟩
  · refine exec_next_exists (f := inputAct mv) rfl ?_
    have done := inputAct_eq { s with pending := [] } range
    generalize inputAct mv { s with pending := [] } = t at *
    exact done
  · refine exec_next_exists (f := tjLimitAct i l) rfl ?_
    have done := tjLimitAct_reached (s := { s with pending := [] }) (l := l) rfl cold limit
    generalize tjLimitAct i l { s with pending := [] } = t at *
    exact done
  · refine exec_next_exists (f := thermalStepAct i l) rfl ?_
    have done := thermalStepAct_cools (s := { s with pending := [] }) hot cool
    generalize thermalStepAct i l { s with pending := [] } = t at *
    exact done
  · refine exec_next_exists (f := thermalStepAct i l) rfl ?_
    have done := thermalStepAct_lowers (s := { s with pending := [] }) (l := l) rfl hot above
    generalize thermalStepAct i l { s with pending := [] } = t at *
    exact done

end Sys2Proof.Machine

/-! PROOFS. The load-time check ends (O13). -/

namespace Sys2Proof.Machine

/-! ### A refused job ends -/

section
variable {s : State} {k d : Nat} {j : Job}

theorem ctxOf_congr {t : State} (ctxs : t.ctxs = s.ctxs) (c : Nat) : ctxOf t c = ctxOf s c := by rw [ctxOf, ctxOf, ctxs]
theorem dieOf_congr {t : State} (dies : t.dies = s.dies) (e : Nat) : dieOf t e = dieOf s e := by rw [dieOf, dieOf, dies]

theorem jobOf_takeStall (d k : Nat) (s : State) :
    jobOf (takeStall d k s) k = (jobOf s k).map fun j => { j with stall := j.stall + (dieOf s d).round.stall } := by
  unfold takeStall
  dsimp only
  rw [jobOf_updDie, jobOf_updJob_same]

theorem takeStall_ctxs (d k : Nat) (s : State) : (takeStall d k s).ctxs = s.ctxs := by
  unfold takeStall
  dsimp only [updDie, setDie]
  exact updJob_ctxs ..

theorem levelIdle_rest (d : Nat) (s : State) : levelIdle d s = { s with power := (levelIdle d s).power } := by
  unfold levelIdle
  dsimp only
  rw [(setPoint_moves ..).rest]
  rfl

theorem jobOf_levelIdle (d k : Nat) (s : State) : jobOf (levelIdle d s) k = jobOf s k := by
  rw [levelIdle_rest]
  rfl
theorem levelIdle_dies (d : Nat) (s : State) : (levelIdle d s).dies = s.dies := by rw [levelIdle_rest]
theorem levelIdle_ctxs (d : Nat) (s : State) : (levelIdle d s).ctxs = s.ctxs := by rw [levelIdle_rest]

theorem releasePins_rest (d : Nat) (s : State) : (releasePins d s).jobs = s.jobs ∧ (releasePins d s).ctxs = s.ctxs := by
  obtain ⟨jobs, ctxs, -, -, -⟩ := enginesKept_releasePins d s
  exact ⟨jobs, ctxs⟩

/-- The dies of a job of one die are released: the die has no job, the job no die. -/
theorem releaseDies_lone (job : jobOf s k = some j) (lone : j.dies = [d]) :
    let t := releaseDies k s
    t.ctxs = s.ctxs ∧ (dieOf t d).job = none ∧ ∃ i, jobOf t k = some i ∧ i.ctx = j.ctx := by
  obtain ⟨jobs, ctxs⟩ := releasePins_rest d s
  have pinned : jobOf (releasePins d s) k = some j := (congrArg (SMap.find · k) jobs).trans job
  let u := updDie (takeStall d k (releasePins d s)) d idleDie
  have stalled : jobOf u k = some { j with stall := j.stall + (dieOf (releasePins d s) d).round.stall } := by
    rw [jobOf_updDie, jobOf_takeStall, pinned]
    rfl
  have stays : u.ctxs = s.ctxs := (takeStall_ctxs d k (releasePins d s)).trans ctxs
  have idle : (dieOf u d).job = none := congrArg DieSt.job (dieOf_updDie_same (takeStall d k (releasePins d s)) d idleDie)
  have releases : releaseDies k s =
      updJob (levelIdle d u) k fun j => { endPlacement (levelIdle d u).time j with dies := [], checked := [] } := by
    unfold releaseDies
    rw [job]
    dsimp only
    rw [lone, each_cons, each_nil]
  rw [releases]
  generalize u = v at stalled stays idle ⊢
  have ended := jobOf_updJob_same (levelIdle d v) k fun j => { endPlacement (levelIdle d v).time j with dies := [], checked := [] }
  rw [jobOf_levelIdle, stalled] at ended
  refine ⟨?_, ?_, _, ended, rfl⟩
  · rw [updJob_ctxs, levelIdle_ctxs, stays]
  · rw [dieOf, updJob_dies, levelIdle_dies]
    exact idle

theorem hostJobEnded_dies (serial status : Nat) (s : State) : (hostJobEnded serial status s).dies = s.dies := rfl
theorem hostJobEnded_ctxs (serial status : Nat) (s : State) : (hostJobEnded serial status s).ctxs = s.ctxs := rfl

/-- The record of a job that was refused is counted in its context's FAILED, and no die's job changes. -/
theorem writeRecord_refused (j : Job) (serial event : Nat) (msi : Bool) (s : State) :
    let t := writeRecord j serial stRefused event msi s
    (∀ e, (dieOf t e).job = (dieOf s e).job) ∧ (ctxOf t j.ctx.toNat).failed = (ctxOf s j.ctx.toNat).failed + 1 := by
  have counted (a : Nat) (bs : List Byte) :
      let t := updCtx (ioWrite a bs s) j.ctx.toNat fun c => countEnd stRefused (advanceCq c)
      (∀ e, (dieOf t e).job = (dieOf s e).job) ∧ (ctxOf t j.ctx.toNat).failed = (ctxOf s j.ctx.toNat).failed + 1 := by
    have kept := enginesKept_ioWrite a bs (EnginesKept.refl s)
    refine ⟨kept.die DieSt.job (fun _ => rfl), ?_⟩
    rw [ctxOf_updCtx_same, show ctxOf (ioWrite a bs s) j.ctx.toNat = ctxOf s j.ctx.toNat from ctxOf_congr kept.ctxs _]
    rfl
  have asked (t : State) : (requestMsi j.ctx.toNat t).dies = t.dies ∧ (requestMsi j.ctx.toNat t).ctxs = t.ctxs := by
    unfold requestMsi
    split <;> exact ⟨rfl, rfl⟩
  have carry {u v : State} (dies : v.dies = u.dies) (ctxs : v.ctxs = u.ctxs)
      (h : (∀ e, (dieOf u e).job = (dieOf s e).job) ∧ (ctxOf u j.ctx.toNat).failed = (ctxOf s j.ctx.toNat).failed + 1) :
      (∀ e, (dieOf v e).job = (dieOf s e).job) ∧ (ctxOf v j.ctx.toNat).failed = (ctxOf s j.ctx.toNat).failed + 1 := by
    simp only [dieOf_congr dies, ctxOf_congr ctxs]
    exact h
  unfold writeRecord
  dsimp only
  refine carry (hostJobEnded_dies ..) (hostJobEnded_ctxs ..) ?_
  split
  · exact carry (asked _).1 (asked _).2 (counted _ _)
  · exact counted _ _

/-- A context whose reset ends: its queued MSIs are dropped, and it is free. -/
def contextFreed (c : Nat) (s : State) : State :=
  let t := updCtx { s with disp := { s.disp with msis := s.disp.msis.filter (·.toNat != c) } } c fun x =>
    { x with droppedMsis := x.droppedMsis + BitVec.ofNat 32 (s.disp.msis.filter (·.toNat == c)).length }
  updCtx t c fun x => { x with state := .free }

theorem settleReset_cases (c : Nat) (s : State) :
    settleReset c s = s ∨ ∃ x, settleReset c s = { hostJobsLost c (dropCtxKeys c (contextFreed c s)) with cluster := x } := by
  unfold settleReset
  dsimp only
  split
  · exact .inl rfl
  · split
    · exact .inr ⟨_, rfl⟩
    · exact .inr ⟨_, rfl⟩

theorem contextFreed_failed (c : Nat) (s : State) (e : Nat) : (ctxOf (contextFreed c s) e).failed = (ctxOf s e).failed := by
  have failed (t : State) (f : Context → Context) (same : ∀ x, (f x).failed = x.failed) : (ctxOf (updCtx t c f) e).failed = (ctxOf t e).failed := by
    by_cases here : e = c
    · rw [here, ctxOf_updCtx_same, same]
    · rw [ctxOf_updCtx_other _ _ here]
  unfold contextFreed
  dsimp only
  rw [failed _ _ fun _ => by rfl, failed _ _ fun _ => by rfl]
  exact congrArg Context.failed (ctxOf_congr rfl e)

theorem settleReset_rest (c : Nat) (s : State) :
    let t := settleReset c s
    t.jobs = s.jobs ∧ t.dies = s.dies ∧ ∀ e, (ctxOf t e).failed = (ctxOf s e).failed := by
  have keys (t : State) : (hostJobsLost c (dropCtxKeys c t)).jobs = t.jobs ∧ (hostJobsLost c (dropCtxKeys c t)).dies = t.dies ∧
      (hostJobsLost c (dropCtxKeys c t)).ctxs = t.ctxs := by
    unfold dropCtxKeys
    split <;> exact ⟨rfl, rfl, rfl⟩
  obtain ⟨jobs, dies, ctxs⟩ := keys (contextFreed c s)
  have failed := contextFreed_failed c s
  obtain same | ⟨x, ends⟩ := settleReset_cases c s
  · rw [same]
    exact ⟨rfl, rfl, fun _ => rfl⟩
  · rw [ends]
    generalize hostJobsLost c (dropCtxKeys c (contextFreed c s)) = t at jobs dies ctxs ⊢
    exact ⟨jobs, dies, fun e => (congrArg Context.failed (ctxOf_congr ctxs e)).trans (failed e)⟩

/-- A refused job of one die ends: it is gone, its die has no job, its context counts it. -/
theorem finishJob_refused (event : Nat) (msi : Bool) (job : jobOf s k = some j) (lone : j.dies = [d]) :
    let t := finishJob k stRefused event msi s
    jobOf t k = none ∧ (dieOf t d).job = none ∧ (ctxOf t j.ctx.toNat).failed = (ctxOf s j.ctx.toNat).failed + 1 := by
  obtain ⟨ctxs, idle, i, after, ctx⟩ := releaseDies_lone job lone
  obtain ⟨jobs, counted⟩ := writeRecord_refused i k event msi (releaseDies k s)
  have onDies : (jobOf s k).any placed = true := by simp [job, placed, lone]
  have finishes : finishJob k stRefused event msi s =
      settleReset i.ctx.toNat { updCtx (writeRecord i k stRefused event msi (releaseDies k s)) i.ctx.toNat
        (fun c => { c with requeued := c.requeued.filter (· != k) }) with
        jobs := SMap.del (writeRecord i k stRefused event msi (releaseDies k s)).jobs k } := by
    unfold finishJob
    rw [onDies]
    dsimp only
    rw [if_pos rfl, after]
    rfl
  rw [finishes, ← ctx]
  generalize writeRecord i k stRefused event msi (releaseDies k s) = u at jobs counted ⊢
  let v := updCtx u i.ctx.toNat fun c => { c with requeued := c.requeued.filter (· != k) }
  obtain ⟨gone, dies, failed⟩ := settleReset_rest i.ctx.toNat { v with jobs := SMap.del u.jobs k }
  refine ⟨?_, ?_, ?_⟩
  · rw [jobOf, gone]
    exact SMap.find_del_same ..
  · rw [dieOf_congr dies]
    exact (jobs d).trans idle
  · rw [failed]
    have unqueued := ctxOf_updCtx_same u i.ctx.toNat fun c => { c with requeued := c.requeued.filter (· != k) }
    exact ((congrArg Context.failed unqueued).trans counted).trans (by rw [ctxOf_congr ctxs])

end

/-! ### A good image starts -/

section
variable {s : State}

/-- With no COMMIT held at a partner none is tried again. -/
theorem retryCommits_none (held : ∀ p ∈ s.lacing.partners, p.2.heldCommits = []) : retryCommits s = s := by
  have none (p : Nat) : (partnerOf s p).heldCommits = [] := by
    unfold partnerOf SMap.get
    cases found : SMap.find s.lacing.partners p with
    | none => rfl
    | some e => exact held _ (SMap.mem_of_find found)
  refine each_keeps (fun t => t = s) _ _ (fun p _ t same => ?_) s rfl
  rw [same, retryHeld, none p]
  rfl

theorem startOnDie_image (x : DieSt) : (startOnDie x).image = x.image := rfl

end

/-! ### The check ends -/

section
variable {s w : State} {d k : Nat} {j : Job} {img : Image}

/-- A good image is taken, and its die has passed. -/
def imageTaken (d k : Nat) (img : Image) (w : State) : State :=
  updJob (updDie w d (takeImage w img)) k fun j => { j with checked := j.checked ++ [d] }

/-- A die whose job is checked there begins the check. -/
theorem checks_here (stage : j.stage = .checking) (first : j.checked = []) (noLoad : jobLoadHeld (dieOf s d) = false)
    (runs : paused s d = false) : (j.stage == .checking && !j.checked.contains d && !jobLoadHeld (dieOf s d) && !paused s d) = true := by
  simp [stage, first, noLoad, runs]

/-- An image that fails ends its job. -/
theorem loadCheckDone_bad {reason word : Nat} (on : jobOn s d = some k) (job : jobOf s k = some j) (stage : j.stage = .checking)
    (first : j.checked = []) (noLoad : jobLoadHeld (dieOf s d) = false) (runs : paused s d = false)
    (read : readImage d j.ctx.toNat j.desc s = (.ok img, w)) (bad : loadFailure w d img = some (reason, word)) :
    loadCheckDone d s =
      finishJob k stRefused 0x0602 true (postDie 0x0602 d [reason, word] (updDie w d fun x => { x with seq := { x.seq with pos := word } })) := by
  unfold loadCheckDone
  rw [on, Option.bind_some, job, Option.map_some]
  dsimp only
  rw [if_pos (checks_here stage first noLoad runs), read]
  dsimp only
  simp only [bad]

/-- A good image is taken, and its die has passed. -/
theorem loadCheckDone_good (on : jobOn s d = some k) (job : jobOf s k = some j) (stage : j.stage = .checking)
    (first : j.checked = []) (noLoad : jobLoadHeld (dieOf s d) = false) (runs : paused s d = false)
    (read : readImage d j.ctx.toNat j.desc s = (.ok img, w)) (good : loadFailure w d img = none)
    (served : servedBy (imageTaken d k img w) k = none) : loadCheckDone d s = allChecked k (imageTaken d k img w) := by
  unfold imageTaken at served
  unfold loadCheckDone
  rw [on, Option.bind_some, job, Option.map_some]
  dsimp only
  rw [if_pos (checks_here stage first noLoad runs), read]
  dsimp only
  simp only [good, served]
  rfl

theorem postDie_ctxs (code d : Nat) (p : List Nat) (s : State) : (postDie code d p s).ctxs = s.ctxs := by
  unfold postDie
  split
  · exact post_ctxs ..
  · exact post_ctxs ..

theorem loadCheck_refuses {reason word : Nat} (job : jobOf w k = some j) (lone : j.dies = [d]) :
    let t := finishJob k stRefused 0x0602 true (postDie 0x0602 d [reason, word] (updDie w d fun x => { x with seq := { x.seq with pos := word } }))
    jobOf t k = none ∧ (dieOf t d).job = none ∧ Posted w t 0x0602 d [jobIdOn w d, reason, word] ∧
      (ctxOf t j.ctx.toNat).failed = (ctxOf w j.ctx.toNat).failed + 1 := by
  let u := updDie w d fun x => { x with seq := { x.seq with pos := word } }
  have jobs : (postDie 0x0602 d [reason, word] u).jobs = w.jobs := (postDie_frame 0x0602 d [reason, word] u).1
  have stillJob : jobOf (postDie 0x0602 d [reason, word] u) k = some j := (congrArg (SMap.find · k) jobs).trans job
  have ctxs : (postDie 0x0602 d [reason, word] u).ctxs = w.ctxs := postDie_ctxs 0x0602 d [reason, word] u
  have posted := (posted_postDie 0x0602 d [reason, word] u).since (s := w) (.of_eq rfl rfl) rfl
  have id_ : jobIdOn u d = jobIdOn w d := by
    unfold jobIdOn
    rw [show jobOn u d = jobOn w d from jobOn_updDie rfl d]
    rfl
  rw [if_pos (by decide), id_] at posted
  generalize postDie 0x0602 d [reason, word] u = v at *
  obtain ⟨gone, idle, failed⟩ := finishJob_refused 0x0602 true stillJob lone
  have kept := (finishJob_kept k stRefused 0x0602 true v).records
  exact ⟨gone, idle, posted.keep kept, failed.trans (by rw [ctxOf_congr ctxs])⟩

/-- The state in which the first command of the job starts. -/
def jobRuns (d k : Nat) (img : Image) (w : State) : State :=
  updJob (imageTaken d k img w) k fun j => { j with stage := .running }

theorem jobOf_imageTaken (job : jobOf w k = some j) : jobOf (imageTaken d k img w) k = some { j with checked := j.checked ++ [d] } := by
  rw [imageTaken, jobOf_updJob_same, jobOf_updDie, job]
  rfl

theorem jobOf_jobRuns (job : jobOf w k = some j) :
    jobOf (jobRuns d k img w) k = some { j with checked := j.checked ++ [d], stage := .running } := by
  rw [jobRuns, jobOf_updJob_same, jobOf_imageTaken job]
  rfl

theorem imageTaken_parts : (imageTaken d k img w).parts = w.parts := updJob_parts ..
theorem jobRuns_parts : (jobRuns d k img w).parts = w.parts := (updJob_parts ..).trans imageTaken_parts
theorem jobRuns_lacing : (jobRuns d k img w).lacing = w.lacing := (updJob_lacing ..).trans (updJob_lacing ..)
theorem jobRuns_mem : (jobRuns d k img w).mem = w.mem := (updJob_mem ..).trans (updJob_mem ..)

theorem dieOf_jobRuns : dieOf (jobRuns d k img w) d = takeImage w img (dieOf w d) := by
  rw [jobRuns, dieOf_updJob, imageTaken, dieOf_updJob]
  exact dieOf_updDie_same ..

theorem servedBy_imageTaken (job : jobOf w k = some j) (served : servedBy w k = none) : servedBy (imageTaken d k img w) k = none :=
  servedBy_none_keep served job (jobOf_imageTaken job) imageTaken_parts rfl rfl rfl

/-- Once the one die of a job has passed, its first command starts there. -/
theorem allChecked_lone (job : jobOf w k = some j) (lone : j.dies = [d]) (first : j.checked = []) (saves : j.saves = [])
    (served : servedBy w k = none) (round : (imageSect img).roundUsed = 0) (spare : (dieOf w d).spareClaim = none)
    (held : ∀ p ∈ w.lacing.partners, p.2.heldCommits = []) :
    allChecked k (imageTaken d k img w) = updDie (jobRuns d k img w) d startOnDie := by
  have passed : (j.dies.all (j.checked ++ [d]).contains) = true := by simp [lone, first]
  have spare' : (dieOf (jobRuns d k img w) d).spareClaim = none := by
    rw [dieOf_jobRuns]
    exact spare
  have round' : roundCount (dieOf (jobRuns d k img w) d) = 0 := by
    rw [dieOf_jobRuns]
    show (if (imageSect img).roundUsed = 1 then _ else 0) = 0
    rw [round, if_neg (by decide)]
  have served' : servedBy (jobRuns d k img w) k = none :=
    servedBy_none_keep served job (jobOf_jobRuns job) jobRuns_parts rfl rfl rfl
  have starts := startCommand_lone (jobOf_jobRuns job) lone spare' round' served'
  rw [allChecked, jobOf_imageTaken job]
  dsimp only
  rw [if_pos passed, if_pos (by rw [saves]; rfl)]
  change retryCommits (startCommand k (jobRuns d k img w)) = _
  rw [starts]
  exact retryCommits_none (jobRuns_lacing (w := w) ▸ held)

theorem allChecked_starts (job : jobOf w k = some j) (lone : j.dies = [d]) (first : j.checked = []) (saves : j.saves = [])
    (served : servedBy w k = none) (round : (imageSect img).roundUsed = 0) (spare : (dieOf w d).spareClaim = none)
    (held : ∀ p ∈ w.lacing.partners, p.2.heldCommits = []) :
    let t := allChecked k (imageTaken d k img w)
    ∃ i, jobOf t k = some i ∧ i.stage = .running ∧ i.checked = [d] ∧ (dieOf t d).image = some img ∧ (dieOf t d).seq.state = .running ∧
      (dieOf t d).seq.command = (dieOf w d).seq.command + 1 ∧ t.mem = w.mem := by
  dsimp only
  rw [allChecked_lone job lone first saves served round spare held, dieOf_updDie_same, dieOf_jobRuns]
  refine ⟨_, jobOf_jobRuns job, rfl, ?_, rfl, rfl, rfl, jobRuns_mem⟩
  rw [first]
  rfl

end

/-- Settles O13. -/
theorem loadTimeCheckRefusesOrStarts : Obligations.LoadTimeCheckRefusesOrStarts := by
  intro d s z w k j img hz on job stage lone first noLoad runs read jobs _
  have job' : jobOf w k = some j := (congrArg (SMap.find · k) jobs).trans job
  refine ⟨fun reason word bad => ?_, fun good served saves round spare held => ?_⟩
  · have checks := loadCheckDone_bad on job stage first noLoad runs read bad
    have refused := loadCheck_refuses (reason := reason) (word := word) job' lone
    refine exec_next_exists (f := loadCheckDone d) rfl ?_
    rw [← hz, checks]
    dsimp only at refused
    generalize finishJob k stRefused 0x0602 true _ = t at *
    exact refused
  · have checks := loadCheckDone_good on job stage first noLoad runs read good (servedBy_imageTaken job' served)
    have starts := allChecked_starts job' lone first saves served round spare held
    dsimp only at starts
    rw [← checks, hz] at starts
    generalize effect : loadCheckDone d { s with pending := [] } = t at starts
    obtain ⟨i, started⟩ := starts
    refine ⟨{ t with pending := s.pending }, i, ?_, started⟩
    rw [← effect]
    exact command_next (loadCheckDone d) s

end Sys2Proof.Machine

/-! PROOFS. Bytes and elements of lists of bytes, lanes of a vector register. -/

namespace Sys2Proof.Machine

/-! ### Bytes of a list -/

section
variable {l m bs : List Byte} {o k w : Nat}

theorem leNat_lt (l : List Byte) : leNat l < 256 ^ l.length := by
  induction l with
  | nil => simp [leNat]
  | cons b l ih =>
    have small := b.isLt
    rw [leNat, List.length_cons, Nat.pow_succ]
    omega

theorem fieldAt_lt (l : List Byte) (o w : Nat) : fieldAt l o w < 256 ^ w :=
  (leNat_lt _).trans_le (Nat.pow_le_pow_right (by omega) (by simp))

/-- A field is the same where its bytes are. -/
theorem fieldAt_congr (same : ∀ k, o ≤ k → k < o + w → l[k]? = m[k]?) : fieldAt l o w = fieldAt m o w := by
  refine congrArg leNat (List.ext_getElem? fun i => ?_)
  by_cases inside : i < w
  · simp [inside, same (o + i) (by omega) (by omega)]
  · simp [inside]

theorem length_putBytes (inside : o + bs.length ≤ l.length) : (putBytes l o bs).length = l.length := by
  simp [putBytes]
  omega

theorem getElem?_putBytes_outside (inside : o + bs.length ≤ l.length) (outside : k < o ∨ o + bs.length ≤ k) :
    (putBytes l o bs)[k]? = l[k]? := by
  have taken : (l.take o).length = o := by simp; omega
  unfold putBytes
  rcases outside with below | above
  · rw [List.append_assoc, List.getElem?_append_left (by omega), List.getElem?_take_of_lt below]
  · rw [List.getElem?_append_right (by simp; omega), List.getElem?_drop]
    congr 1
    simp
    omega

theorem fieldAt_putBytes_same (inside : o ≤ l.length) : fieldAt (putBytes l o bs) o bs.length = leNat bs := by
  have taken : (l.take o).length = o := by simp; omega
  rw [fieldAt, putBytes, List.append_assoc, List.drop_append_of_le_length (by omega), List.drop_of_length_le (by omega), List.nil_append,
    List.take_left]

theorem fieldAt_putBytes_other {o' : Nat} (inside : o + bs.length ≤ l.length) (apart : o' + w ≤ o ∨ o + bs.length ≤ o') :
    fieldAt (putBytes l o bs) o' w = fieldAt l o' w :=
  fieldAt_congr fun _ _ _ => getElem?_putBytes_outside inside (by omega)

theorem getElem?_mergeLine_set {mask : BitVec 64} (new : m.length = 64) (set : mask.getLsbD k = true) :
    (mergeLine mask m l)[k]? = m[k]? := by
  have inside : k < 64 := BitVec.lt_of_getLsbD set
  have inLine : (List.range 64)[k]? = some k := List.getElem?_range inside
  rw [mergeLine, List.getElem?_map, inLine, Option.map_some, if_pos set, List.getElem?_eq_getElem (new ▸ inside)]
  rfl

theorem getLsbD_lineMask (inside : o + w ≤ 64) : (lineMask o w).getLsbD k = (decide (o ≤ k) && decide (k < o + w)) := by
  rw [lineMask, BitVec.getLsbD_ofNat, Nat.testBit_shiftLeft, Nat.testBit_two_pow_sub_one, Bool.eq_iff_iff]
  simp
  omega

end

/-! ### Elements -/

section
variable {w : Nat}

theorem getElem?_elems (n : Nat) (l : List Byte) (i : Nat) : (elems w n l)[i]? = if i < n then some (fieldAt l (w * i) w) else none := by
  induction n generalizing l i with
  | zero => rfl
  | succ n ih =>
    cases i with
    | zero => simp [elems, fieldAt]
    | succ i => simp [elems, ih, fieldAt, Nat.mul_succ, Nat.add_comm]

theorem length_elems (n : Nat) (l : List Byte) : (elems w n l).length = n := by
  induction n generalizing l with
  | zero => rfl
  | succ n ih => rw [elems, List.length_cons, ih]

theorem length_elemBytes (l : List Nat) : (elemBytes w l).length = w * l.length := by
  induction l with
  | nil => rfl
  | cons v l ih =>
    rw [elemBytes, List.map_cons, List.flatten_cons, List.length_append, length_leBytes, List.length_cons, Nat.mul_succ, Nat.add_comm]
    exact congrArg (· + w) ih

theorem elems_elemBytes (l : List Nat) : elems w l.length (elemBytes w l) = l.map (· % 256 ^ w) := by
  induction l with
  | nil => rfl
  | cons v l ih =>
    have split : elemBytes w (v :: l) = leBytes w v ++ elemBytes w l := rfl
    rw [List.length_cons, elems, split, List.take_left' (length_leBytes w v), List.drop_left' (length_leBytes w v), leNat_leBytes, ih,
      List.map_cons]

end

/-! ### Lanes of a vector register (R126, R128) -/

section
variable {ty r i : Nat} {c : ChurnUnit} {vals : List (Option Nat)}

theorem laneBytes_cases (ty : Nat) : laneBytes ty = 1 ∨ laneBytes ty = 2 ∨ laneBytes ty = 4 := by
  unfold laneBytes
  split
  · exact .inr (.inr rfl)
  · split
    · exact .inr (.inl rfl)
    · exact .inl rfl

theorem laneBytes_laneCount (ty : Nat) : laneBytes ty * laneCount ty = 2048 := by
  unfold laneCount
  obtain one | two | four := laneBytes_cases ty
  · rw [one]
  · rw [two]
  · rw [four]

theorem pow_laneBytes (ty : Nat) : 256 ^ laneBytes ty = 2 ^ (8 * laneBytes ty) := by rw [Nat.pow_mul]

theorem lane_eq (b : List Byte) (inside : i < laneCount ty) : ((lanes ty b)[i]?).getD 0 = fieldAt b (laneBytes ty * i) (laneBytes ty) := by
  rw [lanes, getElem?_elems, if_pos inside, Option.getD_some]

theorem length_fit (n : Nat) (b : List Byte) : (fit n b).length = n := by simp [fit, zeros]

theorem vecBytes_setVec_same {b : List Byte} (full : b.length = 2048) : vecBytes (setVec r b c) r = b := by
  have fits : fit 2048 b = b := by rw [fit, List.take_left' full]
  rw [vecBytes, setVec, fits, ← full]
  exact ByteMap.read_write_same ..

theorem vecBytes_setVec_other {q : Nat} {b : List Byte} (other : q ≠ r) : vecBytes (setVec r b c) q = vecBytes c q := by
  refine ByteMap.read_write_other _ _ _ _ _ ?_
  rw [length_fit]
  omega

theorem vecBytes_putElems_other {q : Nat} (other : q ≠ r) : vecBytes (putElems ty r vals c) q = vecBytes c q := vecBytes_setVec_other other

/-- A lane after all lanes of a register are given a value or kept. -/
theorem lane_putElems (all : vals.length = laneCount ty) (inside : i < laneCount ty) :
    ((lanes ty (vecBytes (putElems ty r vals c) r))[i]?).getD 0 = match (vals[i]?).join with
      | some v => laneCode ty v % 2 ^ (8 * laneBytes ty)
      | none => ((lanes ty (vecBytes c r))[i]?).getD 0 := by
  let new := List.zipWith (fun o (v : Option Nat) => match v with | some x => laneCode ty x | none => o)
    (lanes ty (vecBytes c r)) vals
  have count : new.length = laneCount ty := by simp [new, lanes, length_elems, all]
  have full : (elemBytes (laneBytes ty) new).length = 2048 := by rw [length_elemBytes, count, laneBytes_laneCount]
  have written : vecBytes (putElems ty r vals c) r = elemBytes (laneBytes ty) new := by
    have above : (vecBytes c r).drop (laneBytes ty * vals.length) = [] :=
      List.drop_of_length_le (by rw [all, laneBytes_laneCount]; exact (ByteMap.length_read ..).le)
    unfold putElems
    dsimp only
    rw [above, List.append_nil, all]
    exact vecBytes_setVec_same full
  have lane : lanes ty (elemBytes (laneBytes ty) new) = new.map (· % 256 ^ laneBytes ty) := by
    rw [lanes, ← count]
    exact elems_elemBytes new
  have old : (lanes ty (vecBytes c r))[i]? = some (fieldAt (vecBytes c r) (laneBytes ty * i) (laneBytes ty)) := by
    rw [lanes, getElem?_elems, if_pos inside]
  obtain ⟨v, at_⟩ : ∃ v, vals[i]? = some v := ⟨_, List.getElem?_eq_getElem (all ▸ inside)⟩
  rw [written, lane, List.getElem?_map, List.getElem?_zipWith, old, at_, pow_laneBytes]
  cases v with
  | some v => rfl
  | none => exact Nat.mod_eq_of_lt (pow_laneBytes ty ▸ fieldAt_lt ..)

end

/-! ### Lists without repetition -/

section
variable {α β : Type} [BEq α] [LawfulBEq α]

theorem nodup_eraseDups (l : List α) : l.eraseDups.Nodup := by
  induction length : l.length using Nat.strong_induction_on generalizing l with
  | _ n ih =>
    cases l with
    | nil => simp
    | cons a l =>
      rw [List.eraseDups_cons, List.nodup_cons]
      refine ⟨by simp [List.mem_eraseDups], ih _ ?_ _ rfl⟩
      have shorter := List.length_filter_le (fun b => !b == a) l
      rw [List.length_cons] at length
      omega

theorem length_eraseDups_le (l : List α) : l.eraseDups.length ≤ l.length :=
  (List.Nodup.subperm (nodup_eraseDups l) fun _ inside => List.mem_eraseDups.mp inside).length_le

theorem lookup_map_self {l : List α} {a : α} (f : α → β) (inside : a ∈ l) : (l.map fun b => (b, f b)).lookup a = some (f a) := by
  induction l with
  | nil => cases inside
  | cons b l ih =>
    rw [List.map_cons, List.lookup_cons]
    by_cases same : a = b
    · simp [same]
    · rw [beq_false_of_ne same, ih ((List.mem_cons.mp inside).resolve_left same)]

end

end Sys2Proof.Machine

/-! PROOFS. What a write of a pan's line leaves of its lines (R97, R180, R181). -/

namespace Sys2Proof.Machine

/-! ### Staged entries -/

section
variable {e : LogEntry} {l r : List LogEntry}

/-- Whether an entry is staged for a line. -/
def stagedFor (kind : LogKind) (addr : Nat) (e : LogEntry) : Bool := e.kind = kind && e.addr = addr

/-- A line as a list of staged entries leaves it. -/
def forwardAll (kind : LogKind) (addr : Nat) (l : List LogEntry) (base : LineData) : LineData :=
  l.foldl (fun d e => if stagedFor kind addr e then mergeLine e.mask e.data d else d) base

theorem forwarded_eq (x : DieSt) (kind : LogKind) (addr : Nat) (base : LineData) :
    forwarded x kind addr base = forwardAll kind addr x.log base := rfl

theorem forwardAll_append (kind : LogKind) (addr : Nat) (l r : List LogEntry) (base : LineData) :
    forwardAll kind addr (l ++ r) base = forwardAll kind addr r (forwardAll kind addr l base) := List.foldl_append ..

theorem forwardAll_none {kind : LogKind} {addr : Nat} (none : ∀ e ∈ l, stagedFor kind addr e = false) (base : LineData) :
    forwardAll kind addr l base = base := by
  induction l generalizing base with
  | nil => rfl
  | cons e l ih =>
    rw [forwardAll, List.foldl_cons, none e List.mem_cons_self]
    exact ih (fun e inside => none e (List.mem_cons_of_mem _ inside)) base

theorem length_forwardAll {base : LineData} (kind : LogKind) (addr : Nat) (l : List LogEntry) (full : base.length = 64) :
    (forwardAll kind addr l base).length = 64 := by
  induction l generalizing base with
  | nil => exact full
  | cons e l ih =>
    rw [forwardAll, List.foldl_cons]
    refine ih ?_
    split
    · exact length_mergeLine ..
    · exact full

/-- An entry with a line write merged into it. -/
def mergedEntry (e o : LogEntry) : LogEntry := { o with data := mergeLine e.mask e.data o.data, mask := o.mask ||| e.mask, key := e.key }

theorem mergeLast_none (refuses : mergeLast e l = none) (noFence : l.any (fun z => z.kind == .fence) = false) :
    ∀ z ∈ l, stagedFor e.kind e.addr z = false := by
  induction l with
  | nil => simp
  | cons o l ih =>
    rw [List.any_cons, Bool.or_eq_false_iff] at noFence
    rw [mergeLast] at refuses
    cases later : mergeLast e l with
    | some r => rw [later] at refuses; cases refuses
    | none =>
      rw [later] at refuses
      have here : stagedFor e.kind e.addr o = false := by
        by_contra staged
        rw [Bool.not_eq_false] at staged
        rw [stagedFor] at staged
        simp [staged, noFence.2] at refuses
      exact List.forall_mem_cons.mpr ⟨here, ih later noFence.2⟩

/-- A line write merges into one entry for its line, and no later entry is for that line. -/
theorem mergeLast_some (merges : mergeLast e l = some r) :
    ∃ before o after, l = before ++ o :: after ∧ r = before ++ mergedEntry e o :: after ∧ o.kind = e.kind ∧ o.addr = e.addr ∧
      ∀ z ∈ after, stagedFor e.kind e.addr z = false := by
  induction l generalizing r with
  | nil => cases merges
  | cons p l ih =>
    rw [mergeLast] at merges
    cases later : mergeLast e l with
    | some q =>
      rw [later] at merges
      cases merges
      obtain ⟨before, o, after, was, is, kind, addr, none⟩ := ih later
      exact ⟨p :: before, o, after, by rw [was]; rfl, by rw [is]; rfl, kind, addr, none⟩
    | none =>
      rw [later] at merges
      dsimp only at merges
      split at merges
      · next here =>
        cases merges
        simp only [Bool.and_eq_true, decide_eq_true_eq, Bool.not_eq_true'] at here
        exact ⟨[], p, l, rfl, rfl, here.1.1, here.1.2, mergeLast_none later here.2⟩
      · cases merges

end

section
variable {e : LogEntry} {x y : DieSt}

/-- A staged write joins one entry of the log or follows them all, and no later entry is for its line. -/
theorem stageLine_log (done : stageLine e x = .ok y) :
    ∃ before after, y = { x with log := before ++ after } ∧ (∀ z ∈ after.tail, stagedFor e.kind e.addr z = false) ∧
      ((∃ o rest, x.log = before ++ o :: rest ∧ after = mergedEntry e o :: rest ∧ o.kind = e.kind ∧ o.addr = e.addr) ∨
        (x.log = before ∧ after = [e] ∧ logCount x < maxLogEntries)) := by
  unfold stageLine at done
  cases merges : mergeLast e x.log with
  | some l =>
    rw [merges] at done
    cases done
    obtain ⟨before, o, rest, was, is, kind, addr, none⟩ := mergeLast_some merges
    exact ⟨before, mergedEntry e o :: rest, by rw [is], none, .inl ⟨o, rest, was, rfl, kind, addr⟩⟩
  | none =>
    rw [merges] at done
    dsimp only [logAdd] at done
    split at done <;> cases done
    next room => exact ⟨x.log, [e], rfl, by simp, .inr ⟨rfl, rfl, room⟩⟩

theorem stageLine_room (room : logCount x < maxLogEntries) : ∃ y, stageLine e x = .ok y := by
  unfold stageLine
  split
  · exact ⟨_, rfl⟩
  · exact ⟨_, if_pos room⟩

theorem stageLine_logCount (done : stageLine e x = .ok y) : logCount y ≤ logCount x + 1 := by
  obtain ⟨before, after, rfl, -, ⟨o, rest, was, rfl, kind, -⟩ | ⟨was, rfl, -⟩⟩ := stageLine_log done
  · have same : (mergedEntry e o).kind = o.kind := rfl
    simp only [logCount, was, List.filter_append, List.filter_cons, same, List.length_append]
    split <;> simp
  · simp only [logCount, was, List.filter_append, List.length_append]
    have one := List.length_filter_le (fun e : LogEntry => e.kind != .fence) [e]
    simpa using one

theorem forwarded_stageLine_other {kind : LogKind} {addr : Nat} (done : stageLine e x = .ok y) (other : stagedFor kind addr e = false)
    (base : LineData) : forwarded y kind addr base = forwarded x kind addr base := by
  obtain ⟨before, after, rfl, -, ⟨o, rest, was, rfl, okind, oaddr⟩ | ⟨was, rfl, -⟩⟩ := stageLine_log done
  · have old : stagedFor kind addr o = false := by rw [stagedFor, okind, oaddr]; exact other
    have new : stagedFor kind addr (mergedEntry e o) = false := old
    simp [forwarded_eq, was, forwardAll, old, new]
  · simp [forwarded_eq, was, forwardAll, other]

/-- The bytes a write stages are what its line reads as. -/
theorem getElem?_forwarded_stageLine {k : Nat} (done : stageLine e x = .ok y) (full : e.data.length = 64)
    (set : e.mask.getLsbD k = true) (base : LineData) : (forwarded y e.kind e.addr base)[k]? = e.data[k]? := by
  obtain ⟨before, after, rfl, none, ⟨o, rest, was, rfl, kind, addr⟩ | ⟨was, rfl, -⟩⟩ := stageLine_log done
  · have here : stagedFor e.kind e.addr (mergedEntry e o) = true := by simp [stagedFor, mergedEntry, kind, addr]
    have set' : (mergedEntry e o).mask.getLsbD k = true := by simp [mergedEntry, set]
    rw [forwarded_eq, forwardAll_append, forwardAll, List.foldl_cons, if_pos here]
    refine (congrArg (·[k]?) (forwardAll_none none _)).trans ?_
    exact (getElem?_mergeLine_set (length_mergeLine ..) set').trans (getElem?_mergeLine_set full set)
  · have here : stagedFor e.kind e.addr e = true := by simp [stagedFor]
    rw [forwarded_eq, forwardAll_append, forwardAll, List.foldl_cons, if_pos here]
    exact getElem?_mergeLine_set full set

end

/-! ### Lines of the pan area -/

section
variable {x y : DieSt} {l a : Nat} {mask : BitVec 64} {data : LineData}

theorem length_sramLine (x : DieSt) (l : Nat) : (sramLine x l).length = 64 := by
  unfold sramLine
  split
  · exact ByteMap.length_read ..
  · simp [zeros]

theorem sramLine_putSramLine_same : sramLine (putSramLine l mask data x) l = mergeLine mask data (sramLine x l) := by
  have current : SMap.get 0 (putSramLine l mask data x).lineTag l = (putSramLine l mask data x).placeCtr.toNat + 1 := SMap.get_set_same 0 x.lineTag l (x.placeCtr.toNat + 1)
  have written := ByteMap.read_write_same x.sram (64 * l) (mergeLine mask data (sramLine x l))
  rw [length_mergeLine] at written
  rw [sramLine, if_pos current]
  exact written

theorem sramLine_putSramLine_other (other : a ≠ l) : sramLine (putSramLine l mask data x) a = sramLine x a := by
  have tag : SMap.get 0 (putSramLine l mask data x).lineTag a = SMap.get 0 x.lineTag a := 
    SMap.get_set_other 0 0 x.lineTag (x.placeCtr.toNat + 1) other
  have bytes : ByteMap.read (putSramLine l mask data x).sram (64 * a) 64 = ByteMap.read x.sram (64 * a) 64 := by
    refine ByteMap.read_write_other _ _ _ _ _ ?_
    rw [length_mergeLine]
    omega
  rw [sramLine, tag, bytes]
  rfl

end

/-! ### Lines of a pan -/

section
variable {x y : DieSt} {p : PanEnt} {l m tok : Nat} {mask : BitVec 64} {data : LineData}

theorem length_panLineNow (x : DieSt) (p : PanEnt) (l : Nat) : (panLineNow x p l).length = 64 := by
  unfold panLineNow
  split
  · exact length_forwardAll _ _ _ (length_sramLine ..)
  · exact length_sramLine ..

/-- A line that may be read reads as it stands (R97). -/
theorem readPan_line (readable : p.persistent = true ∨ p.base + l ∈ x.written) :
    readPan x p tok (64 * l) 64 = .ok (panLineNow x p l) := by
  have one : (64 * l + 64 + 63) / 64 - 64 * l / 64 = 1 := by omega
  have here : 64 * l / 64 = l := by omega
  have full := length_panLineNow x p l
  have ok : (!p.persistent && !x.written.contains (p.base + l)) = false := by
    rcases readable with persistent | written
    · simp [persistent]
    · simp [written]
  have noFault : [l].find? (fun l => !p.persistent && !x.written.contains (p.base + l)) = none := by
    rw [List.find?_cons_of_neg (by rw [ok]; decide)]
    rfl
  unfold readPan
  dsimp only
  rw [one, here]
  change (match [l].find? _ with | some l => _ | none => _) = _
  rw [noFault]
  simp [List.take_of_length_le full.le]

/-- A write of a line of a pan with room in the log: it is done, the bytes its mask names are what the line reads as, and no other line
changes. -/
theorem writePanLine_done (full : data.length = 64) (room : p.persistent = false ∨ logCount x < maxLogEntries) :
    ∃ y, writePanLine p l mask data x = .ok y ∧ (p.persistent = true → logCount y ≤ logCount x + 1) ∧
      (∀ k, mask.getLsbD k = true → (panLineNow y p l)[k]? = data[k]?) ∧ (∀ m, m ≠ l → panLineNow y p m = panLineNow x p m) := by
  cases persistent : p.persistent with
  | true =>
    let e : LogEntry := { kind := .panLine, addr := p.base + l, data, mask, key := none }
    obtain ⟨y, done⟩ := stageLine_room (e := e) (room.resolve_left (by simp [persistent]))
    have sram (m : Nat) : sramLine y m = sramLine x m := by
      obtain ⟨before, after, rfl, -⟩ := stageLine_log done
      rfl
    refine ⟨y, by rw [writePanLine, if_pos persistent]; exact done, fun _ => stageLine_logCount done, fun k set => ?_, fun m other => ?_⟩
    · rw [panLineNow, if_pos persistent]
      exact getElem?_forwarded_stageLine done full set _
    · have elsewhere : stagedFor .panLine (p.base + m) e = false := by simp [stagedFor, e]; omega
      rw [panLineNow, panLineNow, if_pos persistent, if_pos persistent, sram]
      exact forwarded_stageLine_other done elsewhere _
  | false =>
    have now (x : DieSt) (m : Nat) : panLineNow x p m = sramLine x (p.base + m) := by rw [panLineNow, persistent]; rfl
    by_cases written : x.written.contains (p.base + l) = true
    · refine ⟨putSramLine (p.base + l) mask data x, by rw [writePanLine, if_neg (by simp [persistent]), if_pos written], nofun, fun k set => ?_, fun m other => ?_⟩
      · rw [now, sramLine_putSramLine_same]
        exact getElem?_mergeLine_set full set
      · rw [now, now]
        exact sramLine_putSramLine_other (by omega)
    · let fresh := mergeLine mask data (zeros 64)
      refine ⟨{ putSramLine (p.base + l) (BitVec.allOnes 64) fresh x with written := (p.base + l) :: x.written },
        by rw [writePanLine, if_neg (by simp [persistent]), if_neg written], nofun, fun k set => ?_, fun m other => ?_⟩
      · rw [now]
        refine (congrArg (·[k]?) (sramLine_putSramLine_same (x := x))).trans ?_
        rw [getElem?_mergeLine_set (length_mergeLine ..) (by rw [BitVec.getLsbD_allOnes]; exact decide_eq_true (BitVec.lt_of_getLsbD set))]
        exact getElem?_mergeLine_set full set
      · rw [now, now]
        exact sramLine_putSramLine_other (x := x) (by omega)

end

end Sys2Proof.Machine

/-! PROOFS. The pan accesses of the Churn: LDV and STV (O22). -/

namespace Sys2Proof.Machine

/-! ### Elements of a line -/

/-- The element at a place of a line (R131). -/
def elemAt (ty : Nat) (place : Nat × Nat) (line : List Byte) : Nat :=
  if ty = 9 then (fieldAt line (place.1 % 64) 1 >>> place.2) % 16 else fieldAt line (place.1 % 64) (laneBytes ty)

/-- The bytes of a lane as a store puts them at a place of a line: an INT4 element leaves the other nibble. -/
def elemWord (ty : Nat) (place : Nat × Nat) (lane : Nat) (line : List Byte) : Nat :=
  if ty = 9 then
    let cur := fieldAt line (place.1 % 64) 1
    if place.2 = 0 then cur / 16 * 16 + lane % 16 else cur % 16 + 16 * (lane % 16)
  else lane

/-- A line with a lane stored at a place. -/
def putElem (ty : Nat) (place : Nat × Nat) (lane : Nat) (line : List Byte) : List Byte :=
  putBytes line (place.1 % 64) (leBytes (laneBytes ty) (elemWord ty place lane line))

/-- A place where an element of a type may lie: at a multiple of its bytes, an INT4 element in either nibble. -/
def WholePlace (ty : Nat) (place : Nat × Nat) : Prop := place.1 % laneBytes ty = 0 ∧ (place.2 = 0 ∨ ty = 9 ∧ place.2 = 4)

section
variable {ty lane : Nat} {a b : Nat × Nat} {line other : List Byte}

theorem WholePlace.inside (whole : WholePlace ty a) : a.1 % 64 + laneBytes ty ≤ 64 := by
  obtain ⟨aligned, -⟩ := whole
  obtain one | two | four := laneBytes_cases ty
  · omega
  · rw [two] at aligned ⊢
    omega
  · rw [four] at aligned ⊢
    omega

/-- Different places of a type in one line share no byte, or are the nibbles of one byte. -/
theorem WholePlace.apart (here : WholePlace ty a) (there : WholePlace ty b) (sameLine : a.1 / 64 = b.1 / 64) (different : a ≠ b) :
    (b.1 % 64 + laneBytes ty ≤ a.1 % 64 ∨ a.1 % 64 + laneBytes ty ≤ b.1 % 64) ∨ ty = 9 ∧ a.1 = b.1 ∧ (a.2 = 0 ∧ b.2 = 4 ∨ a.2 = 4 ∧ b.2 = 0) := by
  obtain ⟨alignedA, nibbleA⟩ := here
  obtain ⟨alignedB, nibbleB⟩ := there
  by_cases byte : a.1 = b.1
  · have nibble : a.2 ≠ b.2 := fun same => different (Prod.ext byte same)
    omega
  · left
    obtain one | two | four := laneBytes_cases ty
    · omega
    · rw [two] at alignedA alignedB ⊢
      omega
    · rw [four] at alignedA alignedB ⊢
      omega

theorem laneBytes_nibble (nibble : ty = 9) : laneBytes ty = 1 := by
  rw [nibble]
  rfl

theorem elemAt_eq (ty : Nat) (place : Nat × Nat) (line : List Byte) :
    elemAt ty place line = (let v := fieldAt line (place.1 % 64) (laneBytes ty); if ty = 9 then (v >>> place.2) % 16 else v) := by
  unfold elemAt
  split
  · next nibble => rw [laneBytes_nibble nibble]
  · rfl

theorem elemAt_congr (same : ∀ k, a.1 % 64 ≤ k → k < a.1 % 64 + laneBytes ty → (line)[k]? = other[k]?) : elemAt ty a line = elemAt ty a other := by
  unfold elemAt
  split
  · next nibble =>
    rw [laneBytes_nibble nibble] at same
    rw [fieldAt_congr same]
  · exact fieldAt_congr same

theorem length_putElem (full : line.length = 64) (whole : WholePlace ty a) : (putElem ty a lane line).length = 64 := by
  have inside := whole.inside
  rw [putElem, length_putBytes (by rw [length_leBytes]; omega), full]

/-- The word a store puts at a place is what the place's bytes read as. -/
theorem fieldAt_putElem (full : line.length = 64) :
    fieldAt (putElem ty a lane line) (a.1 % 64) (laneBytes ty) = elemWord ty a lane line % 256 ^ laneBytes ty := by
  have put := fieldAt_putBytes_same (l := line) (o := a.1 % 64) (bs := leBytes (laneBytes ty) (elemWord ty a lane line)) (by omega)
  rw [length_leBytes, leNat_leBytes] at put
  exact put

theorem elemAt_putElem_same (full : line.length = 64) (whole : WholePlace ty a) (small : lane < 256 ^ laneBytes ty) :
    elemAt ty a (putElem ty a lane line) = elemCode ty lane := by
  have put := fieldAt_putElem (ty := ty) (a := a) (lane := lane) full
  by_cases nibble : ty = 9
  · have byte := fieldAt_lt line (a.1 % 64) 1
    have cases4 : a.2 = 0 ∨ a.2 = 4 := by
      obtain ⟨-, zero | ⟨-, four⟩⟩ := whole
      · exact .inl zero
      · exact .inr four
    rw [laneBytes_nibble nibble] at put
    rw [elemAt, if_pos nibble, put, elemCode, if_pos nibble, elemWord, if_pos nibble, Nat.shiftRight_eq_div_pow]
    dsimp only
    rcases cases4 with zero | four
    · rw [zero, if_pos rfl]
      omega
    · rw [four, if_neg (by decide)]
      omega
  · rw [elemAt, if_neg nibble, put, elemCode, if_neg nibble, elemWord, if_neg nibble, Nat.mod_eq_of_lt small]

theorem elemAt_putElem_other (full : line.length = 64) (here : WholePlace ty a) (there : WholePlace ty b) (sameLine : a.1 / 64 = b.1 / 64)
    (different : a ≠ b) : elemAt ty b (putElem ty a lane line) = elemAt ty b line := by
  have inside := here.inside
  rcases here.apart there sameLine different with apart | ⟨nibble, byte, nibbles⟩
  · have disjoint : ∀ k, b.1 % 64 ≤ k → k < b.1 % 64 + laneBytes ty → (putElem ty a lane line)[k]? = (line)[k]? := fun k above below =>
      getElem?_putBytes_outside (by rw [length_leBytes]; omega) (by rw [length_leBytes]; omega)
    exact elemAt_congr disjoint
  · have put := fieldAt_putElem (ty := ty) (a := a) (lane := lane) full
    have small := fieldAt_lt line (a.1 % 64) 1
    rw [laneBytes_nibble nibble] at put
    rw [elemAt, elemAt, if_pos nibble, if_pos nibble, ← byte, put, elemWord, if_pos nibble, Nat.shiftRight_eq_div_pow, Nat.shiftRight_eq_div_pow]
    dsimp only
    rcases nibbles with ⟨zero, four⟩ | ⟨four, zero⟩
    · rw [zero, four, if_pos rfl]
      omega
    · rw [zero, four, if_neg (by decide)]
      omega

end

/-! ### The elements an access stores in one line -/

/-- A line and its byte mask with the lanes of some elements stored. -/
def editLine (ty : Nat) (place : Nat → Nat × Nat) (lane : Nat → Nat) (l : List Nat) (line : List Byte × Nat) : List Byte × Nat :=
  l.foldl (fun acc i => (putElem ty (place i) (lane i) acc.1, acc.2 ||| (lineMask ((place i).1 % 64) (laneBytes ty)).toNat)) line

section
variable {ty n i : Nat} {place : Nat → Nat × Nat} {lane : Nat → Nat} {l : List Nat} {line : List Byte × Nat}

theorem length_editLine (full : line.1.length = 64) (whole : ∀ i ∈ l, WholePlace ty (place i)) :
    (editLine ty place lane l line).1.length = 64 := by
  induction l generalizing line with
  | nil => exact full
  | cons j l ih =>
    obtain ⟨here, rest⟩ := List.forall_mem_cons.mp whole
    exact ih (length_putElem full here) rest

/-- An element at a place where none is stored reads as before. -/
theorem elemAt_editLine_other {a : Nat × Nat} (full : line.1.length = 64) (whole : ∀ i ∈ l, WholePlace ty (place i)) (there : WholePlace ty a)
    (sameLine : ∀ i ∈ l, (place i).1 / 64 = a.1 / 64) (different : ∀ i ∈ l, place i ≠ a) :
    elemAt ty a (editLine ty place lane l line).1 = elemAt ty a line.1 := by
  induction l generalizing line with
  | nil => rfl
  | cons j l ih =>
    rw [List.forall_mem_cons] at whole sameLine different
    exact (ih (length_putElem full whole.1) whole.2 sameLine.2 different.2).trans
      (elemAt_putElem_other full whole.1 there sameLine.1 different.1)

/-- Each element stored reads as its lane. -/
theorem elemAt_editLine (full : line.1.length = 64) (whole : ∀ i ∈ l, WholePlace ty (place i)) (oneLine : ∀ i ∈ l, (place i).1 / 64 = n)
    (once : l.Nodup) (apart : ∀ i ∈ l, ∀ j ∈ l, place i = place j → i = j) (small : ∀ i, lane i < 256 ^ laneBytes ty) (stored : i ∈ l) :
    elemAt ty (place i) (editLine ty place lane l line).1 = elemCode ty (lane i) := by
  induction l generalizing line with
  | nil => cases stored
  | cons j l ih =>
    rw [List.nodup_cons] at once
    have wholeHere := whole j List.mem_cons_self
    have wholeRest : ∀ i ∈ l, WholePlace ty (place i) := fun i inside => whole i (List.mem_cons_of_mem _ inside)
    have lineHere := oneLine j List.mem_cons_self
    have lineRest : ∀ i ∈ l, (place i).1 / 64 = n := fun i inside => oneLine i (List.mem_cons_of_mem _ inside)
    have full' := length_putElem (lane := lane j) full wholeHere
    rcases List.mem_cons.mp stored with rfl | later
    · have others : ∀ k ∈ l, place k ≠ place i := fun k inside same =>
        once.1 (apart k (List.mem_cons_of_mem _ inside) i List.mem_cons_self same ▸ inside)
      exact (elemAt_editLine_other full' wholeRest wholeHere (fun k inside => (lineRest k inside).trans lineHere.symm) others).trans
        (elemAt_putElem_same full wholeHere (small i))
    · exact ih full' wholeRest lineRest once.2
        (fun i inside j within => apart i (List.mem_cons_of_mem _ inside) j (List.mem_cons_of_mem _ within)) later

theorem testBit_editLine_of_line {k : Nat} (set : line.2.testBit k = true) : (editLine ty place lane l line).2.testBit k = true := by
  induction l generalizing line with
  | nil => exact set
  | cons j l ih => exact ih (by simp [set])

/-- The mask names the bytes of each element stored. -/
theorem testBit_editLine {k : Nat} (whole : ∀ i ∈ l, WholePlace ty (place i)) (stored : i ∈ l) (from_ : (place i).1 % 64 ≤ k)
    (below : k < (place i).1 % 64 + laneBytes ty) : (editLine ty place lane l line).2.testBit k = true := by
  induction l generalizing line with
  | nil => cases stored
  | cons j l ih =>
    rw [List.forall_mem_cons] at whole
    rcases List.mem_cons.mp stored with rfl | later
    · have named : (lineMask ((place i).1 % 64) (laneBytes ty)).getLsbD k = true := by
        rw [getLsbD_lineMask whole.1.inside]
        simp [from_, below]
      have set : (line.2 ||| (lineMask ((place i).1 % 64) (laneBytes ty)).toNat).testBit k = true := by
        rw [Nat.testBit_or, BitVec.testBit_toNat, named, Bool.or_true]
      exact testBit_editLine_of_line (line := (putElem ty (place i) (lane i) line.1, _)) set
    · exact ih whole.2 later

end

/-! ### Where the elements of an access lie -/

section
variable {ty i j : Nat} {c : ChurnDesc} {img : Image} {a : ChurnMem}

theorem elemPlace_whole (valid : churnDescValid ty c = true) (i : Nat) : WholePlace ty (elemPlace ty c i) := by
  simp only [churnDescValid, Bool.and_eq_true, Bool.or_eq_true, decide_eq_true_eq] at valid
  obtain ⟨⟨-, aligned⟩, -⟩ := valid
  unfold elemPlace
  by_cases nibble : ty = 9
  · rw [if_pos nibble]
    refine ⟨by rw [laneBytes_nibble nibble]; exact Nat.mod_one _, ?_⟩
    dsimp only
    omega
  · rw [if_neg nibble]
    refine ⟨?_, .inl rfl⟩
    have byte := aligned.resolve_left nibble
    dsimp only
    generalize (i : Int) * c.estride = z
    obtain one | two | four := laneBytes_cases ty
    · rw [one]
      exact Nat.mod_one _
    · rw [two] at byte ⊢
      omega
    · rw [four] at byte ⊢
      omega

/-- The offset of an element in elements lies between the first and the last. -/
theorem elemOffset_bounds (inside : i < c.count) :
    min 0 ((c.count - 1 : Nat) * c.estride) ≤ i * c.estride ∧ i * c.estride ≤ max 0 ((c.count - 1 : Nat) * c.estride) := by
  have low : (0 : Int) ≤ i := by omega
  have high : (i : Int) ≤ (c.count - 1 : Nat) := by omega
  rcases le_total 0 c.estride with up | down
  · have first := Int.mul_nonneg low up
    have last := Int.mul_le_mul_of_nonneg_right high up
    omega
  · have first := Int.mul_nonpos_of_nonneg_of_nonpos low down
    have last := Int.mul_le_mul_of_nonpos_right high down
    omega

/-- Two elements of an access that does not stand still lie apart. -/
theorem elemPlace_injective (region : 0 ≤ (churnSpan ty c).1) (moves : c.estride ≠ 0) (first : i < c.count) (second : j < c.count)
    (same : elemPlace ty c i = elemPlace ty c j) : i = j := by
  obtain ⟨lowI, -⟩ := elemOffset_bounds first
  obtain ⟨lowJ, -⟩ := elemOffset_bounds second
  have offsets : (i : Int) * c.estride = j * c.estride := by
    unfold elemPlace at same
    unfold churnSpan at region
    generalize (i : Int) * c.estride = y at *
    generalize (j : Int) * c.estride = z at *
    dsimp only at region
    generalize min 0 ((c.count - 1 : Nat) * c.estride) = lo at *
    by_cases nibble : ty = 9
    · rw [if_pos nibble] at same region
      rw [if_pos nibble] at same
      injection same with byte half
      omega
    · rw [if_neg nibble] at same region
      rw [if_neg nibble] at same
      injection same with byte
      obtain one | two | four := laneBytes_cases ty
      · rw [one] at byte region
        omega
      · rw [two] at byte region
        omega
      · rw [four] at byte region
        omega
  exact Int.ofNat_inj.mp (mul_right_cancel₀ moves offsets)

theorem churnMemValid_parts (valid : churnMemValid img a = true) :
    churnDescValid a.ty.toNat (churnDesc img a.desc.toNat) = true ∧ 0 ≤ (churnSpan a.ty.toNat (churnDesc img a.desc.toNat)).1 := by
  simp only [churnMemValid, inRegion, Bool.and_eq_true, decide_eq_true_eq] at valid
  obtain ⟨⟨-, desc⟩, ⟨⟨-, low⟩, -⟩⟩ := valid
  exact ⟨desc, by omega⟩

end

end Sys2Proof.Machine

/-! PROOFS. LDV and STV (O22). -/

namespace Sys2Proof.Machine

/-! ### The lines an access stores -/

/-- The bytes a store's elements of one line are put into: a line of the pan that reads as written, or zeros (R97). -/
def lineBefore (p : PanEnt) (l : Nat) (x : DieSt) : List Byte :=
  if p.persistent || x.written.contains (p.base + l) then panLineNow x p l else zeros 64

/-- The elements of an access that lie in one line. -/
def elemsOfLine (place : Nat → Nat × Nat) (act : List Nat) (l : Nat) : List Nat := act.filter fun i => (place i).1 / 64 = l

/-- A store of the elements of an access that lie in one line. -/
def storeLine (ty : Nat) (place : Nat → Nat × Nat) (lane : Nat → Nat) (p : PanEnt) (act : List Nat) (x : DieSt) (l : Nat) : Act DieSt :=
  let edited := editLine ty place lane (elemsOfLine place act l) (lineBefore p l x, 0)
  writePanLine p l (BitVec.ofNat 64 edited.2) edited.1 x

section
variable {ty : Nat} {place : Nat → Nat × Nat} {lane : Nat → Nat} {p : PanEnt} {act ls : List Nat} {x : DieSt} {l : Nat}

theorem length_lineBefore : (lineBefore p l x).length = 64 := by
  unfold lineBefore
  split
  · exact length_panLineNow ..
  · exact List.length_replicate

/-- A store of a line with room in the log: its elements read as their lanes, no other line changes. -/
theorem storeLine_done (whole : ∀ i, WholePlace ty (place i)) (apart : ∀ i ∈ act, ∀ j ∈ act, place i = place j → i = j) (once : act.Nodup)
    (small : ∀ i, lane i < 256 ^ laneBytes ty) (room : p.persistent = false ∨ logCount x < maxLogEntries) :
    ∃ y, storeLine ty place lane p act x l = .ok y ∧ panView y = panView x ∧ (p.persistent = true → logCount y ≤ logCount x + 1) ∧
      (∀ i ∈ act, (place i).1 / 64 = l → elemAt ty (place i) (panLineNow y p l) = elemCode ty (lane i)) ∧
      ∀ m, m ≠ l → panLineNow y p m = panLineNow x p m := by
  have ofLine {i : Nat} (inside : i ∈ elemsOfLine place act l) : i ∈ act ∧ (place i).1 / 64 = l := by simpa [elemsOfLine] using inside
  have full := length_editLine (lane := lane) (l := elemsOfLine place act l) (line := (lineBefore p l x, 0)) length_lineBefore
    fun i _ => whole i
  obtain ⟨y, done, logged, bytes, others⟩ := writePanLine_done (p := p) (l := l)
    (mask := BitVec.ofNat 64 (editLine ty place lane (elemsOfLine place act l) (lineBefore p l x, 0)).2) full room
  refine ⟨y, done, writePanLine_view done, logged, fun i active here => ?_, others⟩
  have stored : i ∈ elemsOfLine place act l := by simp [elemsOfLine, active, here]
  have given := elemAt_editLine (line := (lineBefore p l x, 0)) length_lineBefore (fun i _ => whole i) (fun i inside => (ofLine inside).2)
    (once.filter _) (fun i inside j within => apart i (ofLine inside).1 j (ofLine within).1) small stored
  refine (elemAt_congr fun k from_ below => bytes k ?_).trans given
  have inLine := (whole i).inside
  rw [BitVec.getLsbD_ofNat, testBit_editLine (fun i _ => whole i) stored from_ below, Bool.and_true]
  exact decide_eq_true (by omega)

/-- A store of lines with room in the log for each. -/
theorem storeLines_done (whole : ∀ i, WholePlace ty (place i)) (apart : ∀ i ∈ act, ∀ j ∈ act, place i = place j → i = j) (once : act.Nodup)
    (small : ∀ i, lane i < 256 ^ laneBytes ty) (lines : ls.Nodup) (room : p.persistent = false ∨ logCount x + ls.length ≤ maxLogEntries) :
    ∃ y, ls.foldlM (storeLine ty place lane p act) x = .ok y ∧ panView y = panView x ∧
      (∀ i ∈ act, (place i).1 / 64 ∈ ls → elemAt ty (place i) (panLineNow y p ((place i).1 / 64)) = elemCode ty (lane i)) ∧
      ∀ m, m ∉ ls → panLineNow y p m = panLineNow x p m := by
  induction ls generalizing x with
  | nil => exact ⟨x, rfl, rfl, nofun, fun _ _ => rfl⟩
  | cons l ls ih =>
    rw [List.nodup_cons] at lines
    rw [List.length_cons] at room
    have first : p.persistent = false ∨ logCount x < maxLogEntries := room.imp_right fun fits => by omega
    obtain ⟨y, done, view, logged, stored, others⟩ := storeLine_done (l := l) whole apart once small first
    have room' : p.persistent = false ∨ logCount y + ls.length ≤ maxLogEntries := by
      cases persistent : p.persistent with
      | false => exact .inl rfl
      | true =>
        have fits := room.resolve_left (by simp [persistent])
        have grew := logged persistent
        exact .inr (by omega)
    obtain ⟨z, rest, viewRest, storedRest, othersRest⟩ := ih lines.2 room'
    refine ⟨z, by rw [List.foldlM_cons, done]; exact rest, viewRest.trans view, fun i active inside => ?_, fun m outside => ?_⟩
    · rcases List.mem_cons.mp inside with here | later
      · rw [here, othersRest l lines.1]
        exact stored i active here
      · exact storedRest i active later
    · rw [List.mem_cons, not_or] at outside
      rw [othersRest m outside.2, others m outside.1]

end

/-! ### STV and LDV -/

/-- The lines in which the elements of an access lie. -/
def elemLines (place : Nat → Nat × Nat) (act : List Nat) : List Nat := (act.map fun i => (place i).1 / 64).eraseDups

section
variable {img : Image} {job : W64} {u : Nat} {a : ChurnMem} {x y : DieSt}

/-- The elements an STV writes: with ESTRIDE 0 only the last (R131). -/
def storedElems (c : ChurnDesc) (on : List Nat) : List Nat := if c.estride = 0 then on.drop (on.length - 1) else on

/-- The unit of an STV that has written its elements. -/
def stvCounted (ty : Nat) (c : ChurnDesc) (on : List Nat) (b : ChurnUnit) : ChurnUnit :=
  { b with lastOp := 2, opsIssued := bump b.opsIssued, elements := bump b.elements on.length,
           panWritten := bump b.panWritten (laneBytes ty * placeCount ty c (storedElems c on)) }

theorem stvAct_eq (local_ : (tokOf x a.token.toNat).lent = none) (settled : settle img job [a.token.toNat] x = .ok y) :
    stvAct img job u a x =
      let c := churnDesc img a.desc.toNat
      let ty := a.ty.toNat
      let on := memActives (churnOf y u) a c.count
      let act := storedElems c on
      let lane := fun i => fieldAt (vecBytes (churnOf y u) a.vr.toNat) (laneBytes ty * i) (laneBytes ty)
      ((elemLines (elemPlace ty c) act).foldlM (storeLine ty (elemPlace ty c) lane (panEnt img c.pan) act) y).bind fun z =>
        .ok (occupy (churnUnitKey u) (memOcc c) (updChurn u (stvCounted ty c on) z)) := by
  unfold stvAct
  simp only [tokenLocal_ok local_, settled, bind, Except.bind]
  rfl

theorem act_ok_bind {α β : Type} (a : α) (f : α → Act β) : ((Except.ok a : Act α) >>= f) = f a := rfl

theorem mapM_ok {α β : Type} {f : α → Act β} {g : α → β} {l : List α} (each_ : ∀ b ∈ l, f b = .ok (g b)) : l.mapM f = .ok (l.map g) := by
  induction l with
  | nil => rfl
  | cons b l ih =>
    rw [List.forall_mem_cons] at each_
    rw [List.mapM_cons, each_.1, ih each_.2]
    rfl

/-- What an LDV gives each lane: an active element, nothing, or zero above COUNT. -/
def ldvLane (ty : Nat) (c : ChurnDesc) (a : ChurnMem) (p : PanEnt) (b : ChurnUnit) (y : DieSt) (i : Nat) : Option Nat :=
  if i < c.count then
    if (memActives b a c.count).contains i then some (elemAt ty (elemPlace ty c i) (panLineNow y p ((elemPlace ty c i).1 / 64))) else none
  else if a.men && !(maskOf b a.msk.toNat).getLsbD i then none else some 0

/-- What an LDV gives the lanes of its register. -/
def ldvLanes (ty : Nat) (c : ChurnDesc) (a : ChurnMem) (p : PanEnt) (b : ChurnUnit) (y : DieSt) : List (Option Nat) :=
  (List.range (laneCount ty)).map (ldvLane ty c a p b y)

/-- The unit of an LDV that has read its elements. -/
def ldvLoaded (ty : Nat) (c : ChurnDesc) (a : ChurnMem) (b : ChurnUnit) (vals : List (Option Nat)) : ChurnUnit :=
  let unit := putElems ty a.vr.toNat vals b
  { unit with lastOp := 1, opsIssued := bump unit.opsIssued, elements := bump unit.elements (memActives b a c.count).length,
              panRead := bump unit.panRead (laneBytes ty * placeCount ty c (memActives b a c.count)) }

theorem ldvAct_eq (local_ : (tokOf x a.token.toNat).lent = none) (settled : settle img job [a.token.toNat] x = .ok y)
    (readable : ∀ i ∈ memActives (churnOf y u) a (churnDesc img a.desc.toNat).count,
      (panEnt img (churnDesc img a.desc.toNat).pan).persistent = true ∨
        (panEnt img (churnDesc img a.desc.toNat).pan).base + (elemPlace a.ty.toNat (churnDesc img a.desc.toNat) i).1 / 64 ∈ y.written) :
    ldvAct img job u a x =
      let c := churnDesc img a.desc.toNat
      let ty := a.ty.toNat
      .ok (occupy (churnUnitKey u) (memOcc c) (updChurn u (fun _ =>
        ldvLoaded ty c a (churnOf y u) (ldvLanes ty c a (panEnt img c.pan) (churnOf y u) y)) y)) := by
  let c := churnDesc img a.desc.toNat
  let p := panEnt img c.pan
  let on := memActives (churnOf y u) a c.count
  let lines := elemLines (elemPlace a.ty.toNat c) on
  have lineOf {i : Nat} (active : i ∈ on) : (elemPlace a.ty.toNat c i).1 / 64 ∈ lines :=
    List.mem_eraseDups.mpr (List.mem_map.mpr ⟨i, active, rfl⟩)
  have reads : (lines.mapM fun l => (readPan y p a.token.toNat (64 * l) 64).bind fun b => .ok (l, b))
      = .ok (lines.map fun l => (l, panLineNow y p l)) := by
    refine mapM_ok fun l inside => ?_
    obtain ⟨i, active, rfl⟩ := List.mem_map.mp (List.mem_eraseDups.mp inside)
    rw [readPan_line (readable i active)]
    rfl
  let line := fun i => ((lines.map fun l => (l, panLineNow y p l)).lookup ((elemPlace a.ty.toNat c i).1 / 64)).getD []
  let elem := fun i =>
    let v := fieldAt (line i) ((elemPlace a.ty.toNat c i).1 % 64) (laneBytes a.ty.toNat)
    if a.ty.toNat = 9 then (v >>> (elemPlace a.ty.toNat c i).2) % 16 else v
  have elems_ {i : Nat} (active : i ∈ on) :
      elem i = elemAt a.ty.toNat (elemPlace a.ty.toNat c i) (panLineNow y p ((elemPlace a.ty.toNat c i).1 / 64)) := by
    have found : line i = panLineNow y p ((elemPlace a.ty.toNat c i).1 / 64) := by
      dsimp only [line]
      rw [lookup_map_self _ (lineOf active), Option.getD_some]
    rw [← found]
    exact (elemAt_eq ..).symm
  have lanes_ : (List.range (laneCount a.ty.toNat)).map (fun i =>
      if i < c.count then (if on.contains i then some (elem i) else none)
      else if a.men && !(maskOf (churnOf y u) a.msk.toNat).getLsbD i then none else some 0) = ldvLanes a.ty.toNat c a p (churnOf y u) y := by
    refine List.map_congr_left fun i _ => ?_
    unfold ldvLane
    by_cases active : i ∈ on
    · rw [elems_ active]
    · have none_ : on.contains i = false := by simp [active]
      rw [none_]
      rfl
  unfold ldvAct
  dsimp only
  rw [tokenLocal_ok local_, act_ok_bind, settled, act_ok_bind]
  refine (congrArg (· >>= _) reads).trans ?_
  rw [act_ok_bind]
  exact congrArg (fun vals => Except.ok (occupy (churnUnitKey u) (memOcc c) (updChurn u
    (fun _ => ldvLoaded a.ty.toNat c a (churnOf y u) vals) y))) lanes_

end

/-! ### What an access leaves of its unit and of the pan -/

section
variable {ty i : Nat} {c : ChurnDesc} {a : ChurnMem} {p : PanEnt} {b : ChurnUnit} {x y : DieSt} {img : Image}

theorem mem_memActives {n : Nat} (active : i ∈ memActives b a n) : i < n := by
  rw [memActives, List.mem_filter, List.mem_range] at active
  exact active.1

theorem ldvLoaded_lane (inside : i < laneCount ty) :
    ((lanes ty (vecBytes (ldvLoaded ty c a b (ldvLanes ty c a p b y)) a.vr.toNat))[i]?).getD 0 =
      if i < c.count then
        (if i ∈ memActives b a c.count then
          laneCode ty (elemAt ty (elemPlace ty c i) (panLineNow y p ((elemPlace ty c i).1 / 64))) % 2 ^ (8 * laneBytes ty)
        else ((lanes ty (vecBytes b a.vr.toNat))[i]?).getD 0)
      else if a.men = true ∧ (maskOf b a.msk.toNat).getLsbD i = false then ((lanes ty (vecBytes b a.vr.toNat))[i]?).getD 0 else 0 := by
  have given : ((ldvLanes ty c a p b y)[i]?).join = ldvLane ty c a p b y i := by
    rw [ldvLanes, List.getElem?_map, List.getElem?_range inside]
    rfl
  have lane := lane_putElems (r := a.vr.toNat) (c := b) (vals := ldvLanes ty c a p b y) (by simp [ldvLanes]) inside
  rw [given] at lane
  refine Eq.trans lane ?_
  unfold ldvLane
  by_cases counted : i < c.count
  · rw [if_pos counted, if_pos counted]
    by_cases active : i ∈ memActives b a c.count
    · rw [if_pos active, if_pos (List.contains_iff_mem.mpr active)]
    · rw [if_neg active, if_neg (List.contains_iff_mem.not.mpr active)]
  · rw [if_neg counted, if_neg counted]
    by_cases off : a.men = true ∧ (maskOf b a.msk.toNat).getLsbD i = false
    · rw [if_pos off, if_pos (by simp [off])]
    · rw [if_neg off, if_neg (by simpa using off)]
      have zero : laneCode ty 0 = 0 := by
        unfold laneCode
        split <;> rfl
      simp [zero]

theorem storedElems_subset {on : List Nat} (stored : i ∈ storedElems c on) : i ∈ on := by
  unfold storedElems at stored
  split at stored
  · exact List.mem_of_mem_drop stored
  · exact stored

theorem nodup_storedElems (n : Nat) : (storedElems c (memActives b a n)).Nodup := by
  have once : (memActives b a n).Nodup := List.nodup_range.filter _
  unfold storedElems
  split
  · exact once.sublist (List.drop_sublist ..)
  · exact once

theorem length_elemLines_stored (on : List Nat) : (elemLines (elemPlace ty c) (storedElems c on)).length ≤ on.length := by
  have lines := length_eraseDups_le ((storedElems c on).map fun i => (elemPlace ty c i).1 / 64)
  have fewer : (storedElems c on).length ≤ on.length := by
    unfold storedElems
    split
    · rw [List.length_drop]
      omega
    · exact le_rfl
  rw [List.length_map] at lines
  exact lines.trans fewer

/-- Two elements that a store writes lie apart: with ESTRIDE 0 it writes one. -/
theorem storedElems_apart {n : Nat} (region : 0 ≤ (churnSpan ty c).1) (all : n = c.count) :
    ∀ i ∈ storedElems c (memActives b a n), ∀ j ∈ storedElems c (memActives b a n), elemPlace ty c i = elemPlace ty c j → i = j := by
  intro i stored j stored' same
  by_cases still : c.estride = 0
  · have one : (storedElems c (memActives b a n)).length ≤ 1 := by
      rw [storedElems, if_pos still, List.length_drop]
      omega
    obtain ⟨m, within, rfl⟩ := List.getElem_of_mem stored
    obtain ⟨n, within', rfl⟩ := List.getElem_of_mem stored'
    congr 1
    omega
  · exact elemPlace_injective region still (all ▸ mem_memActives (storedElems_subset stored))
      (all ▸ mem_memActives (storedElems_subset stored')) same

/-- The stores of an STV with room in the log: each element written reads back. -/
theorem stvAct_done {job : W64} {u : Nat} (valid : churnMemValid img a = true) (local_ : (tokOf x a.token.toNat).lent = none)
    (settled : settle img job [a.token.toNat] x = .ok y) :
    let c := churnDesc img a.desc.toNat
    let ty := a.ty.toNat
    let p := panEnt img c.pan
    let on := memActives (churnOf y u) a c.count
    (p.persistent = false ∨ logCount y + on.length ≤ maxLogEntries) →
    ∃ z, stvAct img job u a x = .ok (occupy (churnUnitKey u) (memOcc c) (updChurn u (stvCounted ty c on) z)) ∧ panView z = panView y ∧
      ∀ i ∈ storedElems c on, elemAt ty (elemPlace ty c i) (panLineNow z p ((elemPlace ty c i).1 / 64)) =
        elemCode ty (((lanes ty (vecBytes (churnOf y u) a.vr.toNat))[i]?).getD 0) := by
  intro c ty p on room
  obtain ⟨desc, region⟩ := churnMemValid_parts valid
  let act := storedElems c on
  let lane := fun i => fieldAt (vecBytes (churnOf y u) a.vr.toNat) (laneBytes ty * i) (laneBytes ty)
  have fits : p.persistent = false ∨ logCount y + (elemLines (elemPlace ty c) act).length ≤ maxLogEntries := by
    have fewer := length_elemLines_stored (ty := ty) (c := c) on
    exact room.imp_right fun fits => (Nat.add_le_add_left fewer _).trans fits
  obtain ⟨z, done, view, stored, -⟩ := storeLines_done (lane := lane) (act := act) (ls := elemLines (elemPlace ty c) act) (elemPlace_whole desc) (storedElems_apart region rfl) (nodup_storedElems _)
    (fun i => fieldAt_lt ..) (nodup_eraseDups _) fits
  refine ⟨z, ?_, view, fun i active => ?_⟩
  · exact (stvAct_eq local_ settled).trans (congrArg (fun r => Except.bind r fun z =>
      Except.ok (occupy (churnUnitKey u) (memOcc c) (updChurn u (stvCounted ty c on) z))) done)
  · have counted : i < c.count := mem_memActives (storedElems_subset active)
    have lanes_ : c.count ≤ laneCount ty := by
      simp only [churnDescValid, Bool.and_eq_true, decide_eq_true_eq] at desc
      exact desc.2
    rw [lane_eq _ (counted.trans_le lanes_)]
    exact stored i active (List.mem_eraseDups.mpr (List.mem_map.mpr ⟨i, active, rfl⟩))

end

/-! ### The rows -/

section
variable {s : State} {d : Die} {u : BitVec 2} {a : ChurnMem} {img : Image} {x : DieSt}

theorem churnOf_occupy (key n : Nat) (x : DieSt) (u : Nat) : churnOf (occupy key n x) u = churnOf x u := rfl

theorem churnOf_updChurn_same (u : Nat) (f : ChurnUnit → ChurnUnit) (x : DieSt) : churnOf (updChurn u f x) u = f (churnOf x u) :=
  SMap.get_upd_same ({} : ChurnUnit) x.churn u f

theorem churnOf_updChurn_other {u v : Nat} (f : ChurnUnit → ChurnUnit) (x : DieSt) (other : v ≠ u) : churnOf (updChurn u f x) v = churnOf x v :=
  SMap.get_upd_other ({} : ChurnUnit) x.churn f other

/-- A memory row whose slot is valid acts at once when nothing waits. -/
theorem churnMemRow_acts {act : UnitAct} {t : State} (image : (dieOf s d).image = some img) (runs : running s d = true)
    (named : unitNamed img u.toNat = true) (valid : churnMemValid img a = true) (free : (dieOf s d).deferred = [])
    (starts : memStart d img act s = some t) : churnMemRow act d u a s = t := by
  simp only [churnMemRow, image, runs, named, valid, Bool.and_self, if_true]
  exact issueAct_starts free starts

theorem ldv_next (image : (dieOf s d).image = some img) (runs : running s d = true) (named : unitNamed img u.toNat = true)
    (valid : churnMemValid img a = true) (free : (dieOf s d).deferred = []) (acts : ldvAct img (jobWord s d) u.toNat a (dieOf s d) = .ok x) :
    exec (.ldv d u a) s = .next (setDie s d x) := by
  refine command_eq_next (f := churnMemRow (.ldv u.toNat a) d u a) (churnMemRow_acts (s := { s with pending := [] }) image runs named valid free ?_) rfl
  have acts' : ldvAct img (jobWord { s with pending := [] } d) u.toNat a (dieOf { s with pending := [] } d) = .ok x := acts
  simp only [memStart, acts']
  rfl

theorem stv_next (image : (dieOf s d).image = some img) (runs : running s d = true) (named : unitNamed img u.toNat = true)
    (valid : churnMemValid img a = true) (free : (dieOf s d).deferred = []) (acts : stvAct img (jobWord s d) u.toNat a (dieOf s d) = .ok x) :
    exec (.stv d u a) s = .next (setDie s d x) := by
  refine command_eq_next (f := churnMemRow (.stv u.toNat a) d u a) (churnMemRow_acts (s := { s with pending := [] }) image runs named valid free ?_) rfl
  have acts' : stvAct img (jobWord { s with pending := [] } d) u.toNat a (dieOf { s with pending := [] } d) = .ok x := acts
  simp only [memStart, acts']
  rfl

end

/-- Settles O22, by `ldvLoaded_lane` and `stvAct_done`. -/
theorem churnPanAccesses : Obligations.ChurnPanAccesses := by
  refine ⟨fun d u s => rfl, ?_⟩
  intro d u a s img y image runs named valid free local_ settled c ty pan b on steps elem
  have occupies : memOcc c = steps := by simp [memOcc, steps]
  refine ⟨fun readable => ?_, fun room => ?_⟩
  · let loaded := ldvLoaded ty c a b (ldvLanes ty c a pan b y)
    let x := occupy (churnUnitKey u.toNat) (memOcc c) (updChurn u.toNat (fun _ => loaded) y)
    have next := ldv_next image runs named valid free (ldvAct_eq local_ settled readable)
    have unit : churnOf x u.toNat = loaded := (churnOf_occupy ..).trans (churnOf_updChurn_same ..)
    have die : dieOf (setDie s d x) d = x := dieOf_setDie_same ..
    refine ⟨setDie s d x, next, rfl, fun e other => dieOf_setDie_other _ _ other, ?_, fun v other => ?_, fun r small other => ?_,
      fun i inside => ?_, ?_⟩
    · rw [die, ← occupies]
      rfl
    · rw [die]
      exact (churnOf_occupy ..).trans (churnOf_updChurn_other _ _ other)
    · rw [die, unit]
      exact vecBytes_putElems_other other
    · rw [laneOf, die, unit]
      exact ldvLoaded_lane inside
    · rw [die, unit]
      rfl
  · obtain ⟨z, acts, view, stored⟩ := stvAct_done valid local_ settled room
    let x := occupy (churnUnitKey u.toNat) (memOcc c) (updChurn u.toNat (stvCounted ty c on) z)
    have next := stv_next image runs named valid free acts
    have churn (v : Nat) : churnOf z v = churnOf y v := by
      have through := congrArg (fun x => churnOf x v) view
      exact through
    have unit : churnOf x u.toNat = stvCounted ty c on b :=
      ((churnOf_occupy ..).trans (churnOf_updChurn_same ..)).trans (by rw [churn])
    have die : dieOf (setDie s d x) d = x := dieOf_setDie_same ..
    refine ⟨setDie s d x, next, rfl, fun e other => dieOf_setDie_other _ _ other, fun i active => ?_, fun v r small => ?_, ?_, ?_⟩
    · rw [die]
      exact stored i active
    · rw [die]
      by_cases here : v = u.toNat
      · rw [here, unit]
        rfl
      · rw [← churn v]
        exact congrArg (vecBytes · r) ((churnOf_occupy ..).trans (churnOf_updChurn_other _ _ here))
    · rw [die, unit]
      rfl
    · rw [die, unit]
      rfl

end Sys2Proof.Machine
